-- ==== Sys2Proof/Syntax.lean ====
section
/-!
DEFINITION. Syntax.lean: the commands of the Lulavia Z9 module, one constructor of `Instr` per row of spec/opcode_table.json,
and the types of their operands.

A row of an opcode of R437 carries the packet's header (`Hdr`) and its parameters as typed fields of the widths the spec gives;
it stands for the whole step in which the dispatched command runs. Every other row is an event at the module's boundary
(a register write, a received flit, a pin, an elapsed time) or a step of one of the module's own engines, with what the
module cannot know by itself (a message's fields, a measured value) as its operands.
-/
namespace Sys2Proof

/-- A byte of data. -/
abbrev Byte := BitVec 8

/-- The header of a packet as the rows carry it (R415), with the ring it was read from and its number in that ring (R435). -/
structure Hdr where
  ring       : Fin 64
  seq        : BitVec 48
  tag        : BitVec 32
  order      : Bool
  close      : Bool
  interrupt  : Bool
  bound      : Bool
  clause     : Fin 16
  nbValid    : Bool
  notBefore  : BitVec 48
deriving DecidableEq, Repr

/-- One SET_CONFIG item (R434). -/
structure ConfigItem where
  item  : BitVec 16
  value : BitVec 64
deriving DecidableEq, Repr

/-- One FENCE entry (R435): wait for every command of `ring` numbered below `seq`. -/
structure FenceEntry where
  seq  : BitVec 48
  ring : Fin 64
deriving DecidableEq, Repr

/-- One Clause entry of a plan (R34). `kind` keeps the byte as written: reserved values are refused by PERIOD_PLAN. -/
structure ClauseEntry where
  startUs    : BitVec 32
  deadlineUs : BitVec 32
  kind       : BitVec 8
  flags      : BitVec 8
  every      : BitVec 16
  phase      : BitVec 16
deriving DecidableEq, Repr

/-- PERIOD_PLAN's parameters (R58); COUNT is the length of `clauses`. -/
structure Plan where
  periodUs   : BitVec 32
  generation : BitVec 8
  clauses    : List ClauseEntry
deriving DecidableEq, Repr

/-- PERIOD_ARM's parameters (R60). -/
structure ArmParams where
  firstPeriod : BitVec 48
  startTime   : BitVec 64
  cursor      : BitVec 64
  seed        : BitVec 64
  retry       : Bool
  replay      : Bool
deriving DecidableEq, Repr

/-- One relocation of RUN_PROGRAM (R110): the descriptor's new BASE. -/
structure Reloc where
  tensor : BitVec 8
  base   : BitVec 64
deriving DecidableEq, Repr

/-- RUN_PROGRAM's parameters (R110); RELOC_COUNT is the length of `relocs`. -/
structure RunParams where
  image        : BitVec 64
  imageLen     : BitVec 32
  stats        : BitVec 64
  clusterFirst : BitVec 16
  clusterCount : BitVec 16
  relocs       : List Reloc
deriving DecidableEq, Repr

/-- The side of a Gram-tap site (R172). -/
inductive GramSide where
  | activation
  | gradient
deriving DecidableEq, Repr

/-- SET_GRAM_TAP DEFINE's parameters (R187). -/
structure GramDef where
  attach     : Bool
  side       : GramSide
  site       : BitVec 12
  widthLog2  : BitVec 4
  subsample  : BitVec 16
  base       : BitVec 48
  dim        : BitVec 32
  blockFirst : BitVec 32
  blockCount : BitVec 32
deriving DecidableEq, Repr

/-- CONFORMANCE_RUN's parameters (R106). -/
structure ConformanceParams where
  image     : BitVec 64
  imageLen  : BitVec 64
  result    : BitVec 64
  resultLen : BitVec 32
  families  : BitVec 6
  cluster   : BitVec 16
deriving DecidableEq, Repr

/-- UPDATE PREPARE's parameters (R273). -/
structure PrepareParams where
  scratch      : BitVec 48
  scratchLen   : BitVec 64
  clusterFirst : BitVec 16
  clusterCount : BitVec 16
deriving DecidableEq, Repr

/-- DMA_COPY's parameters (R290). -/
structure CopyParams where
  src        : BitVec 48
  dst        : BitVec 48
  length     : BitVec 64
  digest     : Bool
  digestAddr : BitVec 48
deriving DecidableEq, Repr

/-- The element width of FILL (R290). -/
inductive FillWidth where
  | one | two | four | eight
deriving DecidableEq, Repr

/-- The source of LOAD_SHARD (R302). -/
inductive ShardSource where
  | memory (src : BitVec 48)
  | stream (id : BitVec 32)
deriving DecidableEq, Repr

/-- LOAD_SHARD's parameters (R302). -/
structure LoadParams where
  source   : ShardSource
  dst      : BitVec 48
  length   : BitVec 64
  manifest : BitVec 48
deriving DecidableEq, Repr

/-- The target of VERIFY_SHARD (R302). -/
inductive VerifyTarget where
  | present
  | future
  | region (address : BitVec 48) (length : BitVec 64) (manifest : BitVec 48)
deriving DecidableEq, Repr

/-- The reduction of a collective (R345 OP); 3 is reserved and refused. -/
abbrev RedOp := BitVec 2

/-- COLLECTIVE's parameters (R345); SUBOP is the row. -/
structure CollParams where
  ordered   : Bool
  noise     : Bool
  axes      : BitVec 3
  inFmt     : BitVec 4
  accFmt    : BitVec 4
  outFmt    : BitVec 4
  round     : BitVec 3
  op        : RedOp
  splitX    : BitVec 4
  splitY    : BitVec 4
  splitZ    : BitVec 4
  tensorId  : BitVec 16
  matchId   : BitVec 32
  postScale : BitVec 32
  src       : BitVec 48
  dst       : BitVec 48
  count     : BitVec 64
  peer      : BitVec 24
  step      : BitVec 8
  streamId  : BitVec 32
deriving DecidableEq, Repr

/-- SET_POSITION's parameters (R337). -/
structure PositionParams where
  phys    : BitVec 24
  pdim    : BitVec 24
  logical : BitVec 24
  spare   : Bool
  ldim    : BitVec 24
deriving DecidableEq, Repr

/-- The parameters of every RESHARD sub-operation (R364). -/
structure ReshardParams where
  plan       : BitVec 48
  ledger     : BitVec 48
  landing    : BitVec 48
  landingLen : BitVec 64
deriving DecidableEq, Repr

/-- The parameters of SHADOW_SYNC REPLAY and RECOVER (R383). -/
structure ReplayParams where
  scratch      : BitVec 48
  scratchLen   : BitVec 64
  clusterFirst : BitVec 16
  clusterCount : BitVec 16
deriving DecidableEq, Repr

/-- RESET_BLOCK's target kind (R481); the reach must match it. -/
inductive BlockKind where
  | module | quarter | hub | cluster | port | conjugator | hbm | commandProcessor
deriving DecidableEq, Repr

/-- The reach of a reset that software can select (R481). -/
inductive Reach where
  | m | d | b
deriving DecidableEq, Repr

/-- The link-local part of a flit header that every received flit carries (R313), with the symbols that the lanes' FEC has corrected since the
last IDLE flit, by lane (R339). -/
structure FlitHdr where
  seq       : BitVec 15
  ack       : BitVec 15
  cr        : BitVec 4
  credits   : BitVec 4
  corrected : List (Fin 16 × BitVec 16)
deriving DecidableEq, Repr

/-- TIME's payload (R335). CORRECTION counts 1/16 ns. -/
structure TimePayload where
  masterId   : BitVec 64
  origin     : BitVec 64
  correction : BitVec 64
  hops       : BitVec 8
  sequence   : BitVec 32
deriving DecidableEq, Repr

/-- TICK's payload (R336). -/
structure TickPayload where
  period     : BitVec 48
  start      : BitVec 64
  generation : BitVec 8
  retry      : Bool
  replay     : Bool
  barrier    : Bool
deriving DecidableEq, Repr

/-- HALT's payload (R336). -/
structure HaltPayload where
  period : BitVec 48
  origin : BitVec 24
  code   : BitVec 16
deriving DecidableEq, Repr

/-- REDUCE's payload: R336, with the noise sums of R357 and the round number of R363. -/
structure ReducePayload where
  period   : BitVec 48
  kind     : BitVec 8
  round    : BitVec 16
  sLocal   : BitVec 640
  sRed     : BitVec 640
  nan      : Bool
  overflow : Bool
  empty    : Bool
deriving DecidableEq, Repr

/-- GRANT's payload: R336, with the rounded noise totals of R357 and the round number of R363. -/
structure GrantPayload where
  period   : BitVec 48
  kind     : BitVec 8
  round    : BitVec 16
  sLocal   : BitVec 64
  sRed     : BitVec 64
  nan      : Bool
  overflow : Bool
  empty    : Bool
deriving DecidableEq, Repr

/-- DISCOVER's payload, which IDENT_RSP carries too (R331, R333). -/
structure DiscoverPayload where
  unitId       : BitVec 64
  boardId      : BitVec 64
  feedTag      : BitVec 6
  slotId       : BitVec 8
  port         : Fin 8
  parent       : Bool
  spare        : Bool
  phys         : BitVec 24
  physValid    : Bool
  logical      : BitVec 24
  logicalValid : Bool
  numRev       : BitVec 16
deriving DecidableEq, Repr

/-- The header of a COLLECTIVE message (R355). -/
structure CollHdr where
  matchId : BitVec 32
  subop   : BitVec 8
  ready   : Bool
  dir     : Bool
  axis    : BitVec 2
  pdigest : BitVec 16
  offset  : BitVec 48
deriving DecidableEq, Repr

/-- The header of a SHADOW message (R386). -/
structure ShadowHdr where
  kind      : BitVec 8
  packed    : Bool
  item      : BitVec 16
  periodTag : BitVec 16
  part      : BitVec 8
  offset    : BitVec 48
deriving DecidableEq, Repr

/-- The header of a P2P message (R315). -/
structure P2pHdr where
  streamId : BitVec 32
  offset   : BitVec 48
deriving DecidableEq, Repr

/-- The header of a routed message (R313): its DEST, its SRC, and the sub-channel it travels on, 2 × VC + DL. -/
structure Route where
  dest : BitVec 24
  src  : BitVec 24
  sub  : BitVec 3
deriving DecidableEq, Repr

/-- What the patrol scrub found in one line (R285). -/
structure ScrubFinding where
  line          : BitVec 48
  uncorrectable : Bool
deriving DecidableEq, Repr

/-- The fuse array as one load reads it (R476, R478, R486). `crcOk` says whether the words read matched the CRC word. -/
structure FuseImage where
  crcOk        : Bool
  lidBroken    : Bool
  unitId       : BitVec 64
  retired      : BitVec 264
  svnBits      : BitVec 64
  revoke       : BitVec 3
  fwKeyHash    : BitVec 384
  debugKeyHash : BitVec 384
deriving DecidableEq, Repr

/-- One firmware slot of boot flash (R489): its header fields and its body. -/
structure FlashSlot where
  format    : BitVec 16
  svn       : BitVec 32
  length    : BitVec 64
  digest    : BitVec 384
  sigR      : BitVec 384
  sigS      : BitVec 384
  keyX      : BitVec 384
  keyY      : BitVec 384
  body      : List (BitVec 8)
deriving DecidableEq, Repr

/-- A reset domain (R468). -/
inductive Domain where
  | frame
  | hub
  | quarter (q : Fin 4)
  | commandProcessor
  | conjugator
  | port (p : Fin 8)
  | hbm (s : Fin 16)
  | cluster (c : Fin 264)
deriving DecidableEq, Repr

/-- An operation on the JTAG pins (R543, R500). -/
inductive JtagOp where
  | bypass
  | idcode
  | samplePreload
  | extest
  | observe (address : BitVec 24)
  | halt
  | memoryRead (address : BitVec 48)
  | memoryWrite (address : BitVec 48) (value : BitVec 8)
  | resetAssert (d : Domain)
  | resetAssertModule
  | resetRelease
deriving DecidableEq, Repr

/-- An MCTP control message (R516). -/
inductive MctpControl where
  | setEndpointId (eid : BitVec 8)
  | getEndpointId
  | other (command : BitVec 8)
deriving DecidableEq, Repr

/-- A PLDM request (R517). -/
inductive PldmReq where
  | getTid
  | getPldmTypes
  | getPdrRepositoryInfo
  | getPdr (record : BitVec 32)
  | getSensorReading (sensor : BitVec 16)
  | getStateSensorReadings (sensor : BitVec 16)
  | setEventReceiver (eid : BitVec 8)
  | platformEventMessage
  | pollForEvents (acknowledge : Bool)
  | unsupported (type command : BitVec 8)
deriving DecidableEq, Repr

/-- An SPDM request (R492): the supported codes with the operands that the response depends on. -/
inductive SpdmReq where
  | getVersion
  | getCapabilities
  | negotiateAlgorithms
  | getDigests
  | getCertificate (slot : BitVec 8) (offset length : BitVec 16)
  | challenge (slot : BitVec 8) (nonce : BitVec 256)
  | getMeasurements (operation : BitVec 8)
  | other (code : BitVec 8)
deriving DecidableEq, Repr

/-- Where a message of Orrex Link came in: the port, and the 96-bit header of the flit that its header slot lies in (R444). -/
structure OxlIn where
  port : Fin 2
  flit : BitVec 96
deriving DecidableEq, Repr

/-- The commands of the module: one constructor per row of the opcode table (LAWS.json gives each its mnemonic). -/
inductive Instr where
  -- System commands (chapter 14)
  | nop (h : Hdr)
  | query (h : Hdr) (dest : BitVec 48)
  | setConfig (h : Hdr) (items : List ConfigItem)
  | fence (h : Hdr) (entries : List FenceEntry)
  | eventAck (h : Hdr) (ack : BitVec 48)
  -- Parse tables and solver jobs (chapter 08)
  | loadParseLoad (h : Hdr) (id : BitVec 12) (address : BitVec 48) (length : BitVec 32)
  | loadParseUnload (h : Hdr) (id : BitVec 12)
  | solve (h : Hdr) (entry : BitVec 16) (parse : BitVec 12)
  | rootTableSetup (h : Hdr) (attach : Bool) (count : BitVec 32) (address : BitVec 48)
  | rootTableWrite (h : Hdr) (keep : Bool) (entry : BitVec 16) (count : BitVec 32) (address : BitVec 48)
  | rootTableRead (h : Hdr) (entry : BitVec 16) (count : BitVec 32) (address : BitVec 48)
  | rootTableInvalidate (h : Hdr) (entry : BitVec 16) (count : BitVec 32)
  -- The update unit (chapter 09)
  | updatePrepare (h : Hdr) (p : PrepareParams)
  | updateApply (h : Hdr) (lrScale : BitVec 32)
  | updateRecover (h : Hdr)
  | setRuleRule (h : Hdr) (id : BitVec 8) (record : BitVec 512)
  | setRuleTable (h : Hdr) (attach : Bool) (count : BitVec 32) (address ledger : BitVec 48)
  | setRuleRead (h : Hdr) (id : BitVec 8) (count : BitVec 32) (address : BitVec 48)
  -- Memory (chapter 10)
  | dmaCopy (h : Hdr) (p : CopyParams)
  | fill (h : Hdr) (dst : BitVec 48) (length : BitVec 64) (width : FillWidth) (pattern : BitVec 64)
  | loadShard (h : Hdr) (p : LoadParams)
  | swapTense (h : Hdr) (atPeriod : BitVec 48) (cancel : Bool)
  | verifyShard (h : Hdr) (target : VerifyTarget)
  | gatherSetup (h : Hdr) (count : BitVec 16) (base : BitVec 48) (slotBytes : BitVec 64) (table : BitVec 48)
  | gatherFetch (h : Hdr) (slot : Fin 3) (layer : BitVec 16)
  | gatherRelease (h : Hdr) (slot : Fin 3)
  -- Clusters, Gram taps and the Scale Ledger (chapters 03, 04, 06)
  | runProgram (h : Hdr) (p : RunParams)
  | setGramTapDefine (h : Hdr) (p : GramDef)
  | setGramTapClear (h : Hdr) (site : BitVec 12)
  | setGramTapRelease (h : Hdr) (site : BitVec 12)
  | scaleLedgerSetup (h : Hdr) (attach : Bool) (address : BitVec 64) (count : BitVec 16)
  | scaleLedgerSetMode (h : Hdr) (forceGuarded : Bool) (guardPeriods warmPeriods : BitVec 16)
  | scaleLedgerDefine (h : Hdr) (entry count : BitVec 16) (target : BitVec 4) (cls : BitVec 2) (margin : BitVec 8)
  | scaleLedgerRead (h : Hdr) (address : BitVec 64) (entry count : BitVec 16)
  | scaleLedgerWarmup (h : Hdr)
  -- Collectives, fabric set-up and re-sharding (chapters 11, 12)
  | reduceScatter (h : Hdr) (p : CollParams)
  | allGather (h : Hdr) (p : CollParams)
  | allReduce (h : Hdr) (p : CollParams)
  | broadcast (h : Hdr) (p : CollParams)
  | permute (h : Hdr) (p : CollParams)
  | send (h : Hdr) (p : CollParams)
  | recv (h : Hdr) (p : CollParams)
  | ringExchange (h : Hdr) (p : CollParams)
  | setPosition (h : Hdr) (p : PositionParams)
  | setRoutesMap (h : Hdr) (address : BitVec 48) (digest : BitVec 64)
  | setRoutesDirmap (h : Hdr) (dirmap : BitVec 24)
  | setRoutesBreaks (h : Hdr) (address : BitVec 48)
  | setRoutesPort (h : Hdr) (port : Fin 8) (down : Bool)
  | noiseReport (h : Hdr) (period : BitVec 48) (count : BitVec 8) (dest : BitVec 48)
  | reshardStart (h : Hdr) (p : ReshardParams)
  | reshardResume (h : Hdr) (p : ReshardParams)
  | reshardReverse (h : Hdr) (p : ReshardParams)
  | reshardCommit (h : Hdr) (p : ReshardParams)
  -- Surviving failure (chapter 13)
  | setBuddyHome (h : Hdr) (override mode : Bool) (peer : BitVec 24) (gloss : BitVec 48)
  | setBuddyHold (h : Hdr) (override attach : Bool) (peer : BitVec 24) (desc : BitVec 48)
  | setBuddyReleaseHome (h : Hdr)
  | setBuddyReleaseHold (h : Hdr)
  | shadowForward (h : Hdr) (lrScale : BitVec 32)
  | shadowRoots (h : Hdr)
  | shadowReplay (h : Hdr) (p : ReplayParams)
  | shadowClose (h : Hdr)
  | shadowSeed (h : Hdr)
  | shadowRecover (h : Hdr) (p : ReplayParams)
  | digestRange (h : Hdr) (record count : BitVec 32)
  | digestArbitrate (h : Hdr) (anchorCopy : Bool) (record : BitVec 32) (anchor : BitVec 48)
  | digestRecopy (h : Hdr) (record count : BitVec 32)
  | promote (h : Hdr) (logical ldim holder : BitVec 24) (gloss : BitVec 48)
  | restoreFromShadow (h : Hdr) (holder : BitVec 24) (force : Bool)
  | checkpointOut (h : Hdr) (dest : BitVec 48) (destLen : BitVec 64) (key : BitVec 16)
  | checkpointIn (h : Hdr) (src : BitVec 48) (srcLen : BitVec 64) (key : BitVec 16)
  -- The Period controller's commands (chapter 02)
  | periodPlan (h : Hdr) (p : Plan)
  | periodArm (h : Hdr) (p : ArmParams)
  | periodHalt (h : Hdr) (machine atEnd : Bool)
  | replayFreeze (h : Hdr)
  | replayThaw (h : Hdr)
  | replayCopyOut (h : Hdr) (period : BitVec 48) (count : BitVec 32) (dest destLen : BitVec 64)
  | replayReplay (h : Hdr) (period : BitVec 48) (dest destLen : BitVec 64)
  | replayClear (h : Hdr)
  -- Security, diagnostics and reset (chapters 03, 16, 17, 18)
  | attestChain (h : Hdr) (dest : BitVec 48) (destLen : BitVec 32)
  | attestQuote (h : Hdr) (dest : BitVec 48) (destLen : BitVec 32) (nonce : BitVec 256)
  | keyImport (h : Hdr) (handle : BitVec 16) (address : BitVec 48)
  | keyDestroy (h : Hdr) (handle : BitVec 16)
  | keyKexCert (h : Hdr) (address : BitVec 48)
  | keyAdvanceSvn (h : Hdr) (force : Bool)
  | debugChallenge (h : Hdr) (address : BitVec 48)
  | debugUnlock (h : Hdr) (address : BitVec 48)
  | selfTest (h : Hdr) (targets : BitVec 6) (dest : BitVec 48)
  | conformanceRun (h : Hdr) (p : ConformanceParams)
  | injectError (h : Hdr) (kind : BitVec 8) (store : BitVec 4) (index : BitVec 16) (address : BitVec 48)
  | resetBlock (h : Hdr) (reach : Reach) (kind : BlockKind) (index : BitVec 16) (holdUs : BitVec 32)
  -- Rings and completions (chapters 05, 14)
  | ringDoorbell (ring : Fin 64) (tail : BitVec 24)
  | ringEnable (ring : Fin 64) (size : BitVec 4) (clauses : BitVec 16)
  | ringDisable (ring : Fin 64) (size : BitVec 4) (clauses : BitVec 16)
  | eventRingEnable (entriesLog2 : BitVec 5)
  | cpEvtAckWrite (ack : BitVec 48)
  | commandRead (ring : Fin 64)
  | commandDispatch (ring : Fin 64)
  | deferredDispatch
  | commandCompletion (ring : Fin 64)
  -- The timebase and the Period (chapter 02)
  | timeSend
  | timeMessage (port : Fin 8) (p : TimePayload) (residence : BitVec 32)
  | holdover
  | timebaseLost
  | tickrefEdge (time : BitVec 64)
  | tickrefEdgeMissing
  | tickSend
  | tickMessage (port : Fin 8) (p : TickPayload)
  | periodStart
  | clauseStart (c : Fin 16)
  | clauseDeadline (c : Fin 16)
  | readyToCommitReport
  | doneReport
  | reduceMessage (port : Fin 8) (p : ReducePayload)
  | grantMessage (port : Fin 8) (p : GrantPayload)
  | noiseReduceSend
  | commit
  | haltMessage (port : Fin 8) (p : HaltPayload)
  | recorderEnable
  -- Clusters and solver jobs (chapters 04, 07, 08)
  | qcRetireReqWrite (quarter : Fin 4) (index : BitVec 7) (persist : Bool)
  | clusterRetirementEffect (cluster : Fin 264)
  | solveJobStart (entry : BitVec 16)
  | solveJobEnd (entry : BitVec 16)
  -- Memory (chapter 10)
  | patrolScrub (stack : Fin 16) (findings : List ScrubFinding)
  | hbmTemperatureRead (stack : Fin 16) (celsius : BitVec 8)
  | dmMapWrite (localMap : BitVec 6) (lock : Bool)
  | reverifyPass (bank : Fin 2)
  -- Fabric links (chapter 11)
  | idleFlit (port : Fin 8) (f : FlitHdr)
  | flitError (port : Fin 8) (crc : Bool)
  | nak (port : Fin 8) (seq : BitVec 15)
  | ackTimeout (port : Fin 8)
  | retryEpisodeTimeout (port : Fin 8)
  | laneLockLoss (port : Fin 8) (lane : Fin 16)
  | portRetrainDone (port : Fin 8) (ok : Bool) (upperHalf : Bool)
  | zpCtrlRetrain (port : Fin 8)
  | zpCtrlForceDown (port : Fin 8) (down : Bool)
  | portTrainingDone (port : Fin 8)
  | discover (port : Fin 8) (p : DiscoverPayload)
  | latencyMeasurement (port : Fin 8)
  | echoReq (port : Fin 8) (t1 t2 t3 : BitVec 64)
  | echoRsp (port : Fin 8) (t1 t2 t3 t4 : BitVec 64)
  | linkState (port : Fin 8) (axis : BitVec 2) (link : BitVec 8) (broken : Bool)
  | identReq (port : Fin 8) (r : Route)
  | identRsp (port : Fin 8) (r : Route) (p : DiscoverPayload)
  | collectiveMessage (port : Fin 8) (r : Route) (m : CollHdr) (data : List (BitVec 8))
  | shadowMessage (port : Fin 8) (r : Route) (m : ShadowHdr) (data : List (BitVec 8))
  | p2pMessage (port : Fin 8) (r : Route) (m : P2pHdr) (data : List (BitVec 8))
  | bulkMessage (port : Fin 8) (r : Route) (data : List (BitVec 8))
  | collectiveWatchdogExpiry (ring : Fin 64) (seq : BitVec 48)
  | reservedTypeFlit (port : Fin 8) (type : BitVec 5)
  -- Orrex Link (chapter 15)
  | oxlPortTrained (link : Fin 2)
  | oxlInit (link : Fin 2) (version : BitVec 8) (req rsp snp : BitVec 16) (memLimit : BitVec 48)
  | oxlRead (link : OxlIn) (tag : BitVec 12) (window : BitVec 2) (address : BitVec 48) (length : BitVec 11)
  | oxlWrite (link : OxlIn) (tag : BitVec 12) (window : BitVec 2) (address : BitVec 48) (data : List (BitVec 8))
  | oxlDoorbell (link : OxlIn) (ring : Fin 64) (tail : BitVec 24)
  | snpInv (link : OxlIn) (tag : BitVec 12) (line : BitVec 48)
  | snpShared (link : OxlIn) (tag : BitVec 12) (line : BitVec 48)
  | oxlData (link : OxlIn) (tag : BitVec 12) (status : BitVec 4) (data : List (BitVec 8))
  | oxlAck (link : OxlIn) (tag : BitVec 12) (status : BitVec 4)
  | oxlTrainingTimeout (link : Fin 2)
  | oxlL0Loss (link : Fin 2)
  | oxlTimeout (tag : BitVec 12)
  | l0ExitToRecovery (link : Fin 2)
  -- Power and reset (chapters 16, 20)
  | inputQualified
  | railsInRegulation
  | powerWarning
  | powerRecovered
  | overvoltage
  | overvoltageStop
  | brownOut
  | powerMeasurement (milliVolts tenMilliAmps deciWatts : BitVec 16)
  | junctionTemperatureSample (celsius : BitVec 40) (railMilliVolts : BitVec 80)
  | thermtrip
  | mrstAssertion
  | moduleWatchdog
  | quarterWatchdog (quarter : Fin 4)
  | pllLockLoss (quarter : Fin 4)
  | refclkLoss
  | cpLockup
  | resetRelease (d : Domain)
  | domainReady (d : Domain)
  | fuseLoadDone (image : FuseImage)
  | secureBoot (slot0 slot1 : FlashSlot)
  | hbmInitDone (trainingFailed : BitVec 16)
  | powerOnSelfChecksDone
  | inputCrosses10V (rising : Bool)
  | lidBreach
  -- Security and management (chapters 17, 18)
  | spdmMailboxGo (len : BitVec 13) (req : SpdmReq)
  | spdmMctpRequest (req : SpdmReq)
  | mctpControlMessage (m : MctpControl)
  | pldmRequest (r : PldmReq)
  | alertClearWrite
  -- Register accesses (chapters 00, 11, 18)
  | tmSlackRead (c : Fin 16)
  | readClearAccess (address : BitVec 24) (wide : Bool)
  | lowWordReadLatch (address : BitVec 24)
  | breakMapWord0Read (axis : Fin 3)
  | registerWrite (address : BitVec 24) (wide : Bool) (value : BitVec 64)
  | jtagAccess (op : JtagOp)
deriving DecidableEq, Repr

end Sys2Proof
end

