-- ==== Sys2Proof/WellFormed.lean ====
section
/-!
DEFINITION. WellFormed.lean: which terms of `Instr` a packet, a message or a pin can carry: a list no longer than its count field or its
message holds, a line address that is one, a flash slot that fits its half of the device. The meanings are total and do not rely on it.
-/
namespace Sys2Proof

/-- The data bytes of a COLLECTIVE or SHADOW message (R355, R386). -/
abbrev messageMax : Nat := 65536

/-- A slot fits half of the largest boot flash, 256 MiB (R489, R542). -/
def FlashSlot.wellFormed (f : FlashSlot) : Bool := decide (0x100 + f.body.length ≤ 2 ^ 27)

/-- The command can be carried. -/
def Instr.wellFormed : Instr → Bool
  | .nop _ => true
  | .query _ _ => true
  | .setConfig _ items => decide (items.length ≤ 255)
  | .fence _ entries => decide (entries.length ≤ 15)
  | .eventAck _ _ => true
  | .loadParseLoad _ _ _ _ => true
  | .loadParseUnload _ _ => true
  | .solve _ _ _ => true
  | .rootTableSetup _ _ _ _ => true
  | .rootTableWrite _ _ _ _ _ => true
  | .rootTableRead _ _ _ _ => true
  | .rootTableInvalidate _ _ _ => true
  | .updatePrepare _ _ => true
  | .updateApply _ _ => true
  | .updateRecover _ => true
  | .setRuleRule _ _ _ => true
  | .setRuleTable _ _ _ _ _ => true
  | .setRuleRead _ _ _ _ => true
  | .dmaCopy _ _ => true
  | .fill _ _ _ _ _ => true
  | .loadShard _ _ => true
  | .swapTense _ _ _ => true
  | .verifyShard _ _ => true
  | .gatherSetup _ _ _ _ _ => true
  | .gatherFetch _ _ _ => true
  | .gatherRelease _ _ => true
  | .runProgram _ p => decide (p.relocs.length ≤ 255)
  | .setGramTapDefine _ _ => true
  | .setGramTapClear _ _ => true
  | .setGramTapRelease _ _ => true
  | .scaleLedgerSetup _ _ _ _ => true
  | .scaleLedgerSetMode _ _ _ _ => true
  | .scaleLedgerDefine _ _ _ _ _ _ => true
  | .scaleLedgerRead _ _ _ _ => true
  | .scaleLedgerWarmup _ => true
  | .reduceScatter _ _ => true
  | .allGather _ _ => true
  | .allReduce _ _ => true
  | .broadcast _ _ => true
  | .permute _ _ => true
  | .send _ _ => true
  | .recv _ _ => true
  | .ringExchange _ _ => true
  | .setPosition _ _ => true
  | .setRoutesMap _ _ _ => true
  | .setRoutesDirmap _ _ => true
  | .setRoutesBreaks _ _ => true
  | .setRoutesPort _ _ _ => true
  | .noiseReport _ _ _ _ => true
  | .reshardStart _ _ => true
  | .reshardResume _ _ => true
  | .reshardReverse _ _ => true
  | .reshardCommit _ _ => true
  | .setBuddyHome _ _ _ _ _ => true
  | .setBuddyHold _ _ _ _ _ => true
  | .setBuddyReleaseHome _ => true
  | .setBuddyReleaseHold _ => true
  | .shadowForward _ _ => true
  | .shadowRoots _ => true
  | .shadowReplay _ _ => true
  | .shadowClose _ => true
  | .shadowSeed _ => true
  | .shadowRecover _ _ => true
  | .digestRange _ _ _ => true
  | .digestArbitrate _ _ _ _ => true
  | .digestRecopy _ _ _ => true
  | .promote _ _ _ _ _ => true
  | .restoreFromShadow _ _ _ => true
  | .checkpointOut _ _ _ _ => true
  | .checkpointIn _ _ _ _ => true
  | .periodPlan _ p => decide (p.clauses.length ≤ 255)
  | .periodArm _ _ => true
  | .periodHalt _ _ _ => true
  | .replayFreeze _ => true
  | .replayThaw _ => true
  | .replayCopyOut _ _ _ _ _ => true
  | .replayReplay _ _ _ _ => true
  | .replayClear _ => true
  | .attestChain _ _ _ => true
  | .attestQuote _ _ _ _ => true
  | .keyImport _ _ _ => true
  | .keyDestroy _ _ => true
  | .keyKexCert _ _ => true
  | .keyAdvanceSvn _ _ => true
  | .debugChallenge _ _ => true
  | .debugUnlock _ _ => true
  | .selfTest _ _ _ => true
  | .conformanceRun _ _ => true
  | .injectError _ _ _ _ _ => true
  | .resetBlock _ _ _ _ _ => true
  | .ringDoorbell _ _ => true
  | .ringEnable _ _ _ => true
  | .ringDisable _ _ _ => true
  | .eventRingEnable _ => true
  | .cpEvtAckWrite _ => true
  | .commandRead _ => true
  | .commandDispatch _ => true
  | .deferredDispatch => true
  | .commandCompletion _ => true
  | .timeSend => true
  | .timeMessage _ _ _ => true
  | .holdover => true
  | .timebaseLost => true
  | .tickrefEdge _ => true
  | .tickrefEdgeMissing => true
  | .tickSend => true
  | .tickMessage _ _ => true
  | .periodStart => true
  | .clauseStart _ => true
  | .clauseDeadline _ => true
  | .readyToCommitReport => true
  | .doneReport => true
  | .reduceMessage _ _ => true
  | .grantMessage _ _ => true
  | .noiseReduceSend => true
  | .commit => true
  | .haltMessage _ _ => true
  | .recorderEnable => true
  | .qcRetireReqWrite _ _ _ => true
  | .clusterRetirementEffect _ => true
  | .solveJobStart _ => true
  | .solveJobEnd _ => true
  | .patrolScrub _ findings => findings.all (fun f => decide (f.line.toNat % 64 = 0))
  | .hbmTemperatureRead _ _ => true
  | .dmMapWrite _ _ => true
  | .reverifyPass _ => true
  | .idleFlit _ _ => true
  | .flitError _ _ => true
  | .nak _ _ => true
  | .ackTimeout _ => true
  | .retryEpisodeTimeout _ => true
  | .laneLockLoss _ _ => true
  | .portRetrainDone _ _ _ => true
  | .zpCtrlRetrain _ => true
  | .zpCtrlForceDown _ _ => true
  | .portTrainingDone _ => true
  | .discover _ _ => true
  | .latencyMeasurement _ => true
  | .echoReq _ _ _ _ => true
  | .echoRsp _ _ _ _ _ => true
  | .linkState _ _ _ _ => true
  | .identReq _ _ => true
  | .identRsp _ _ _ => true
  | .collectiveMessage _ _ _ data => decide (data.length ≤ messageMax)
  | .shadowMessage _ _ _ data => decide (data.length ≤ messageMax)
  | .p2pMessage _ _ _ data => decide (1 ≤ data.length ∧ data.length ≤ 65535)
  | .bulkMessage _ _ data => decide (data.length ≤ 274 * 240 - 16)
  | .collectiveWatchdogExpiry _ _ => true
  | .reservedTypeFlit _ _ => true
  | .oxlPortTrained _ => true
  | .oxlInit _ _ _ _ _ _ => true
  | .oxlRead _ _ _ _ _ => true
  | .oxlWrite _ _ _ _ data => decide (data.length ≤ 1024)
  | .oxlDoorbell _ _ _ => true
  | .snpInv _ _ line => decide (line.toNat % 64 = 0)
  | .snpShared _ _ line => decide (line.toNat % 64 = 0)
  | .oxlData _ _ _ data => decide (data.length ≤ 1024)
  | .oxlAck _ _ _ => true
  | .oxlTrainingTimeout _ => true
  | .oxlL0Loss _ => true
  | .oxlTimeout _ => true
  | .l0ExitToRecovery _ => true
  | .inputQualified => true
  | .railsInRegulation => true
  | .powerWarning => true
  | .powerRecovered => true
  | .overvoltage => true
  | .overvoltageStop => true
  | .brownOut => true
  | .powerMeasurement _ _ _ => true
  | .junctionTemperatureSample _ _ => true
  | .thermtrip => true
  | .mrstAssertion => true
  | .moduleWatchdog => true
  | .quarterWatchdog _ => true
  | .pllLockLoss _ => true
  | .refclkLoss => true
  | .cpLockup => true
  | .resetRelease _ => true
  | .domainReady _ => true
  | .fuseLoadDone _ => true
  | .secureBoot slot0 slot1 => slot0.wellFormed && slot1.wellFormed
  | .hbmInitDone _ => true
  | .powerOnSelfChecksDone => true
  | .inputCrosses10V _ => true
  | .lidBreach => true
  | .spdmMailboxGo _ _ => true
  | .spdmMctpRequest _ => true
  | .mctpControlMessage _ => true
  | .pldmRequest _ => true
  | .alertClearWrite => true
  | .tmSlackRead _ => true
  | .readClearAccess _ _ => true
  | .lowWordReadLatch address => decide (address.toNat % 8 = 0)
  | .breakMapWord0Read _ => true
  | .registerWrite _ _ _ => true
  | .jtagAccess _ => true

end Sys2Proof
end

