-- ==== Sys2Proof/Config.lean ====
section
/-!
DEFINITION. Config.lean: what one unit of the hardware fixes, and the values the spec leaves open. Every constant here has no
body, so a proof holds for every value of it. A value that the spec leaves open anew each time it arises is one of these
constants applied to `State.draws`, a counter the step advances (log entry 3).
-/
namespace Sys2Proof.Config

/-- The byte that an address reads as after its contents became undefined (R118, R282, R295, R354): the draw that made the
range undefined, and the address. Log entry 3. -/
opaque freeByte : Nat → Nat → BitVec 8

/-- A fresh 64-bit value that the spec does not state. Log entry 3. -/
opaque freeWord : Nat → BitVec 64

/-- The 32 random bytes of a debug-unlock nonce (R499). Log entry 3. -/
opaque nonce : Nat → BitVec 256

/-- Which physical clusters a SELF_TEST finds failing (R521), by draw. Log entry 4. -/
opaque selfTestClusters : Nat → BitVec 264

/-- Which Conjugator cores a SELF_TEST finds failing (R521). Log entry 4. -/
opaque selfTestCores : Nat → BitVec 32

/-- Which fabric ports a SELF_TEST finds failing (R521). Log entry 4. -/
opaque selfTestPorts : Nat → BitVec 8

/-- Which quarters a SELF_TEST finds failing in a staging store or update unit (R521). Log entry 4. -/
opaque selfTestQuarters : Nat → BitVec 4

/-- The DER bytes of the chain DeviceID, Alias (R487, R492) for a firmware measurement: the certificates are outside the spec. Log entry 5. -/
opaque chainDer : BitVec 384 → List (BitVec 8)

/-- The DER bytes of the KEX certificate (R487) for a firmware measurement. Log entry 5. -/
opaque kexDer : BitVec 384 → List (BitVec 8)

/-- The chain, which is at most 65,535 bytes long: GET_CERTIFICATE's lengths have 16 bits (DSP0274). PRESUMED, log entry 5. -/
def certificateChain (m : BitVec 384) : List (BitVec 8) := (chainDer m).take 65535

/-- The KEX certificate, within the same bound. -/
def kexCertificate (m : BitVec 384) : List (BitVec 8) := (kexDer m).take 65535

/-- Alias's ECDSA P-384 signature (r, s) over a digest, for a firmware measurement (R487, R495). Log entry 5. -/
opaque aliasSign : BitVec 384 → BitVec 384 → BitVec 768

/-- The x coordinate of the ECDH secret between an importer's public key (x, y) and KEX, for a firmware measurement (R497).
Log entry 5. -/
opaque kexSecret : BitVec 384 → BitVec 384 → BitVec 384 → BitVec 384

/-- The SHA-384 digest that measurement block 1 to 5 holds (R494), for the bytes of what it covers: the spec names the content and not the
order of its bytes. Block 1, the boot ROM, covers none that the module can tell. Log entry 5. -/
opaque measurement : Nat → List (BitVec 8) → BitVec 384

/-- The x and y coordinates of Evornawell's conformance public key (R105). Log entry 5. -/
opaque conformanceKey : BitVec 384 × BitVec 384

/-- The bytes of an SPDM response to a supported request (DSP0274 is outside the spec), by transport (true: mailbox), request
and draw. Log entry 6. -/
opaque spdmResponse : Bool → SpdmReq → Nat → List (BitVec 8)

/-- The bytes of a PLDM response whose encoding DSP0240 and DSP0248 give (outside the spec), by request, the numbers it reports and draw.
Log entry 6. -/
opaque pldmResponse : PldmReq → List Nat → Nat → List (BitVec 8)

/-- The result bits and flags of a conformance vector whose operation the Set's own documentation gives (R105), by the record's first 40
bytes and the image with its operand blocks. Log entry 7. -/
opaque conformanceResult : List (BitVec 8) → List (BitVec 8) → Nat × Nat

/-- The levels of the strap pins when the module samples them (R541), by draw: FEEDTAG in [5:0], SLOTID in [13:6] and STRAP in [17:14]. Log
entry 15. -/
opaque strapPins : Nat → BitVec 18

/-- CONFIG_DIGEST of a Period's record (R53) for the configuration it covers: the spec names what the digest covers and not the
order of its bytes. Log entry 16. -/
opaque configDigest : List (BitVec 8) → BitVec 64

/-- The engine's choice for one piece of 64 KiB of a collective with ORDERED = 0 (R349), by MATCH and piece: whether it goes in the −
direction, and which of the selected axes leads. Log entry 40. -/
opaque arrivalChoice : Nat → Nat → Bool × Nat

/-- What becomes of an armed SRAM word (R555) in a step that uses its store: which words of a store a step reads, and which it
replaces first, is not stated. 0: the word is read; 1: it is replaced; anything else: neither. Log entry 18. -/
opaque sramOutcome : Nat → Nat

/-- Whether sign(ζ) of R207 is negative for a ζ of zero, which the spec does not state, by the sign of that zero. Log entry 24. -/
opaque signOfZero : Bool → Bool

/-- What the power manager does with the arithmetic clock while input power is within the cap and the ramp, by draw: 0 nothing, 1 a step up,
anything else a step down. Log entry 62. -/
opaque clockStep : Nat → Nat

/-- Whether a quotient whose rounding the spec does not state is rounded up, by draw (R334). Log entry 38. -/
opaque roundUp : Nat → Bool

end Sys2Proof.Config
end

