-- ==== Sys2Proof/Word.lean ====
section
/-!
DEFINITION. Word.lean: the plainest facts about the numbers the model computes with. A register field, an address under
computation and a count are natural numbers below the power of two that the spec's width gives; an operand of a command is a
bit vector of the width the spec gives (Syntax.lean).
-/
namespace Sys2Proof

/-- `n` reduced to `w` bits. -/
abbrev trunc (w n : Nat) : Nat := n % 2 ^ w

/-- Bits `lo` to `lo + len - 1` of `n`. -/
abbrev bits (n lo len : Nat) : Nat := n / 2 ^ lo % 2 ^ len

/-- Bit `i` of `n`. -/
abbrev bit (n i : Nat) : Bool := n / 2 ^ i % 2 == 1

/-- A flag as a one-bit number. -/
abbrev flag (b : Bool) : Nat := if b then 1 else 0

/-- Addition that saturates at the largest value of `w` bits (the counters of the register tables). -/
abbrev satAdd (w a b : Nat) : Nat := min (a + b) (2 ^ w - 1)

/-- The 48-bit Period value that means none (R264, and the reset value of the Period registers). -/
abbrev noPeriod : Nat := 0xFFFFFFFFFFFF

/-- The Period after `p`, modulo 2^48 (R60, R422). -/
abbrev nextPeriod (p : Nat) : Nat := (p + 1) % 2 ^ 48

end Sys2Proof
end

