-- ==== Sys2Proof/Machine/Bits.lean ====
section
/-!
DEFINITION. Machine/Bits.lean: byte order, CRC-64 (ECMA-182) and association lists, which every layer above uses.
Multi-byte values are little-endian (R6).
-/
namespace Sys2Proof.Machine

/-- The `n` low bytes of `v`, least significant first. -/
def leBytes : Nat → Nat → List Byte
  | 0, _ => []
  | n + 1, v => BitVec.ofNat 8 v :: leBytes n (v / 256)

/-- The number a list of bytes holds, least significant first. -/
def ofLE : List Byte → Nat
  | [] => 0
  | b :: bs => b.toNat + 256 * ofLE bs

/-- The `n` low bytes of `v`, most significant first (the byte order of FIPS 180-4). -/
def beBytes (n v : Nat) : List Byte := (leBytes n v).reverse

/-- The number a list of bytes holds, most significant first. -/
def ofBE (bs : List Byte) : Nat := bs.foldl (fun acc b => acc * 256 + b.toNat) 0

/-- A list cut or padded with zero bytes to exactly `n` bytes. -/
def padTo (n : Nat) (bs : List Byte) : List Byte := bs.take n ++ List.replicate (n - bs.length) 0

/-- `bs` with its bytes from `off` on replaced by `v`'s. -/
def overlay (bs : List Byte) (off : Nat) (v : List Byte) : List Byte :=
  bs.take off ++ v ++ bs.drop (off + v.length)

/-- Little-endian field of a byte list: `n` bytes at `off`, 0 beyond the end. -/
def leAt (bs : List Byte) (off n : Nat) : Nat := ofLE ((bs.drop off).take n)

/-- One bit step of CRC-64: shift left, and subtract the polynomial when the top bit falls out. -/
def crcStep (c : Nat) : Nat :=
  let d := (2 * c) % 2 ^ 64
  if c / 2 ^ 63 % 2 = 1 then d ^^^ 0x42F0E1EBA9EA3693 else d

/-- One byte of CRC-64. -/
def crcByte (c : Nat) (b : Byte) : Nat :=
  let c := c ^^^ (b.toNat * 2 ^ 56)
  crcStep (crcStep (crcStep (crcStep (crcStep (crcStep (crcStep (crcStep c)))))))

/-- CRC-64 (ECMA-182) of a byte list. PRESUMED: the spec names the polynomial's standard and not the register's initial value
or reflection; the model takes ECMA-182's own: initial value 0, not reflected, no final inversion (log entry 2). -/
def crc64 (bs : List Byte) : Nat := bs.foldl crcByte 0

/-! Association lists keyed by a number, held with keys strictly rising. -/

/-- The value at key `k`. -/
def alGet {α : Type} : List (Nat × α) → Nat → Option α
  | [], _ => none
  | (k', v) :: t, k => if k' = k then some v else alGet t k

/-- The list with `k` mapped to `v`; rising keys stay rising. -/
def alSet {α : Type} (k : Nat) (v : α) : List (Nat × α) → List (Nat × α)
  | [] => [(k, v)]
  | (k', v') :: t =>
    if k < k' then (k, v) :: (k', v') :: t
    else if k = k' then (k, v) :: t
    else (k', v') :: alSet k v t

/-- The list without key `k`. -/
def alErase {α : Type} (k : Nat) : List (Nat × α) → List (Nat × α)
  | [] => []
  | (k', v') :: t => if k' = k then alErase k t else (k', v') :: alErase k t

/-- Keys strictly rising, each above `lo`. -/
def alRisingFrom {α : Type} (lo : Nat) : List (Nat × α) → Bool
  | [] => true
  | (k, _) :: t => decide (lo ≤ k) && alRisingFrom (k + 1) t

/-- Keys strictly rising. -/
def alRising {α : Type} (l : List (Nat × α)) : Bool := alRisingFrom 0 l

/-- The element at place `i`, or `d`. -/
def nth {α : Type} (l : List α) (i : Nat) (d : α) : α := l.getD i d

/-- The list with place `i` changed by `f`. -/
def nthSet {α : Type} (l : List α) (i : Nat) (v : α) : List α := l.set i v

/-- `x` put into a sorted list, before the elements that `le` does not place before it. -/
def insertBy {α : Type} (le : α → α → Bool) (x : α) : List α → List α
  | [] => [x]
  | y :: t => if le x y then x :: y :: t else y :: insertBy le x t

/-- The list sorted by `le`; elements that `le` holds equal keep their order. -/
def sortBy {α : Type} (le : α → α → Bool) (l : List α) : List α := l.foldr (insertBy le) []

/-- Ceiling division. -/
def cdiv (a b : Nat) : Nat := (a + b - 1) / b

/-- The sum of a list. -/
def sumList (l : List Nat) : Nat := l.foldl (· + ·) 0

/-- The greatest element of a list, or 0. -/
def maxList (l : List Nat) : Nat := l.foldl max 0

/-- All numbers `0 .. n-1` satisfy `p`. -/
def allBelow (n : Nat) (p : Nat → Bool) : Bool := (List.range n).all p

/-- Ranges `[a, a+n)` and `[b, b+m)` share an address. -/
def overlaps (a n b m : Nat) : Bool := decide (a < b + m) && decide (b < a + n)

/-- How far the pieces (offset, length) cover without a gap from `pos` on (`fuel` pieces at most). -/
def coverFrom (pieces : List (Nat × Nat)) : Nat → Nat → Nat
  | 0, pos => pos
  | fuel + 1, pos =>
    match pieces.find? (fun p => decide (p.1 ≤ pos) && decide (pos < p.1 + p.2)) with
    | some p => coverFrom pieces fuel (p.1 + p.2)
    | none => pos

/-- The pieces cover all of `lo` to `hi - 1`. -/
def covers (pieces : List (Nat × Nat)) (lo hi : Nat) : Bool := decide (hi ≤ coverFrom pieces pieces.length lo)

end Sys2Proof.Machine
end

