-- ==== Sys2Proof/Machine/Regs.lean ====
section
/-!
DEFINITION. Machine/Regs.lean: every register of the control window: where it lies, its fields, their access codes and their
reset values, as the register tables of the spec give them (R7 to R15, R525).

`F.<REGISTER>_<FIELD>` names a field for the meanings; `Reg.rows` lists the same registers for the accesses that come from
outside (REGISTER_WRITE, the CONTROL window, read-to-clear) and for resets.
-/
namespace Sys2Proof.Machine

/-- A field of a register: the register's control-window offset, the lowest bit, the width and the reset value. -/
structure Field where
  reg   : Nat
  lo    : Nat
  len   : Nat
  reset : Nat
deriving DecidableEq, Repr

/-- The access codes of R7. -/
inductive Access where
  | ro | rw | w1c | w1s | rc | wo | rwl
deriving DecidableEq, Repr

/-- The reach of a register table's Reset column (R10). -/
inductive TableReach where
  | p | m | b
deriving DecidableEq, Repr

/-- The reset domain a register block belongs to (R525); the instance is the row's first index. -/
inductive BlockDomain where
  | hub | cp | quarter | conj | port | hbm | frame
deriving DecidableEq, Repr

/-- A field as a register's row lists it. -/
structure FieldRow where
  lo     : Nat
  len    : Nat
  access : Access
  reset  : Nat
deriving DecidableEq, Repr

/-- A register, or an array of registers at `base + stride1 * i + stride2 * j` for i < n1 and j < n2. -/
structure RegRow where
  name    : String
  base    : Nat
  stride1 : Nat
  n1      : Nat
  stride2 : Nat
  n2      : Nat
  bytes   : Nat
  reach   : TableReach
  domain  : BlockDomain
  fields  : List FieldRow
deriving DecidableEq, Repr

/-! ## Fields by name -/

/-- `PC_CTRL`, 32 bits; 02 (registers after R56). -/
abbrev Reg.PC_CTRL : Nat := 0x20000
abbrev F.PC_CTRL_ENABLE : Field := ⟨Reg.PC_CTRL, 0, 1, 0⟩
abbrev F.PC_CTRL_MODE : Field := ⟨Reg.PC_CTRL, 1, 1, 0⟩
abbrev F.PC_CTRL_MASTER : Field := ⟨Reg.PC_CTRL, 2, 1, 0⟩
abbrev F.PC_CTRL_TSRC : Field := ⟨Reg.PC_CTRL, 3, 1, 0⟩
abbrev F.PC_CTRL_BDL : Field := ⟨Reg.PC_CTRL, 4, 1, 0⟩
/-- `PC_STATUS`, 32 bits; 02 (registers after R56). -/
abbrev Reg.PC_STATUS : Nat := 0x20004
abbrev F.PC_STATUS_STATE : Field := ⟨Reg.PC_STATUS, 0, 3, 0⟩
abbrev F.PC_STATUS_SYNCED : Field := ⟨Reg.PC_STATUS, 3, 1, 0⟩
abbrev F.PC_STATUS_HOLDOVER : Field := ⟨Reg.PC_STATUS, 4, 1, 0⟩
abbrev F.PC_STATUS_GRANT : Field := ⟨Reg.PC_STATUS, 5, 1, 0⟩
abbrev F.PC_STATUS_DONE : Field := ⟨Reg.PC_STATUS, 6, 1, 0⟩
abbrev F.PC_STATUS_REPLAY : Field := ⟨Reg.PC_STATUS, 7, 1, 0⟩
abbrev F.PC_STATUS_ACTIVE : Field := ⟨Reg.PC_STATUS, 16, 16, 0⟩
/-- `PC_FTIME`, 64 bits; 02 (registers after R56). -/
abbrev Reg.PC_FTIME : Nat := 0x20008
abbrev F.PC_FTIME_FTIME : Field := ⟨Reg.PC_FTIME, 0, 64, 0⟩
/-- `PC_PERIOD`, 64 bits; 02 (registers after R56). -/
abbrev Reg.PC_PERIOD : Nat := 0x20010
abbrev F.PC_PERIOD_PERIOD : Field := ⟨Reg.PC_PERIOD, 0, 48, 0⟩
abbrev F.PC_PERIOD_GENERATION : Field := ⟨Reg.PC_PERIOD, 48, 8, 0⟩
/-- `PC_COMMITTED`, 64 bits; 02 (registers after R56). -/
abbrev Reg.PC_COMMITTED : Nat := 0x20018
abbrev F.PC_COMMITTED_COMMITTED : Field := ⟨Reg.PC_COMMITTED, 0, 48, 0xffffffffffff⟩
/-- `PC_TICK`, 64 bits; 02 (registers after R56). -/
abbrev Reg.PC_TICK : Nat := 0x20020
abbrev F.PC_TICK_TICK : Field := ⟨Reg.PC_TICK, 0, 64, 0⟩
/-- `PC_CURSOR`, 64 bits; 02 (registers after R56). -/
abbrev Reg.PC_CURSOR : Nat := 0x20028
abbrev F.PC_CURSOR_CURSOR : Field := ⟨Reg.PC_CURSOR, 0, 64, 0⟩
/-- `PC_GUARD`, 32 bits; 02 (registers after R56). -/
abbrev Reg.PC_GUARD : Nat := 0x20030
abbrev F.PC_GUARD_GUARD_US : Field := ⟨Reg.PC_GUARD, 0, 20, 0x3e8⟩
/-- `PC_OFFSET`, 32 bits; 02 (registers after R56). -/
abbrev Reg.PC_OFFSET : Nat := 0x20034
abbrev F.PC_OFFSET_OFFSET : Field := ⟨Reg.PC_OFFSET, 0, 32, 0⟩
/-- `PC_MISS`, 32 bits; 02 (registers after R56). -/
abbrev Reg.PC_MISS : Nat := 0x20038
abbrev F.PC_MISS_HARD : Field := ⟨Reg.PC_MISS, 0, 16, 0⟩
abbrev F.PC_MISS_SOFT : Field := ⟨Reg.PC_MISS, 16, 16, 0⟩
/-- `PC_OVERRUNS`, 32 bits; 02 (registers after R56). -/
abbrev Reg.PC_OVERRUNS : Nat := 0x2003c
abbrev F.PC_OVERRUNS_COUNT : Field := ⟨Reg.PC_OVERRUNS, 0, 32, 0⟩
/-- `RR_BASE`, 64 bits; 02 (registers after R56). -/
abbrev Reg.RR_BASE : Nat := 0x20040
abbrev F.RR_BASE_BASE : Field := ⟨Reg.RR_BASE, 0, 48, 0x5ff0000000⟩
/-- `RR_CTRL`, 32 bits; 02 (registers after R56). -/
abbrev Reg.RR_CTRL : Nat := 0x20048
abbrev F.RR_CTRL_ENABLE : Field := ⟨Reg.RR_CTRL, 0, 1, 1⟩
abbrev F.RR_CTRL_FREEZE : Field := ⟨Reg.RR_CTRL, 1, 1, 0⟩
abbrev F.RR_CTRL_SIZE : Field := ⟨Reg.RR_CTRL, 2, 3, 4⟩
abbrev F.RR_CTRL_LOCK : Field := ⟨Reg.RR_CTRL, 5, 1, 0⟩
/-- `RR_WPTR`, 64 bits; 02 (registers after R56). -/
abbrev Reg.RR_WPTR : Nat := 0x20050
abbrev F.RR_WPTR_WPTR : Field := ⟨Reg.RR_WPTR, 0, 64, 0⟩
/-- `RR_OLDEST`, 64 bits; 02 (registers after R56). -/
abbrev Reg.RR_OLDEST : Nat := 0x20058
abbrev F.RR_OLDEST_OLDEST : Field := ⟨Reg.RR_OLDEST, 0, 48, 0xffffffffffff⟩
/-- `RR_MISMATCH`, 32 bits; 02 (registers after R56). -/
abbrev Reg.RR_MISMATCH : Nat := 0x20060
abbrev F.RR_MISMATCH_COUNT : Field := ⟨Reg.RR_MISMATCH, 0, 32, 0⟩
/-- `PC_TREF`, 32 bits; 02 (registers after R56). -/
abbrev Reg.PC_TREF : Nat := 0x20064
abbrev F.PC_TREF_INTERVAL_MS : Field := ⟨Reg.PC_TREF, 0, 11, 0⟩
abbrev F.PC_TREF_LOCKED : Field := ⟨Reg.PC_TREF, 11, 1, 0⟩
/-- `QC_STATUS`, 32 bits; 04 R143. -/
abbrev Reg.QC_STATUS (i : Nat) : Nat := 0x100000 + 0x100000 * i
abbrev F.QC_STATUS_WORKING (i : Nat) : Field := ⟨Reg.QC_STATUS i, 0, 7, 0⟩
abbrev F.QC_STATUS_SPARES (i : Nat) : Field := ⟨Reg.QC_STATUS i, 7, 3, 0⟩
abbrev F.QC_STATUS_SHARED (i : Nat) : Field := ⟨Reg.QC_STATUS i, 10, 7, 0⟩
/-- `QC_RETIRED`, 64 bits; 04 R143. -/
abbrev Reg.QC_RETIRED (i : Nat) : Nat := 0x100008 + 0x100000 * i
abbrev F.QC_RETIRED_RETIRED (i : Nat) : Field := ⟨Reg.QC_RETIRED i, 0, 64, 0⟩
/-- `QC_RETIRED_HI`, 32 bits; 04 R143. -/
abbrev Reg.QC_RETIRED_HI (i : Nat) : Nat := 0x100010 + 0x100000 * i
abbrev F.QC_RETIRED_HI_RETIRED (i : Nat) : Field := ⟨Reg.QC_RETIRED_HI i, 0, 2, 0⟩
/-- `QC_RETIRE_REQ`, 32 bits; 04 R143. -/
abbrev Reg.QC_RETIRE_REQ (i : Nat) : Nat := 0x100014 + 0x100000 * i
abbrev F.QC_RETIRE_REQ_INDEX (i : Nat) : Field := ⟨Reg.QC_RETIRE_REQ i, 0, 7, 0⟩
abbrev F.QC_RETIRE_REQ_PERSIST (i : Nat) : Field := ⟨Reg.QC_RETIRE_REQ i, 7, 1, 0⟩
/-- `QC_RESIDUE`, 32 bits; 04 R143. -/
abbrev Reg.QC_RESIDUE (i : Nat) : Nat := 0x100018 + 0x100000 * i
abbrev F.QC_RESIDUE_CORRECTED (i : Nat) : Field := ⟨Reg.QC_RESIDUE i, 0, 16, 0⟩
abbrev F.QC_RESIDUE_FAULTS (i : Nat) : Field := ⟨Reg.QC_RESIDUE i, 16, 16, 0⟩
/-- `QC_LMAP`, 32 bits; 04 R143. -/
abbrev Reg.QC_LMAP (i : Nat) (j : Nat) : Nat := 0x100100 + 0x100000 * i + 0x4 * j
abbrev F.QC_LMAP_PHYS0 (i : Nat) (j : Nat) : Field := ⟨Reg.QC_LMAP i j, 0, 7, 0⟩
abbrev F.QC_LMAP_SHARED0 (i : Nat) (j : Nat) : Field := ⟨Reg.QC_LMAP i j, 7, 1, 0⟩
abbrev F.QC_LMAP_PHYS1 (i : Nat) (j : Nat) : Field := ⟨Reg.QC_LMAP i j, 8, 7, 0⟩
abbrev F.QC_LMAP_SHARED1 (i : Nat) (j : Nat) : Field := ⟨Reg.QC_LMAP i j, 15, 1, 0⟩
abbrev F.QC_LMAP_PHYS2 (i : Nat) (j : Nat) : Field := ⟨Reg.QC_LMAP i j, 16, 7, 0⟩
abbrev F.QC_LMAP_SHARED2 (i : Nat) (j : Nat) : Field := ⟨Reg.QC_LMAP i j, 23, 1, 0⟩
abbrev F.QC_LMAP_PHYS3 (i : Nat) (j : Nat) : Field := ⟨Reg.QC_LMAP i j, 24, 7, 0⟩
abbrev F.QC_LMAP_SHARED3 (i : Nat) (j : Nat) : Field := ⟨Reg.QC_LMAP i j, 31, 1, 0⟩
/-- `BW_DEFER`, 64 bits; 05 R171. -/
abbrev Reg.BW_DEFER : Nat := 0x20200
abbrev F.BW_DEFER_RINGS : Field := ⟨Reg.BW_DEFER, 0, 64, 0⟩
/-- `BW_QUEUE`, 32 bits; 05 R171. -/
abbrev Reg.BW_QUEUE : Nat := 0x20208
abbrev F.BW_QUEUE_DEPTH : Field := ⟨Reg.BW_QUEUE, 0, 11, 0⟩
abbrev F.BW_QUEUE_PEAK : Field := ⟨Reg.BW_QUEUE, 16, 11, 0⟩
/-- `BW_MASK_BASE`, 64 bits; 05 R171. -/
abbrev Reg.BW_MASK_BASE : Nat := 0x20210
abbrev F.BW_MASK_BASE_BASE : Field := ⟨Reg.BW_MASK_BASE, 0, 48, 0⟩
/-- `BW_MASK`, 32 bits; 05 R171. -/
abbrev Reg.BW_MASK : Nat := 0x20218
abbrev F.BW_MASK_COUNT : Field := ⟨Reg.BW_MASK, 0, 11, 0⟩
/-- `BW_TIE_STATUS`, 32 bits; 05 R171. -/
abbrev Reg.BW_TIE_STATUS : Nat := 0x2021c
abbrev F.BW_TIE_STATUS_INCONSISTENT : Field := ⟨Reg.BW_TIE_STATUS, 0, 16, 0⟩
/-- `BW_TIE`, 32 bits; 05 R171. -/
abbrev Reg.BW_TIE (i : Nat) : Nat := 0x20240 + 0x4 * i
abbrev F.BW_TIE_TENSOR_ID (i : Nat) : Field := ⟨Reg.BW_TIE i, 0, 16, 0⟩
abbrev F.BW_TIE_GROUP (i : Nat) : Field := ⟨Reg.BW_TIE i, 16, 4, 0⟩
abbrev F.BW_TIE_SITE (i : Nat) : Field := ⟨Reg.BW_TIE i, 20, 5, 0⟩
abbrev F.BW_TIE_VALID (i : Nat) : Field := ⟨Reg.BW_TIE i, 31, 1, 0⟩
/-- `SO_CTRL`, 32 bits; 05 R171. -/
abbrev Reg.SO_CTRL : Nat := 0x20340
abbrev F.SO_CTRL_ENABLE : Field := ⟨Reg.SO_CTRL, 0, 1, 0⟩
/-- `SO_DATASET`, 64 bits; 05 R171. -/
abbrev Reg.SO_DATASET : Nat := 0x20348
abbrev F.SO_DATASET_N : Field := ⟨Reg.SO_DATASET, 0, 48, 0⟩
/-- `SO_BATCH`, 32 bits; 05 R171. -/
abbrev Reg.SO_BATCH : Nat := 0x20350
abbrev F.SO_BATCH_GLOBAL : Field := ⟨Reg.SO_BATCH, 0, 32, 0⟩
/-- `SO_DP`, 32 bits; 05 R171. -/
abbrev Reg.SO_DP : Nat := 0x20354
abbrev F.SO_DP_AXES : Field := ⟨Reg.SO_DP, 0, 3, 0⟩
abbrev F.SO_DP_SIZE_X : Field := ⟨Reg.SO_DP, 8, 8, 0⟩
abbrev F.SO_DP_SIZE_Y : Field := ⟨Reg.SO_DP, 16, 8, 0⟩
abbrev F.SO_DP_SIZE_Z : Field := ⟨Reg.SO_DP, 24, 8, 0⟩
/-- `SO_LIST_BASE`, 64 bits; 05 R171. -/
abbrev Reg.SO_LIST_BASE : Nat := 0x20358
abbrev F.SO_LIST_BASE_BASE : Field := ⟨Reg.SO_LIST_BASE, 0, 48, 0⟩
/-- `SO_STATUS`, 64 bits; 05 R171. -/
abbrev Reg.SO_STATUS : Nat := 0x20360
abbrev F.SO_STATUS_READY_PERIOD : Field := ⟨Reg.SO_STATUS, 0, 48, 0xffffffffffff⟩
abbrev F.SO_STATUS_ERROR : Field := ⟨Reg.SO_STATUS, 48, 1, 0⟩
/-- `SO_RANK`, 32 bits; 05 R171. -/
abbrev Reg.SO_RANK : Nat := 0x20368
abbrev F.SO_RANK_RANK : Field := ⟨Reg.SO_RANK, 0, 24, 0⟩
/-- `EV_FENCE_BASE`, 64 bits; 05 R171. -/
abbrev Reg.EV_FENCE_BASE (i : Nat) : Nat := 0x20380 + 0x10 * i
abbrev F.EV_FENCE_BASE_BASE (i : Nat) : Field := ⟨Reg.EV_FENCE_BASE i, 0, 48, 0⟩
/-- `EV_FENCE_LIMIT`, 64 bits; 05 R171. -/
abbrev Reg.EV_FENCE_LIMIT (i : Nat) : Nat := 0x20388 + 0x10 * i
abbrev F.EV_FENCE_LIMIT_LIMIT (i : Nat) : Field := ⟨Reg.EV_FENCE_LIMIT i, 0, 48, 0⟩
/-- `EV_RECORD`, 64 bits; 05 R171. -/
abbrev Reg.EV_RECORD : Nat := 0x20400
abbrev F.EV_RECORD_ADDRESS : Field := ⟨Reg.EV_RECORD, 0, 48, 0⟩
/-- `CJ_CTRL`, 32 bits; 07 R222. -/
abbrev Reg.CJ_CTRL : Nat := 0x500000
abbrev F.CJ_CTRL_MISS_LIMIT : Field := ⟨Reg.CJ_CTRL, 0, 8, 3⟩
/-- `CJ_STATUS`, 32 bits; 07 R222. -/
abbrev Reg.CJ_STATUS : Nat := 0x500004
abbrev F.CJ_STATUS_ADMITTED : Field := ⟨Reg.CJ_STATUS, 0, 8, 0⟩
abbrev F.CJ_STATUS_SLICE_ACTIVE : Field := ⟨Reg.CJ_STATUS, 8, 1, 0⟩
/-- `CJ_CORE_BUSY`, 32 bits; 07 R222. -/
abbrev Reg.CJ_CORE_BUSY : Nat := 0x500008
abbrev F.CJ_CORE_BUSY_BUSY : Field := ⟨Reg.CJ_CORE_BUSY, 0, 32, 0⟩
/-- `CJ_ROOT_BASE`, 64 bits; 07 R222. -/
abbrev Reg.CJ_ROOT_BASE : Nat := 0x500010
abbrev F.CJ_ROOT_BASE_BASE : Field := ⟨Reg.CJ_ROOT_BASE, 0, 48, 0⟩
/-- `CJ_ROOT_COUNT`, 32 bits; 07 R222. -/
abbrev Reg.CJ_ROOT_COUNT : Nat := 0x500018
abbrev F.CJ_ROOT_COUNT_COUNT : Field := ⟨Reg.CJ_ROOT_COUNT, 0, 16, 0⟩
/-- `CJ_COUNT_OK`, 32 bits; 07 R222. -/
abbrev Reg.CJ_COUNT_OK : Nat := 0x500020
abbrev F.CJ_COUNT_OK_COUNT : Field := ⟨Reg.CJ_COUNT_OK, 0, 32, 0⟩
/-- `CJ_COUNT_DEADLINE`, 32 bits; 07 R222. -/
abbrev Reg.CJ_COUNT_DEADLINE : Nat := 0x500024
abbrev F.CJ_COUNT_DEADLINE_COUNT : Field := ⟨Reg.CJ_COUNT_DEADLINE, 0, 32, 0⟩
/-- `CJ_COUNT_COLD`, 32 bits; 07 R222. -/
abbrev Reg.CJ_COUNT_COLD : Nat := 0x500028
abbrev F.CJ_COUNT_COLD_COUNT : Field := ⟨Reg.CJ_COUNT_COLD, 0, 32, 0⟩
/-- `CJ_COUNT_UNACCEPTED`, 32 bits; 07 R222. -/
abbrev Reg.CJ_COUNT_UNACCEPTED : Nat := 0x50002c
abbrev F.CJ_COUNT_UNACCEPTED_COUNT : Field := ⟨Reg.CJ_COUNT_UNACCEPTED, 0, 32, 0⟩
/-- `CJ_LAST_MISS`, 32 bits; 07 R222. -/
abbrev Reg.CJ_LAST_MISS : Nat := 0x500030
abbrev F.CJ_LAST_MISS_ENTRY : Field := ⟨Reg.CJ_LAST_MISS, 0, 16, 0xffff⟩
/-- `CJ_BUSY_CYCLES`, 64 bits; 07 R222. -/
abbrev Reg.CJ_BUSY_CYCLES : Nat := 0x500038
abbrev F.CJ_BUSY_CYCLES_CYCLES : Field := ⟨Reg.CJ_BUSY_CYCLES, 0, 64, 0⟩
/-- `CJ_STORE_ECC`, 32 bits; 07 R222. -/
abbrev Reg.CJ_STORE_ECC : Nat := 0x500040
abbrev F.CJ_STORE_ECC_CORRECTED : Field := ⟨Reg.CJ_STORE_ECC, 0, 16, 0⟩
abbrev F.CJ_STORE_ECC_UNCORRECTED : Field := ⟨Reg.CJ_STORE_ECC, 16, 16, 0⟩
/-- `UU_STATUS`, 32 bits; 09 R277. -/
abbrev Reg.UU_STATUS (i : Nat) : Nat := 0x101000 + 0x100000 * i
abbrev F.UU_STATUS_BUSY (i : Nat) : Field := ⟨Reg.UU_STATUS i, 0, 1, 0⟩
abbrev F.UU_STATUS_WAITING_NORM (i : Nat) : Field := ⟨Reg.UU_STATUS i, 1, 1, 0⟩
abbrev F.UU_STATUS_INFLIGHT (i : Nat) : Field := ⟨Reg.UU_STATUS i, 2, 4, 0⟩
/-- `UU_BLOCKS`, 32 bits; 09 R277. -/
abbrev Reg.UU_BLOCKS (i : Nat) : Nat := 0x101004 + 0x100000 * i
abbrev F.UU_BLOCKS_DONE (i : Nat) : Field := ⟨Reg.UU_BLOCKS i, 0, 32, 0⟩
/-- `UU_TABLE`, 64 bits; 09 R277. -/
abbrev Reg.UU_TABLE (i : Nat) : Nat := 0x101008 + 0x100000 * i
abbrev F.UU_TABLE_BASE (i : Nat) : Field := ⟨Reg.UU_TABLE i, 0, 48, 0⟩
/-- `UU_LEDGER`, 64 bits; 09 R277. -/
abbrev Reg.UU_LEDGER (i : Nat) : Nat := 0x101010 + 0x100000 * i
abbrev F.UU_LEDGER_BASE (i : Nat) : Field := ⟨Reg.UU_LEDGER i, 0, 48, 0⟩
/-- `UU_COUNTS`, 64 bits; 09 R277. -/
abbrev Reg.UU_COUNTS (i : Nat) : Nat := 0x101018 + 0x100000 * i
abbrev F.UU_COUNTS_NOROOT (i : Nat) : Field := ⟨Reg.UU_COUNTS i, 0, 16, 0⟩
abbrev F.UU_COUNTS_SKIPPED (i : Nat) : Field := ⟨Reg.UU_COUNTS i, 16, 16, 0⟩
abbrev F.UU_COUNTS_INDEX_FAULT (i : Nat) : Field := ⟨Reg.UU_COUNTS i, 32, 32, 0⟩
/-- `HM_STATUS`, 32 bits; 10 R307. -/
abbrev Reg.HM_STATUS (i : Nat) : Nat := 0x700000 + 0x4000 * i
abbrev F.HM_STATUS_STATE (i : Nat) : Field := ⟨Reg.HM_STATUS i, 0, 3, 0⟩
abbrev F.HM_STATUS_HOT (i : Nat) : Field := ⟨Reg.HM_STATUS i, 3, 1, 0⟩
abbrev F.HM_STATUS_TEMP (i : Nat) : Field := ⟨Reg.HM_STATUS i, 8, 8, 0⟩
/-- `HM_ECC`, 64 bits; 10 R307. -/
abbrev Reg.HM_ECC (i : Nat) : Nat := 0x700008 + 0x4000 * i
abbrev F.HM_ECC_CORRECTED (i : Nat) : Field := ⟨Reg.HM_ECC i, 0, 32, 0⟩
abbrev F.HM_ECC_UNCORRECTABLE (i : Nat) : Field := ⟨Reg.HM_ECC i, 32, 16, 0⟩
abbrev F.HM_ECC_POISONED (i : Nat) : Field := ⟨Reg.HM_ECC i, 48, 16, 0⟩
/-- `HM_ERR_ADDR`, 64 bits; 10 R307. -/
abbrev Reg.HM_ERR_ADDR (i : Nat) : Nat := 0x700010 + 0x4000 * i
abbrev F.HM_ERR_ADDR_ADDR (i : Nat) : Field := ⟨Reg.HM_ERR_ADDR i, 0, 48, 0⟩
/-- `HM_SCRUB`, 32 bits; 10 R307. -/
abbrev Reg.HM_SCRUB (i : Nat) : Nat := 0x700018 + 0x4000 * i
abbrev F.HM_SCRUB_HOURS (i : Nat) : Field := ⟨Reg.HM_SCRUB i, 0, 8, 0x18⟩
/-- `DM_MAP`, 32 bits; 10 R308. -/
abbrev Reg.DM_MAP : Nat := 0x800000
abbrev F.DM_MAP_LOCAL : Field := ⟨Reg.DM_MAP, 0, 6, 0⟩
abbrev F.DM_MAP_LOCK : Field := ⟨Reg.DM_MAP, 6, 1, 0⟩
/-- `TB_STATE`, 32 bits; 10 R308. -/
abbrev Reg.TB_STATE : Nat := 0x800008
abbrev F.TB_STATE_PRESENT : Field := ⟨Reg.TB_STATE, 0, 1, 0⟩
abbrev F.TB_STATE_STATE0 : Field := ⟨Reg.TB_STATE, 1, 2, 0⟩
abbrev F.TB_STATE_STATE1 : Field := ⟨Reg.TB_STATE, 3, 2, 0⟩
abbrev F.TB_STATE_ARMED : Field := ⟨Reg.TB_STATE, 5, 1, 0⟩
/-- `TB_AT`, 64 bits; 10 R308. -/
abbrev Reg.TB_AT : Nat := 0x800010
abbrev F.TB_AT_AT_PERIOD : Field := ⟨Reg.TB_AT, 0, 48, 0⟩
/-- `TB_BASE`, 64 bits; 10 R308. -/
abbrev Reg.TB_BASE (i : Nat) : Nat := 0x800020 + 0x20 * i
abbrev F.TB_BASE_BASE (i : Nat) : Field := ⟨Reg.TB_BASE i, 0, 48, 0⟩
/-- `TB_LEN`, 64 bits; 10 R308. -/
abbrev Reg.TB_LEN (i : Nat) : Nat := 0x800028 + 0x20 * i
abbrev F.TB_LEN_LENGTH (i : Nat) : Field := ⟨Reg.TB_LEN i, 0, 64, 0⟩
/-- `TB_MANIFEST`, 64 bits; 10 R308. -/
abbrev Reg.TB_MANIFEST (i : Nat) : Nat := 0x800030 + 0x20 * i
abbrev F.TB_MANIFEST_MANIFEST (i : Nat) : Field := ⟨Reg.TB_MANIFEST i, 0, 48, 0⟩
/-- `DM_REVERIFY`, 32 bits; 10 R308. -/
abbrev Reg.DM_REVERIFY : Nat := 0x800060
abbrev F.DM_REVERIFY_ENABLE : Field := ⟨Reg.DM_REVERIFY, 0, 1, 1⟩
abbrev F.DM_REVERIFY_ENGINES : Field := ⟨Reg.DM_REVERIFY, 1, 4, 2⟩
abbrev F.DM_REVERIFY_INTERVAL_S : Field := ⟨Reg.DM_REVERIFY, 16, 16, 0x258⟩
/-- `DM_FAIL`, 64 bits; 10 R308. -/
abbrev Reg.DM_FAIL : Nat := 0x800068
abbrev F.DM_FAIL_CHUNK : Field := ⟨Reg.DM_FAIL, 0, 32, 0⟩
abbrev F.DM_FAIL_TARGET : Field := ⟨Reg.DM_FAIL, 32, 2, 3⟩
/-- `DM_COUNTS`, 32 bits; 10 R308. -/
abbrev Reg.DM_COUNTS : Nat := 0x800070
abbrev F.DM_COUNTS_PASSES : Field := ⟨Reg.DM_COUNTS, 0, 16, 0⟩
abbrev F.DM_COUNTS_FAILS : Field := ⟨Reg.DM_COUNTS, 16, 16, 0⟩
/-- `GW_STATE`, 32 bits; 10 R308. -/
abbrev Reg.GW_STATE : Nat := 0x800078
abbrev F.GW_STATE_HELD : Field := ⟨Reg.GW_STATE, 0, 3, 0⟩
/-- `ZP_CTRL`, 32 bits; 11 R339. -/
abbrev Reg.ZP_CTRL (i : Nat) : Nat := 0x600000 + 0x10000 * i
abbrev F.ZP_CTRL_ENABLE (i : Nat) : Field := ⟨Reg.ZP_CTRL i, 0, 1, 1⟩
abbrev F.ZP_CTRL_MEDIA (i : Nat) : Field := ⟨Reg.ZP_CTRL i, 1, 1, 0⟩
abbrev F.ZP_CTRL_RETRAIN (i : Nat) : Field := ⟨Reg.ZP_CTRL i, 2, 1, 0⟩
abbrev F.ZP_CTRL_FORCE_DOWN (i : Nat) : Field := ⟨Reg.ZP_CTRL i, 3, 1, 0⟩
abbrev F.ZP_CTRL_RESERVE (i : Nat) : Field := ⟨Reg.ZP_CTRL i, 8, 8, 0x20⟩
/-- `ZP_STATUS`, 32 bits; 11 R339. -/
abbrev Reg.ZP_STATUS (i : Nat) : Nat := 0x600004 + 0x10000 * i
abbrev F.ZP_STATUS_STATE (i : Nat) : Field := ⟨Reg.ZP_STATUS i, 0, 3, 0⟩
abbrev F.ZP_STATUS_WIDTH (i : Nat) : Field := ⟨Reg.ZP_STATUS i, 3, 2, 0⟩
abbrev F.ZP_STATUS_FIRST_LANE (i : Nat) : Field := ⟨Reg.ZP_STATUS i, 5, 4, 0⟩
abbrev F.ZP_STATUS_RETRYING (i : Nat) : Field := ⟨Reg.ZP_STATUS i, 9, 1, 0⟩
abbrev F.ZP_STATUS_PARENT (i : Nat) : Field := ⟨Reg.ZP_STATUS i, 10, 1, 0⟩
abbrev F.ZP_STATUS_CHILD (i : Nat) : Field := ⟨Reg.ZP_STATUS i, 11, 1, 0⟩
abbrev F.ZP_STATUS_LAT_OK (i : Nat) : Field := ⟨Reg.ZP_STATUS i, 12, 1, 0⟩
/-- `ZP_LATENCY`, 32 bits; 11 R339. -/
abbrev Reg.ZP_LATENCY (i : Nat) : Nat := 0x600008 + 0x10000 * i
abbrev F.ZP_LATENCY_LATENCY (i : Nat) : Field := ⟨Reg.ZP_LATENCY i, 0, 24, 0⟩
/-- `ZP_PEER_UNIT`, 64 bits; 11 R339. -/
abbrev Reg.ZP_PEER_UNIT (i : Nat) : Nat := 0x600010 + 0x10000 * i
abbrev F.ZP_PEER_UNIT_UNIT_ID (i : Nat) : Field := ⟨Reg.ZP_PEER_UNIT i, 0, 64, 0⟩
/-- `ZP_PEER_BOARD`, 64 bits; 11 R339. -/
abbrev Reg.ZP_PEER_BOARD (i : Nat) : Nat := 0x600018 + 0x10000 * i
abbrev F.ZP_PEER_BOARD_BOARD_ID (i : Nat) : Field := ⟨Reg.ZP_PEER_BOARD i, 0, 64, 0⟩
/-- `ZP_PEER_INFO`, 64 bits; 11 R339. -/
abbrev Reg.ZP_PEER_INFO (i : Nat) : Nat := 0x600020 + 0x10000 * i
abbrev F.ZP_PEER_INFO_FEEDTAG (i : Nat) : Field := ⟨Reg.ZP_PEER_INFO i, 0, 6, 0⟩
abbrev F.ZP_PEER_INFO_SLOTID (i : Nat) : Field := ⟨Reg.ZP_PEER_INFO i, 8, 8, 0⟩
abbrev F.ZP_PEER_INFO_PORT (i : Nat) : Field := ⟨Reg.ZP_PEER_INFO i, 16, 3, 0⟩
abbrev F.ZP_PEER_INFO_SPARE (i : Nat) : Field := ⟨Reg.ZP_PEER_INFO i, 19, 1, 0⟩
abbrev F.ZP_PEER_INFO_PHYS (i : Nat) : Field := ⟨Reg.ZP_PEER_INFO i, 20, 24, 0⟩
abbrev F.ZP_PEER_INFO_PHYS_VALID (i : Nat) : Field := ⟨Reg.ZP_PEER_INFO i, 44, 1, 0⟩
/-- `ZP_RETRY`, 64 bits; 11 R339. -/
abbrev Reg.ZP_RETRY (i : Nat) : Nat := 0x600028 + 0x10000 * i
abbrev F.ZP_RETRY_REPLAYS (i : Nat) : Field := ⟨Reg.ZP_RETRY i, 0, 16, 0⟩
abbrev F.ZP_RETRY_EPISODES (i : Nat) : Field := ⟨Reg.ZP_RETRY i, 16, 16, 0⟩
abbrev F.ZP_RETRY_DEGRADES (i : Nat) : Field := ⟨Reg.ZP_RETRY i, 32, 16, 0⟩
abbrev F.ZP_RETRY_CRC_ERRORS (i : Nat) : Field := ⟨Reg.ZP_RETRY i, 48, 16, 0⟩
/-- `ZP_FEC`, 64 bits; 11 R339. -/
abbrev Reg.ZP_FEC (i : Nat) : Nat := 0x600030 + 0x10000 * i
abbrev F.ZP_FEC_CORRECTED (i : Nat) : Field := ⟨Reg.ZP_FEC i, 0, 32, 0⟩
abbrev F.ZP_FEC_UNCORRECTABLE (i : Nat) : Field := ⟨Reg.ZP_FEC i, 32, 32, 0⟩
/-- `ZP_LANE_ERR`, 32 bits; 11 R339. -/
abbrev Reg.ZP_LANE_ERR (i : Nat) (j : Nat) : Nat := 0x600100 + 0x10000 * i + 0x4 * j
abbrev F.ZP_LANE_ERR_CORRECTED (i : Nat) (j : Nat) : Field := ⟨Reg.ZP_LANE_ERR i j, 0, 32, 0⟩
/-- `ZF_CTRL`, 32 bits; 11 R340. -/
abbrev Reg.ZF_CTRL : Nat := 0x680000
abbrev F.ZF_CTRL_LOCK : Field := ⟨Reg.ZF_CTRL, 0, 1, 0⟩
/-- `ZF_UNIT_ID`, 64 bits; 11 R340. -/
abbrev Reg.ZF_UNIT_ID : Nat := 0x680008
abbrev F.ZF_UNIT_ID_UNIT_ID : Field := ⟨Reg.ZF_UNIT_ID, 0, 64, 0⟩
/-- `ZF_BOARD_ID`, 64 bits; 11 R340. -/
abbrev Reg.ZF_BOARD_ID : Nat := 0x680010
abbrev F.ZF_BOARD_ID_BOARD_ID : Field := ⟨Reg.ZF_BOARD_ID, 0, 64, 0⟩
/-- `ZF_PHYS`, 32 bits; 11 R340. -/
abbrev Reg.ZF_PHYS : Nat := 0x680018
abbrev F.ZF_PHYS_PHYS : Field := ⟨Reg.ZF_PHYS, 0, 24, 0⟩
abbrev F.ZF_PHYS_VALID : Field := ⟨Reg.ZF_PHYS, 24, 1, 0⟩
/-- `ZF_PDIM`, 32 bits; 11 R340. -/
abbrev Reg.ZF_PDIM : Nat := 0x68001c
abbrev F.ZF_PDIM_DIM : Field := ⟨Reg.ZF_PDIM, 0, 24, 0⟩
/-- `ZF_LOGICAL`, 32 bits; 11 R340. -/
abbrev Reg.ZF_LOGICAL : Nat := 0x680020
abbrev F.ZF_LOGICAL_LOGICAL : Field := ⟨Reg.ZF_LOGICAL, 0, 24, 0⟩
abbrev F.ZF_LOGICAL_VALID : Field := ⟨Reg.ZF_LOGICAL, 24, 1, 0⟩
abbrev F.ZF_LOGICAL_SPARE : Field := ⟨Reg.ZF_LOGICAL, 25, 1, 0⟩
/-- `ZF_LDIM`, 32 bits; 11 R340. -/
abbrev Reg.ZF_LDIM : Nat := 0x680024
abbrev F.ZF_LDIM_DIM : Field := ⟨Reg.ZF_LDIM, 0, 24, 0⟩
/-- `ZF_REMAP_BASE`, 64 bits; 11 R340. -/
abbrev Reg.ZF_REMAP_BASE : Nat := 0x680028
abbrev F.ZF_REMAP_BASE_BASE : Field := ⟨Reg.ZF_REMAP_BASE, 0, 48, 0⟩
/-- `ZF_DIRMAP`, 32 bits; 11 R340. -/
abbrev Reg.ZF_DIRMAP : Nat := 0x680030
abbrev F.ZF_DIRMAP_DIRMAP : Field := ⟨Reg.ZF_DIRMAP, 0, 24, 0x543210⟩
/-- `ZF_TREE`, 32 bits; 11 R340. -/
abbrev Reg.ZF_TREE : Nat := 0x680034
abbrev F.ZF_TREE_PARENT : Field := ⟨Reg.ZF_TREE, 0, 4, 0xf⟩
abbrev F.ZF_TREE_HOPS : Field := ⟨Reg.ZF_TREE, 4, 8, 0⟩
abbrev F.ZF_TREE_CHILDREN : Field := ⟨Reg.ZF_TREE, 12, 8, 0⟩
/-- `ZF_ERRS`, 64 bits; 11 R340. -/
abbrev Reg.ZF_ERRS : Nat := 0x680038
abbrev F.ZF_ERRS_UNROUTABLE : Field := ⟨Reg.ZF_ERRS, 0, 16, 0⟩
abbrev F.ZF_ERRS_LOST : Field := ⟨Reg.ZF_ERRS, 16, 16, 0⟩
abbrev F.ZF_ERRS_NOSTREAM : Field := ⟨Reg.ZF_ERRS, 32, 16, 0⟩
abbrev F.ZF_ERRS_BADTYPE : Field := ⟨Reg.ZF_ERRS, 48, 16, 0⟩
/-- `ZF_BREAK`, 64 bits; 11 R340. -/
abbrev Reg.ZF_BREAK (i : Nat) (j : Nat) : Nat := 0x680040 + 0x20 * i + 0x8 * j
abbrev F.ZF_BREAK_BREAKS (i : Nat) (j : Nat) : Field := ⟨Reg.ZF_BREAK i j, 0, 64, 0⟩
/-- `CE_STATUS`, 32 bits; 12 R366. -/
abbrev Reg.CE_STATUS : Nat := 0x690000
abbrev F.CE_STATUS_ACTIVE : Field := ⟨Reg.CE_STATUS, 0, 8, 0⟩
abbrev F.CE_STATUS_WAIT_READY : Field := ⟨Reg.CE_STATUS, 8, 1, 0⟩
abbrev F.CE_STATUS_RESHARD : Field := ⟨Reg.CE_STATUS, 9, 1, 0⟩
/-- `CE_NOISE_PERIOD`, 64 bits; 12 R366. -/
abbrev Reg.CE_NOISE_PERIOD : Nat := 0x690008
abbrev F.CE_NOISE_PERIOD_PERIOD : Field := ⟨Reg.CE_NOISE_PERIOD, 0, 48, 0xffffffffffff⟩
/-- `CE_NOISE_LOCAL`, 64 bits; 12 R366. -/
abbrev Reg.CE_NOISE_LOCAL : Nat := 0x690010
abbrev F.CE_NOISE_LOCAL_S_LOCAL : Field := ⟨Reg.CE_NOISE_LOCAL, 0, 64, 0⟩
/-- `CE_NOISE_RED`, 64 bits; 12 R366. -/
abbrev Reg.CE_NOISE_RED : Nat := 0x690018
abbrev F.CE_NOISE_RED_S_RED : Field := ⟨Reg.CE_NOISE_RED, 0, 64, 0⟩
/-- `CE_COUNTS`, 64 bits; 12 R366. -/
abbrev Reg.CE_COUNTS : Nat := 0x690020
abbrev F.CE_COUNTS_MISMATCH : Field := ⟨Reg.CE_COUNTS, 0, 16, 0⟩
abbrev F.CE_COUNTS_ARRIVAL : Field := ⟨Reg.CE_COUNTS, 16, 16, 0⟩
/-- `SH_CTRL`, 32 bits; 13 R407. -/
abbrev Reg.SH_CTRL : Nat := 0x900000
abbrev F.SH_CTRL_GLOSS_K : Field := ⟨Reg.SH_CTRL, 0, 13, 0x10⟩
/-- `SH_STATUS`, 32 bits; 13 R407. -/
abbrev Reg.SH_STATUS : Nat := 0x900004
abbrev F.SH_STATUS_HOME_STATE : Field := ⟨Reg.SH_STATUS, 0, 2, 0⟩
abbrev F.SH_STATUS_HOLD_STATE : Field := ⟨Reg.SH_STATUS, 2, 3, 0⟩
abbrev F.SH_STATUS_OVERRIDE : Field := ⟨Reg.SH_STATUS, 5, 1, 0⟩
abbrev F.SH_STATUS_DIVERGENT : Field := ⟨Reg.SH_STATUS, 6, 1, 0⟩
abbrev F.SH_STATUS_MODE : Field := ⟨Reg.SH_STATUS, 7, 1, 0⟩
/-- `SH_BUDDY`, 32 bits; 13 R407. -/
abbrev Reg.SH_BUDDY : Nat := 0x900008
abbrev F.SH_BUDDY_BUDDY : Field := ⟨Reg.SH_BUDDY, 0, 24, 0⟩
abbrev F.SH_BUDDY_VALID : Field := ⟨Reg.SH_BUDDY, 24, 1, 0⟩
/-- `SH_HOME`, 32 bits; 13 R407. -/
abbrev Reg.SH_HOME : Nat := 0x90000c
abbrev F.SH_HOME_HOME : Field := ⟨Reg.SH_HOME, 0, 24, 0⟩
abbrev F.SH_HOME_VALID : Field := ⟨Reg.SH_HOME, 24, 1, 0⟩
/-- `SH_DESC`, 64 bits; 13 R407. -/
abbrev Reg.SH_DESC : Nat := 0x900010
abbrev F.SH_DESC_BASE : Field := ⟨Reg.SH_DESC, 0, 48, 0⟩
/-- `SH_GLOSS`, 64 bits; 13 R407. -/
abbrev Reg.SH_GLOSS : Nat := 0x900018
abbrev F.SH_GLOSS_BASE : Field := ⟨Reg.SH_GLOSS, 0, 48, 0⟩
/-- `SH_SHADOW_PERIOD`, 64 bits; 13 R407. -/
abbrev Reg.SH_SHADOW_PERIOD : Nat := 0x900020
abbrev F.SH_SHADOW_PERIOD_PERIOD : Field := ⟨Reg.SH_SHADOW_PERIOD, 0, 48, 0xffffffffffff⟩
/-- `SH_SEED`, 64 bits; 13 R407. -/
abbrev Reg.SH_SEED : Nat := 0x900028
abbrev F.SH_SEED_SEED : Field := ⟨Reg.SH_SEED, 0, 64, 0⟩
/-- `SH_MISMATCH`, 64 bits; 13 R407. -/
abbrev Reg.SH_MISMATCH : Nat := 0x900030
abbrev F.SH_MISMATCH_RECORD : Field := ⟨Reg.SH_MISMATCH, 0, 32, 0xffffffff⟩
abbrev F.SH_MISMATCH_COMPONENT : Field := ⟨Reg.SH_MISMATCH, 32, 2, 0⟩
/-- `SH_COUNTS`, 64 bits; 13 R407. -/
abbrev Reg.SH_COUNTS : Nat := 0x900038
abbrev F.SH_COUNTS_MISMATCH : Field := ⟨Reg.SH_COUNTS, 0, 16, 0⟩
abbrev F.SH_COUNTS_ARBITRATED : Field := ⟨Reg.SH_COUNTS, 16, 16, 0⟩
abbrev F.SH_COUNTS_EXTENDED : Field := ⟨Reg.SH_COUNTS, 32, 16, 0⟩
abbrev F.SH_COUNTS_TIMEOUT : Field := ⟨Reg.SH_COUNTS, 48, 16, 0⟩
/-- `SH_WATCHDOG`, 32 bits; 13 R407. -/
abbrev Reg.SH_WATCHDOG : Nat := 0x900040
abbrev F.SH_WATCHDOG_CONFIGURED_US : Field := ⟨Reg.SH_WATCHDOG, 0, 20, 0x7d0⟩
abbrev F.SH_WATCHDOG_MIN_HOPS : Field := ⟨Reg.SH_WATCHDOG, 20, 12, 0⟩
/-- `CP_CTRL`, 32 bits; 14 R440. -/
abbrev Reg.CP_CTRL : Nat := 0x30000
abbrev F.CP_CTRL_IRQ_CLASS : Field := ⟨Reg.CP_CTRL, 0, 3, 2⟩
/-- `CP_STATUS`, 32 bits; 14 R440. -/
abbrev Reg.CP_STATUS : Nat := 0x30004
abbrev F.CP_STATUS_INFLIGHT : Field := ⟨Reg.CP_STATUS, 0, 13, 0⟩
abbrev F.CP_STATUS_EVT_OVERFLOW : Field := ⟨Reg.CP_STATUS, 13, 1, 0⟩
/-- `CP_FAULTS`, 64 bits; 14 R440. -/
abbrev Reg.CP_FAULTS : Nat := 0x30008
abbrev F.CP_FAULTS_FAULT : Field := ⟨Reg.CP_FAULTS, 0, 64, 0⟩
/-- `CP_EVT_BASE`, 64 bits; 14 R440. -/
abbrev Reg.CP_EVT_BASE : Nat := 0x30010
abbrev F.CP_EVT_BASE_BASE : Field := ⟨Reg.CP_EVT_BASE, 0, 48, 0⟩
/-- `CP_EVT_CTRL`, 32 bits; 14 R440. -/
abbrev Reg.CP_EVT_CTRL : Nat := 0x30018
abbrev F.CP_EVT_CTRL_ENABLE : Field := ⟨Reg.CP_EVT_CTRL, 0, 1, 0⟩
abbrev F.CP_EVT_CTRL_ENTRIES_LOG2 : Field := ⟨Reg.CP_EVT_CTRL, 1, 5, 6⟩
/-- `CP_EVT_SEQ`, 64 bits; 14 R440. -/
abbrev Reg.CP_EVT_SEQ : Nat := 0x30020
abbrev F.CP_EVT_SEQ_SEQ : Field := ⟨Reg.CP_EVT_SEQ, 0, 48, 0⟩
/-- `CP_EVT_ACKED`, 64 bits; 14 R440. -/
abbrev Reg.CP_EVT_ACKED : Nat := 0x30028
abbrev F.CP_EVT_ACKED_ACKED : Field := ⟨Reg.CP_EVT_ACKED, 0, 48, 0⟩
/-- `CP_EVT_ACK`, 64 bits; 14 R440. -/
abbrev Reg.CP_EVT_ACK : Nat := 0x30030
abbrev F.CP_EVT_ACK_ACK : Field := ⟨Reg.CP_EVT_ACK, 0, 48, 0⟩
/-- `CP_EVT_LOST`, 64 bits; 14 R440. -/
abbrev Reg.CP_EVT_LOST : Nat := 0x30038
abbrev F.CP_EVT_LOST_NOTE : Field := ⟨Reg.CP_EVT_LOST, 0, 12, 0⟩
abbrev F.CP_EVT_LOST_CORRECTED : Field := ⟨Reg.CP_EVT_LOST, 12, 12, 0⟩
abbrev F.CP_EVT_LOST_CONTAINED : Field := ⟨Reg.CP_EVT_LOST, 24, 12, 0⟩
abbrev F.CP_EVT_LOST_PERIOD_FATAL : Field := ⟨Reg.CP_EVT_LOST, 36, 12, 0⟩
abbrev F.CP_EVT_LOST_MODULE_FATAL : Field := ⟨Reg.CP_EVT_LOST, 48, 12, 0⟩
/-- `CP_EVT_FATAL`, 32 bits; 14 R440. -/
abbrev Reg.CP_EVT_FATAL : Nat := 0x30040
abbrev F.CP_EVT_FATAL_CODE : Field := ⟨Reg.CP_EVT_FATAL, 0, 16, 0⟩
abbrev F.CP_EVT_FATAL_CLASS : Field := ⟨Reg.CP_EVT_FATAL, 16, 3, 0⟩
abbrev F.CP_EVT_FATAL_VALID : Field := ⟨Reg.CP_EVT_FATAL, 31, 1, 0⟩
/-- `CP_RING_BASE`, 64 bits; 14 R440. -/
abbrev Reg.CP_RING_BASE (i : Nat) : Nat := 0x31000 + 0x40 * i
abbrev F.CP_RING_BASE_BASE (i : Nat) : Field := ⟨Reg.CP_RING_BASE i, 0, 48, 0⟩
/-- `CP_RING_CTRL`, 32 bits; 14 R440. -/
abbrev Reg.CP_RING_CTRL (i : Nat) : Nat := 0x31008 + 0x40 * i
abbrev F.CP_RING_CTRL_ENABLE (i : Nat) : Field := ⟨Reg.CP_RING_CTRL i, 0, 1, 0⟩
abbrev F.CP_RING_CTRL_SIZE (i : Nat) : Field := ⟨Reg.CP_RING_CTRL i, 1, 4, 0⟩
abbrev F.CP_RING_CTRL_CLAUSES (i : Nat) : Field := ⟨Reg.CP_RING_CTRL i, 16, 16, 0⟩
/-- `CP_RING_STATUS`, 32 bits; 14 R440. -/
abbrev Reg.CP_RING_STATUS (i : Nat) : Nat := 0x3100c + 0x40 * i
abbrev F.CP_RING_STATUS_ACTIVE (i : Nat) : Field := ⟨Reg.CP_RING_STATUS i, 0, 1, 0⟩
abbrev F.CP_RING_STATUS_FAULT (i : Nat) : Field := ⟨Reg.CP_RING_STATUS i, 1, 1, 0⟩
abbrev F.CP_RING_STATUS_WAITING (i : Nat) : Field := ⟨Reg.CP_RING_STATUS i, 2, 1, 0⟩
abbrev F.CP_RING_STATUS_FAULT_CODE (i : Nat) : Field := ⟨Reg.CP_RING_STATUS i, 8, 3, 0⟩
abbrev F.CP_RING_STATUS_INFLIGHT (i : Nat) : Field := ⟨Reg.CP_RING_STATUS i, 16, 9, 0⟩
/-- `CP_RING_TAIL`, 32 bits; 14 R440. -/
abbrev Reg.CP_RING_TAIL (i : Nat) : Nat := 0x31010 + 0x40 * i
abbrev F.CP_RING_TAIL_TAIL (i : Nat) : Field := ⟨Reg.CP_RING_TAIL i, 0, 24, 0⟩
/-- `CP_RING_HEAD`, 32 bits; 14 R440. -/
abbrev Reg.CP_RING_HEAD (i : Nat) : Nat := 0x31014 + 0x40 * i
abbrev F.CP_RING_HEAD_HEAD (i : Nat) : Field := ⟨Reg.CP_RING_HEAD i, 0, 24, 0⟩
/-- `CP_RING_SEQ`, 64 bits; 14 R440. -/
abbrev Reg.CP_RING_SEQ (i : Nat) : Nat := 0x31018 + 0x40 * i
abbrev F.CP_RING_SEQ_SEQ (i : Nat) : Field := ⟨Reg.CP_RING_SEQ i, 0, 48, 0⟩
/-- `CP_CQ_BASE`, 64 bits; 14 R440. -/
abbrev Reg.CP_CQ_BASE (i : Nat) : Nat := 0x31020 + 0x40 * i
abbrev F.CP_CQ_BASE_BASE (i : Nat) : Field := ⟨Reg.CP_CQ_BASE i, 0, 48, 0⟩
/-- `CP_CQ_CTRL`, 32 bits; 14 R440. -/
abbrev Reg.CP_CQ_CTRL (i : Nat) : Nat := 0x31028 + 0x40 * i
abbrev F.CP_CQ_CTRL_ENTRIES_LOG2 (i : Nat) : Field := ⟨Reg.CP_CQ_CTRL i, 0, 5, 6⟩
/-- `CP_CQ_HEAD`, 32 bits; 14 R440. -/
abbrev Reg.CP_CQ_HEAD (i : Nat) : Nat := 0x3102c + 0x40 * i
abbrev F.CP_CQ_HEAD_HEAD (i : Nat) : Field := ⟨Reg.CP_CQ_HEAD i, 0, 16, 0⟩
/-- `CP_CQ_TAIL`, 32 bits; 14 R440. -/
abbrev Reg.CP_CQ_TAIL (i : Nat) : Nat := 0x31030 + 0x40 * i
abbrev F.CP_CQ_TAIL_TAIL (i : Nat) : Field := ⟨Reg.CP_CQ_TAIL i, 0, 16, 0⟩
abbrev F.CP_CQ_TAIL_PHASE (i : Nat) : Field := ⟨Reg.CP_CQ_TAIL i, 16, 1, 1⟩
/-- `OXL_CTRL`, 32 bits; 15 R458. -/
abbrev Reg.OXL_CTRL : Nat := 0x60000
abbrev F.OXL_CTRL_TIMEOUT_US : Field := ⟨Reg.OXL_CTRL, 0, 16, 0x3e8⟩
/-- `OXL_STATUS`, 32 bits; 15 R458. -/
abbrev Reg.OXL_STATUS : Nat := 0x60004
abbrev F.OXL_STATUS_LINK0 : Field := ⟨Reg.OXL_STATUS, 0, 2, 0⟩
abbrev F.OXL_STATUS_LINK1 : Field := ⟨Reg.OXL_STATUS, 2, 2, 0⟩
abbrev F.OXL_STATUS_SINGLE : Field := ⟨Reg.OXL_STATUS, 4, 1, 0⟩
/-- `OXL_MEM_LIMIT`, 64 bits; 15 R458. -/
abbrev Reg.OXL_MEM_LIMIT : Nat := 0x60008
abbrev F.OXL_MEM_LIMIT_LIMIT : Field := ⟨Reg.OXL_MEM_LIMIT, 0, 48, 0⟩
/-- `OXL_ERRS`, 64 bits; 15 R458. -/
abbrev Reg.OXL_ERRS : Nat := 0x60010
abbrev F.OXL_ERRS_TIMEOUTS : Field := ⟨Reg.OXL_ERRS, 0, 16, 0⟩
abbrev F.OXL_ERRS_BAD_ACCESS : Field := ⟨Reg.OXL_ERRS, 16, 16, 0⟩
abbrev F.OXL_ERRS_PROTOCOL : Field := ⟨Reg.OXL_ERRS, 32, 16, 0⟩
abbrev F.OXL_ERRS_LINK_DOWN : Field := ⟨Reg.OXL_ERRS, 48, 16, 0⟩
/-- `OXL_LINK`, 64 bits; 15 R458. -/
abbrev Reg.OXL_LINK (i : Nat) : Nat := 0x60020 + 0x10 * i
abbrev F.OXL_LINK_FEC_CORRECTED (i : Nat) : Field := ⟨Reg.OXL_LINK i, 0, 32, 0⟩
abbrev F.OXL_LINK_REPLAYS (i : Nat) : Field := ⟨Reg.OXL_LINK i, 32, 16, 0⟩
abbrev F.OXL_LINK_RECOVERIES (i : Nat) : Field := ⟨Reg.OXL_LINK i, 48, 16, 0⟩
/-- `PW_STATUS`, 32 bits; 16 R483. -/
abbrev Reg.PW_STATUS : Nat := 0x10000
abbrev F.PW_STATUS_STATE : Field := ⟨Reg.PW_STATUS, 0, 4, 3⟩
abbrev F.PW_STATUS_PGOOD : Field := ⟨Reg.PW_STATUS, 4, 1, 1⟩
abbrev F.PW_STATUS_WARN : Field := ⟨Reg.PW_STATUS, 5, 1, 0⟩
abbrev F.PW_STATUS_TRIM_VALID : Field := ⟨Reg.PW_STATUS, 6, 1, 0⟩
abbrev F.PW_STATUS_FUSE_FAIL : Field := ⟨Reg.PW_STATUS, 7, 1, 0⟩
abbrev F.PW_STATUS_THROTTLE : Field := ⟨Reg.PW_STATUS, 8, 1, 0⟩
abbrev F.PW_STATUS_HOT : Field := ⟨Reg.PW_STATUS, 9, 1, 0⟩
/-- `PW_INPUT`, 64 bits; 16 R483. -/
abbrev Reg.PW_INPUT : Nat := 0x10008
abbrev F.PW_INPUT_VIN : Field := ⟨Reg.PW_INPUT, 0, 16, 0⟩
abbrev F.PW_INPUT_IIN : Field := ⟨Reg.PW_INPUT, 16, 16, 0⟩
abbrev F.PW_INPUT_PIN : Field := ⟨Reg.PW_INPUT, 32, 16, 0⟩
/-- `PW_CLOCK`, 32 bits; 16 R483. -/
abbrev Reg.PW_CLOCK : Nat := 0x10010
abbrev F.PW_CLOCK_ARITH_MHZ : Field := ⟨Reg.PW_CLOCK, 0, 12, 0xe10⟩
abbrev F.PW_CLOCK_TJ_MAX : Field := ⟨Reg.PW_CLOCK, 16, 8, 0⟩
/-- `PW_CFG`, 32 bits; 16 R483. -/
abbrev Reg.PW_CFG : Nat := 0x10014
abbrev F.PW_CFG_WARN_CAP_W : Field := ⟨Reg.PW_CFG, 0, 11, 0x578⟩
abbrev F.PW_CFG_RAMP_MS : Field := ⟨Reg.PW_CFG, 16, 6, 0x14⟩
/-- `PW_COUNTS`, 32 bits; 16 R483. -/
abbrev Reg.PW_COUNTS : Nat := 0x10018
abbrev F.PW_COUNTS_WARNINGS : Field := ⟨Reg.PW_COUNTS, 0, 16, 0⟩
abbrev F.PW_COUNTS_THROTTLES : Field := ⟨Reg.PW_COUNTS, 16, 16, 0⟩
/-- `RS_CAUSE`, 64 bits; 16 R483. -/
abbrev Reg.RS_CAUSE : Nat := 0x10020
abbrev F.RS_CAUSE_POWER_ON : Field := ⟨Reg.RS_CAUSE, 0, 1, 1⟩
abbrev F.RS_CAUSE_MRST_EXT : Field := ⟨Reg.RS_CAUSE, 1, 1, 0⟩
abbrev F.RS_CAUSE_MODULE_WATCHDOG : Field := ⟨Reg.RS_CAUSE, 2, 1, 0⟩
abbrev F.RS_CAUSE_SOFTWARE : Field := ⟨Reg.RS_CAUSE, 3, 1, 0⟩
abbrev F.RS_CAUSE_DEBUG : Field := ⟨Reg.RS_CAUSE, 4, 1, 0⟩
abbrev F.RS_CAUSE_REFCLK : Field := ⟨Reg.RS_CAUSE, 5, 1, 0⟩
abbrev F.RS_CAUSE_CP_ESCALATION : Field := ⟨Reg.RS_CAUSE, 6, 1, 0⟩
abbrev F.RS_CAUSE_CRITICAL_ESCALATION : Field := ⟨Reg.RS_CAUSE, 7, 1, 0⟩
abbrev F.RS_CAUSE_OWN_DRIVE : Field := ⟨Reg.RS_CAUSE, 8, 1, 0⟩
/-- `RS_HELD`, 64 bits; 16 R483. -/
abbrev Reg.RS_HELD : Nat := 0x10028
abbrev F.RS_HELD_HUB : Field := ⟨Reg.RS_HELD, 0, 1, 0⟩
abbrev F.RS_HELD_QUARTER : Field := ⟨Reg.RS_HELD, 1, 4, 0⟩
abbrev F.RS_HELD_CP : Field := ⟨Reg.RS_HELD, 5, 1, 0⟩
abbrev F.RS_HELD_CONJUGATOR : Field := ⟨Reg.RS_HELD, 6, 1, 0⟩
abbrev F.RS_HELD_PORT : Field := ⟨Reg.RS_HELD, 7, 8, 0⟩
abbrev F.RS_HELD_HBM : Field := ⟨Reg.RS_HELD, 15, 16, 0⟩
/-- `RS_CLHELD`, 64 bits; 16 R483. -/
abbrev Reg.RS_CLHELD (i : Nat) : Nat := 0x10030 + 0x8 * i
abbrev F.RS_CLHELD_CLUSTER (i : Nat) : Field := ⟨Reg.RS_CLHELD i, 0, 64, 0⟩
/-- `RS_ESCALATE`, 32 bits; 16 R483. -/
abbrev Reg.RS_ESCALATE : Nat := 0x10058
abbrev F.RS_ESCALATE_CP_LOCKUPS : Field := ⟨Reg.RS_ESCALATE, 0, 8, 0⟩
abbrev F.RS_ESCALATE_CRITICAL : Field := ⟨Reg.RS_ESCALATE, 8, 8, 0⟩
/-- `RS_MRST`, 32 bits; 16 R483. -/
abbrev Reg.RS_MRST : Nat := 0x1005c
abbrev F.RS_MRST_EXT_ASSERTIONS : Field := ⟨Reg.RS_MRST, 0, 16, 0⟩
abbrev F.RS_MRST_LEVEL : Field := ⟨Reg.RS_MRST, 16, 1, 1⟩
/-- `SC_STATUS`, 32 bits; 17 R503. -/
abbrev Reg.SC_STATUS : Nat := 0x40000
abbrev F.SC_STATUS_SVN : Field := ⟨Reg.SC_STATUS, 0, 7, 0⟩
abbrev F.SC_STATUS_SLOT : Field := ⟨Reg.SC_STATUS, 7, 1, 0⟩
abbrev F.SC_STATUS_REVOKED : Field := ⟨Reg.SC_STATUS, 8, 1, 0⟩
abbrev F.SC_STATUS_DEBUG_LEVEL : Field := ⟨Reg.SC_STATUS, 9, 2, 0⟩
/-- `SC_KEYS`, 64 bits; 17 R503. -/
abbrev Reg.SC_KEYS : Nat := 0x40008
abbrev F.SC_KEYS_OCCUPIED : Field := ⟨Reg.SC_KEYS, 0, 64, 0⟩
/-- `SC_SPDM_CTRL`, 32 bits; 17 R503. -/
abbrev Reg.SC_SPDM_CTRL : Nat := 0x40010
abbrev F.SC_SPDM_CTRL_LEN : Field := ⟨Reg.SC_SPDM_CTRL, 0, 13, 0⟩
abbrev F.SC_SPDM_CTRL_GO : Field := ⟨Reg.SC_SPDM_CTRL, 13, 1, 0⟩
/-- `ER_CTRL`, 32 bits; 18 R523. -/
abbrev Reg.ER_CTRL : Nat := 0x50000
abbrev F.ER_CTRL_ALERT_CLASS : Field := ⟨Reg.ER_CTRL, 0, 3, 3⟩
abbrev F.ER_CTRL_PLDM_CLASS : Field := ⟨Reg.ER_CTRL, 3, 3, 2⟩
abbrev F.ER_CTRL_INJECT_EN : Field := ⟨Reg.ER_CTRL, 6, 1, 0⟩
abbrev F.ER_CTRL_LOCK : Field := ⟨Reg.ER_CTRL, 7, 1, 0⟩
/-- `ER_STATUS`, 32 bits; 18 R523. -/
abbrev Reg.ER_STATUS : Nat := 0x50004
abbrev F.ER_STATUS_ALERT : Field := ⟨Reg.ER_STATUS, 0, 1, 0⟩
abbrev F.ER_STATUS_PLDM_LOST : Field := ⟨Reg.ER_STATUS, 8, 8, 0⟩
abbrev F.ER_STATUS_PLDM_QUEUED : Field := ⟨Reg.ER_STATUS, 16, 6, 0⟩
/-- `ER_CRITICAL`, 32 bits; 18 R523. -/
abbrev Reg.ER_CRITICAL : Nat := 0x50008
abbrev F.ER_CRITICAL_STRUCTURE : Field := ⟨Reg.ER_CRITICAL, 0, 8, 0⟩
abbrev F.ER_CRITICAL_INSTANCE : Field := ⟨Reg.ER_CRITICAL, 8, 24, 0⟩
/-- `ER_CLASS`, 32 bits; 18 R523. -/
abbrev Reg.ER_CLASS (i : Nat) : Nat := 0x50010 + 0x4 * i
abbrev F.ER_CLASS_COUNT (i : Nat) : Field := ⟨Reg.ER_CLASS i, 0, 32, 0⟩
/-- `ER_SRAM_ECC`, 32 bits; 18 R523. -/
abbrev Reg.ER_SRAM_ECC (i : Nat) : Nat := 0x50030 + 0x4 * i
abbrev F.ER_SRAM_ECC_CORRECTED (i : Nat) : Field := ⟨Reg.ER_SRAM_ECC i, 0, 16, 0⟩
abbrev F.ER_SRAM_ECC_UNCORRECTABLE (i : Nat) : Field := ⟨Reg.ER_SRAM_ECC i, 16, 16, 0⟩
/-- `TM_TEMP`, 32 bits; 18 R523. -/
abbrev Reg.TM_TEMP (i : Nat) : Nat := 0x50040 + 0x4 * i
abbrev F.TM_TEMP_CURRENT (i : Nat) : Field := ⟨Reg.TM_TEMP i, 0, 8, 0⟩
abbrev F.TM_TEMP_PEAK (i : Nat) : Field := ⟨Reg.TM_TEMP i, 8, 8, 0⟩
/-- `TM_RAIL`, 32 bits; 18 R523. -/
abbrev Reg.TM_RAIL (i : Nat) : Nat := 0x50060 + 0x4 * i
abbrev F.TM_RAIL_MV (i : Nat) : Field := ⟨Reg.TM_RAIL i, 0, 16, 0⟩
/-- `TM_SLACK`, 32 bits; 18 R523. -/
abbrev Reg.TM_SLACK (i : Nat) : Nat := 0x50080 + 0x4 * i
abbrev F.TM_SLACK_MIN_US (i : Nat) : Field := ⟨Reg.TM_SLACK i, 0, 32, 0xffffffff⟩
/-- `ID_DEVICE`, 32 bits; 19 R526. -/
abbrev Reg.ID_DEVICE : Nat := 0x0
abbrev F.ID_DEVICE_VENDOR : Field := ⟨Reg.ID_DEVICE, 0, 16, 0xe70⟩
abbrev F.ID_DEVICE_DEVICE : Field := ⟨Reg.ID_DEVICE, 16, 16, 0x5a09⟩
/-- `ID_REVISION`, 32 bits; 19 R526. -/
abbrev Reg.ID_REVISION : Nat := 0x4
abbrev F.ID_REVISION_STEPPING : Field := ⟨Reg.ID_REVISION, 0, 8, 0xa0⟩
abbrev F.ID_REVISION_PACKAGE : Field := ⟨Reg.ID_REVISION, 8, 8, 1⟩
/-- `ID_UNIT`, 64 bits; 19 R526. -/
abbrev Reg.ID_UNIT : Nat := 0x8
abbrev F.ID_UNIT_UNIT_ID : Field := ⟨Reg.ID_UNIT, 0, 64, 0⟩
/-- `ID_CAP_HEAD`, 32 bits; 19 R526. -/
abbrev Reg.ID_CAP_HEAD : Nat := 0x10
abbrev F.ID_CAP_HEAD_HEAD : Field := ⟨Reg.ID_CAP_HEAD, 0, 16, 0x20⟩
/-- The REVOKED field of the Security capability (R504, R528). -/
abbrev F.CAP_SECURITY_REVOKED : Field := ⟨0x18C, 0, 1, 0⟩
/-- Word `i` of the SPDM mailbox. -/
abbrev F.SC_SPDM_BUF (i : Nat) : Field := ⟨0x41000 + 4 * i, 0, 32, 0⟩

/-! ## Registers by block -/

/-- The `PC_` registers (02 (registers after R56)). -/
def Reg.rowsPC : List RegRow := [
  ⟨"PC_CTRL", 0x20000, 0x0, 1, 0x0, 1, 4, .m, .hub,
    [⟨0, 1, .rw, 0⟩, ⟨1, 1, .rw, 0⟩, ⟨2, 1, .rw, 0⟩, ⟨3, 1, .rw, 0⟩, ⟨4, 1, .rw, 0⟩]⟩,
  ⟨"PC_STATUS", 0x20004, 0x0, 1, 0x0, 1, 4, .m, .hub,
    [⟨0, 3, .ro, 0⟩, ⟨3, 1, .ro, 0⟩, ⟨4, 1, .ro, 0⟩, ⟨5, 1, .ro, 0⟩, ⟨6, 1, .ro, 0⟩, ⟨7, 1, .ro, 0⟩, ⟨16, 16, .ro, 0⟩]⟩,
  ⟨"PC_FTIME", 0x20008, 0x0, 1, 0x0, 1, 8, .m, .hub,
    [⟨0, 64, .ro, 0⟩]⟩,
  ⟨"PC_PERIOD", 0x20010, 0x0, 1, 0x0, 1, 8, .m, .hub,
    [⟨0, 48, .ro, 0⟩, ⟨48, 8, .ro, 0⟩]⟩,
  ⟨"PC_COMMITTED", 0x20018, 0x0, 1, 0x0, 1, 8, .m, .hub,
    [⟨0, 48, .ro, 0xffffffffffff⟩]⟩,
  ⟨"PC_TICK", 0x20020, 0x0, 1, 0x0, 1, 8, .m, .hub,
    [⟨0, 64, .ro, 0⟩]⟩,
  ⟨"PC_CURSOR", 0x20028, 0x0, 1, 0x0, 1, 8, .m, .hub,
    [⟨0, 64, .ro, 0⟩]⟩,
  ⟨"PC_GUARD", 0x20030, 0x0, 1, 0x0, 1, 4, .m, .hub,
    [⟨0, 20, .rw, 0x3e8⟩]⟩,
  ⟨"PC_OFFSET", 0x20034, 0x0, 1, 0x0, 1, 4, .m, .hub,
    [⟨0, 32, .ro, 0⟩]⟩,
  ⟨"PC_MISS", 0x20038, 0x0, 1, 0x0, 1, 4, .m, .hub,
    [⟨0, 16, .w1c, 0⟩, ⟨16, 16, .w1c, 0⟩]⟩,
  ⟨"PC_OVERRUNS", 0x2003c, 0x0, 1, 0x0, 1, 4, .m, .hub,
    [⟨0, 32, .rc, 0⟩]⟩,
  ⟨"PC_TREF", 0x20064, 0x0, 1, 0x0, 1, 4, .m, .hub,
    [⟨0, 11, .ro, 0⟩, ⟨11, 1, .ro, 0⟩]⟩]

/-- The `RR_` registers (02 (registers after R56)). -/
def Reg.rowsRR : List RegRow := [
  ⟨"RR_BASE", 0x20040, 0x0, 1, 0x0, 1, 8, .m, .hub,
    [⟨0, 48, .rwl, 0x5ff0000000⟩]⟩,
  ⟨"RR_CTRL", 0x20048, 0x0, 1, 0x0, 1, 4, .m, .hub,
    [⟨0, 1, .rw, 1⟩, ⟨1, 1, .rw, 0⟩, ⟨2, 3, .rwl, 4⟩, ⟨5, 1, .w1s, 0⟩]⟩,
  ⟨"RR_WPTR", 0x20050, 0x0, 1, 0x0, 1, 8, .m, .hub,
    [⟨0, 64, .ro, 0⟩]⟩,
  ⟨"RR_OLDEST", 0x20058, 0x0, 1, 0x0, 1, 8, .m, .hub,
    [⟨0, 48, .ro, 0xffffffffffff⟩]⟩,
  ⟨"RR_MISMATCH", 0x20060, 0x0, 1, 0x0, 1, 4, .m, .hub,
    [⟨0, 32, .rc, 0⟩]⟩]

/-- The `QC_` registers (04 R143). -/
def Reg.rowsQC : List RegRow := [
  ⟨"QC_STATUS", 0x100000, 0x100000, 4, 0x0, 1, 4, .p, .quarter,
    [⟨0, 7, .ro, 0⟩, ⟨7, 3, .ro, 0⟩, ⟨10, 7, .ro, 0⟩]⟩,
  ⟨"QC_RETIRED", 0x100008, 0x100000, 4, 0x0, 1, 8, .p, .quarter,
    [⟨0, 64, .ro, 0⟩]⟩,
  ⟨"QC_RETIRED_HI", 0x100010, 0x100000, 4, 0x0, 1, 4, .p, .quarter,
    [⟨0, 2, .ro, 0⟩]⟩,
  ⟨"QC_RETIRE_REQ", 0x100014, 0x100000, 4, 0x0, 1, 4, .p, .quarter,
    [⟨0, 7, .wo, 0⟩, ⟨7, 1, .wo, 0⟩]⟩,
  ⟨"QC_RESIDUE", 0x100018, 0x100000, 4, 0x0, 1, 4, .p, .quarter,
    [⟨0, 16, .rc, 0⟩, ⟨16, 16, .rc, 0⟩]⟩,
  ⟨"QC_LMAP", 0x100100, 0x100000, 4, 0x4, 16, 4, .p, .quarter,
    [⟨0, 7, .ro, 0⟩, ⟨7, 1, .ro, 0⟩, ⟨8, 7, .ro, 0⟩, ⟨15, 1, .ro, 0⟩, ⟨16, 7, .ro, 0⟩, ⟨23, 1, .ro, 0⟩, ⟨24, 7, .ro, 0⟩, ⟨31, 1, .ro, 0⟩]⟩]

/-- The `BW_` registers (05 R171). -/
def Reg.rowsBW : List RegRow := [
  ⟨"BW_DEFER", 0x20200, 0x0, 1, 0x0, 1, 8, .m, .hub,
    [⟨0, 64, .rw, 0⟩]⟩,
  ⟨"BW_QUEUE", 0x20208, 0x0, 1, 0x0, 1, 4, .m, .hub,
    [⟨0, 11, .ro, 0⟩, ⟨16, 11, .rc, 0⟩]⟩,
  ⟨"BW_MASK_BASE", 0x20210, 0x0, 1, 0x0, 1, 8, .m, .hub,
    [⟨0, 48, .rw, 0⟩]⟩,
  ⟨"BW_MASK", 0x20218, 0x0, 1, 0x0, 1, 4, .m, .hub,
    [⟨0, 11, .rw, 0⟩]⟩,
  ⟨"BW_TIE_STATUS", 0x2021c, 0x0, 1, 0x0, 1, 4, .m, .hub,
    [⟨0, 16, .ro, 0⟩]⟩,
  ⟨"BW_TIE", 0x20240, 0x4, 64, 0x0, 1, 4, .m, .hub,
    [⟨0, 16, .rw, 0⟩, ⟨16, 4, .rw, 0⟩, ⟨20, 5, .rw, 0⟩, ⟨31, 1, .rw, 0⟩]⟩]

/-- The `SO_` registers (05 R171). -/
def Reg.rowsSO : List RegRow := [
  ⟨"SO_CTRL", 0x20340, 0x0, 1, 0x0, 1, 4, .m, .hub,
    [⟨0, 1, .rw, 0⟩]⟩,
  ⟨"SO_DATASET", 0x20348, 0x0, 1, 0x0, 1, 8, .m, .hub,
    [⟨0, 48, .rw, 0⟩]⟩,
  ⟨"SO_BATCH", 0x20350, 0x0, 1, 0x0, 1, 4, .m, .hub,
    [⟨0, 32, .rw, 0⟩]⟩,
  ⟨"SO_DP", 0x20354, 0x0, 1, 0x0, 1, 4, .m, .hub,
    [⟨0, 3, .rw, 0⟩, ⟨8, 8, .rw, 0⟩, ⟨16, 8, .rw, 0⟩, ⟨24, 8, .rw, 0⟩]⟩,
  ⟨"SO_LIST_BASE", 0x20358, 0x0, 1, 0x0, 1, 8, .m, .hub,
    [⟨0, 48, .rw, 0⟩]⟩,
  ⟨"SO_STATUS", 0x20360, 0x0, 1, 0x0, 1, 8, .m, .hub,
    [⟨0, 48, .ro, 0xffffffffffff⟩, ⟨48, 1, .w1c, 0⟩]⟩,
  ⟨"SO_RANK", 0x20368, 0x0, 1, 0x0, 1, 4, .m, .hub,
    [⟨0, 24, .ro, 0⟩]⟩]

/-- The `EV_` registers (05 R171). -/
def Reg.rowsEV : List RegRow := [
  ⟨"EV_FENCE_BASE", 0x20380, 0x10, 8, 0x0, 1, 8, .m, .hub,
    [⟨0, 48, .rw, 0⟩]⟩,
  ⟨"EV_FENCE_LIMIT", 0x20388, 0x10, 8, 0x0, 1, 8, .m, .hub,
    [⟨0, 48, .rw, 0⟩]⟩,
  ⟨"EV_RECORD", 0x20400, 0x0, 1, 0x0, 1, 8, .m, .hub,
    [⟨0, 48, .rw, 0⟩]⟩]

/-- The `CJ_` registers (07 R222). -/
def Reg.rowsCJ : List RegRow := [
  ⟨"CJ_CTRL", 0x500000, 0x0, 1, 0x0, 1, 4, .m, .conj,
    [⟨0, 8, .rw, 3⟩]⟩,
  ⟨"CJ_STATUS", 0x500004, 0x0, 1, 0x0, 1, 4, .m, .conj,
    [⟨0, 8, .ro, 0⟩, ⟨8, 1, .ro, 0⟩]⟩,
  ⟨"CJ_CORE_BUSY", 0x500008, 0x0, 1, 0x0, 1, 4, .m, .conj,
    [⟨0, 32, .ro, 0⟩]⟩,
  ⟨"CJ_ROOT_BASE", 0x500010, 0x0, 1, 0x0, 1, 8, .m, .conj,
    [⟨0, 48, .ro, 0⟩]⟩,
  ⟨"CJ_ROOT_COUNT", 0x500018, 0x0, 1, 0x0, 1, 4, .m, .conj,
    [⟨0, 16, .ro, 0⟩]⟩,
  ⟨"CJ_COUNT_OK", 0x500020, 0x0, 1, 0x0, 1, 4, .m, .conj,
    [⟨0, 32, .rc, 0⟩]⟩,
  ⟨"CJ_COUNT_DEADLINE", 0x500024, 0x0, 1, 0x0, 1, 4, .m, .conj,
    [⟨0, 32, .rc, 0⟩]⟩,
  ⟨"CJ_COUNT_COLD", 0x500028, 0x0, 1, 0x0, 1, 4, .m, .conj,
    [⟨0, 32, .rc, 0⟩]⟩,
  ⟨"CJ_COUNT_UNACCEPTED", 0x50002c, 0x0, 1, 0x0, 1, 4, .m, .conj,
    [⟨0, 32, .rc, 0⟩]⟩,
  ⟨"CJ_LAST_MISS", 0x500030, 0x0, 1, 0x0, 1, 4, .m, .conj,
    [⟨0, 16, .ro, 0xffff⟩]⟩,
  ⟨"CJ_BUSY_CYCLES", 0x500038, 0x0, 1, 0x0, 1, 8, .m, .conj,
    [⟨0, 64, .ro, 0⟩]⟩,
  ⟨"CJ_STORE_ECC", 0x500040, 0x0, 1, 0x0, 1, 4, .m, .conj,
    [⟨0, 16, .rc, 0⟩, ⟨16, 16, .rc, 0⟩]⟩]

/-- The `UU_` registers (09 R277). -/
def Reg.rowsUU : List RegRow := [
  ⟨"UU_STATUS", 0x101000, 0x100000, 4, 0x0, 1, 4, .m, .quarter,
    [⟨0, 1, .ro, 0⟩, ⟨1, 1, .ro, 0⟩, ⟨2, 4, .ro, 0⟩]⟩,
  ⟨"UU_BLOCKS", 0x101004, 0x100000, 4, 0x0, 1, 4, .m, .quarter,
    [⟨0, 32, .ro, 0⟩]⟩,
  ⟨"UU_TABLE", 0x101008, 0x100000, 4, 0x0, 1, 8, .m, .quarter,
    [⟨0, 48, .ro, 0⟩]⟩,
  ⟨"UU_LEDGER", 0x101010, 0x100000, 4, 0x0, 1, 8, .m, .quarter,
    [⟨0, 48, .ro, 0⟩]⟩,
  ⟨"UU_COUNTS", 0x101018, 0x100000, 4, 0x0, 1, 8, .m, .quarter,
    [⟨0, 16, .rc, 0⟩, ⟨16, 16, .rc, 0⟩, ⟨32, 32, .rc, 0⟩]⟩]

/-- The `HM_` registers (10 R307). -/
def Reg.rowsHM : List RegRow := [
  ⟨"HM_STATUS", 0x700000, 0x4000, 16, 0x0, 1, 4, .p, .hbm,
    [⟨0, 3, .ro, 0⟩, ⟨3, 1, .ro, 0⟩, ⟨8, 8, .ro, 0⟩]⟩,
  ⟨"HM_ECC", 0x700008, 0x4000, 16, 0x0, 1, 8, .p, .hbm,
    [⟨0, 32, .rc, 0⟩, ⟨32, 16, .rc, 0⟩, ⟨48, 16, .rc, 0⟩]⟩,
  ⟨"HM_ERR_ADDR", 0x700010, 0x4000, 16, 0x0, 1, 8, .p, .hbm,
    [⟨0, 48, .ro, 0⟩]⟩,
  ⟨"HM_SCRUB", 0x700018, 0x4000, 16, 0x0, 1, 4, .p, .hbm,
    [⟨0, 8, .rw, 0x18⟩]⟩]

/-- The `DM_` registers (10 R308). -/
def Reg.rowsDM : List RegRow := [
  ⟨"DM_MAP", 0x800000, 0x0, 1, 0x0, 1, 4, .p, .hub,
    [⟨0, 6, .rwl, 0⟩, ⟨6, 1, .w1s, 0⟩]⟩,
  ⟨"DM_REVERIFY", 0x800060, 0x0, 1, 0x0, 1, 4, .p, .hub,
    [⟨0, 1, .rw, 1⟩, ⟨1, 4, .rw, 2⟩, ⟨16, 16, .rw, 0x258⟩]⟩,
  ⟨"DM_FAIL", 0x800068, 0x0, 1, 0x0, 1, 8, .p, .hub,
    [⟨0, 32, .ro, 0⟩, ⟨32, 2, .ro, 3⟩]⟩,
  ⟨"DM_COUNTS", 0x800070, 0x0, 1, 0x0, 1, 4, .p, .hub,
    [⟨0, 16, .rc, 0⟩, ⟨16, 16, .rc, 0⟩]⟩]

/-- The `TB_` registers (10 R308). -/
def Reg.rowsTB : List RegRow := [
  ⟨"TB_STATE", 0x800008, 0x0, 1, 0x0, 1, 4, .p, .hub,
    [⟨0, 1, .ro, 0⟩, ⟨1, 2, .ro, 0⟩, ⟨3, 2, .ro, 0⟩, ⟨5, 1, .ro, 0⟩]⟩,
  ⟨"TB_AT", 0x800010, 0x0, 1, 0x0, 1, 8, .p, .hub,
    [⟨0, 48, .ro, 0⟩]⟩,
  ⟨"TB_BASE", 0x800020, 0x20, 2, 0x0, 1, 8, .p, .hub,
    [⟨0, 48, .ro, 0⟩]⟩,
  ⟨"TB_LEN", 0x800028, 0x20, 2, 0x0, 1, 8, .p, .hub,
    [⟨0, 64, .ro, 0⟩]⟩,
  ⟨"TB_MANIFEST", 0x800030, 0x20, 2, 0x0, 1, 8, .p, .hub,
    [⟨0, 48, .ro, 0⟩]⟩]

/-- The `GW_` registers (10 R308). -/
def Reg.rowsGW : List RegRow := [
  ⟨"GW_STATE", 0x800078, 0x0, 1, 0x0, 1, 4, .p, .hub,
    [⟨0, 3, .ro, 0⟩]⟩]

/-- The `ZP_` registers (11 R339). -/
def Reg.rowsZP : List RegRow := [
  ⟨"ZP_CTRL", 0x600000, 0x10000, 8, 0x0, 1, 4, .b, .port,
    [⟨0, 1, .rw, 1⟩, ⟨1, 1, .rw, 0⟩, ⟨2, 1, .wo, 0⟩, ⟨3, 1, .rw, 0⟩, ⟨8, 8, .rw, 0x20⟩]⟩,
  ⟨"ZP_STATUS", 0x600004, 0x10000, 8, 0x0, 1, 4, .b, .port,
    [⟨0, 3, .ro, 0⟩, ⟨3, 2, .ro, 0⟩, ⟨5, 4, .ro, 0⟩, ⟨9, 1, .ro, 0⟩, ⟨10, 1, .ro, 0⟩, ⟨11, 1, .ro, 0⟩, ⟨12, 1, .ro, 0⟩]⟩,
  ⟨"ZP_LATENCY", 0x600008, 0x10000, 8, 0x0, 1, 4, .b, .port,
    [⟨0, 24, .ro, 0⟩]⟩,
  ⟨"ZP_PEER_UNIT", 0x600010, 0x10000, 8, 0x0, 1, 8, .b, .port,
    [⟨0, 64, .ro, 0⟩]⟩,
  ⟨"ZP_PEER_BOARD", 0x600018, 0x10000, 8, 0x0, 1, 8, .b, .port,
    [⟨0, 64, .ro, 0⟩]⟩,
  ⟨"ZP_PEER_INFO", 0x600020, 0x10000, 8, 0x0, 1, 8, .b, .port,
    [⟨0, 6, .ro, 0⟩, ⟨8, 8, .ro, 0⟩, ⟨16, 3, .ro, 0⟩, ⟨19, 1, .ro, 0⟩, ⟨20, 24, .ro, 0⟩, ⟨44, 1, .ro, 0⟩]⟩,
  ⟨"ZP_RETRY", 0x600028, 0x10000, 8, 0x0, 1, 8, .b, .port,
    [⟨0, 16, .rc, 0⟩, ⟨16, 16, .rc, 0⟩, ⟨32, 16, .rc, 0⟩, ⟨48, 16, .rc, 0⟩]⟩,
  ⟨"ZP_FEC", 0x600030, 0x10000, 8, 0x0, 1, 8, .b, .port,
    [⟨0, 32, .rc, 0⟩, ⟨32, 32, .rc, 0⟩]⟩,
  ⟨"ZP_LANE_ERR", 0x600100, 0x10000, 8, 0x4, 16, 4, .b, .port,
    [⟨0, 32, .rc, 0⟩]⟩]

/-- The `ZF_` registers (11 R340). -/
def Reg.rowsZF : List RegRow := [
  ⟨"ZF_CTRL", 0x680000, 0x0, 1, 0x0, 1, 4, .m, .hub,
    [⟨0, 1, .w1s, 0⟩]⟩,
  ⟨"ZF_UNIT_ID", 0x680008, 0x0, 1, 0x0, 1, 8, .p, .hub,
    [⟨0, 64, .ro, 0⟩]⟩,
  ⟨"ZF_BOARD_ID", 0x680010, 0x0, 1, 0x0, 1, 8, .m, .hub,
    [⟨0, 64, .rwl, 0⟩]⟩,
  ⟨"ZF_PHYS", 0x680018, 0x0, 1, 0x0, 1, 4, .m, .hub,
    [⟨0, 24, .ro, 0⟩, ⟨24, 1, .ro, 0⟩]⟩,
  ⟨"ZF_PDIM", 0x68001c, 0x0, 1, 0x0, 1, 4, .m, .hub,
    [⟨0, 24, .ro, 0⟩]⟩,
  ⟨"ZF_LOGICAL", 0x680020, 0x0, 1, 0x0, 1, 4, .m, .hub,
    [⟨0, 24, .ro, 0⟩, ⟨24, 1, .ro, 0⟩, ⟨25, 1, .ro, 0⟩]⟩,
  ⟨"ZF_LDIM", 0x680024, 0x0, 1, 0x0, 1, 4, .m, .hub,
    [⟨0, 24, .ro, 0⟩]⟩,
  ⟨"ZF_REMAP_BASE", 0x680028, 0x0, 1, 0x0, 1, 8, .m, .hub,
    [⟨0, 48, .ro, 0⟩]⟩,
  ⟨"ZF_DIRMAP", 0x680030, 0x0, 1, 0x0, 1, 4, .m, .hub,
    [⟨0, 24, .ro, 0x543210⟩]⟩,
  ⟨"ZF_TREE", 0x680034, 0x0, 1, 0x0, 1, 4, .m, .hub,
    [⟨0, 4, .ro, 0xf⟩, ⟨4, 8, .ro, 0⟩, ⟨12, 8, .ro, 0⟩]⟩,
  ⟨"ZF_ERRS", 0x680038, 0x0, 1, 0x0, 1, 8, .m, .hub,
    [⟨0, 16, .rc, 0⟩, ⟨16, 16, .rc, 0⟩, ⟨32, 16, .rc, 0⟩, ⟨48, 16, .rc, 0⟩]⟩,
  ⟨"ZF_BREAK", 0x680040, 0x20, 3, 0x8, 4, 8, .m, .hub,
    [⟨0, 64, .ro, 0⟩]⟩]

/-- The `CE_` registers (12 R366). -/
def Reg.rowsCE : List RegRow := [
  ⟨"CE_STATUS", 0x690000, 0x0, 1, 0x0, 1, 4, .m, .hub,
    [⟨0, 8, .ro, 0⟩, ⟨8, 1, .ro, 0⟩, ⟨9, 1, .ro, 0⟩]⟩,
  ⟨"CE_NOISE_PERIOD", 0x690008, 0x0, 1, 0x0, 1, 8, .m, .hub,
    [⟨0, 48, .ro, 0xffffffffffff⟩]⟩,
  ⟨"CE_NOISE_LOCAL", 0x690010, 0x0, 1, 0x0, 1, 8, .m, .hub,
    [⟨0, 64, .ro, 0⟩]⟩,
  ⟨"CE_NOISE_RED", 0x690018, 0x0, 1, 0x0, 1, 8, .m, .hub,
    [⟨0, 64, .ro, 0⟩]⟩,
  ⟨"CE_COUNTS", 0x690020, 0x0, 1, 0x0, 1, 8, .m, .hub,
    [⟨0, 16, .rc, 0⟩, ⟨16, 16, .rc, 0⟩]⟩]

/-- The `SH_` registers (13 R407). -/
def Reg.rowsSH : List RegRow := [
  ⟨"SH_CTRL", 0x900000, 0x0, 1, 0x0, 1, 4, .m, .hub,
    [⟨0, 13, .rw, 0x10⟩]⟩,
  ⟨"SH_STATUS", 0x900004, 0x0, 1, 0x0, 1, 4, .m, .hub,
    [⟨0, 2, .ro, 0⟩, ⟨2, 3, .ro, 0⟩, ⟨5, 1, .ro, 0⟩, ⟨6, 1, .w1c, 0⟩, ⟨7, 1, .ro, 0⟩]⟩,
  ⟨"SH_BUDDY", 0x900008, 0x0, 1, 0x0, 1, 4, .m, .hub,
    [⟨0, 24, .ro, 0⟩, ⟨24, 1, .ro, 0⟩]⟩,
  ⟨"SH_HOME", 0x90000c, 0x0, 1, 0x0, 1, 4, .m, .hub,
    [⟨0, 24, .ro, 0⟩, ⟨24, 1, .ro, 0⟩]⟩,
  ⟨"SH_DESC", 0x900010, 0x0, 1, 0x0, 1, 8, .m, .hub,
    [⟨0, 48, .ro, 0⟩]⟩,
  ⟨"SH_GLOSS", 0x900018, 0x0, 1, 0x0, 1, 8, .m, .hub,
    [⟨0, 48, .ro, 0⟩]⟩,
  ⟨"SH_SHADOW_PERIOD", 0x900020, 0x0, 1, 0x0, 1, 8, .m, .hub,
    [⟨0, 48, .ro, 0xffffffffffff⟩]⟩,
  ⟨"SH_SEED", 0x900028, 0x0, 1, 0x0, 1, 8, .m, .hub,
    [⟨0, 64, .ro, 0⟩]⟩,
  ⟨"SH_MISMATCH", 0x900030, 0x0, 1, 0x0, 1, 8, .m, .hub,
    [⟨0, 32, .ro, 0xffffffff⟩, ⟨32, 2, .ro, 0⟩]⟩,
  ⟨"SH_COUNTS", 0x900038, 0x0, 1, 0x0, 1, 8, .m, .hub,
    [⟨0, 16, .rc, 0⟩, ⟨16, 16, .rc, 0⟩, ⟨32, 16, .rc, 0⟩, ⟨48, 16, .rc, 0⟩]⟩,
  ⟨"SH_WATCHDOG", 0x900040, 0x0, 1, 0x0, 1, 4, .m, .hub,
    [⟨0, 20, .ro, 0x7d0⟩, ⟨20, 12, .ro, 0⟩]⟩]

/-- The `CP_` registers (14 R440). -/
def Reg.rowsCP : List RegRow := [
  ⟨"CP_CTRL", 0x30000, 0x0, 1, 0x0, 1, 4, .m, .cp,
    [⟨0, 3, .rw, 2⟩]⟩,
  ⟨"CP_STATUS", 0x30004, 0x0, 1, 0x0, 1, 4, .m, .cp,
    [⟨0, 13, .ro, 0⟩, ⟨13, 1, .ro, 0⟩]⟩,
  ⟨"CP_FAULTS", 0x30008, 0x0, 1, 0x0, 1, 8, .m, .cp,
    [⟨0, 64, .ro, 0⟩]⟩,
  ⟨"CP_EVT_BASE", 0x30010, 0x0, 1, 0x0, 1, 8, .m, .cp,
    [⟨0, 48, .rw, 0⟩]⟩,
  ⟨"CP_EVT_CTRL", 0x30018, 0x0, 1, 0x0, 1, 4, .m, .cp,
    [⟨0, 1, .rw, 0⟩, ⟨1, 5, .rw, 6⟩]⟩,
  ⟨"CP_EVT_SEQ", 0x30020, 0x0, 1, 0x0, 1, 8, .m, .cp,
    [⟨0, 48, .ro, 0⟩]⟩,
  ⟨"CP_EVT_ACKED", 0x30028, 0x0, 1, 0x0, 1, 8, .m, .cp,
    [⟨0, 48, .ro, 0⟩]⟩,
  ⟨"CP_EVT_ACK", 0x30030, 0x0, 1, 0x0, 1, 8, .m, .cp,
    [⟨0, 48, .wo, 0⟩]⟩,
  ⟨"CP_EVT_LOST", 0x30038, 0x0, 1, 0x0, 1, 8, .m, .cp,
    [⟨0, 12, .rc, 0⟩, ⟨12, 12, .rc, 0⟩, ⟨24, 12, .rc, 0⟩, ⟨36, 12, .rc, 0⟩, ⟨48, 12, .rc, 0⟩]⟩,
  ⟨"CP_EVT_FATAL", 0x30040, 0x0, 1, 0x0, 1, 4, .m, .cp,
    [⟨0, 16, .rc, 0⟩, ⟨16, 3, .rc, 0⟩, ⟨31, 1, .rc, 0⟩]⟩,
  ⟨"CP_RING_BASE", 0x31000, 0x40, 64, 0x0, 1, 8, .m, .cp,
    [⟨0, 48, .rw, 0⟩]⟩,
  ⟨"CP_RING_CTRL", 0x31008, 0x40, 64, 0x0, 1, 4, .m, .cp,
    [⟨0, 1, .rw, 0⟩, ⟨1, 4, .rw, 0⟩, ⟨16, 16, .rw, 0⟩]⟩,
  ⟨"CP_RING_STATUS", 0x3100c, 0x40, 64, 0x0, 1, 4, .m, .cp,
    [⟨0, 1, .ro, 0⟩, ⟨1, 1, .ro, 0⟩, ⟨2, 1, .ro, 0⟩, ⟨8, 3, .ro, 0⟩, ⟨16, 9, .ro, 0⟩]⟩,
  ⟨"CP_RING_TAIL", 0x31010, 0x40, 64, 0x0, 1, 4, .m, .cp,
    [⟨0, 24, .rw, 0⟩]⟩,
  ⟨"CP_RING_HEAD", 0x31014, 0x40, 64, 0x0, 1, 4, .m, .cp,
    [⟨0, 24, .ro, 0⟩]⟩,
  ⟨"CP_RING_SEQ", 0x31018, 0x40, 64, 0x0, 1, 8, .m, .cp,
    [⟨0, 48, .ro, 0⟩]⟩,
  ⟨"CP_CQ_BASE", 0x31020, 0x40, 64, 0x0, 1, 8, .m, .cp,
    [⟨0, 48, .rw, 0⟩]⟩,
  ⟨"CP_CQ_CTRL", 0x31028, 0x40, 64, 0x0, 1, 4, .m, .cp,
    [⟨0, 5, .rw, 6⟩]⟩,
  ⟨"CP_CQ_HEAD", 0x3102c, 0x40, 64, 0x0, 1, 4, .m, .cp,
    [⟨0, 16, .rw, 0⟩]⟩,
  ⟨"CP_CQ_TAIL", 0x31030, 0x40, 64, 0x0, 1, 4, .m, .cp,
    [⟨0, 16, .ro, 0⟩, ⟨16, 1, .ro, 1⟩]⟩]

/-- The `OXL_` registers (15 R458). -/
def Reg.rowsOXL : List RegRow := [
  ⟨"OXL_CTRL", 0x60000, 0x0, 1, 0x0, 1, 4, .m, .hub,
    [⟨0, 16, .rw, 0x3e8⟩]⟩,
  ⟨"OXL_STATUS", 0x60004, 0x0, 1, 0x0, 1, 4, .m, .hub,
    [⟨0, 2, .ro, 0⟩, ⟨2, 2, .ro, 0⟩, ⟨4, 1, .ro, 0⟩]⟩,
  ⟨"OXL_MEM_LIMIT", 0x60008, 0x0, 1, 0x0, 1, 8, .m, .hub,
    [⟨0, 48, .ro, 0⟩]⟩,
  ⟨"OXL_ERRS", 0x60010, 0x0, 1, 0x0, 1, 8, .m, .hub,
    [⟨0, 16, .rc, 0⟩, ⟨16, 16, .rc, 0⟩, ⟨32, 16, .rc, 0⟩, ⟨48, 16, .rc, 0⟩]⟩,
  ⟨"OXL_LINK", 0x60020, 0x10, 2, 0x0, 1, 8, .m, .hub,
    [⟨0, 32, .rc, 0⟩, ⟨32, 16, .rc, 0⟩, ⟨48, 16, .rc, 0⟩]⟩]

/-- The `PW_` registers (16 R483). -/
def Reg.rowsPW : List RegRow := [
  ⟨"PW_STATUS", 0x10000, 0x0, 1, 0x0, 1, 4, .m, .frame,
    [⟨0, 4, .ro, 3⟩, ⟨4, 1, .ro, 1⟩, ⟨5, 1, .ro, 0⟩, ⟨6, 1, .ro, 0⟩, ⟨7, 1, .ro, 0⟩, ⟨8, 1, .ro, 0⟩, ⟨9, 1, .ro, 0⟩]⟩,
  ⟨"PW_INPUT", 0x10008, 0x0, 1, 0x0, 1, 8, .m, .frame,
    [⟨0, 16, .ro, 0⟩, ⟨16, 16, .ro, 0⟩, ⟨32, 16, .ro, 0⟩]⟩,
  ⟨"PW_CLOCK", 0x10010, 0x0, 1, 0x0, 1, 4, .m, .frame,
    [⟨0, 12, .ro, 0xe10⟩, ⟨16, 8, .ro, 0⟩]⟩,
  ⟨"PW_CFG", 0x10014, 0x0, 1, 0x0, 1, 4, .m, .frame,
    [⟨0, 11, .rw, 0x578⟩, ⟨16, 6, .ro, 0x14⟩]⟩,
  ⟨"PW_COUNTS", 0x10018, 0x0, 1, 0x0, 1, 4, .m, .frame,
    [⟨0, 16, .rc, 0⟩, ⟨16, 16, .rc, 0⟩]⟩]

/-- The `RS_` registers (16 R483). -/
def Reg.rowsRS : List RegRow := [
  ⟨"RS_CAUSE", 0x10020, 0x0, 1, 0x0, 1, 8, .p, .frame,
    [⟨0, 1, .w1c, 1⟩, ⟨1, 1, .w1c, 0⟩, ⟨2, 1, .w1c, 0⟩, ⟨3, 1, .w1c, 0⟩, ⟨4, 1, .w1c, 0⟩, ⟨5, 1, .w1c, 0⟩, ⟨6, 1, .w1c, 0⟩, ⟨7, 1, .w1c, 0⟩, ⟨8, 1, .w1c, 0⟩]⟩,
  ⟨"RS_HELD", 0x10028, 0x0, 1, 0x0, 1, 8, .m, .frame,
    [⟨0, 1, .ro, 0⟩, ⟨1, 4, .ro, 0⟩, ⟨5, 1, .ro, 0⟩, ⟨6, 1, .ro, 0⟩, ⟨7, 8, .ro, 0⟩, ⟨15, 16, .ro, 0⟩]⟩,
  ⟨"RS_CLHELD", 0x10030, 0x8, 5, 0x0, 1, 8, .m, .frame,
    [⟨0, 64, .ro, 0⟩]⟩,
  ⟨"RS_ESCALATE", 0x10058, 0x0, 1, 0x0, 1, 4, .m, .frame,
    [⟨0, 8, .rc, 0⟩, ⟨8, 8, .rc, 0⟩]⟩,
  ⟨"RS_MRST", 0x1005c, 0x0, 1, 0x0, 1, 4, .p, .frame,
    [⟨0, 16, .rc, 0⟩, ⟨16, 1, .ro, 1⟩]⟩]

/-- The `SC_` registers (17 R503). -/
def Reg.rowsSC : List RegRow := [
  ⟨"SC_STATUS", 0x40000, 0x0, 1, 0x0, 1, 4, .m, .hub,
    [⟨0, 7, .ro, 0⟩, ⟨7, 1, .ro, 0⟩, ⟨8, 1, .ro, 0⟩, ⟨9, 2, .ro, 0⟩]⟩,
  ⟨"SC_KEYS", 0x40008, 0x0, 1, 0x0, 1, 8, .m, .hub,
    [⟨0, 64, .ro, 0⟩]⟩,
  ⟨"SC_SPDM_CTRL", 0x40010, 0x0, 1, 0x0, 1, 4, .m, .hub,
    [⟨0, 13, .rw, 0⟩, ⟨13, 1, .w1s, 0⟩]⟩]

/-- The `ER_` registers (18 R523). -/
def Reg.rowsER : List RegRow := [
  ⟨"ER_CTRL", 0x50000, 0x0, 1, 0x0, 1, 4, .m, .hub,
    [⟨0, 3, .rw, 3⟩, ⟨3, 3, .rw, 2⟩, ⟨6, 1, .rwl, 0⟩, ⟨7, 1, .w1s, 0⟩]⟩,
  ⟨"ER_STATUS", 0x50004, 0x0, 1, 0x0, 1, 4, .m, .hub,
    [⟨0, 1, .w1c, 0⟩, ⟨8, 8, .rc, 0⟩, ⟨16, 6, .ro, 0⟩]⟩,
  ⟨"ER_CRITICAL", 0x50008, 0x0, 1, 0x0, 1, 4, .m, .hub,
    [⟨0, 8, .ro, 0⟩, ⟨8, 24, .ro, 0⟩]⟩,
  ⟨"ER_CLASS", 0x50010, 0x4, 5, 0x0, 1, 4, .m, .hub,
    [⟨0, 32, .rc, 0⟩]⟩,
  ⟨"ER_SRAM_ECC", 0x50030, 0x4, 4, 0x0, 1, 4, .m, .hub,
    [⟨0, 16, .rc, 0⟩, ⟨16, 16, .rc, 0⟩]⟩]

/-- The `TM_` registers (18 R523). -/
def Reg.rowsTM : List RegRow := [
  ⟨"TM_TEMP", 0x50040, 0x4, 5, 0x0, 1, 4, .m, .hub,
    [⟨0, 8, .ro, 0⟩, ⟨8, 8, .rc, 0⟩]⟩,
  ⟨"TM_RAIL", 0x50060, 0x4, 5, 0x0, 1, 4, .m, .hub,
    [⟨0, 16, .ro, 0⟩]⟩,
  ⟨"TM_SLACK", 0x50080, 0x4, 16, 0x0, 1, 4, .m, .hub,
    [⟨0, 32, .rc, 0xffffffff⟩]⟩]

/-- The `ID_` registers (19 R526). -/
def Reg.rowsID : List RegRow := [
  ⟨"ID_DEVICE", 0x0, 0x0, 1, 0x0, 1, 4, .p, .frame,
    [⟨0, 16, .ro, 0xe70⟩, ⟨16, 16, .ro, 0x5a09⟩]⟩,
  ⟨"ID_REVISION", 0x4, 0x0, 1, 0x0, 1, 4, .p, .frame,
    [⟨0, 8, .ro, 0xa0⟩, ⟨8, 8, .ro, 1⟩]⟩,
  ⟨"ID_UNIT", 0x8, 0x0, 1, 0x0, 1, 8, .p, .frame,
    [⟨0, 64, .ro, 0⟩]⟩,
  ⟨"ID_CAP_HEAD", 0x10, 0x0, 1, 0x0, 1, 4, .p, .frame,
    [⟨0, 16, .ro, 0x20⟩]⟩]

/-- The capability list (R527 to R535, and the rules R530 names). -/
def Reg.rowsCAP : List RegRow := [
  ⟨"CAP_IDENTITY_HEAD", 0x100, 0x0, 1, 0x0, 1, 8, .p, .frame,
    [⟨0, 8, .ro, 1⟩, ⟨8, 8, .ro, 1⟩, ⟨16, 16, .ro, 0x22⟩, ⟨32, 16, .ro, 0x10⟩]⟩,
  ⟨"CAP_IDENTITY_LOW", 0x108, 0x0, 1, 0x0, 1, 4, .p, .frame,
    [⟨0, 16, .ro, 0x5a09⟩, ⟨16, 8, .ro, 0xa0⟩, ⟨24, 8, .ro, 0xe⟩]⟩,
  ⟨"CAP_IDENTITY_HIGH", 0x10c, 0x0, 1, 0x0, 1, 4, .p, .frame,
    [⟨0, 8, .ro, 0xe⟩, ⟨8, 8, .ro, 0x40⟩, ⟨16, 16, .ro, 0x8000⟩]⟩,
  ⟨"CAP_NUMERICS_HEAD", 0x110, 0x0, 1, 0x0, 1, 8, .p, .frame,
    [⟨0, 8, .ro, 2⟩, ⟨8, 8, .ro, 1⟩, ⟨16, 16, .ro, 0x24⟩, ⟨32, 16, .ro, 0x10⟩]⟩,
  ⟨"CAP_NUMERICS_LOW", 0x118, 0x0, 1, 0x0, 1, 4, .p, .frame,
    [⟨0, 16, .ro, 0x103⟩, ⟨16, 12, .ro, 0xfff⟩]⟩,
  ⟨"CAP_NUMERICS_HIGH", 0x11c, 0x0, 1, 0x0, 1, 4, .p, .frame,
    [⟨0, 5, .ro, 0x1f⟩, ⟨8, 8, .ro, 0x20⟩, ⟨16, 16, .ro, 0x1000⟩]⟩,
  ⟨"CAP_CLUSTERS_HEAD", 0x120, 0x0, 1, 0x0, 1, 8, .p, .frame,
    [⟨0, 8, .ro, 3⟩, ⟨8, 8, .ro, 1⟩, ⟨16, 16, .ro, 0x26⟩, ⟨32, 16, .ro, 0x10⟩]⟩,
  ⟨"CAP_CLUSTERS_LOW", 0x128, 0x0, 1, 0x0, 1, 4, .p, .frame,
    [⟨0, 8, .ro, 4⟩, ⟨8, 8, .ro, 0x42⟩, ⟨16, 8, .ro, 0x40⟩, ⟨24, 8, .ro, 0x40⟩]⟩,
  ⟨"CAP_CLUSTERS_HIGH", 0x12c, 0x0, 1, 0x0, 1, 4, .p, .frame,
    [⟨0, 16, .ro, 0x1000⟩, ⟨16, 16, .ro, 0x200⟩]⟩,
  ⟨"CAP_CONJUGATOR_HEAD", 0x130, 0x0, 1, 0x0, 1, 8, .p, .frame,
    [⟨0, 8, .ro, 4⟩, ⟨8, 8, .ro, 1⟩, ⟨16, 16, .ro, 0x28⟩, ⟨32, 16, .ro, 0x10⟩]⟩,
  ⟨"CAP_CONJUGATOR_LOW", 0x138, 0x0, 1, 0x0, 1, 4, .p, .frame,
    [⟨0, 8, .ro, 0x20⟩, ⟨8, 8, .ro, 0x10⟩, ⟨16, 16, .ro, 0x3fe⟩]⟩,
  ⟨"CAP_CONJUGATOR_HIGH", 0x13c, 0x0, 1, 0x0, 1, 4, .p, .frame,
    [⟨0, 8, .ro, 0x1e⟩, ⟨8, 8, .ro, 0x10⟩, ⟨16, 16, .ro, 0x80⟩]⟩,
  ⟨"CAP_FABRIC_HEAD", 0x140, 0x0, 1, 0x0, 1, 8, .p, .frame,
    [⟨0, 8, .ro, 5⟩, ⟨8, 8, .ro, 1⟩, ⟨16, 16, .ro, 0x2a⟩, ⟨32, 16, .ro, 0x10⟩]⟩,
  ⟨"CAP_FABRIC_LOW", 0x148, 0x0, 1, 0x0, 1, 4, .p, .frame,
    [⟨0, 8, .ro, 8⟩, ⟨8, 8, .ro, 0x10⟩, ⟨16, 8, .ro, 4⟩, ⟨24, 8, .ro, 0x6e⟩]⟩,
  ⟨"CAP_FABRIC_HIGH", 0x14c, 0x0, 1, 0x0, 1, 4, .p, .frame,
    [⟨0, 16, .ro, 0x1111⟩, ⟨16, 16, .ro, 0x1111⟩]⟩,
  ⟨"CAP_MEMORY_HEAD", 0x150, 0x0, 1, 0x0, 1, 8, .p, .frame,
    [⟨0, 8, .ro, 6⟩, ⟨8, 8, .ro, 1⟩, ⟨16, 16, .ro, 0x2c⟩, ⟨32, 16, .ro, 0x10⟩]⟩,
  ⟨"CAP_MEMORY_LOW", 0x158, 0x0, 1, 0x0, 1, 4, .p, .frame,
    [⟨0, 16, .ro, 0x180⟩, ⟨16, 8, .ro, 0x10⟩, ⟨24, 8, .ro, 6⟩]⟩,
  ⟨"CAP_MEMORY_HIGH", 0x15c, 0x0, 1, 0x0, 1, 4, .p, .frame,
    [⟨0, 16, .ro, 0x40⟩, ⟨16, 8, .ro, 0x10⟩, ⟨24, 8, .ro, 3⟩]⟩,
  ⟨"CAP_PERIOD_HEAD", 0x160, 0x0, 1, 0x0, 1, 8, .p, .frame,
    [⟨0, 8, .ro, 7⟩, ⟨8, 8, .ro, 1⟩, ⟨16, 16, .ro, 0x2e⟩, ⟨32, 16, .ro, 0x10⟩]⟩,
  ⟨"CAP_PERIOD_LOW", 0x168, 0x0, 1, 0x0, 1, 4, .p, .frame,
    [⟨0, 8, .ro, 0x10⟩, ⟨8, 1, .ro, 1⟩, ⟨9, 1, .ro, 1⟩, ⟨16, 16, .ro, 0xfa⟩]⟩,
  ⟨"CAP_PERIOD_HIGH", 0x16c, 0x0, 1, 0x0, 1, 4, .p, .frame,
    [⟨0, 16, .ro, 1⟩, ⟨16, 16, .ro, 0x3c⟩]⟩,
  ⟨"CAP_SHADOW_HEAD", 0x170, 0x0, 1, 0x0, 1, 8, .p, .frame,
    [⟨0, 8, .ro, 8⟩, ⟨8, 8, .ro, 1⟩, ⟨16, 16, .ro, 0x30⟩, ⟨32, 16, .ro, 0x10⟩]⟩,
  ⟨"CAP_SHADOW_LOW", 0x178, 0x0, 1, 0x0, 1, 4, .p, .frame,
    [⟨0, 2, .ro, 3⟩, ⟨4, 4, .ro, 2⟩, ⟨8, 4, .ro, 8⟩, ⟨16, 16, .ro, 0x1000⟩]⟩,
  ⟨"CAP_SHADOW_HIGH", 0x17c, 0x0, 1, 0x0, 1, 4, .p, .frame,
    [⟨0, 8, .ro, 0x14⟩, ⟨16, 16, .ro, 0x6e⟩]⟩,
  ⟨"CAP_SECURITY_HEAD", 0x180, 0x0, 1, 0x0, 1, 8, .p, .frame,
    [⟨0, 8, .ro, 9⟩, ⟨8, 8, .ro, 1⟩, ⟨16, 16, .ro, 0x32⟩, ⟨32, 16, .ro, 0x10⟩]⟩,
  ⟨"CAP_SECURITY_LOW", 0x188, 0x0, 1, 0x0, 1, 4, .p, .frame,
    [⟨0, 8, .ro, 0x40⟩, ⟨8, 8, .ro, 0x40⟩, ⟨16, 16, .ro, 0x12⟩]⟩,
  ⟨"CAP_SECURITY_HIGH", 0x18c, 0x0, 1, 0x0, 1, 4, .p, .frame,
    [⟨0, 1, .ro, 0⟩]⟩,
  ⟨"CAP_REPLAY_HEAD", 0x190, 0x0, 1, 0x0, 1, 8, .p, .frame,
    [⟨0, 8, .ro, 0xa⟩, ⟨8, 8, .ro, 1⟩, ⟨16, 16, .ro, 0x34⟩, ⟨32, 16, .ro, 0x10⟩]⟩,
  ⟨"CAP_REPLAY_LOW", 0x198, 0x0, 1, 0x0, 1, 4, .p, .frame,
    [⟨0, 16, .ro, 0x10⟩, ⟨16, 16, .ro, 0x400⟩]⟩,
  ⟨"CAP_REPLAY_HIGH", 0x19c, 0x0, 1, 0x0, 1, 4, .p, .frame,
    [⟨0, 16, .ro, 1⟩, ⟨16, 16, .ro, 0x400⟩]⟩,
  ⟨"CAP_POWER_HEAD", 0x1a0, 0x0, 1, 0x0, 1, 8, .p, .frame,
    [⟨0, 8, .ro, 0xb⟩, ⟨8, 8, .ro, 1⟩, ⟨16, 16, .ro, 0x36⟩, ⟨32, 16, .ro, 0x10⟩]⟩,
  ⟨"CAP_POWER_LOW", 0x1a8, 0x0, 1, 0x0, 1, 4, .p, .frame,
    [⟨0, 16, .ro, 0x7d0⟩, ⟨16, 16, .ro, 0x672⟩]⟩,
  ⟨"CAP_POWER_HIGH", 0x1ac, 0x0, 1, 0x0, 1, 4, .p, .frame,
    [⟨0, 8, .ro, 1⟩, ⟨8, 8, .ro, 0x32⟩, ⟨16, 16, .ro, 0x4b0⟩]⟩,
  ⟨"CAP_OXL_HEAD", 0x1b0, 0x0, 1, 0x0, 1, 8, .p, .frame,
    [⟨0, 8, .ro, 0xc⟩, ⟨8, 8, .ro, 1⟩, ⟨16, 16, .ro, 0x38⟩, ⟨32, 16, .ro, 0x10⟩]⟩,
  ⟨"CAP_OXL_LOW", 0x1b8, 0x0, 1, 0x0, 1, 4, .p, .frame,
    [⟨0, 4, .ro, 2⟩, ⟨4, 8, .ro, 0x10⟩, ⟨12, 8, .ro, 0x40⟩, ⟨20, 8, .ro, 1⟩]⟩,
  ⟨"CAP_OXL_HIGH", 0x1bc, 0x0, 1, 0x0, 1, 4, .p, .frame,
    [⟨0, 16, .ro, 0x1000⟩, ⟨16, 16, .ro, 0x400⟩]⟩,
  ⟨"CAP_DIAGNOSTICS_HEAD", 0x1c0, 0x0, 1, 0x0, 1, 8, .p, .frame,
    [⟨0, 8, .ro, 0xd⟩, ⟨8, 8, .ro, 1⟩, ⟨16, 16, .ro, 0x3a⟩, ⟨32, 16, .ro, 0x10⟩]⟩,
  ⟨"CAP_DIAGNOSTICS_LOW", 0x1c8, 0x0, 1, 0x0, 1, 4, .p, .frame,
    [⟨0, 8, .ro, 0x1a⟩, ⟨8, 8, .ro, 0x7f⟩, ⟨16, 6, .ro, 0x3f⟩]⟩,
  ⟨"CAP_DIAGNOSTICS_HIGH", 0x1cc, 0x0, 1, 0x0, 1, 4, .p, .frame,
    [⟨0, 8, .ro, 0x20⟩, ⟨8, 8, .ro, 0x60⟩]⟩,
  ⟨"CAP_UPDATE_MENU_HEAD", 0x1d0, 0x0, 1, 0x0, 1, 8, .p, .frame,
    [⟨0, 8, .ro, 0xe⟩, ⟨8, 8, .ro, 1⟩, ⟨16, 16, .ro, 0⟩, ⟨32, 16, .ro, 0x10⟩]⟩,
  ⟨"CAP_UPDATE_MENU_LOW", 0x1d8, 0x0, 1, 0x0, 1, 4, .p, .frame,
    [⟨0, 8, .ro, 0x7f⟩, ⟨8, 8, .ro, 4⟩, ⟨16, 16, .ro, 0x100⟩]⟩,
  ⟨"CAP_UPDATE_MENU_HIGH", 0x1dc, 0x0, 1, 0x0, 1, 4, .p, .frame,
    [⟨0, 16, .ro, 0xffff⟩, ⟨16, 8, .ro, 8⟩]⟩]

/-- The SPDM mailbox `SC_SPDM_BUF`, 4 KiB (R503), as 1,024 words of 32 bits; reset 0 is a DESIGN CHOICE (log entry 10). -/
def Reg.rowsBUF : List RegRow := [
  ⟨"SC_SPDM_BUF", 0x41000, 0x4, 1024, 0x0, 1, 4, .m, .hub, [⟨0, 32, .rw, 0⟩]⟩]

/-- Every register of the control window (R525). -/
def Reg.rows : List RegRow :=
  Reg.rowsPC ++ Reg.rowsRR ++ Reg.rowsQC ++ Reg.rowsBW ++ Reg.rowsSO ++ Reg.rowsEV ++ Reg.rowsCJ ++ Reg.rowsUU ++ Reg.rowsHM ++ Reg.rowsDM ++ Reg.rowsTB ++ Reg.rowsGW ++ Reg.rowsZP ++ Reg.rowsZF ++ Reg.rowsCE ++ Reg.rowsSH ++ Reg.rowsCP ++ Reg.rowsOXL ++ Reg.rowsPW ++ Reg.rowsRS ++ Reg.rowsSC ++ Reg.rowsER ++ Reg.rowsTM ++ Reg.rowsID ++ Reg.rowsCAP ++ Reg.rowsBUF

/-! ## Finding a register by its offset -/

/-- The indices at which a row has a register that starts at `a`. -/
def RegRow.indexOf (r : RegRow) (a : Nat) : Option (Nat × Nat) :=
  if a < r.base then none
  else
    let d := a - r.base
    let i := if r.stride1 = 0 then 0 else d / r.stride1
    let d := if r.stride1 = 0 then d else d % r.stride1
    let j := if r.stride2 = 0 then 0 else d / r.stride2
    let d := if r.stride2 = 0 then d else d % r.stride2
    if d = 0 ∧ i < r.n1 ∧ j < r.n2 then some (i, j) else none

/-- The row that has a register starting at `a`, among `rows`, with its indices. -/
def findRow : List RegRow → Nat → Option (RegRow × Nat × Nat)
  | [], _ => none
  | r :: rs, a => match r.indexOf a with
    | some (i, j) => some (r, i, j)
    | none => findRow rs a

/-- The register at offset `a` of the control window. -/
def regAt (a : Nat) : Option (RegRow × Nat × Nat) := findRow Reg.rows a

/-- A field of the register at `a`. -/
def FieldRow.at (f : FieldRow) (a : Nat) : Field := ⟨a, f.lo, f.len, f.reset⟩

end Sys2Proof.Machine
end

