-- ==== Sys2Proof/Machine/State.lean ====
section
/-!
DEFINITION. Machine/State.lean: the state of the module, as plain data, and the state right after reset.

Registers live in one sparse file of fields (`State.regs`): a field not listed holds the value of its table's Reset column.
Everything the module holds beside its registers stands in one structure per subsystem. INVENTORY.md lists every piece.
-/
namespace Sys2Proof.Machine

/-! ## Memory -/

/-- A range whose contents became undefined: addresses `lo` to `hi - 1`, and the draw that names the free bytes there. -/
structure Undef where
  lo   : Nat
  hi   : Nat
  draw : Nat
deriving DecidableEq, Repr

/-- A byte memory: the bytes that differ from what an unlisted address reads as, at rising addresses, and the ranges whose
unlisted addresses read as free bytes (newest first). Every other unlisted address reads as 0 (R287; log entry 1). -/
structure Mem where
  cells : List Host.Cell
  undef : List Undef
deriving DecidableEq, Repr

/-- The free byte of the newest undefined range that holds `a`, or 0: what an unlisted address reads as. -/
def undefAt : List Undef → Nat → Byte
  | [], _ => 0
  | u :: us, a => if u.lo ≤ a ∧ a < u.hi then Config.freeByte u.draw a else undefAt us a

/-- What the unlisted address `a` of `m` reads as. -/
def Mem.default (m : Mem) (a : Nat) : Byte := undefAt m.undef a

/-- The canonical form of a memory: addresses strictly rising, and no listed byte equal to what it would read as unlisted. -/
def Mem.wf (m : Mem) : Bool := alRising m.cells && m.cells.all (fun c => decide (c.2 ≠ m.default c.1))

/-- An armed error (R522, R555). -/
structure Injection where
  kind    : Nat
  store   : Nat
  index   : Nat
  address : Nat
deriving DecidableEq, Repr

/-! ## Commands in hand and the command processor (chapters 05, 14) -/

/-- A command in hand: what its completion record will name. -/
structure CmdRef where
  ring      : Nat
  seq       : Nat
  tag       : Nat
  opcode    : Nat
  interrupt : Bool
  start     : Nat
deriving DecidableEq, Repr

/-- How a command ended. -/
structure Done where
  status : Nat
  flags  : Nat
  result : Nat
deriving DecidableEq, Repr

/-- Where a command that has been read stands. -/
inductive FlightPhase where
  | waiting      -- on its ring
  | deferred     -- in the deferred weight-gradient queue (R145)
  | dispatched   -- handed to its subsystem
deriving DecidableEq, Repr

/-- A command that has been read and has not ended (R414). `cmd` is what its packet decodes to; without one, `status` is the
status its dispatch completes it with (R14, R416, R417). `attach` is its Clause instance (p, c) under R422. `fromDefer`: its ring was a
deferred ring when it was read (R144). `ports`: the fabric ports that its transfers have used (R406). -/
structure Flight where
  ref     : CmdRef
  order   : Bool
  close   : Bool
  bound   : Bool
  clause  : Nat
  notBefore : Option Nat
  attach  : Option (Nat × Nat)
  phase   : FlightPhase
  cmd     : Option Instr
  status  : Nat
  fromDefer : Bool
  ports   : List Nat
deriving DecidableEq, Repr

/-- A command that has ended and waits for its completion record. `noted`: the Period's record holds an entry of its own kind for it
(R54). `cmd` is the command that a ring carried. -/
structure Ended where
  ref    : CmdRef
  done   : Done
  attach : Option (Nat × Nat)
  noted  : Bool
  cmd    : Option Instr
deriving DecidableEq, Repr

/-- A CLOSE delivered: ring, Period, Clause (R422, R424). -/
structure Closed where
  ring   : Nat
  period : Nat
  clause : Nat
deriving DecidableEq, Repr

/-- Coalescing of CORRECTED records (R509): the last record written with this CODE and INSTANCE, and the events withheld. -/
structure Coalesce where
  code     : Nat
  inst     : Nat
  time     : Nat
  withheld : Nat
deriving DecidableEq, Repr

/-- Counts of lost events by class (R429), kept apart from CP_EVT_LOST. -/
structure LostCounts where
  note        : Nat
  corrected   : Nat
  contained   : Nat
  periodFatal : Nat
  moduleFatal : Nat
deriving DecidableEq, Repr

/-- An event as its source raises it. -/
structure Ev where
  code : Nat
  cls  : Nat
  sub  : Nat
  inst : Nat
  d0   : Nat
  inj  : Bool
  cmd  : Option CmdRef
deriving DecidableEq, Repr

/-- An event whose record waits behind one that is on its way to the companion, or that is on its way itself (R429): the time and the
Period in which it arose, and whether the EVENT_OVERFLOW record before it has been tried. -/
structure EvWait where
  ev     : Ev
  time   : Nat
  period : Nat
  tried  : Bool
deriving DecidableEq, Repr

/-- The record that a message to the companion carries (R429). -/
inductive RecordTag where
  | event (w : EvWait)
  | overflow
deriving DecidableEq, Repr

/-- A tie group and a use site: a tied weight-gradient use (R149). -/
structure TieUse where
  group : Nat
  site  : Nat
deriving DecidableEq, Repr

/-- The command processor beside its registers. -/
structure CpState where
  flights    : List Flight
  ended      : List Ended
  closes     : List Closed
  lastServed : Nat
  deferFullNoted : Bool
  tieEntered : List (Nat × TieUse)
  tieDone    : List TieUse
  lost       : LostCounts
  irqArmed   : Bool
  coalesce   : List Coalesce
  evWaits    : List EvWait
deriving DecidableEq, Repr

/-! ## The Period controller (chapter 02) -/

/-- A scheduled tick (R30): from a TICK message, or the master's own. -/
structure TickSched where
  period     : Nat
  start      : Nat
  generation : Nat
  retry      : Bool
  replay     : Bool
  barrier    : Bool
deriving DecidableEq, Repr

/-- What PERIOD_ARM set (R60); `guarded` is the numerics mode that a replayed record sets (R95). -/
structure ArmInfo where
  first     : Nat
  startTime : Nat
  cursor    : Nat
  seed      : Nat
  retry     : Bool
  replay    : Bool
  guarded   : Option Bool
deriving DecidableEq, Repr

/-- The inputs of the running Period. -/
structure RunInfo where
  cursor  : Nat
  seed    : Nat
  retry   : Bool
  replay  : Bool
  barrier : Bool
deriving DecidableEq, Repr

/-- A Clause of the current Period: whether it runs, whether its start and its deadline have passed, when it became complete,
and whether it was abandoned or missed its deadline. -/
structure ClauseRun where
  runs     : Bool
  started  : Bool
  passed   : Bool
  complete : Option Nat
  missed   : Bool
deriving DecidableEq, Repr

/-- An entry of the Period's record (R54). -/
structure RecEntry where
  type   : Nat
  clause : Nat
  tag    : Nat
  time   : Nat
  a      : Nat
  b      : Nat
deriving DecidableEq, Repr

/-- Replay mode (R56): the Period, and where the record of the re-run goes. -/
structure ReplayRun where
  period : Nat
  dest   : Nat
deriving DecidableEq, Repr

/-- A report towards a reduction not yet complete: the child port and its payload (R336); port 8 stands for the module itself. -/
structure ReduceIn where
  port : Nat
  p    : ReducePayload
deriving DecidableEq, Repr

/-- A reduction that this module has already sent up, or completed as master. -/
structure ReduceSent where
  kind   : Nat
  period : Nat
  round  : Nat
deriving DecidableEq, Repr

/-- The TICKREF discipline (R33): the last edge before LOCKED, the fabric time the next edge marks, edges missed in a row. -/
structure TickRef where
  edge    : Option Nat
  mark    : Option Nat
  missing : Nat
deriving DecidableEq, Repr

/-- A masked stage that has run in the Period: the gradient tensor's ID, its mask, and the ranges of the tensor (R157). -/
structure MaskedOut where
  id     : Nat
  mask   : Nat
  len    : Nat
  ranges : List (Nat × Nat)
deriving DecidableEq, Repr

/-- A range that a command bound to an EVALUATE Clause has written: the Clause, the address and the length. -/
structure EvalOut where
  clause : Nat
  addr   : Nat
  len    : Nat
deriving DecidableEq, Repr

/-- The Period controller beside its registers. `haltDue` and `failDue` hold the code of a PERIOD_FATAL or MODULE_FATAL event whose
action (R45, R399, R506) the step that raised it has still to take; between steps they are empty. `upPort` and `downPorts` are the
parent and the children as of the tick (R336), on a spare as of the last TICK. `timeSeen` holds the SEQUENCE numbers of the TIME
messages forwarded (R335). `evalOuts` holds, with their Clause, the ranges that commands of EVALUATE Clauses have written in the Period
(R41). Of a Period with a mask table, `maskIds` holds the tensor IDs of its entries at the tick, `maskWrites` the ranges that software has
written since, and `maskedOuts` the masked stages that have run (R157). -/
structure PdState where
  plan        : Option Plan
  pendingPlan : Option Plan
  arm         : Option ArmInfo
  run         : Option RunInfo
  sched       : Option TickSched
  clauses     : List ClauseRun
  readySent   : Bool
  grantAt     : Option Nat
  reduceIn    : List ReduceIn
  reduceSent  : List ReduceSent
  upPort      : Option Nat
  downPorts   : List Nat
  haltHeld    : Bool
  haltAtEnd   : Bool
  endToken    : Bool
  tokenSent   : Option Nat
  waiters     : List CmdRef
  lastTime    : Nat
  masterId    : Option Nat
  timeSeen    : List Nat
  nextTimeSeq : Nat
  doneAll     : Option Nat
  tref        : TickRef
  entries     : List RecEntry
  entryCount  : Nat
  events      : Nat
  evaluated   : Bool
  evalOuts    : List EvalOut
  maskIds     : List Nat
  maskWrites  : List (Nat × Nat)
  maskedOuts  : List MaskedOut
  fatal       : Bool
  guarded     : Bool
  scanned     : Bool
  replay      : Option ReplayRun
  haltDue     : Option Nat
  failDue     : Option Nat
deriving DecidableEq, Repr

/-! ## Board management (chapter 18) -/

/-- A queued PLDM event (R518): an OEM event with the first 32 bytes of its record, or a sensor's threshold crossing. -/
inductive PldmEvent where
  | oem (cls : Nat) (bytes : List Byte)
  | sensor (id level : Nat)
deriving DecidableEq, Repr

/-- The MCTP endpoint and the PLDM event queue. `levels` holds the sensors that are past a threshold: above it, 1 warning,
2 critical, 3 fatal; below it, 5 warning, 6 critical. -/
structure MgmtState where
  eid      : Nat
  receiver : Option Nat
  queue    : List PldmEvent
  levels   : List (Nat × Nat)
deriving DecidableEq, Repr

/-! ## Power and reset (chapters 16, 20) -/

/-- The release state of a domain that is not ready (R475). -/
inductive DomPhase where
  | reset
  | releasing
deriving DecidableEq, Repr

/-- A domain that is not ready. `debug`: the unlocked debug port holds its reset source (R469). -/
structure DomHeld where
  dom   : Domain
  phase : DomPhase
  debug : Bool
deriving DecidableEq, Repr

/-- Events of one source counted within 1 s of the first (R470). -/
structure Escalation where
  key   : Nat
  first : Nat
  count : Nat
deriving DecidableEq, Repr

/-- A RESET_BLOCK that completes when its target is ready (R482). -/
structure BlockWait where
  cmd : CmdRef
  dom : Domain
deriving DecidableEq, Repr

/-- The bits the module itself has blown into the fuse array; like the array they outlast power (R464). -/
structure Blown where
  retired : List Nat
  svn     : Nat
  revoke  : Bool
deriving DecidableEq, Repr

/-- One measurement of the input (R465, R514). -/
structure InputSample where
  milliVolts   : Nat
  tenMilliAmps : Nat
  deciWatts    : Nat
deriving DecidableEq, Repr

/-- The strap pins as the module sampled them (R541). -/
structure Straps where
  feedTag : BitVec 6
  slotId  : BitVec 8
  strap   : BitVec 4
deriving DecidableEq, Repr

/-- The power and reset controller beside its registers. `lidFailed`: a lid breach keeps the module FAILED until a reset of reach P
(R502). `resetDue` holds the structure and instance of a critical-state error whose reset (R513) the step that found it has still to take;
between steps it is empty. `trained`: the stacks whose PHY training values are held, until a reset of reach P (R288). `samples`: the last
2,000 measurements of the input, newest first: those of 2 ms (R24, R466). -/
structure PwrState where
  held        : List DomHeld
  waits       : List BlockWait
  escalations : List Escalation
  trimTries   : Nat
  fuseLoaded  : Bool
  bootDone    : Bool
  stopped     : Bool
  thermLatch  : Bool
  above10     : Bool
  mrstDriven  : Bool
  lidFailed   : Bool
  blown       : Blown
  resetDue    : List (Nat × Nat)
  trained     : List Nat
  samples     : List InputSample
  straps      : Straps
deriving DecidableEq, Repr

/-! ## Orrex Link (chapter 15) -/

/-- The state of a line in the hub's line buffer. -/
inductive LineState where
  | s | e | m | wb
deriving DecidableEq, Repr

/-- A line of companion memory in the line buffer. -/
structure Line where
  addr  : Nat
  state : LineState
  data  : List Byte
deriving DecidableEq, Repr

/-- A request of the module that has no response yet. -/
inductive OxlKind where
  | readShared | readOwn | readCur | writeback | writeBulk
deriving DecidableEq, Repr

/-- The agent that a request of the module serves: a command, by its ring and number, or the reading of a ring (R411). -/
inductive OxlOwner where
  | command (ring seq : Nat)
  | ring (k : Nat)
deriving DecidableEq, Repr

/-- A request of the module that waits for its response: `len` bytes from companion address `addr` on, with the bytes that it writes; the
agent that it serves; bytes to be merged into a granted line, at their place in it; what stood where it writes; the range of the whole
write that it is a part of, as module addresses; the interrupt vector to send after the ACK (R451); and the event record that it carries
(R429). -/
structure OxlReq where
  tag    : Nat
  link   : Nat
  kind   : OxlKind
  addr   : Nat
  len    : Nat
  data   : List Byte
  owner  : Option OxlOwner
  merge  : Option (Nat × List Byte)
  old    : List Byte
  span   : Nat × Nat
  irq    : Option Nat
  record : Option RecordTag
deriving DecidableEq, Repr

/-- Companion memory that an agent has read or written: `status` is 0, or the STATUS of the response that failed (R447). -/
structure OxlSeen where
  owner  : OxlOwner
  addr   : Nat
  len    : Nat
  status : Nat
deriving DecidableEq, Repr

/-! ## The data mover (chapter 10) -/

/-- A LOAD_SHARD that is running from a stream (R303): the bank, what it expects, and the offset and length of every piece that has
landed. -/
structure LoadRun where
  cmd      : CmdRef
  bank     : Nat
  stream   : Nat
  dst      : Nat
  length   : Nat
  manifest : Nat
  landed   : List (Nat × Nat)
deriving DecidableEq, Repr

/-- GATHER_WINDOW SETUP (R293). -/
structure GatherSetup where
  count     : Nat
  base      : Nat
  slotBytes : Nat
  table     : Nat
deriving DecidableEq, Repr

/-- The data mover beside its registers. -/
structure DmState where
  load   : Option LoadRun
  gather : Option GatherSetup
deriving DecidableEq, Repr

/-! ## The fabric (chapter 11) -/

/-- A retry episode (R321, R322): when it opened, the SEQ it closes at, and its replays. -/
structure Episode where
  opened  : Nat
  upTo    : Nat
  replays : Nat
deriving DecidableEq, Repr

/-- The header of a flit that the module sends (R313). -/
structure FlitHeader where
  type    : Nat
  vc      : Nat
  dl      : Bool
  last    : Bool
  pool    : Bool
  cr      : Nat
  seq     : Nat
  ack     : Nat
  credits : Nat
  dest    : Nat
  src     : Nat
deriving DecidableEq, Repr

/-- A message, an interrupt or a value that leaves the module. -/
inductive OutMsg where
  | interrupt (link vector : Nat)
  | regRead (address value : Nat)
  | time (port : Nat) (p : TimePayload)
  | tick (port : Nat) (p : TickPayload)
  | halt (port : Nat) (p : HaltPayload)
  | reduce (port : Nat) (p : ReducePayload)
  | grant (port : Nat) (p : GrantPayload)
  | discover (port : Nat) (p : DiscoverPayload)
  | linkState (port axis link : Nat) (broken : Bool)
  | echoReq (port t1 : Nat)
  | echoRsp (port t1 t2 t3 : Nat)
  | identReq (port : Nat) (r : Route)
  | identRsp (port : Nat) (r : Route) (p : DiscoverPayload)
  | nak (port seq : Nat)
  | badCrc (port seq : Nat)
  | replay (port seq : Nat)
  | retrain (port lanes : Nat)
  | idle (port : Nat) (h : FlitHeader)
  | collective (port : Nat) (r : Route) (m : CollHdr) (data : List Byte)
  | shadow (port : Nat) (r : Route) (m : ShadowHdr) (data : List Byte)
  | p2p (port : Nat) (r : Route) (m : P2pHdr) (data : List Byte)
  | bulk (port : Nat) (r : Route) (data : List Byte)
  | oxlInit (link : Nat) (unit : Nat)
  | oxlCredit (link cls slots : Nat)
  | oxlRequest (link : Nat) (kind : OxlKind) (tag address len : Nat) (data : List Byte)
  | oxlData (link tag status : Nat) (data : List Byte)
  | oxlAck (link tag status : Nat)
  | snpRsp (link tag : Nat) (shared wbPending : Bool) (data : List Byte)
  | spdm (mailbox : Bool) (data : List Byte)
  | mctp (command completion eid : Nat)
  | pldm (completion : Nat) (data : List Byte)
  | jtag (value : Nat)
  | fuse (word value : Nat)
deriving DecidableEq, Repr

/-- One Orrex Link port beside OXL_STATUS: the credits of the companion that are left, by class; INIT flits sent and received; whether it is
out of L0; and the messages that wait for credits, oldest first (R454). -/
structure OxlLink where
  req      : Nat
  rsp      : Nat
  snp      : Nat
  initSent : Bool
  initGot  : Bool
  outOfL0  : Bool
  queue    : List OutMsg
deriving DecidableEq, Repr

/-- The Orrex Link interface beside its registers: its ports, the requests that have no response, the requests that have no tag yet, the
line buffer, the tag to try next, what each agent has read, the range that the running command must read first, and the failures that
their agents have not met yet. -/
structure OxlState where
  links   : List OxlLink
  pending : List OxlReq
  waiting : List OxlReq
  lines   : List Line
  nextTag : Nat
  seen    : List OxlSeen
  missing : Option (Nat × Nat)
  failed  : List (OxlOwner × Nat)
deriving DecidableEq, Repr

/-- Where a message that is sent on came in: the port, the sub-channel, and how many of its flits stand in shared slots there (R318). -/
structure Origin where
  port   : Nat
  sub    : Nat
  shared : Nat
deriving DecidableEq, Repr

/-- A message that waits at an output port: its sub-channel (none: link-local), its flits, how many of them have been sent, and, when it is
sent on for a peer, where it came in (R315, R317). -/
structure TxMsg where
  m      : OutMsg
  sub    : Option Nat
  total  : Nat
  next   : Nat
  origin : Option Origin
deriving DecidableEq, Repr

/-- A flit in a port's replay buffer (R320): its header, and the message and the place in it that give its payload. -/
structure SentFlit where
  hdr : FlitHeader
  m   : OutMsg
  ix  : Nat
deriving DecidableEq, Repr

/-- One port beside its registers: the next SEQ to send, the oldest unacknowledged SEQ, the SEQ expected, whether a NAK is out,
the retry episode, the time its last episode ended, the shared and reserved credits held for the far end (R318), whether DISCOVER
went out and came in, the HOPS of the first and of the latest TIME (R335), the echoes gathered (R334), and whether a flit went out
with an injected CRC error that is not yet acknowledged (R522). Then the messages that wait to be sent, in order of arrival, the replay
buffer, oldest first, and the slot of the round robin of VC 1 to 3 that comes next (R317, R320); the free slots of the receive buffer as the
far end counts them, shared and by sub-channel, and the slots freed and not yet returned, by credit target (R318); the symbols that the
FEC has corrected, with the time and the lane, over the last 1 ms (R322). -/
structure PortState where
  txNext   : Nat
  txAcked  : Nat
  rxNext   : Nat
  nakOut   : Bool
  episode  : Option Episode
  lastRetry : Option Nat
  shared   : Nat
  reserve  : List Nat
  discSent : Bool
  discGot  : Bool
  firstHops : Option Nat
  lastHops : Option Nat
  echoes   : Nat
  echoSum  : Int
  injected : Bool
  queue    : List TxMsg
  buffer   : List SentFlit
  turn     : Nat
  rxShared  : Nat
  rxReserve : List Nat
  owed     : List Nat
  fec      : List (Nat × Nat × Nat)
deriving DecidableEq, Repr

/-- The fabric beside its registers. `watchdogRaised`: the minimum of R405 stands above the configured watchdog and has been
reported. `map`: the remap table as SET_ROUTES MAP read it, when it lies in companion memory (log entry 130). -/
structure FabState where
  ports : List PortState
  map   : List Byte
  watchdogRaised : Bool
deriving DecidableEq, Repr

/-! ## Collectives (chapter 12) -/

/-- What a transfer of the collective engine belongs to. -/
inductive CollKind where
  | command
  | fetch (slot : Nat)
deriving DecidableEq, Repr

/-- Data of a transfer: from or to whom, on which stage axis and direction, and where in the transfer. -/
structure CollPiece where
  src    : Nat
  axis   : Nat
  minus  : Bool
  offset : Nat
  data   : List Byte
deriving DecidableEq, Repr

/-- A move record (R361). -/
structure Move where
  send    : Bool
  peer    : Nat
  addr    : Nat
  len     : Nat
  landing : Nat
deriving DecidableEq, Repr

/-- A transfer in progress: its command, Clause and whether that is an EVALUATE Clause, its parameters and their digest; `src` is the
input as read at dispatch (of a PERMUTE, the data of its SEND moves in order), `moves` the moves of a PERMUTE; the peers whose READY
has come; what has arrived and what has been sent; `out` is the module's own block once `formed`; `lastFlit` is the port of the latest
message of a SEND, none once it is lost, and that message's OFFSET; `hops` is H_c of R405. In `sent`, `src` is the member the data went to. -/
structure CollRun where
  cmd      : CmdRef
  kind     : CollKind
  clause   : Nat
  eval     : Bool
  subop    : Nat
  p        : CollParams
  src      : List Byte
  moves    : List Move
  pdigest  : Nat
  ready    : List Nat
  got      : List CollPiece
  sent     : List CollPiece
  out      : List Byte
  formed   : Bool
  lastFlit : Option (Option Nat × Nat)
  extended : Bool
  hops     : Nat
deriving DecidableEq, Repr

/-- A READY that arrived before what it is for (R344, R351, R363). `cls`: 0 a collective, 1 the SEND of a RECV, 2 a round of a
re-shard; of a round, `pdigest` is its number. -/
structure EarlyReady where
  peer    : Nat
  matchId : Nat
  cls     : Nat
  pdigest : Nat
deriving DecidableEq, Repr

/-- A record of the gradient-noise tap (R358). -/
structure NoiseRec where
  period   : Nat
  nan      : Bool
  overflow : Bool
  empty    : Bool
  sLocal   : Nat
  sRed     : Nat
  degree   : Nat
  bLocal   : Nat
deriving DecidableEq, Repr

/-- The noise tap of the current Period (R356): both sums in units of 2^-512, and the flags. -/
structure NoiseTap where
  sLocal   : Int
  sRed     : Int
  nan      : Bool
  overflow : Bool
  fed      : Bool
deriving DecidableEq, Repr

/-- The noise totals that the tick master's GRANT brought (R357): FP64 codes and the flags. -/
structure NoiseTotals where
  period   : Nat
  sLocal   : Nat
  sRed     : Nat
  nan      : Bool
  overflow : Bool
  empty    : Bool
deriving DecidableEq, Repr

/-- A RESHARD in progress (R363, R365): where its plan, ledger and landing area lie, the round it runs, whether it reverses, which
peers are ready for the round, what has arrived and been sent, whether the module has landed the round, and whether its watchdog was
extended (R406). -/
structure ReshardRun where
  cmd     : CmdRef
  p       : ReshardParams
  round   : Nat
  reverse : Bool
  ready   : List Nat
  got     : List CollPiece
  sent    : List CollPiece
  landed  : Bool
  extended : Bool
deriving DecidableEq, Repr

/-- The collective engine beside its registers. -/
structure CollState where
  runs    : List CollRun
  early   : List EarlyReady
  noise   : NoiseTap
  totals  : Option NoiseTotals
  records : List NoiseRec
  reshard : Option ReshardRun
  frozen  : Bool
deriving DecidableEq, Repr

/-! ## Numerics, Gram taps and clusters (chapters 03, 04, 06) -/

/-- The attached Scale Ledger (R102, R550): SETUP's ADDRESS and COUNT, and whether it has passed its check. -/
structure LedgerAttach where
  address : Nat
  count   : Nat
  checked : Bool
deriving DecidableEq, Repr

/-- The fields of a SET_MODE (R96). -/
structure LedgerMode where
  force : Bool
  guard : Nat
  warm  : Nat
deriving DecidableEq, Repr

/-- A DEFINE (R96): the entries it named and what it wrote to them. -/
structure LedgerDef where
  first  : Nat
  count  : Nat
  target : Nat
  cls    : Nat
  margin : Nat
deriving DecidableEq, Repr

/-- The counters of a tensor ID (R89); `amax` is an FP32 word, `used` the largest SCALE a just-in-time conversion applied. -/
structure Counts where
  amax        : Nat
  overflow    : Nat
  saturation  : Nat
  underflow   : Nat
  nan         : Nat
  conversions : Nat
  used        : Option Nat
deriving DecidableEq, Repr

/-- The numeric counters and the Scale Ledger's attachment. `mode` and `defs` (newest first) are what R96 keeps since the SETUP;
`originDue`: the next PERIOD_ARM sets GUARD_ORIGIN (R95). `pending` counts the current Period, `eval` the evaluation set (R170). -/
structure NumState where
  attach    : Option LedgerAttach
  mode      : Option LedgerMode
  defs      : List LedgerDef
  originDue : Bool
  pending   : List (Nat × Counts)
  eval      : List (Nat × Counts)
deriving DecidableEq, Repr

/-- A Gram-tap site (R172, R187): its definition, and in the current Period the ring that R179 fixed and the tokens T0 (R178). -/
structure GramSite where
  id        : Nat
  gradient  : Bool
  widthLog2 : Nat
  subsample : Nat
  base      : Nat
  dim       : Nat
  first     : Nat
  count     : Nat
  ring      : Option Nat
  tokens    : Nat
deriving DecidableEq, Repr

/-- A physical cluster marked for retirement (R139), whether its fuse is to be blown (R140), and the status with which the cause of the
mark ends the commands running on it, if the cause is a fault. -/
structure Mark where
  cluster : Nat
  persist : Bool
  status  : Option Nat
deriving DecidableEq, Repr

/-! ## The replay recorder (chapter 02) -/

/-- A record in the ring (R52): its Period, its offset and its length. -/
structure RingRec where
  period : Nat
  offset : Nat
  length : Nat
deriving DecidableEq, Repr

/-- The replay recorder beside its registers: the records in the ring, oldest first, and whether a Period went unrecorded while the
ring was frozen since the last record (R52). -/
structure RecorderState where
  records : List RingRec
  frozen  : Bool
deriving DecidableEq, Repr

/-! ## The Conjugator (chapters 07, 08) -/

/-- A loaded Parse table (R237): its ID, where its image lies, and whether software has written over the image since. -/
structure ParseRef where
  id      : Nat
  address : Nat
  length  : Nat
  spoiled : Bool
deriving DecidableEq, Repr

/-- An admitted solver job (R240, R241): its command and entry, its table, the units it takes, the time they are reserved until,
whether the record of a replayed Period marks it as published, whether it has started, how it starts, and whether software has written
over what it works on, which leaves its outputs undefined (R196, R237). -/
structure SolveJob where
  cmd       : CmdRef
  clause    : Nat
  entry     : Nat
  table     : ParseRef
  cores     : Nat
  shares    : List Nat
  stores    : List Nat
  reserved  : Nat
  marked    : Bool
  running   : Bool
  warm      : Bool
  cold      : Bool
  spoiled   : Bool
deriving DecidableEq, Repr

/-- A job that has completed and publishes at the next Clause boundary (R214): its entry, and the slot that becomes current, or none
where the job publishes without change (R201). -/
structure Publication where
  entry : Nat
  slot  : Option Nat
deriving DecidableEq, Repr

/-- A SOLVE submitted for an entry in a Period (R218). -/
structure Submission where
  period : Nat
  entry  : Nat
deriving DecidableEq, Repr

/-- The bytes of a root-table entry as of the last commit, kept while a later publication has changed it (R243 READ). -/
structure RootSnap where
  entry : Nat
  bytes : List Byte
deriving DecidableEq, Repr

/-- The bytes of a root-table entry as they stood when a Clause started, kept while a publication has changed it since (R215). -/
structure HeldRoot where
  clause : Nat
  entry  : Nat
  bytes  : List Byte
deriving DecidableEq, Repr

/-- The Conjugator beside its registers: the loaded tables, the admitted jobs in order of admission, the reservation times of 32
cores, 16 slice shares and 64 shared-store units (R240), the publications due, the SOLVEs submitted, the entries as of the last
commit and as of the start of a Clause, and the cores that SELF_TEST withdrew (R521). -/
structure CjState where
  tables    : List ParseRef
  jobs      : List SolveJob
  coreFree  : List Nat
  shareFree : List Nat
  storeFree : List Nat
  due       : List Publication
  submitted : List Submission
  snaps     : List RootSnap
  held      : List HeldRoot
  withdrawn : Nat
deriving DecidableEq, Repr

/-! ## The update unit (chapter 09) -/

/-- A PREPARE that waits for Q (R256): its command, header and parameters. -/
structure PrepareWait where
  cmd : CmdRef
  hdr : Hdr
  p   : PrepareParams
deriving DecidableEq, Repr

/-- An APPLY that waits for the commit grant or for Q (R43, R252): its command and LR_SCALE. -/
structure ApplyWait where
  cmd     : CmdRef
  lrScale : Nat
deriving DecidableEq, Repr

/-- What the stochastic rounding of moments takes from the Period being committed: the job seed, the logical position, and the tensor IDs
whose CLASS is 2 where the Period is GUARDED (R86, R95, R250). A roll-forward needs them as they were (R269; log entry 127). -/
structure MomentDraws where
  seed    : Nat
  logical : Nat
  guarded : List Nat
deriving DecidableEq, Repr

/-- No Period has been committed. -/
def MomentDraws.none : MomentDraws := ⟨0, 0, []⟩

/-- The update units beside their registers: the rules by ID (R250), the entries of the attached table (0: none), the Periods of the
last PREPARE and APPLY (R274), the commands that wait, whether the ledger was CLOSED at the tick (R274), the Period whose commit is
open (R268) with the cursor it commits, the NOTEs raised in the Period (R253, R260), and, within the step in which a holder works on its
shadow, the log slot that GRAD counts from (R373), 0 between steps; the status that an APPLY of the Period ends with after a write fault
(R272), the blocks that a forbidden write leaves undefined once they are written (R271), and the draws of the Period being committed. -/
structure UuState where
  rules        : List (Nat × List Byte)
  tensors      : Nat
  prepared     : Option Nat
  applied      : Option Nat
  waitPrepare  : Option PrepareWait
  waitApply    : Option ApplyWait
  closedAtTick : Bool
  openCommit   : Option Nat
  cursor       : Nat
  skipNoted    : Bool
  rootNoted    : Bool
  slotBase     : Nat
  failed       : Option Nat
  spoilt       : List Nat
  draws        : MomentDraws
deriving DecidableEq, Repr

/-! ## The shadow engine (chapter 13) -/

/-- A SET_BUDDY, or the last part of a PROMOTE, that waits for an IDENT_RSP (R370, R398): `home` for HOME and PROMOTE; `addr` is GLOSS or
DESC. `promote`: the result digest that PROMOTE ends with. -/
structure IdentWait where
  cmd      : CmdRef
  home     : Bool
  override : Bool
  direct   : Bool
  attach   : Bool
  peer     : Nat
  addr     : Nat
  promote  : Option Nat
  extended : Bool
deriving DecidableEq, Repr

/-- What identifies a SHADOW message until it is acknowledged. -/
structure ShKey where
  kind   : Nat
  item   : Nat
  part   : Nat
  offset : Nat
deriving DecidableEq, Repr

/-- Data of a SHADOW message that is kept until its run needs it. -/
structure ShPiece where
  key  : ShKey
  data : List Byte
deriving DecidableEq, Repr

/-- What a transfer of the shadow engine does (R376, R380, R384, R391, R392, R395, R398). A CLOSE waits until the commit of its Period has
closed; `restore` keeps LDIM of before and GLOSS when it belongs to a PROMOTE. -/
inductive ShTask where
  | forward
  | roots
  | close (period : Nat) (sent : Bool)
  | seed (begun : Bool)
  | range (first count : Nat)
  | recopy
  | arbitrate (record : Nat) (anchorCopy : Bool) (anchor : Nat) (outcome : Nat)
  | restore (force begun : Bool) (promote : Option (Nat × Nat))
deriving DecidableEq, Repr

/-- A transfer in progress: the other end, the messages not yet acknowledged, what has come in, whether data have moved and whether the
watchdog was extended (R404, R406), and H_c. -/
structure ShadowRun where
  cmd      : CmdRef
  task     : ShTask
  peer     : Nat
  unacked  : List ShKey
  got      : List ShPiece
  moved    : Bool
  extended : Bool
  hops     : Nat
deriving DecidableEq, Repr

/-- A REPLAY that waits for Q: its command, header and parameters. -/
structure ReplayWait where
  cmd : CmdRef
  hdr : Hdr
  p   : ReplayParams
deriving DecidableEq, Repr

/-- The shadow engine beside its registers and the descriptor. Of the home's end: the STATE that the holder last reported, and the
Periods of the last FORWARD and ROOTS. Of the holder's end: MODE of the held relation, the root entries landed with their Period, the
home's Gloss records of a Period, the records found to differ, STATE from before a re-shard froze it (R403), the draws of the Period
that a REPLAY brings the shadow to, and the Period whose FORWARD has landed (R381). -/
structure ShState where
  idents      : List IdentWait
  runs        : List ShadowRun
  holderState : Nat
  forwarded   : Option Nat
  rooted      : Option Nat
  holdDirect  : Bool
  roots       : List (Nat × Nat)
  homeGloss   : Option (Nat × List (Nat × Nat))
  differing   : List Nat
  frozenFrom  : Option Nat
  replay      : Option ReplayWait
  draws       : MomentDraws
  landed      : Option Nat
deriving DecidableEq, Repr

/-! ## The security block (chapter 17) -/

/-- A key slot that holds a key (R496). -/
structure KeySlot where
  handle : Nat
  key    : List Byte
  usage  : Nat
deriving DecidableEq, Repr

/-- A firmware slot as the last boot found it (R490): whether it is valid, and its SVN. -/
structure BootSlot where
  ok  : Bool
  svn : Nat
deriving DecidableEq, Repr

/-- The security block beside its registers: the key slots, whether the Alias and KEX keys exist, the firmware's digest and SVN, what the
boot found in the two slots, whether BOOT_SLOT_FAIL is still to be raised (R490), the fuses as loaded, the nonce that CHALLENGE gave out
and no UNLOCK has used, and how far the SPDM connection has come on the mailbox and on MCTP (R493). -/
structure SecState where
  slots    : List KeySlot
  keys     : Bool
  digest   : BitVec 384
  svn      : Nat
  flash    : List BootSlot
  slotFail : Bool
  fuses    : Option FuseImage
  nonce    : Option (BitVec 256)
  mailbox  : Nat
  mctp     : Nat
deriving DecidableEq, Repr

/-! ## The state -/

/-- A write that a command or the companion has made in this step: the module address, the length, and the Clause of the command, if it is
bound to one. -/
structure WriteNote where
  addr   : Nat
  len    : Nat
  clause : Option Nat
deriving DecidableEq, Repr

/-- The state of the module. `wrote` is the model's own: what the end of the step has still to look at (R41, R157, R186, R196, R237); it is
empty between steps. -/
structure State where
  regs    : List (Nat × Nat)
  latches : List (Nat × Nat)
  hbm     : Mem
  comp    : Mem
  poison  : List Nat
  inject  : List Injection
  cp      : CpState
  pd      : PdState
  mgmt    : MgmtState
  pwr     : PwrState
  oxl     : OxlState
  dm      : DmState
  fab     : FabState
  coll    : CollState
  num     : NumState
  gram    : List GramSite
  marks   : List Mark
  rr      : RecorderState
  cj      : CjState
  uu      : UuState
  sh      : ShState
  sec     : SecState
  out     : List OutMsg
  draws   : Nat
  wrote   : List WriteNote
  pending : List Instr
deriving DecidableEq, Repr

/-! ## How a step stops -/

/-- Why the machine stops. -/
inductive Fault where
  /-- No meaning raises it: every address and operand has an outcome the spec gives. Safe. -/
  | none
deriving DecidableEq, Repr

/-- Why a command has no outcome. -/
inductive Refusal where
  /-- Raised by an arm of `exec` whose command has no meaning yet, with the command's mnemonic. Safe. -/
  | notModelled (mnemonic : String)
deriving DecidableEq, Repr

/-! ## Reset -/

/-- A memory with nothing listed. -/
abbrev Mem.empty : Mem := ⟨[], []⟩

/-- The command processor right after reset. -/
def CpState.reset : CpState :=
  { flights := [], ended := [], closes := [], lastServed := 63, deferFullNoted := false, tieEntered := [], tieDone := [],
    lost := ⟨0, 0, 0, 0, 0⟩, irqArmed := true, coalesce := [], evWaits := [] }

/-- The Period controller right after reset. -/
def PdState.reset : PdState :=
  { plan := none, pendingPlan := none, arm := none, run := none, sched := none, clauses := [], readySent := false,
    grantAt := none, reduceIn := [], reduceSent := [], upPort := none, downPorts := [], haltHeld := false, haltAtEnd := false, endToken := false, tokenSent := none, waiters := [],
    lastTime := 0, masterId := none, timeSeen := [], nextTimeSeq := 0, doneAll := none, tref := ⟨none, none, 0⟩,
    entries := [], entryCount := 0, events := 0, evaluated := false, evalOuts := [], maskIds := [], maskWrites := [],
    maskedOuts := [], fatal := false, guarded := false, scanned := false,
    replay := none, haltDue := none, failDue := none }

/-- The MCTP endpoint right after reset: the null endpoint ID, no receiver, an empty queue (R516, R519). -/
def MgmtState.reset : MgmtState := { eid := 0, receiver := none, queue := [], levels := [] }

/-- The power and reset controller right after reset: every domain ready, the rails up and no secret fuse blown (log entry 11), and the
straps as the pull-downs of open pins give them (log entry 15). -/
def PwrState.reset : PwrState :=
  { held := [], waits := [], escalations := [], trimTries := 0, fuseLoaded := false, bootDone := false, stopped := false,
    thermLatch := false, above10 := true, mrstDriven := false, lidFailed := false, blown := ⟨[], 0, false⟩, resetDue := [],
    trained := [], samples := [], straps := ⟨0, 0, 0⟩ }

/-- An Orrex Link port right after reset. -/
def OxlLink.reset : OxlLink := ⟨0, 0, 0, false, false, false, []⟩

/-- The Orrex Link interface right after reset. -/
def OxlState.reset : OxlState := {
  links := [OxlLink.reset, OxlLink.reset], pending := [], waiting := [], lines := [], nextTag := 0, seen := [], missing := none, failed := [] }

/-- The data mover right after reset. -/
def DmState.reset : DmState := { load := none, gather := none }

/-- A port right after reset. -/
def PortState.reset : PortState :=
  { txNext := 0, txAcked := 0, rxNext := 0, nakOut := false, episode := none, lastRetry := none, shared := 0,
    reserve := [0, 0, 0, 0, 0, 0, 0, 0], discSent := false, discGot := false, firstHops := none, lastHops := none, echoes := 0,
    echoSum := 0, injected := false, queue := [], buffer := [], turn := 0, rxShared := 0, rxReserve := [0, 0, 0, 0, 0, 0, 0, 0],
    owed := [0, 0, 0, 0, 0, 0, 0, 0, 0], fec := [] }

/-- The fabric right after reset. -/
def FabState.reset : FabState := { ports := List.replicate 8 PortState.reset, map := [], watchdogRaised := false }

/-- The collective engine right after reset. -/
def CollState.reset : CollState :=
  { runs := [], early := [], noise := ⟨0, 0, false, false, false⟩, totals := none, records := [], reshard := none,
    frozen := false }

/-- The numeric counters right after reset: no ledger attached, and GUARD_ORIGIN due (R95). -/
def NumState.reset : NumState := { attach := none, mode := none, defs := [], originDue := true, pending := [], eval := [] }

/-- The replay recorder right after reset. -/
def RecorderState.reset : RecorderState := { records := [], frozen := false }

/-- The Conjugator right after reset. -/
def CjState.reset : CjState :=
  { tables := [], jobs := [], coreFree := List.replicate 32 0, shareFree := List.replicate 16 0, storeFree := List.replicate 64 0,
    due := [], submitted := [], snaps := [], held := [], withdrawn := 0 }

/-- The update units right after reset: no rule and no table (R276). -/
def UuState.reset : UuState :=
  { rules := [], tensors := 0, prepared := none, applied := none, waitPrepare := none, waitApply := none, closedAtTick := true,
    openCommit := none, cursor := 0, skipNoted := false, rootNoted := false, slotBase := 0, failed := none, spoilt := [],
    draws := MomentDraws.none }

/-- The shadow engine right after reset: no relation (R407). -/
def ShState.reset : ShState :=
  { idents := [], runs := [], holderState := 0, forwarded := none, rooted := none, holdDirect := false, roots := [], homeGloss := none,
    differing := [], frozenFrom := none, replay := none, draws := MomentDraws.none, landed := none }

/-- The security block right after reset: no key slot occupied, nothing booted, no connection. -/
def SecState.reset : SecState :=
  { slots := [], keys := false, digest := 0, svn := 0, flash := [], slotFail := false, fuses := none, nonce := none, mailbox := 0, mctp := 0 }

/-- The module right after reset: every register at its table's Reset column, the memories with nothing listed, and no command
waiting. -/
def State.reset : State :=
  { regs := [], latches := [], hbm := Mem.empty, comp := Mem.empty, poison := [], inject := [], cp := CpState.reset,
    pd := PdState.reset, mgmt := MgmtState.reset, pwr := PwrState.reset, oxl := OxlState.reset, dm := DmState.reset,
    fab := FabState.reset, coll := CollState.reset,
    num := NumState.reset, gram := [], marks := [],
    rr := RecorderState.reset, cj := CjState.reset,
    uu := UuState.reset,
    sh := ShState.reset,
    sec := SecState.reset,
    out := [], draws := 0, wrote := [], pending := [] }

end Sys2Proof.Machine
end

