-- ==== Sys2Proof/Machine/OxlFlits.lean ====
section
/-!
DEFINITION. Machine/OxlFlits.lean: what a message is on the Orrex Link (R443 to R446): the flit header, the header slot and the data slots of
a message, the 236 bytes of flit content, and the row that a received message is.
-/
namespace Sys2Proof.Machine

/-! ## STATUS (R447) -/

abbrev OXL_OK : Nat := 0
abbrev OXL_UNMAPPED : Nat := 1
abbrev OXL_ACCESS : Nat := 2
abbrev OXL_POISON : Nat := 3
abbrev OXL_ISOLATED : Nat := 4
abbrev OXL_REFUSED : Nat := 5
abbrev OXL_BUSY : Nat := 6

/-! ## The flit header (R444) -/

/-- A flit header: the slots that hold a message header, TYPE (0 NORMAL, 1 INIT, 2 IDLE), and the credits returned, with their class (0 REQ,
1 RSP, 2 SNP, 3 none). -/
structure OxlFlitHdr where
  start   : Nat
  type    : Nat
  crClass : Nat
  crSlots : Nat
deriving DecidableEq, Repr

/-- The 96 bits of a flit header. -/
def OxlFlitHdr.word (h : OxlFlitHdr) : Nat :=
  h.start % 2 ^ 14 + h.type % 4 * 2 ^ 14 + h.crClass % 4 * 2 ^ 16 + h.crSlots % 2 ^ 10 * 2 ^ 18

/-- A flit header read from its 96 bits; none: TYPE 3 is reserved. The reserved bits are not looked at (log entry 131). -/
def OxlFlitHdr.ofWord (w : Nat) : Option OxlFlitHdr :=
  if bits w 14 2 = 3 then none else some ⟨bits w 0 14, bits w 14 2, bits w 16 2, bits w 18 10⟩

/-! ## Header slots (R445, R446) -/

/-- A message's header slot. -/
structure OxlHead where
  opc     : Nat
  tag     : Nat
  status  : Nat
  slots   : Nat
  aux     : Nat
  address : Nat
  window  : Nat
deriving DecidableEq, Repr

/-- The 16 bytes of a header slot. -/
def OxlHead.bytes (h : OxlHead) : List Byte :=
  leBytes 4 (h.opc % 2 ^ 8 + h.tag % 2 ^ 12 * 2 ^ 8 + h.status % 2 ^ 4 * 2 ^ 20 + h.slots % 2 ^ 7 * 2 ^ 24) ++ leBytes 4 h.aux
    ++ leBytes 8 (h.address % 2 ^ 48 + h.window % 4 * 2 ^ 48)

/-- A header slot read from its 16 bytes. The reserved bits are not looked at. -/
def OxlHead.ofBytes (bs : List Byte) : OxlHead :=
  let w := leAt bs 0 4
  let a := leAt bs 8 8
  ⟨bits w 0 8, bits w 8 12, bits w 20 4, bits w 24 7, leAt bs 4 4, bits a 0 48, bits a 48 2⟩

/-- OPC of a request of the module. -/
def OxlKind.opc : OxlKind → Nat
  | .readShared => 0x01
  | .readOwn => 0x02
  | .readCur => 0x03
  | .writeback => 0x04
  | .writeBulk => 0x05

/-- A request that asks for data, and is answered with DATA. -/
def OxlKind.reads : OxlKind → Bool
  | .readShared => true
  | .readOwn => true
  | .readCur => true
  | .writeback => false
  | .writeBulk => false

/-- Data slots that `n` bytes take. -/
abbrev oxlSlots (n : Nat) : Nat := cdiv n 16

/-- The header slot of a message of the module; what is no Orrex Link message has none. -/
def OutMsg.oxlHead : OutMsg → Option OxlHead
  | .interrupt _ v => some ⟨0x06, 0, 0, 0, v, 0, 0⟩
  | .oxlRequest _ k tag a len data => some ⟨k.opc, tag, 0, oxlSlots data.length, if k = .readCur then len else 0, a, 0⟩
  | .oxlData _ tag st data => some ⟨0x30, tag, st, oxlSlots data.length, 0, 0, 0⟩
  | .oxlAck _ tag st => some ⟨0x31, tag, st, 0, 0, 0, 0⟩
  | .snpRsp _ tag shared wb data => some ⟨0x32, tag, 0, oxlSlots data.length, flag shared + 2 * flag wb, 0, 0⟩
  | _ => none

/-- The data of a message. -/
def OutMsg.oxlBody : OutMsg → List Byte
  | .oxlRequest _ _ _ _ _ data => data
  | .oxlData _ _ _ data => data
  | .snpRsp _ _ _ _ data => data
  | _ => []

/-- The class of a message of the module: 0 REQ, 1 RSP. -/
def OutMsg.oxlClass : OutMsg → Nat
  | .oxlData _ _ _ _ => 1
  | .oxlAck _ _ _ => 1
  | .snpRsp _ _ _ _ _ => 1
  | _ => 0

/-- The slots of its class that a message consumes (R454). -/
def OutMsg.oxlCost (m : OutMsg) : Nat := 1 + oxlSlots m.oxlBody.length

/-! ## Slots and flits (R443) -/

/-- Data bytes as slots, the last one filled with zeros. -/
def dataSlots (bs : List Byte) : List (List Byte) := (List.range (oxlSlots bs.length)).map (fun k => padTo 16 ((bs.drop (16 * k)).take 16))

/-- The slots of a message, each marked whether it holds a message header. -/
def OutMsg.oxlStream (m : OutMsg) : List (Bool × List Byte) :=
  match m.oxlHead with
  | some h => (true, h.bytes) :: (dataSlots m.oxlBody).map (fun d => (false, d))
  | none => []

/-- START of a flit that holds the given slots. -/
def startBits (slots : List (Bool × List Byte)) : Nat := sumList (slots.zipIdx.map (fun p => if p.1.1 then 2 ^ p.2 else 0))

/-- The 236 bytes of content of a flit: its header and 14 slots, those not used 0. -/
def oxlContent (type crClass crSlots : Nat) (slots : List (Bool × List Byte)) : List Byte :=
  leBytes 12 (OxlFlitHdr.word ⟨startBits slots, type, crClass, crSlots⟩) ++ padTo 224 (slots.flatMap (·.2))

/-- The contents of the flits that carry a stream of slots from the start of a flit on. -/
def oxlFlits (stream : List (Bool × List Byte)) : List (List Byte) :=
  (List.range (cdiv stream.length 14)).map (fun i => oxlContent 0 3 0 ((stream.drop (14 * i)).take 14))

/-- The credits that the module advertises: REQ, RSP, SNP (R454). -/
abbrev oxlAdvert : Nat × Nat × Nat := (2048, 4096, 512)

/-- The content of the module's INIT flit (R455): VERSION 0x01, the port and UNIT_ID, and the credits. -/
def oxlInitContent (link unit : Nat) : List Byte :=
  oxlContent 1 3 0 [(false, leBytes 8 (1 + link % 2 * 2 ^ 8) ++ leBytes 8 unit),
    (false, padTo 16 (leBytes 6 (oxlAdvert.1 + oxlAdvert.2.1 * 2 ^ 16 + oxlAdvert.2.2 * 2 ^ 32))), (false, padTo 16 [])]

/-- The contents of the flits of what the module sends: a message, its INIT flit, or an IDLE flit that returns credits. -/
def OutMsg.oxlFlits : OutMsg → List (List Byte)
  | .oxlInit link unit => [oxlInitContent link unit]
  | .oxlCredit _ cls slots => [oxlContent 2 cls slots []]
  | m => Machine.oxlFlits m.oxlStream

/-! ## What is received -/

/-- The slots of a flit's content, each marked by START. -/
def contentSlots (bs : List Byte) : List (Bool × List Byte) :=
  let start := bits (leAt bs 0 12) 0 14
  (List.range 14).map (fun k => (bit start k, ((bs.drop (12 + 16 * k)).take 16)))

/-- The row that a received message is: its link, the header of the flit that holds its header slot, the header slot and its data. None: a
reserved OPC. A READ or WRITE of a reserved WINDOW, and a response with a reserved STATUS, are rows, whose meanings break the protocol
(R457). -/
def oxlRow (link : OxlIn) (h : OxlHead) (data : List Byte) : Option Instr :=
  let tag := BitVec.ofNat 12 h.tag
  let a := BitVec.ofNat 48 h.address
  match h.opc with
  | 0x10 => some (.oxlRead link tag (BitVec.ofNat 2 h.window) a (BitVec.ofNat 11 h.aux))
  | 0x11 => some (.oxlWrite link tag (BitVec.ofNat 2 h.window) a (data.take (bits h.aux 0 11)))
  | 0x12 => some (.oxlDoorbell link (Fin.ofNat 64 (bits h.aux 24 6)) (BitVec.ofNat 24 h.aux))
  | 0x20 => some (.snpInv link tag a)
  | 0x21 => some (.snpShared link tag a)
  | 0x30 => some (.oxlData link tag (BitVec.ofNat 4 h.status) data)
  | 0x31 => some (.oxlAck link tag (BitVec.ofNat 4 h.status))
  | _ => none

/-- A message read from the slots of a stream, the first of which holds its header: the row, and how many slots it takes. -/
def oxlMessage (link : OxlIn) (slots : List (List Byte)) : Option Instr × Nat :=
  let h := OxlHead.ofBytes (slots.headD [])
  (oxlRow link h ((slots.drop 1).take h.slots).flatten, 1 + h.slots)

end Sys2Proof.Machine
end

