-- ==== Sys2Proof/Machine/Ops.lean ====
section
/-!
DEFINITION. Machine/Ops.lean: the named operations over registers, memory, events and commands that every meaning uses.
-/
namespace Sys2Proof.Machine

/-! ## Registers -/

/-- The place of a field in the register file. -/
abbrev Field.key (f : Field) : Nat := f.reg * 64 + f.lo

/-- The value of a field. -/
def State.get (s : State) (f : Field) : Nat := (alGet s.regs f.key).getD f.reset

/-- A field as a flag. -/
abbrev State.on (s : State) (f : Field) : Bool := decide (s.get f = 1)

/-- `s` with a field set to the low bits of `v`. A field at its reset value is not listed, so equal files are equal lists. -/
def State.put (s : State) (f : Field) (v : Nat) : State :=
  { s with regs := if v % 2 ^ f.len = f.reset then alErase f.key s.regs else alSet f.key (v % 2 ^ f.len) s.regs }

/-- A saturating counter advanced by `n`. -/
def State.bump (s : State) (f : Field) (n : Nat) : State := s.put f (satAdd f.len (s.get f) n)

/-- Fabric time now (R26). -/
abbrev State.now (s : State) : Nat := s.get F.PC_FTIME_FTIME

/-- Fabric time brought forward to an instant; it never decreases, and it is 0 until the module has synchronised (R26). -/
def State.advance (s : State) (t : Nat) : State :=
  if s.on F.PC_STATUS_SYNCED && decide (s.now < t) then s.put F.PC_FTIME_FTIME t else s

/-- A fresh draw: the number that names the free values of this occasion, and the state with it used up (log entry 3). -/
def State.draw (s : State) : Nat × State := (s.draws, { s with draws := s.draws + 1 })

/-- `s` with a message sent. -/
def State.send (s : State) (m : OutMsg) : State := { s with out := s.out ++ [m] }

/-- `PC_STATUS.STATE`. -/
abbrev State.pcState (s : State) : Nat := s.get F.PC_STATUS_STATE

/-- The module is IDLE or HALTED: the condition many commands put on `PC_STATUS.STATE`. -/
abbrev State.idle (s : State) : Bool := decide (s.pcState = 0) || decide (s.pcState = 4)

/-- The current Period of R422: `PC_PERIOD` while RUNNING, and the one after `PC_COMMITTED` otherwise. -/
def State.currentPeriod (s : State) : Nat :=
  if s.pcState = 2 then s.get F.PC_PERIOD_PERIOD else nextPeriod (s.get F.PC_COMMITTED_COMMITTED)

/-! ## Memory -/

/-- The byte at `a`. -/
def Mem.get (m : Mem) (a : Nat) : Byte := (alGet m.cells a).getD (m.default a)

/-- `m` with the byte `b` at `a`; a byte equal to what the address reads as unlisted is not listed. -/
def Mem.set (m : Mem) (a : Nat) (b : Byte) : Mem :=
  { m with cells := if b = m.default a then alErase a m.cells else alSet a b m.cells }

/-- `m` with the bytes `bs` from `a` on. -/
def Mem.write (m : Mem) (a : Nat) : List Byte → Mem
  | [] => m
  | b :: bs => (m.set a b).write (a + 1) bs

/-- The `n` bytes from `a` on. -/
def Mem.read (m : Mem) (a n : Nat) : List Byte := (List.range n).map (fun i => m.get (a + i))

/-- `m` with the contents of `lo .. hi-1` undefined. -/
def Mem.forget (m : Mem) (lo hi draw : Nat) : Mem :=
  { cells := m.cells.filter (fun c => decide (c.1 < lo) || decide (hi ≤ c.1)), undef := ⟨lo, hi, draw⟩ :: m.undef }

/-- The rows of R280's address map. -/
inductive Space where
  | hbm | present | future | companion
deriving DecidableEq, Repr

/-- HBM ends here (R280). -/
abbrev hbmEnd : Nat := 0x6000000000

/-- The first address of the companion memory windows (R280). -/
abbrev companionBase : Nat := 0x800000000000

/-- The row of R280 that an address lies in; none: reserved. -/
def spaceOf (a : Nat) : Option Space :=
  if a < hbmEnd then some .hbm
  else if a < 0x7000000000 then some .present
  else if a < 0x8000000000 then some .future
  else if a < companionBase then none
  else if a < 2 ^ 48 then some .companion
  else none

/-- The row of R280 in which the whole range lies. -/
def rangeSpace (a n : Nat) : Option Space :=
  if n = 0 then spaceOf a
  else if spaceOf a = spaceOf (a + n - 1) then spaceOf a else none

/-- The stack that holds an HBM address (R281). -/
def State.stackOf (s : State) (a : Nat) : Nat :=
  let r := a / 2 ^ 36
  let o := a % 2 ^ 36
  if bit (s.get F.DM_MAP_LOCAL) r then
    let u := o % 2 ^ 34
    4 * bits o 34 2 + (bits u 12 2 ^^^ bits u 20 2)
  else bits o 12 4 ^^^ bits o 20 4

/-- The address of an HBM byte within its stack (R281). -/
def State.stackAddress (s : State) (a : Nat) : Nat :=
  let r := a / 2 ^ 36
  let o := a % 2 ^ 36
  let w := if bit (s.get F.DM_MAP_LOCAL) r then o % 2 ^ 34 / 2 ^ 14 * 4096 + o % 4096 else o / 2 ^ 16 * 4096 + o % 4096
  r * 2 ^ 32 + w

/-- The parts of a range of HBM in the spans of 16 GiB that it crosses: in each the stacks recur every 64 pages at most (R281). -/
def spans16G (a n : Nat) : List (Nat × Nat) :=
  let g := 2 ^ 34
  (List.range ((a + n - 1) / g - a / g + 1)).map (fun i =>
    let lo := max a ((a / g + i) * g)
    (lo, min (a + n) ((a / g + i + 1) * g) - lo))

/-- The stacks that a range of HBM touches, in stack order. -/
def State.stacksOf (s : State) (a n : Nat) : List Nat :=
  let touched (p : Nat × Nat) (k : Nat) : Bool :=
    let first := p.1 / 4096
    (List.range (min 64 ((p.1 + p.2 - 1) / 4096 - first + 1))).any (fun i => decide (s.stackOf ((first + i) * 4096) = k))
  if n = 0 then [] else (List.range 16).filter (fun k => (spans16G a n).any (fun p => touched p k))

/-- A stack whose controller is held by a reset answers with an error response (R288). -/
def State.stackHeld (s : State) (k : Nat) : Bool := bit (s.get F.RS_HELD_HBM) k

/-- The bank that an alias row names now (R297): PRESENT is `TB_STATE.PRESENT`, FUTURE the other. -/
def State.bankOf (s : State) (sp : Space) : Nat :=
  let p := s.get F.TB_STATE_PRESENT
  if sp = .present then p else 1 - p

/-- The state of a Tense bank (R299). -/
def State.bankState (s : State) (k : Nat) : Nat := if k = 0 then s.get F.TB_STATE_STATE0 else s.get F.TB_STATE_STATE1

/-- `s` with the state of a Tense bank set. -/
def State.putBankState (s : State) (k v : Nat) : State :=
  if k = 0 then s.put F.TB_STATE_STATE0 v else s.put F.TB_STATE_STATE1 v

/-- The offset of an alias address within its alias. -/
abbrev aliasOffset (a : Nat) : Nat := a % 0x1000000000

/-- The HBM address behind an address of an alias, by the bank in force (R297); other addresses stand for themselves. -/
def State.physical (s : State) (a : Nat) : Nat :=
  match spaceOf a with
  | some .present => s.get (F.TB_BASE_BASE (s.bankOf .present)) + aliasOffset a
  | some .future => s.get (F.TB_BASE_BASE (s.bankOf .future)) + aliasOffset a
  | _ => a

/-! ## Status codes (R438) -/

abbrev ST_OK : Nat := 0x00
abbrev ST_BAD_OPCODE : Nat := 0x01
abbrev ST_BAD_PARAM : Nat := 0x02
abbrev ST_BUDGET : Nat := 0x03
abbrev ST_DEADLINE : Nat := 0x04
abbrev ST_DIGEST : Nat := 0x05
abbrev ST_ISOLATED : Nat := 0x06
abbrev ST_RESIDUE : Nat := 0x07
abbrev ST_ECC : Nat := 0x08
abbrev ST_FABRIC : Nat := 0x09
abbrev ST_BUDDY_REJECT : Nat := 0x0B
abbrev ST_HALTED : Nat := 0x0C
abbrev ST_SECURITY : Nat := 0x0D
abbrev ST_NOT_READY : Nat := 0x0E
abbrev ST_DIVERGED : Nat := 0x0F
abbrev ST_ABORTED : Nat := 0x10

/-- A command that ends with a status and a result digest of 0. -/
abbrev Done.fail (st : Nat) : Done := ⟨st, 0, 0⟩

/-- A command that ends with ST_OK and a result digest. -/
abbrev Done.ok (result : Nat) : Done := ⟨ST_OK, 0, result % 2 ^ 64⟩

/-- What a command's body comes to: the state, and how it ended if it has. -/
abbrev Body : Type := State × Option Done

/-- A body that ends at once with a status, having done nothing. -/
abbrev State.fail (s : State) (st : Nat) : Body := (s, some (Done.fail st))

/-- A body that ends with ST_OK. -/
abbrev State.ok (s : State) (result : Nat) : Body := (s, some (Done.ok result))

/-- The first status in a list of checks (condition that fails, status); none when every check passes. -/
def firstFailure : List (Bool × Nat) → Option Nat
  | [] => none
  | (b, st) :: t => if b then some st else firstFailure t

/-- A body behind a list of checks. -/
def State.guard (s : State) (checks : List (Bool × Nat)) (body : State → Body) : Body :=
  match firstFailure checks with
  | some st => s.fail st
  | none => body s

/-! ## Orrex Link sending (R450, R451) -/

/-- `OXL_STATUS.LINKl`. -/
def State.oxlUp (s : State) (l : Nat) : Bool :=
  decide ((if l = 0 then s.get F.OXL_STATUS_LINK0 else s.get F.OXL_STATUS_LINK1) = 3)

/-- The port a message travels on: the one it prefers, or the other when that is not UP (R450); none with both down. -/
def State.oxlPort (s : State) (prefer : Nat) : Option Nat :=
  if s.oxlUp prefer then some prefer else if s.oxlUp (1 - prefer) then some (1 - prefer) else none

/-- A port's state beside its registers. -/
abbrev State.oxlLink (s : State) (l : Nat) : OxlLink := nth s.oxl.links l OxlLink.reset

/-- `s` with a port's state set, in a list of two. -/
abbrev State.setLink (s : State) (l : Nat) (v : OxlLink) : State :=
  { s with oxl := { s.oxl with links := nthSet (s.oxl.links ++ List.replicate (2 - s.oxl.links.length) OxlLink.reset) l v } }

/-- The credits of a class that a port has left (R454). -/
abbrev OxlLink.credit (v : OxlLink) (cls : Nat) : Nat := if cls = 0 then v.req else if cls = 1 then v.rsp else v.snp

/-- A port's state with the credits of a class set. -/
def OxlLink.withCredit (v : OxlLink) (cls n : Nat) : OxlLink :=
  if cls = 0 then { v with req := n } else if cls = 1 then { v with rsp := n } else { v with snp := n }

/-- Messages of a port sent in order as its credits allow; one that must wait holds back the later ones of its class (R451, R454). Answers
those that wait. -/
def State.drainLink (s : State) (l : Nat) (held : List Nat) : List OutMsg → State × List OutMsg
  | [] => (s, [])
  | m :: ms =>
    let v := s.oxlLink l
    let c := v.credit m.oxlClass
    if held.contains m.oxlClass || decide (c < m.oxlCost) then
      match State.drainLink s l (m.oxlClass :: held) ms with
      | (s, rest) => (s, m :: rest)
    else State.drainLink ((s.setLink l (v.withCredit m.oxlClass (c - m.oxlCost))).send m) l held ms

/-- The messages of a port that wait, sent as its credits allow. -/
def State.pumpLink (s : State) (l : Nat) : State :=
  match s.drainLink l [] (s.oxlLink l).queue with
  | (s, rest) => s.setLink l { s.oxlLink l with queue := rest }

/-- A message of the module on a port, once the port has the credits for it. -/
def State.sendLink (s : State) (l : Nat) (m : OutMsg) : State :=
  (s.setLink l { s.oxlLink l with queue := (s.oxlLink l).queue ++ [m] }).pumpLink l

/-- An INTERRUPT message: port 0, or port 1 while port 0 is down (R446, R450). -/
def State.interrupt (s : State) (vector : Nat) : State :=
  match s.oxlPort 0 with
  | some l => s.sendLink l (.interrupt l vector)
  | none => s

/-- The companion physical address behind a module address lies below the companion's limit (R448). -/
def State.companionMapped (s : State) (a n : Nat) : Bool :=
  decide (a - companionBase + n ≤ s.get F.OXL_MEM_LIMIT_LIMIT)

/-- The first tag from `t` on that no outstanding request has, among `fuel` of them (R445). -/
def nextFree (used : List Nat) : Nat → Nat → Option Nat
  | 0, _ => none
  | fuel + 1, t => if used.contains t then nextFree used fuel ((t + 1) % 4096) else some t

/-- Slots of the response that a request awaits. -/
abbrev OxlReq.responseSlots (r : OxlReq) : Nat := if r.kind.reads then 1 + oxlSlots r.len else 1

/-- Entries of the line buffer that a request's data will take: a READ_CUR caches nothing (R446). -/
abbrev OxlReq.grants (r : OxlReq) : Nat := if r.kind.reads ∧ r.kind ≠ .readCur then 1 else 0

/-- Two requests that may not be outstanding together: they touch one line, and one of them writes it or takes ownership of it. -/
def OxlReq.clashes (x y : OxlReq) : Bool :=
  let shares (r : OxlReq) : Bool := decide (r.kind = .readShared) || decide (r.kind = .readCur)
  overlaps x.addr x.len y.addr y.len && !(shares x && shares y)

/-- The line buffer with the lines of a write, which it keeps until their ACK (R453). -/
def keepLines (ls : List Line) (addr : Nat) (data : List Byte) : List Line :=
  ls.filter (fun x => !overlaps x.addr 64 addr data.length) ++
    (List.range (data.length / 64)).map (fun i => (⟨addr + 64 * i, .wb, (data.drop (64 * i)).take 64⟩ : Line))

/-- A request may go out: a tag is free, its lines are in no other request that conflicts, and there is room for the lines and for the
response (R445, R454, and the 1,024 lines of the line buffer). -/
def State.mayIssue (s : State) (r : OxlReq) : Bool :=
  let own := if r.kind.reads then r.grants else r.data.length / 64
  !s.oxl.pending.any (fun q => q.clashes r) && decide (s.oxl.pending.length < 4096) &&
    decide (s.oxl.lines.length + sumList (s.oxl.pending.map (·.grants)) + own ≤ 1024) &&
    decide (sumList (s.oxl.pending.map (·.responseSlots)) + r.responseSlots ≤ oxlAdvert.2.1)

/-- A request that expects a response goes out: a tag of its own, the port by bit 12 of its address, and kept until it is answered (R445,
R450). -/
def State.issue (s : State) (r : OxlReq) : State :=
  let prefer := bits r.addr 12 1
  let link := (s.oxlPort prefer).getD prefer
  let tag := (nextFree (s.oxl.pending.map (·.tag)) 4096 s.oxl.nextTag).getD 0
  let lines := if r.kind.reads then s.oxl.lines else keepLines s.oxl.lines r.addr r.data
  let s : State := { s with oxl := { s.oxl with
    pending := s.oxl.pending ++ [{ r with tag := tag, link := link }], nextTag := (tag + 1) % 4096, lines := lines } }
  s.sendLink link (.oxlRequest link r.kind tag r.addr r.len r.data)

/-- The requests that wait go out in order as they may (`fuel` at most). -/
def State.issueWaiting (s : State) : Nat → State
  | 0 => s
  | fuel + 1 => match s.oxl.waiting with
    | [] => s
    | r :: rest =>
      if s.mayIssue r then State.issueWaiting (({ s with oxl := { s.oxl with waiting := rest } }).issue r) fuel else s

/-- The requests that wait brought forward. -/
abbrev State.pumpOxl (s : State) : State := s.issueWaiting s.oxl.waiting.length

/-- A request handed to the Orrex Link interface. -/
def State.oxlAsk (s : State) (r : OxlReq) : State := ({ s with oxl := { s.oxl with waiting := s.oxl.waiting ++ [r] } }).pumpOxl

/-- A request as an agent makes it: no tag and no port yet. -/
abbrev OxlReq.new (kind : OxlKind) (addr len : Nat) (owner : Option OxlOwner) : OxlReq :=
  ⟨0, 0, kind, addr, len, [], owner, none, [], (addr + companionBase, len), none, none⟩

/-- A range cut at every multiple of 1,024 bytes, so that no part crosses 4 KiB (R446). -/
def kibiParts (a n : Nat) : List (Nat × Nat) :=
  if n = 0 then []
  else (List.range ((a + n - 1) / 1024 - a / 1024 + 1)).map (fun i =>
    let lo := max a ((a / 1024 + i) * 1024)
    (lo, min (a + n) ((a / 1024 + i + 1) * 1024) - lo))

/-- A range within 1,024 bytes as its whole lines and the parts of lines at its two ends. -/
def lineParts (a n : Nat) : List (Nat × Nat) :=
  let up := cdiv a 64 * 64
  let down := (a + n) / 64 * 64
  if down < up then [(a, n)] else [(a, up - a), (up, down - up), (down, a + n - down)].filter (fun p => decide (p.2 ≠ 0))

/-- One part of a write of companion memory: WRITE_BULK of whole lines, or READ_OWN of a line into which the part will be merged (R446). -/
def State.writePart (s : State) (owner : Option OxlOwner) (span : Nat × Nat) (irq : Option Nat) (record : Option RecordTag) (a : Nat)
    (bs : List Byte) : State :=
  let old := s.comp.read a bs.length
  let s := { s with comp := s.comp.write a bs }
  if a % 64 = 0 ∧ bs.length % 64 = 0 then
    s.oxlAsk ⟨0, 0, .writeBulk, a, bs.length, bs, owner, none, old, span, irq, record⟩
  else s.oxlAsk ⟨0, 0, .readOwn, a / 64 * 64, 64, [], owner, some (a % 64, bs), old, span, irq, record⟩

/-- A write of companion memory: what the module holds of it follows at once, and the requests for its parts are made in rising order. -/
def State.writeCompanion (s : State) (owner : Option OxlOwner) (a : Nat) (bs : List Byte) : State :=
  let s := match owner with
    | some o => { s with oxl := { s.oxl with seen := s.oxl.seen ++ [⟨o, a, bs.length, OXL_OK⟩] } }
    | none => s
  ((kibiParts a bs.length).flatMap (fun b => lineParts b.1 b.2)).foldl
    (fun (s : State) p => s.writePart owner (a + companionBase, bs.length) none none p.1 ((bs.drop (p.1 - a)).take p.2)) s

/-- The requests by which an agent reads a range: READ_SHARED of each line for the packets of a ring, READ_CUR otherwise (R446). -/
def readRequests (owner : OxlOwner) (a n : Nat) : List OxlReq :=
  match owner with
  | .ring _ => (List.range (cdiv (a + n) 64 - a / 64)).map (fun i => OxlReq.new .readShared (a / 64 * 64 + 64 * i) 64 (some owner))
  | .command _ _ => (kibiParts a n).map (fun b =>
    let lo := b.1 / 64 * 64
    OxlReq.new .readCur lo (cdiv (b.1 + b.2) 64 * 64 - lo) (some owner))

/-- An agent has read, or written, every byte of a range. -/
def State.known (s : State) (owner : OxlOwner) (a n : Nat) : Bool :=
  covers ((s.oxl.seen.filter (fun x => decide (x.owner = owner ∧ x.status = OXL_OK))).map (fun x => (x.addr, x.len))) a (a + n)

/-- An agent asks for the parts of a range that it has neither read nor asked for. -/
def State.fetch (s : State) (owner : OxlOwner) (a n : Nat) : State :=
  let asked (r : OxlReq) : Bool :=
    (s.oxl.pending ++ s.oxl.waiting).any (fun q => decide (q.owner = r.owner ∧ q.kind = r.kind ∧ q.addr = r.addr ∧ q.len = r.len))
  ((readRequests owner a n).filter (fun r => !s.known owner r.addr r.len && !asked r)).foldl State.oxlAsk s

/-- The agent of a command. -/
abbrev CmdRef.owner (c : CmdRef) : OxlOwner := .command c.ring c.seq

/-- The status that ends a command whose request was answered with a STATUS (R447). For BUSY, which the table gives no status, the model
takes ST_NOT_READY (log entry 132). -/
def commandStatus (st : Nat) : Nat :=
  match st with
  | 0 => ST_OK
  | 3 => ST_ECC
  | 4 => ST_ISOLATED
  | 6 => ST_NOT_READY
  | _ => ST_BAD_PARAM

/-- A request of the agent that failed on a range. -/
def State.failedRead (s : State) (owner : OxlOwner) (a n : Nat) : Option Nat :=
  (s.oxl.seen.find? (fun x => decide (x.owner = owner ∧ x.status ≠ OXL_OK) && overlaps x.addr x.len a n)).map (fun x => commandStatus x.status)

/-- The line buffer without the S lines of a range: they are dropped silently after the copy. -/
def dropShared (ls : List Line) (a n : Nat) : List Line :=
  ls.filter (fun x => !(decide (x.state = .s) && overlaps x.addr 64 a n))

/-- What an agent has read is no longer needed, and what it still reads serves no one. -/
def State.disown (s : State) (owner : OxlOwner) : State :=
  let mine := s.oxl.seen.filter (fun x => decide (x.owner = owner))
  let free (r : OxlReq) : OxlReq := if r.owner = some owner ∧ r.kind.reads ∧ r.merge = none then { r with owner := none } else r
  { s with oxl := { s.oxl with
    pending := s.oxl.pending.map free
    waiting := s.oxl.waiting.map free
    seen := s.oxl.seen.filter (fun x => decide (x.owner ≠ owner))
    lines := mine.foldl (fun ls x => dropShared ls x.addr x.len) s.oxl.lines } }

/-! ## Events (R428 to R431, R506 to R511, R518, R519) -/

/-- The two ways an HBM line can be bad (R284, R555): poisoned or with an error armed in it. -/
def State.lineInjection (s : State) (line : Nat) : Option Injection :=
  s.inject.find? (fun i => (decide (i.kind = 4) || decide (i.kind = 5)) && decide (i.address / 64 * 64 = line))

/-- The lines of a range of HBM that a read would find bad, in address order. -/
def State.badLines (s : State) (a n : Nat) : List Nat :=
  let lines := s.poison ++ (s.inject.filter (fun i => decide (i.kind = 4) || decide (i.kind = 5))).map (fun i => i.address / 64 * 64)
  let hit := lines.filter (fun l => overlaps l 64 a n)
  (sortBy (fun x y => decide (x ≤ y)) hit).eraseDups

/-- The controller's check of one bad line (R284): the counters, the poison, and the event it raises. True: uncorrectable. -/
def State.checkLine (s : State) (line : Nat) (c : Option CmdRef) : State × Ev × Bool :=
  let k := s.stackOf line
  match s.lineInjection line with
  | some i =>
    let s := { s with inject := s.inject.erase i }
    if i.kind = 4 ∧ ¬ s.poison.contains line then
      (s.bump (F.HM_ECC_CORRECTED k) 1, ⟨0x0601, 1, 6, k, line, true, c⟩, false)
    else
      let fresh := !s.poison.contains line
      let s := { s with poison := if fresh then line :: s.poison else s.poison }
      let s := (s.bump (F.HM_ECC_UNCORRECTABLE k) 1).bump (F.HM_ECC_POISONED k) (flag fresh)
      (s.put (F.HM_ERR_ADDR_ADDR k) line, ⟨0x0602, 2, 6, k, line, true, c⟩, true)
  | none =>
    ((s.bump (F.HM_ECC_UNCORRECTABLE k) 1).put (F.HM_ERR_ADDR_ADDR k) line, ⟨0x0602, 2, 6, k, line, false, c⟩, true)

/-- `lost` with one more event of a class. -/
def LostCounts.add (l : LostCounts) (cls : Nat) : LostCounts :=
  match cls with
  | 0 => { l with note := satAdd 12 l.note 1 }
  | 1 => { l with corrected := satAdd 12 l.corrected 1 }
  | 2 => { l with contained := satAdd 12 l.contained 1 }
  | 3 => { l with periodFatal := satAdd 12 l.periodFatal 1 }
  | _ => { l with moduleFatal := satAdd 12 l.moduleFatal 1 }

/-- The counts in the layout of `CP_EVT_LOST` (R429). -/
def LostCounts.word (l : LostCounts) : Nat :=
  l.note + l.corrected * 2 ^ 12 + l.contained * 2 ^ 24 + l.periodFatal * 2 ^ 36 + l.moduleFatal * 2 ^ 48

/-- `CP_EVT_LOST`'s field for a class. -/
def lostField (cls : Nat) : Field :=
  match cls with
  | 0 => F.CP_EVT_LOST_NOTE
  | 1 => F.CP_EVT_LOST_CORRECTED
  | 2 => F.CP_EVT_LOST_CONTAINED
  | 3 => F.CP_EVT_LOST_PERIOD_FATAL
  | _ => F.CP_EVT_LOST_MODULE_FATAL

/-- A lost event counted (R429): `CP_EVT_LOST`, EVT_OVERFLOW, the counts of the next EVENT_OVERFLOW, and the first fatal one. -/
def State.loseEvent (s : State) (e : Ev) : State :=
  let s := (s.bump (lostField e.cls) 1).put F.CP_STATUS_EVT_OVERFLOW 1
  let s := { s with cp := { s.cp with lost := s.cp.lost.add e.cls } }
  if 3 ≤ e.cls ∧ s.get F.CP_EVT_FATAL_VALID = 0 then
    ((s.put F.CP_EVT_FATAL_CODE e.code).put F.CP_EVT_FATAL_CLASS e.cls).put F.CP_EVT_FATAL_VALID 1
  else s

/-- N, the records the event ring holds (R429). -/
def State.evtSize (s : State) : Nat := 2 ^ s.get F.CP_EVT_CTRL_ENTRIES_LOG2

/-- The Period an event record carries: `PC_PERIOD` while a Period runs, all ones otherwise (R428; log entry 12). -/
def State.eventPeriod (s : State) : Nat :=
  if s.pcState = 2 ∨ s.pcState = 3 then s.get F.PC_PERIOD_PERIOD else noPeriod

/-- An event as it arises: its time and its Period go into its record, whenever that is written. -/
def State.evNow (s : State) (e : Ev) : EvWait := ⟨e, s.now, s.eventPeriod, false⟩

/-- The 64 bytes of an event record (R428, R511). -/
def State.eventBytes (s : State) (w : EvWait) (withheld : Nat) : List Byte :=
  let e := w.ev
  let seq := s.get F.CP_EVT_SEQ_SEQ
  let phase := flag (seq / s.evtSize % 2 = 0)
  leBytes 4 (e.code + e.cls * 2 ^ 16 + phase * 2 ^ 31) ++ leBytes 4 (e.sub + e.inst % 2 ^ 24 * 256)
    ++ leBytes 8 w.period ++ leBytes 8 w.time
    ++ leBytes 4 (match e.cmd with | some c => c.tag | none => 0)
    ++ leBytes 4 (match e.cmd with | some c => c.ring % 64 + 64 | none => 0)
    ++ leBytes 8 e.d0 ++ leBytes 8 (withheld % 2 ^ 32 + flag e.inj * 2 ^ 63) ++ leBytes 8 seq ++ leBytes 8 0

/-- Where a record's bytes went: not written, written in HBM, or sent to the companion. -/
inductive RecordFate where
  | failed (next : List Ev)
  | stored (next : List Ev)
  | sent

/-- The write of one event record's 64 bytes at `addr` (R428: bytes 4 to 63 first), with the line checks of R284 and R555. -/
def State.storeRecord (s : State) (addr : Nat) (bs : List Byte) : State × RecordFate :=
  match spaceOf addr with
  | some .hbm =>
    if s.stackHeld (s.stackOf addr) then (s, .failed [])
    else match s.badLines addr 64 with
      | [] => ({ s with hbm := s.hbm.write addr bs }, .stored [])
      | l :: _ =>
        match s.checkLine l none with
        | (s, ev, true) => (s, .failed [ev])
        | (s, ev, false) => ({ s with hbm := s.hbm.write addr bs }, .stored [ev])
  | some .companion =>
    if s.companionMapped addr 64 && (s.oxlPort 0).isSome then (s, .sent) else (s, .failed [])
  | _ => (s, .failed [])

/-- The entry of the ring that the next record goes to. -/
def State.eventSlot (s : State) : Nat := s.get F.CP_EVT_BASE_BASE + s.get F.CP_EVT_SEQ_SEQ % s.evtSize * 64

/-- The ring takes no record: disabled or full (R429). -/
def State.eventRingShut (s : State) : Bool :=
  decide (s.get F.CP_EVT_CTRL_ENABLE = 0) ||
    decide (s.evtSize ≤ (s.get F.CP_EVT_SEQ_SEQ + 2 ^ 48 - s.get F.CP_EVT_ACKED_ACKED) % 2 ^ 48)

/-- The event goes into the Period's record (R53, R54) while a Period runs. -/
def State.noteEntry (s : State) (en : RecEntry) : State :=
  if s.pcState = 2 ∨ s.pcState = 3 then
    { s with pd := { s.pd with
        entries := if s.pd.entryCount < 32764 then s.pd.entries ++ [en] else s.pd.entries
        entryCount := s.pd.entryCount + 1 } }
  else s

/-- A PLDM event queued for the registered receiver, or counted as lost while 32 are queued (R518). `alert`: it sets
ALERT (R519). -/
def State.queuePldm (s : State) (e : PldmEvent) (alert : Bool) : State :=
  if s.mgmt.receiver.isNone then s
  else if 32 ≤ s.mgmt.queue.length then s.bump F.ER_STATUS_PLDM_LOST 1
  else
    let s := { s with mgmt := { s.mgmt with queue := s.mgmt.queue ++ [e] } }
    let s := s.put F.ER_STATUS_PLDM_QUEUED s.mgmt.queue.length
    if alert then s.put F.ER_STATUS_ALERT 1 else s

/-- The command in flight that a reference names. -/
def State.flightAt (s : State) (c : CmdRef) : Option Flight :=
  s.cp.flights.find? (fun f => decide (f.ref.ring = c.ring) && decide (f.ref.seq = c.seq))

/-- The Clause of the instance that a command is attached to. -/
def State.clauseOfCmd (s : State) (c : Option CmdRef) : Option Nat :=
  (c.bind (fun c => (s.flightAt c).bind (·.attach))).map (·.2)

/-- The Clause index of an event's entry (R54): that of the Clause it names (R41, R40), or of its command's instance; an event of neither
has 0 (log entry 114). -/
def State.eventClause (s : State) (e : Ev) : Nat :=
  if e.code = 0x0B06 ∨ e.code = 0x0B07 ∨ e.code = 0x0B08 then e.d0 % 256 else (s.clauseOfCmd e.cmd).getD 0

/-- The counters of an event, its entry in the Period's record, and its report to board management (R53, R54, R509, R518). -/
def State.countEvent (s : State) (e : Ev) : State :=
  let s := s.bump (F.ER_CLASS_COUNT e.cls) 1
  let s := s.noteEntry ⟨4, s.eventClause e, (match e.cmd with | some c => c.tag | none => 0), s.now, e.code, e.cls⟩
  let s := if s.pcState = 2 ∨ s.pcState = 3 then { s with pd := { s.pd with events := s.pd.events + 1 } } else s
  if s.get F.ER_CTRL_PLDM_CLASS ≤ e.cls then
    s.queuePldm (.oem e.cls ((s.eventBytes (s.evNow e) 0).take 32)) (decide (s.get F.ER_CTRL_ALERT_CLASS ≤ e.cls))
  else s

/-- The coalescing entry of an event's CODE and INSTANCE (R509). -/
def State.coalesceOf (s : State) (e : Ev) : Option Coalesce :=
  s.cp.coalesce.find? (fun k => decide (k.code = e.code) && decide (k.inst = e.inst))

/-- A CORRECTED event within 1 ms of the last record with its CODE and INSTANCE is withheld (R509). -/
def State.withholds (s : State) (w : EvWait) : Bool :=
  decide (w.ev.cls = 1) && (match s.coalesceOf w.ev with | some k => decide (w.time < k.time + 1000000) | none => false)

/-- The coalescing entry of a CORRECTED event whose record was written starts anew. -/
def State.coalesced (s : State) (w : EvWait) : State :=
  let e := w.ev
  let others := s.cp.coalesce.filter (fun k => !(decide (k.code = e.code) && decide (k.inst = e.inst)))
  if e.cls = 1 then { s with cp := { s.cp with coalesce := ⟨e.code, e.inst, w.time, 0⟩ :: others } } else s

/-- EVENT_OVERFLOW as it would be raised now (R429). -/
def State.overflowEv (s : State) : Ev := ⟨0x0A02, 2, 10, 0, s.cp.lost.word, false, none⟩

/-- The event of a record. -/
def State.taggedEv (s : State) : RecordTag → Ev
  | .event w => w.ev
  | .overflow => s.overflowEv

/-- What a written record changes beside SEQ: coalescing starts anew, and an EVENT_OVERFLOW clears EVT_OVERFLOW and restarts the counts. -/
def State.noteRecorded (s : State) : RecordTag → State
  | .event w => s.coalesced w
  | .overflow => { (s.put F.CP_STATUS_EVT_OVERFLOW 0) with cp := { s.cp with lost := ⟨0, 0, 0, 0, 0⟩ } }

/-- Vector 64, and no more of it until `CP_EVT_ACKED` advances (R431). -/
def State.eventInterrupt (s : State) : State := ({ s with cp := { s.cp with irqArmed := false } } : State).interrupt 64

/-- A record of a class sends vector 64: the class reaches `CP_CTRL.IRQ_CLASS`, and `CP_EVT_ACKED` has advanced since the last one. -/
def State.interrupts (s : State) (cls : Nat) : Bool := decide (s.get F.CP_CTRL_IRQ_CLASS ≤ cls) && s.cp.irqArmed

/-- A record is written (R429, R431); one in companion memory is when its ACK has come. -/
def State.recorded (s : State) (tag : RecordTag) : State :=
  let t := (s.put F.CP_EVT_SEQ_SEQ (s.get F.CP_EVT_SEQ_SEQ + 1)).noteRecorded tag
  if s.interrupts (s.taggedEv tag).cls then t.eventInterrupt else t

/-- One attempt to write a record. -/
def State.tryRecord (s : State) (tag : RecordTag) (w : EvWait) (withheld : Nat) : State × RecordFate :=
  if s.eventRingShut then (s.loseEvent w.ev, .failed [])
  else
    let bs := s.eventBytes w withheld
    let addr := s.eventSlot
    match s.storeRecord addr bs with
    | (s, .failed next) => (s.loseEvent w.ev, .failed next)
    | (s, .stored next) => (s.recorded tag, .stored next)
    | (s, .sent) => (s.writePart none (addr, 64) none (some tag) (addr - companionBase) bs, .sent)

/-- The events that an attempt itself raised. -/
def RecordFate.next : RecordFate → List Ev
  | .failed es => es
  | .stored es => es
  | .sent => []

/-- A record is on its way to the companion: the next one waits, because its number and its place follow from what becomes of this one. -/
def State.recordBusy (s : State) : Bool := (s.oxl.pending ++ s.oxl.waiting).any (fun r => r.record.isSome)

/-- A CORRECTED event withheld is counted with its CODE and INSTANCE (R509). -/
def State.countWithheld (s : State) (e : Ev) : State :=
  let count (k : Coalesce) : Coalesce := if k.code = e.code ∧ k.inst = e.inst then { k with withheld := k.withheld + 1 } else k
  { s with cp := { s.cp with coalesce := s.cp.coalesce.map count } }

/-- The record of an event itself written or lost, with the events that this raised. -/
def State.writeEvent (s : State) (w : EvWait) : State × List Ev :=
  let r := s.tryRecord (.event w) w (match s.coalesceOf w.ev with | some k => k.withheld | none => 0)
  (r.1, r.2.next)

/-- The EVENT_OVERFLOW record that comes before the next record after a loss, and then that record (R429). While the first is on its way to
the companion the second waits. -/
def State.writeOverflow (s : State) (w : EvWait) : State × List Ev :=
  match s.tryRecord .overflow (s.evNow s.overflowEv) 0 with
  | (s, .sent) => ({ s with cp := { s.cp with evWaits := { w with tried := true } :: s.cp.evWaits } }, [])
  | (s, .failed next) => let r := s.writeEvent w; (r.1, next ++ r.2)
  | (s, .stored next) => let r := s.writeEvent w; (r.1, next ++ r.2)

/-- The record of an event written, withheld under R509, or lost; the events that this raised come back with it. -/
def State.recordNow (s : State) (w : EvWait) : State × List Ev :=
  if s.withholds w then (s.countWithheld w.ev, [])
  else if s.on F.CP_STATUS_EVT_OVERFLOW && !s.eventRingShut && !w.tried then (s.countEvent s.overflowEv).writeOverflow w
  else s.writeEvent w

/-- The record of an event, or its place behind one that is on its way. -/
def State.recordEvent (s : State) (e : Ev) : State × List Ev :=
  if s.recordBusy then ({ s with cp := { s.cp with evWaits := s.cp.evWaits ++ [s.evNow e] } }, [])
  else s.recordNow (s.evNow e)

/-- An event counted and recorded, with the events that writing its record raises. The first argument bounds how often the write of
a record may itself raise an event (log entry 13). -/
def State.emitWithin : Nat → State → Ev → State
  | 0, s, e => (s.bump (F.ER_CLASS_COUNT e.cls) 1).loseEvent e
  | n + 1, s, e => match (s.countEvent e).recordEvent e with
    | (s, next) => next.foldl (fun s ev => s.emitWithin n ev) s

/-- An event's record, counters and management report. Its other actions are its raiser's. -/
def State.emit (s : State) (e : Ev) : State := s.emitWithin 3 e

/-- An event raised: its record and counters now, and, for class PERIOD_FATAL or MODULE_FATAL, its action due at the end of the
step (`State.settle`). -/
def State.raise (s : State) (e : Ev) : State :=
  let s := s.emit e
  if e.cls = 3 then { s with pd := { s.pd with haltDue := if s.pd.haltDue.isNone then some e.code else s.pd.haltDue } }
  else if e.cls = 4 then { s with pd := { s.pd with failDue := if s.pd.failDue.isNone then some e.code else s.pd.failDue } }
  else s

/-- An event with no command, no detail and not injected. -/
abbrev Ev.plain (code cls sub inst : Nat) : Ev := ⟨code, cls, sub, inst, 0, false, none⟩

/-! ## Requests that fail (R429, R447, R457) -/

/-- The records that wait written or lost in turn, until one is on its way again (`fuel` at most). -/
def State.writeWaiting (s : State) : Nat → State
  | 0 => s
  | fuel + 1 =>
    if s.recordBusy then s
    else match s.cp.evWaits with
      | [] => s
      | w :: ws => match ({ s with cp := { s.cp with evWaits := ws } } : State).recordNow w with
        | (s, next) => State.writeWaiting (next.foldl State.emit s) fuel

/-- The records that wait brought forward. -/
abbrev State.pumpRecords (s : State) : State := s.writeWaiting (2 * s.cp.evWaits.length)

/-- A write of companion memory that is not known to have been performed: what stood there stands, where it was refused or not yet
asked for, and otherwise the bytes are undefined. -/
def State.undoWrite (s : State) (r : OxlReq) (refused : Bool) : State :=
  let a := r.addr + (match r.merge with | some m => m.1 | none => 0)
  if r.old.isEmpty then s
  else if refused ∨ r.kind = .readOwn then { s with comp := s.comp.write a r.old }
  else { s with comp := s.comp.forget a (a + r.old.length) s.draws, draws := s.draws + 1 }

/-- What a failed request leaves with its agent: a read is noted as failed, and the agent of anything else is to meet the failure. -/
def State.failOwner (s : State) (r : OxlReq) (status : Nat) : State :=
  match r.owner with
  | none => s
  | some (.ring k) => { s with oxl := { s.oxl with failed := s.oxl.failed ++ [(.ring k, commandStatus status)] } }
  | some o =>
    if r.kind.reads ∧ r.merge = none then { s with oxl := { s.oxl with seen := s.oxl.seen ++ [⟨o, r.addr, r.len, status⟩] } }
    else { s with oxl := { s.oxl with
      seen := s.oxl.seen.filter (fun x => !(decide (x.owner = o) && overlaps x.addr x.len r.addr r.len))
      failed := s.oxl.failed ++ [(o, commandStatus status)] } }

/-- A request leaves the interface, with the lines of a write. -/
def State.takeReq (s : State) (r : OxlReq) : State :=
  { s with oxl := { s.oxl with
    pending := s.oxl.pending.erase r
    lines := if r.kind.reads then s.oxl.lines else s.oxl.lines.filter (fun l => !overlaps l.addr 64 r.addr r.len) } }

/-- A request ends without success: its write undone, its record lost, its agent told. -/
def State.dropReq (s : State) (r : OxlReq) (refused : Bool) (status : Nat) : State :=
  let s := ((s.takeReq r).undoWrite r refused).failOwner r status
  match r.record with
  | some tag => s.loseEvent (s.taggedEv tag)
  | none => s

/-- A request ends without success: `refused` by the STATUS of its response, or lost (R447, R457). -/
def State.oxlFail (s : State) (r : OxlReq) (refused : Bool) (status : Nat) : State := ((s.dropReq r refused status).pumpOxl).pumpRecords

/-- Every request that has no response is lost (R457). -/
def State.oxlAbandon (s : State) : State :=
  let rs := s.oxl.pending ++ s.oxl.waiting
  let s : State := { s with oxl := { s.oxl with waiting := [] } }
  (rs.foldl (fun (s : State) r => s.dropReq r false OXL_ISOLATED) s).pumpRecords

/-! ## Checked memory accesses -/

/-- The check of each bad line of a read, in address order, up to the first uncorrectable one (R284). True: the read failed. -/
def State.checkLines (s : State) (c : Option CmdRef) : List Nat → State × Bool
  | [] => (s, false)
  | l :: ls =>
    match s.checkLine l c with
    | (s, ev, true) => (s.emit ev, true)
    | (s, ev, false) => State.checkLines (s.emit ev) c ls

/-- What a checked read answers: the bytes, or the status that ends the reading command. -/
inductive ReadResult where
  | bytes (bs : List Byte)
  | error (status : Nat)
deriving DecidableEq, Repr

/-- A read of `n` bytes of HBM at a physical address: the stacks' availability (R288) and the line checks (R284). -/
def State.readHbm (s : State) (a n : Nat) (c : Option CmdRef) : State × ReadResult :=
  if (s.stacksOf a n).any s.stackHeld then (s, .error ST_ISOLATED)
  else match s.checkLines c (s.badLines a n) with
    | (s, true) => (s, .error ST_ECC)
    | (s, false) => (s, .bytes (s.hbm.read a n))

/-- A read of companion memory. What the command has not read yet it must read first: `oxl.missing` says so, and the command goes on once
it has (`State.run`). Without a command, and beyond a command's own run, the bytes are those that the module last read or wrote (log entry
107). -/
def State.readCompanion (s : State) (x n : Nat) (c : Option CmdRef) : State × ReadResult :=
  match c with
  | none => (s, .bytes (s.comp.read x n))
  | some r => match s.failedRead r.owner x n with
    | some st => (s, .error st)
    | none =>
      let s := if s.known r.owner x n || s.oxl.missing.isSome then s else { s with oxl := { s.oxl with missing := some (x, n) } }
      (s, .bytes (s.comp.read x n))

/-- A read by a module agent at a module address, the range lying in one row of R280. Aliases resolve by the bank in force
(R297); a companion range beyond the limit is UNMAPPED (R448), and one that no port can reach is isolated (R447, R457). -/
def State.readAt (s : State) (a n : Nat) (c : Option CmdRef) : State × ReadResult :=
  match rangeSpace a n with
  | none => (s, .error ST_BAD_PARAM)
  | some .companion =>
    if ¬ s.companionMapped a n then (s, .error ST_BAD_PARAM)
    else if (s.oxlPort 0).isNone then (s, .error ST_ISOLATED)
    else s.readCompanion (a - companionBase) n c
  | some _ => s.readHbm (s.physical a) n c

/-- The lines that a write covers only in part, at its two ends. -/
def partialLines (a n : Nat) : List Nat :=
  if n = 0 then []
  else
    let first := a / 64 * 64
    let last := (a + n - 1) / 64 * 64
    let ends := if first = last then [first] else [first, last]
    ends.filter (fun l => decide (l < a) || decide (a + n < l + 64))

/-- A write to HBM at a physical address. A line written in part is read first to merge (R555), with its check; one written whole
loses its poison and disarms an error armed in it (R284, R555). Answers the status that ends the writing command, if any. -/
def State.writeHbm (s : State) (a : Nat) (bs : List Byte) (c : Option CmdRef) : State × Option Nat :=
  let n := bs.length
  if (s.stacksOf a n).any s.stackHeld then (s, some ST_ISOLATED)
  else
    let part := partialLines a n
    let whole (l : Nat) : Bool := overlaps l 64 a n && !part.contains l
    match s.checkLines c ((s.badLines a n).filter part.contains) with
    | (s, failed) =>
      if failed then (s, some ST_ECC)
      else
        ({ s with hbm := s.hbm.write a bs
                  poison := s.poison.filter (fun l => !whole l)
                  inject := s.inject.filter (fun i =>
                    !((decide (i.kind = 4) || decide (i.kind = 5)) && whole (i.address / 64 * 64))) }, none)

/-- A write that software has caused noted for the end of the step. -/
def State.noteWrite (s : State) (a n : Nat) (c : Option CmdRef) : State :=
  if n = 0 then s else { s with wrote := s.wrote ++ [⟨a, n, s.clauseOfCmd c⟩] }

/-- A write by a module agent at a module address: never to an alias (R298). -/
def State.writeAt (s : State) (a : Nat) (bs : List Byte) (c : Option CmdRef) : State × Option Nat :=
  let s := s.noteWrite a bs.length c
  match rangeSpace a bs.length with
  | some .hbm => s.writeHbm a bs c
  | some .companion =>
    if ¬ s.companionMapped a bs.length then (s, some ST_BAD_PARAM)
    else if (s.oxlPort 0).isNone then (s, some ST_ISOLATED)
    else (s.writeCompanion (c.map (·.owner)) (a - companionBase) bs, none)
  | _ => (s, some ST_BAD_PARAM)

/-- A body that reads, and goes on with the bytes. -/
def State.reading (s : State) (a n : Nat) (c : CmdRef) (k : State → List Byte → Body) : Body :=
  match s.readAt a n (some c) with
  | (s, .error st) => s.fail st
  | (s, .bytes bs) => k s bs

/-- A body that writes, and goes on. -/
def State.writing (s : State) (a : Nat) (bs : List Byte) (c : CmdRef) (k : State → Body) : Body :=
  match s.writeAt a bs (some c) with
  | (s, some st) => s.fail st
  | (s, none) => k s

/-- A range of HBM whose contents become undefined (a fresh draw). -/
def State.forgetHbm (s : State) (lo hi : Nat) : State :=
  if hi ≤ lo then s else { s with hbm := s.hbm.forget lo hi s.draws, draws := s.draws + 1 }

/-- A destination whose contents become undefined, in HBM or in companion memory. -/
def State.forgetAt (s : State) (a n : Nat) : State :=
  match rangeSpace a n with
  | some .hbm => s.forgetHbm a (a + n)
  | some .companion =>
    if n = 0 then s
    else { s with comp := s.comp.forget (a - companionBase) (a - companionBase + n) s.draws, draws := s.draws + 1 }
  | _ => s

/-! ## Checks that many commands share -/

/-- The check that R298 makes of a range a command would read in an alias; the status it fails with. -/
def State.aliasCheck (s : State) (a n : Nat) : Option Nat :=
  match rangeSpace a n with
  | none => some ST_BAD_PARAM
  | some .hbm => none
  | some .companion => none
  | some sp =>
    let k := s.bankOf sp
    if s.bankState k ≠ 2 then some ST_NOT_READY
    else if s.get (F.TB_LEN_LENGTH k) < aliasOffset a + n then some ST_BAD_PARAM
    else none

/-- A range that a command may write: whole in HBM or in the companion windows (R280, R298). -/
def writable (a n : Nat) : Bool :=
  match rangeSpace a n with
  | some .hbm => true
  | some .companion => true
  | _ => false

/-- A range whole in HBM. -/
def inHbm (a n : Nat) : Bool := decide (a + n ≤ hbmEnd)

/-! ## Ending a command -/

/-- The flight of a command. -/
def State.flightOf (s : State) (ring seq : Nat) : Option Flight :=
  s.cp.flights.find? (fun f => decide (f.ref.ring = ring) && decide (f.ref.seq = seq))

/-- A command ends (R420): it leaves the commands in flight and waits for its completion record. `noted`: the Period's record holds an
entry of its own kind. -/
def State.finishAs (s : State) (noted : Bool) (c : CmdRef) (d : Done) : State :=
  let here (f : Flight) : Bool := decide (f.ref.ring = c.ring) && decide (f.ref.seq = c.seq)
  let own := s.cp.flights.find? here
  { s with cp := { s.cp with flights := s.cp.flights.filter (fun f => !here f),
                             ended := s.cp.ended ++ [⟨c, d, own.bind (·.attach), noted, own.bind (·.cmd)⟩] } }

/-- A command ends; a SOLVE's outcome is always recorded as such. -/
abbrev State.finish (s : State) (c : CmdRef) (d : Done) : State := s.finishAs (decide (c.opcode = 0x41)) c d

/-- How an opcode may be bound (R437). -/
inductive Binding where
  | any
  | notBound
  | kinds (ks : List Nat)
deriving DecidableEq, Repr

/-- The kind of Clause `c` in the active plan (R35). -/
def State.clauseKind (s : State) (c : Nat) : Option Nat :=
  match s.pd.plan with
  | some p => (p.clauses[c]?).map (fun e => e.kind.toNat)
  | none => none

/-- The header meets its opcode's binding (R437) and R416's rule for an unbound packet. -/
def State.bindingOk (s : State) (h : Hdr) : Binding → Bool
  | .any => h.bound || (decide (h.clause = 0) && !h.close)
  | .notBound => !h.bound && decide (h.clause = 0) && !h.close
  | .kinds ks => h.bound && (match s.clauseKind h.clause.val with | some k => ks.contains k | none => false)

/-- What the completion record will name for the command of a row: the flight that was dispatched, or, for a command that no ring
carried, the header's own fields with the time now as its dispatch. -/
def State.refOf (s : State) (h : Hdr) (opcode : Nat) : CmdRef :=
  match s.flightOf h.ring.val h.seq.toNat with
  | some f => f.ref
  | none => ⟨h.ring.val, h.seq.toNat, h.tag.toNat, opcode, h.interrupt, s.now⟩

/-- What a command's body came to: it ends, it stays in flight, or it must first read companion memory. Then it has done nothing yet: the
reads go out, and the command goes on when its row is given again (log entry 107). -/
def State.ran (s : State) (c : CmdRef) : Body → State
  | (t, d) => match (if t.oxl.missing = s.oxl.missing then none else t.oxl.missing), d with
    | some (a, n), _ => s.fetch c.owner a n
    | none, some d => t.finish c d
    | none, none => t

/-- A dispatched command runs: its binding is checked, then its body. A body that has not ended leaves the command in flight. -/
def State.run (s : State) (h : Hdr) (opcode : Nat) (b : Binding) (body : CmdRef → State → Body) : State :=
  let c := s.refOf h opcode
  if s.bindingOk h b then s.ran c (body c s)
  else s.finish c (Done.fail ST_BAD_PARAM)

/-- The outcome of a meaning that always has a next state. -/
abbrev done (s : State) : Host.Outcome State Fault Refusal := .next s

end Sys2Proof.Machine
end

