-- ==== Sys2Proof/Machine/Faults.lean ====
section
/-!
DEFINITION. Machine/Faults.lean: armed errors in SRAM stores, in chunk registers and in critical state, and what the module does
when a step meets one (R79, R512, R513, R522, R555); the map from logical to physical clusters (R108, R143); and the module's own
accesses to its tables in HBM.
-/
namespace Sys2Proof.Machine

/-! ## Clusters (R108, R143) -/

/-- `QC_LMAP`'s PHYS of a quarter's local index. -/
abbrev lmapPhys (q l : Nat) : Field := ⟨Reg.QC_LMAP q (l / 4), 8 * (l % 4), 7, 0⟩

/-- `QC_LMAP`'s SHARED of a quarter's local index. -/
abbrev lmapShared (q l : Nat) : Field := ⟨Reg.QC_LMAP q (l / 4), 8 * (l % 4) + 7, 1, 0⟩

/-- The physical cluster that a logical cluster runs on. -/
def State.physOf (s : State) (l : Nat) : Nat := 66 * (l / 64) + s.get (lmapPhys (l / 64) (l % 64))

/-- The `QC_RETIRED` bit of a quarter's physical index. -/
def State.retiredBit (s : State) (q i : Nat) : Bool :=
  if i < 64 then bit (s.get (F.QC_RETIRED_RETIRED q)) i else bit (s.get (F.QC_RETIRED_HI_RETIRED q)) (i - 64)

/-- A physical cluster marked for retirement (R139), once; `status` is what a fault ends the commands running on it with. -/
def State.markCluster (s : State) (cluster : Nat) (persist : Bool) (status : Option Nat) : State :=
  if s.retiredBit (cluster / 66) (cluster % 66) then s
  else if s.marks.any (fun m => decide (m.cluster = cluster)) then
    { s with marks := s.marks.map (fun m =>
      if m.cluster = cluster then { m with persist := m.persist || persist, status := m.status.or status } else m) }
  else { s with marks := s.marks ++ [⟨cluster, persist, status⟩] }

/-- The status with which a fault of one of some physical clusters ends every command running on it (R139). -/
def State.markStatus (s : State) (clusters : List Nat) : Option Nat :=
  (s.marks.find? (fun m => clusters.contains m.cluster && m.status.isSome)).bind (·.status)

/-- A quarter's or a cluster's domain is in reset: the clusters of the set that answer a command with ST_ISOLATED (R118, R474). -/
def State.clusterHeld (s : State) (cluster : Nat) : Bool :=
  s.pwr.held.any (fun h => match h.dom with
    | .quarter q => decide (q.val = cluster / 66)
    | .cluster c => decide (c.val = cluster)
    | _ => false)

/-! ## SRAM stores (R512, R522, R555) -/

/-- The stores of INJECT_ERROR (R522). -/
inductive Store where
  | loc | staging | solver | fabric
deriving DecidableEq, Repr

/-- STORE's code (R522). -/
def Store.code : Store → Nat
  | .loc => 0 | .staging => 1 | .solver => 2 | .fabric => 3

/-- The codes of a store's corrected and uncorrectable events, and its subsystem (R510). -/
def Store.events : Store → Nat × Nat × Nat
  | .loc => (0x0106, 0x0107, 1)
  | .staging => (0x0506, 0x0507, 5)
  | .solver => (0x0405, 0x0406, 4)
  | .fabric => (0x0707, 0x0708, 7)

/-- A store's error counted (R220, R523). -/
def State.countSram (s : State) (st : Store) (uncorrectable : Bool) : State :=
  match st, uncorrectable with
  | .loc, false => s.bump (F.ER_SRAM_ECC_CORRECTED 0) 1
  | .loc, true => s.bump (F.ER_SRAM_ECC_UNCORRECTABLE 0) 1
  | .staging, false => s.bump (F.ER_SRAM_ECC_CORRECTED 1) 1
  | .staging, true => s.bump (F.ER_SRAM_ECC_UNCORRECTABLE 1) 1
  | .solver, false => s.bump F.CJ_STORE_ECC_CORRECTED 1
  | .solver, true => s.bump F.CJ_STORE_ECC_UNCORRECTED 1
  | .fabric, false => s.bump (F.ER_SRAM_ECC_CORRECTED 2) 1
  | .fabric, true => s.bump (F.ER_SRAM_ECC_UNCORRECTABLE 2) 1

/-- A step uses a store instance. An error armed in it is met, replaced or left, as the free value of log entry 18 says; met, it is
counted and raises its event. True: an uncorrectable error was met. -/
def State.useStore (s : State) (st : Store) (inst : Nat) (c : Option CmdRef) : State × Bool :=
  match s.inject.find? (fun i => (decide (i.kind = 2) || decide (i.kind = 3)) && decide (i.store = st.code) && decide (i.index = inst)) with
  | none => (s, false)
  | some i =>
    let outcome := Config.sramOutcome s.draws
    let s := { s with draws := s.draws + 1 }
    let gone := { s with inject := s.inject.erase i }
    if outcome = 0 then
      if i.kind = 2 then
        ((gone.countSram st false).raise ⟨st.events.1, 1, st.events.2.2, inst, i.address, true, c⟩, false)
      else ((gone.countSram st true).raise ⟨st.events.2.1, 2, st.events.2.2, inst, i.address, true, c⟩, true)
    else if outcome = 1 then (gone, false)
    else (s, false)

/-- A step uses several instances of a store, in the given order. True: an uncorrectable error was met in some of them. -/
def State.useStores (s : State) (st : Store) (insts : List Nat) (c : Option CmdRef) : State × Bool :=
  insts.foldl (fun (s, bad) i => match s.useStore st i c with | (s, b) => (s, bad || b)) (s, false)

/-! ## Chunk residues (R79, R522) -/

/-- One armed RESIDUE error of a logical cluster taken, if there is one. -/
def State.takeResidue (s : State) (cluster : Nat) : Option State :=
  (s.inject.find? (fun i => decide (i.kind = 1) && decide (i.index = cluster))).map
    (fun i => { s with inject := s.inject.erase i })

/-- A chunk that a logical cluster completes: by its matrix engine (`sub` 1) or its Gram tap (3), in which tile, the number of the chunk
there (log entry 117), and whether the prediction and the register agree, leaving armed errors aside (R78). -/
structure ChunkCheck where
  sub   : Nat
  tile  : Nat
  chunk : Nat
  ok    : Bool

/-- A chunk register completes in a logical cluster (R78, R79). One that disagrees with its prediction, by its own bits or by an armed
error, is recomputed; a second armed error meets the recomputation. True: a second mismatch. -/
def State.completeChunk (s : State) (cluster : Nat) (k : ChunkCheck) (c : Option CmdRef) : State × Bool :=
  match s.takeResidue cluster, k.ok with
  | none, true => (s, false)
  | first, ok =>
    let s := first.getD s
    let phys := s.physOf cluster
    let d0 := k.tile % 2 ^ 32 + k.chunk % 2 ^ 32 * 2 ^ 32
    match s.takeResidue cluster, ok with
    | none, true =>
      ((s.bump (F.QC_RESIDUE_CORRECTED (cluster / 64)) 1).raise ⟨0x0101, 1, k.sub, phys, d0, first.isSome, c⟩, false)
    | second, _ =>
      let s := (second.getD s).bump (F.QC_RESIDUE_FAULTS (cluster / 64)) 1
      ((s.raise ⟨0x0102, 2, k.sub, phys, d0, first.isSome || second.isSome, c⟩).markCluster phys false (some ST_RESIDUE), true)

/-- The chunks that a logical cluster completes, in their order, up to a second mismatch. True: there was one. -/
def State.completeChunks (s : State) (cluster : Nat) (c : Option CmdRef) : List ChunkCheck → State × Bool
  | [] => (s, false)
  | k :: ks => match s.completeChunk cluster k c with
    | (s, true) => (s, true)
    | (s, false) => State.completeChunks s cluster c ks

/-! ## Critical state (R513) -/

/-- The block of an on-die critical structure, as the escalations of R470 count it: the command processor, the hub, a quarter or a port. -/
def criticalKey (structure_ inst : Nat) : Nat :=
  if structure_ = 1 then 2 else if structure_ = 2 then 20 + inst else if structure_ = 5 then 10 + inst else 3

/-- The events of a source that R470 has counted within 1 s of the first. -/
def State.escalations (s : State) (key : Nat) : Nat :=
  match s.pwr.escalations.find? (fun e => decide (e.key = key)) with
  | some e => if s.now ≤ e.first + 1000000000 then e.count else 0
  | none => 0

/-- An uncorrectable error in critical state: the event, `ER_CRITICAL`, and for an on-die structure its reset, due at the end of the
step. The one that escalates to reach M writes no event (R485). One of the hub's own structures counts as an uncorrectable error of the hub
control SRAM (R512; log entry 136). -/
def State.criticalError (s : State) (structure_ inst : Nat) (injected : Bool) (c : Option CmdRef) : State :=
  let s := (s.put F.ER_CRITICAL_STRUCTURE structure_).put F.ER_CRITICAL_INSTANCE inst
  let s := if structure_ ≤ 4 then s.bump (F.ER_SRAM_ECC_UNCORRECTABLE 3) 1 else s
  let key := criticalKey structure_ inst
  let due := (s.pwr.resetDue.filter (fun d => decide (criticalKey d.1 d.2 = key))).length
  let last := decide (structure_ ≤ 5) && decide (2 ≤ s.escalations key + due)
  let s := if last then s else s.raise ⟨0x0D08, 2, 13, inst, structure_, injected, c⟩
  if structure_ ≤ 5 then { s with pwr := { s.pwr with resetDue := s.pwr.resetDue ++ [(structure_, inst)] } } else s

/-- A step accesses a critical structure: an error armed in it (R522 CRITICAL) is met. True: it was. -/
def State.useCritical (s : State) (structure_ inst : Nat) (c : Option CmdRef) : State × Bool :=
  match s.inject.find? (fun i => decide (i.kind = 7) && decide (i.index = structure_)) with
  | none => (s, false)
  | some i => (({ s with inject := s.inject.erase i }).criticalError structure_ inst true c, true)

/-- The same, where only the state matters. -/
abbrev State.touchCritical (s : State) (structure_ inst : Nat) : State := (s.useCritical structure_ inst none).1

/-! ## The module's own tables in HBM -/

/-- A read of an HBM table for a command: an uncorrectable error in it is one in critical state (R513, structures 0x06 to 0x08). -/
def State.readTable (s : State) (a n structure_ : Nat) (c : CmdRef) : State × ReadResult :=
  match s.useCritical structure_ 0 (some c) with
  | (s, true) => (s, .error ST_ECC)
  | (s, false) =>
    match s.readHbm a n (some c) with
    | (s, .error st) => if st = ST_ECC then (s.criticalError structure_ (s.stackOf a) false (some c), .error st) else (s, .error st)
    | r => r

/-- A body that reads a table, and goes on with the bytes. -/
def State.readingTable (s : State) (a n structure_ : Nat) (c : CmdRef) (k : State → List Byte → Body) : Body :=
  match s.readTable a n structure_ c with
  | (s, .error st) => s.fail st
  | (s, .bytes bs) => k s bs

/-- A write of the module's own to HBM, of a table that it keeps there. -/
def State.own (s : State) (a : Nat) (bs : List Byte) : State := (s.writeHbm a bs none).1

/-- A little-endian field of a table in HBM. -/
abbrev State.word (s : State) (a n : Nat) : Nat := ofLE (s.hbm.read a n)

/-- A write of a little-endian field of a table in HBM. -/
abbrev State.ownWord (s : State) (a n v : Nat) : State := s.own a (leBytes n v)

end Sys2Proof.Machine
end

