-- ==== Sys2Proof/Machine/Num.lean ====
section
/-!
DEFINITION. Machine/Num.lean: the twelve number formats, exact values, and conversion with rounding (chapter 03, R63 to R85).

Every value a format holds is a `Val`: not a number, an infinity, or an exact dyadic number. An operation forms its exact
result and converts it once, which is how the spec states each of them.
-/
namespace Sys2Proof.Machine

/-- The Numerics Revision of the module (`ID_NUMREV`). -/
abbrev numRev : Nat := 0x0103

/-- What a bit pattern of a format stands for. `fin neg m e` is (-1)^neg * m * 2^e; a zero keeps its sign. -/
inductive Val where
  | nan
  | inf (neg : Bool)
  | fin (neg : Bool) (m : Nat) (e : Int)
deriving DecidableEq, Repr

/-- +0. -/
abbrev Val.zero : Val := .fin false 0 0

/-- The exact value of an integer. -/
def Val.ofInt (i : Int) : Val := .fin (decide (i < 0)) i.natAbs 0

/-- A natural number shifted by a possibly negative count (exact for counts >= 0, floor otherwise). -/
def shiftBy (m : Nat) (s : Int) : Nat := if 0 ≤ s then m * 2 ^ s.toNat else m / 2 ^ (-s).toNat

/-- Whether `shiftBy` drops nonzero bits. -/
def shiftLoses (m : Nat) (s : Int) : Bool := decide (s < 0) && decide (m % 2 ^ (-s).toNat ≠ 0)

/-- The floor of log2 of a nonzero finite magnitude. -/
def expOf (m : Nat) (e : Int) : Int := Int.ofNat m.log2 + e

/-- A magnitude with its sign. -/
def signedNat (neg : Bool) (n : Nat) : Int := if neg then -Int.ofNat n else Int.ofNat n

/-- The signed integer of a magnitude in units of 2^q, for q at most its exponent. -/
def signedAt (neg : Bool) (m : Nat) (e q : Int) : Int := signedNat neg (shiftBy m (e - q))

/-- A signed multiple of 2^q as a value; an exact zero is +0. -/
def Val.ofSigned (i : Int) (q : Int) : Val :=
  if i = 0 then .zero else .fin (decide (i < 0)) i.natAbs q

/-- The exact sum (IEEE rules for infinities and signed zeros under RNE). -/
def Val.add : Val → Val → Val
  | .nan, _ => .nan
  | _, .nan => .nan
  | .inf a, .inf b => if a = b then .inf a else .nan
  | .inf a, _ => .inf a
  | _, .inf b => .inf b
  | .fin s1 m1 e1, .fin s2 m2 e2 =>
    if m1 = 0 ∧ m2 = 0 then .fin (s1 && s2) 0 0
    else if m1 = 0 then .fin s2 m2 e2
    else if m2 = 0 then .fin s1 m1 e1
    else
      let q := min e1 e2
      .ofSigned (signedAt s1 m1 e1 q + signedAt s2 m2 e2 q) q

/-- Negation. -/
def Val.neg : Val → Val
  | .nan => .nan
  | .inf a => .inf (!a)
  | .fin s m e => .fin (!s) m e

/-- Magnitude. -/
def Val.abs : Val → Val
  | .nan => .nan
  | .inf _ => .inf false
  | .fin _ m e => .fin false m e

/-- The exact difference. -/
def Val.sub (x y : Val) : Val := x.add y.neg

/-- The exact product. -/
def Val.mul : Val → Val → Val
  | .nan, _ => .nan
  | _, .nan => .nan
  | .inf a, .inf b => .inf (a ^^ b)
  | .inf a, .fin s m _ => if m = 0 then .nan else .inf (a ^^ s)
  | .fin s m _, .inf b => if m = 0 then .nan else .inf (s ^^ b)
  | .fin s1 m1 e1, .fin s2 m2 e2 => .fin (s1 ^^ s2) (m1 * m2) (e1 + e2)

/-- x * y + z, exact. -/
def Val.fma (x y z : Val) : Val := (x.mul y).add z

/-- x * 2^s. -/
def Val.scale (s : Int) : Val → Val
  | .fin n m e => .fin n m (e + s)
  | v => v

/-- A magnitude with one more bit that records whether the true value is larger: below the last bit any format can tell. -/
def sticky (m : Nat) (inexact : Bool) : Nat := 2 * m + flag inexact

/-- The quotient to more than 160 bits, with a sticky bit; every rounding of it to a format is the correctly rounded quotient. -/
def Val.div : Val → Val → Val
  | .nan, _ => .nan
  | _, .nan => .nan
  | .inf _, .inf _ => .nan
  | .inf a, .fin s _ _ => .inf (a ^^ s)
  | .fin s _ _, .inf b => .fin (s ^^ b) 0 0
  | .fin s1 m1 e1, .fin s2 m2 e2 =>
    if m2 = 0 then (if m1 = 0 then .nan else .inf (s1 ^^ s2))
    else if m1 = 0 then .fin (s1 ^^ s2) 0 0
    else
      let sh := m2.log2 + 192
      let n := m1 * 2 ^ sh
      .fin (s1 ^^ s2) (sticky (n / m2) (decide (n % m2 ≠ 0))) (e1 - e2 - Int.ofNat sh - 1)

/-- Integer square root, bit by bit from bit `k` down: `r` is the root found so far. -/
def isqrtAux (n : Nat) : Nat → Nat → Nat
  | 0, r => if (r + 1) * (r + 1) ≤ n then r + 1 else r
  | k + 1, r =>
    let c := r + 2 ^ (k + 1)
    isqrtAux n k (if c * c ≤ n then c else r)

/-- The floor of the square root. -/
def isqrt (n : Nat) : Nat := isqrtAux n (n.log2 / 2) 0

/-- The square root of a nonnegative value, to more than 160 bits with a sticky bit; -0 gives -0 and a negative value NaN. -/
def Val.sqrt : Val → Val
  | .nan => .nan
  | .inf a => if a then .nan else .inf false
  | .fin s m e =>
    if m = 0 then .fin s 0 0
    else if s then .nan
    else
      let odd := e % 2
      let n := m * 2 ^ odd.toNat * 2 ^ 384
      let r := isqrt n
      .fin false (sticky r (decide (r * r ≠ n))) ((e - odd) / 2 - 192 - 1)

/-- x^(-1/2^k) of a positive finite value, correctly roundable (R194). -/
def Val.invRoot (k : Nat) : Val → Val
  | .fin false m e =>
    if m = 0 then .inf false
    else
      let p : Nat := 2 ^ k
      -- e = p * t + u with 0 <= u < p
      let t := e / (p : Int)
      let u := (e % (p : Int)).toNat
      let d := m * 2 ^ u
      let sh := p * (192 + d.log2 / p + 1)
      let n := 2 ^ sh / d
      let r := (List.range k).foldl (fun y _ => isqrt y) n
      .fin false (sticky r (decide (r ^ p * d ≠ 2 ^ sh))) (-t - Int.ofNat (sh / p) - 1)
  | .fin true _ _ => .nan
  | .inf false => .zero
  | .inf true => .nan
  | .nan => .nan

/-- Ordering of finite or infinite values (NaN compares below nothing). -/
def Val.lt : Val → Val → Bool
  | .nan, _ => false
  | _, .nan => false
  | .inf a, .inf b => a && !b
  | .inf a, .fin _ _ _ => a
  | .fin _ _ _, .inf b => !b
  | .fin s1 m1 e1, .fin s2 m2 e2 =>
    let q := min e1 e2
    decide (signedAt s1 m1 e1 q < signedAt s2 m2 e2 q)

/-- x ≤ y. -/
def Val.le (x y : Val) : Bool := match x, y with
  | .nan, _ => false
  | _, .nan => false
  | x, y => !(y.lt x)

def Val.isNan : Val → Bool
  | .nan => true
  | _ => false

def Val.isFinite : Val → Bool
  | .fin _ _ _ => true
  | _ => false

def Val.isZero : Val → Bool
  | .fin _ m _ => m == 0
  | _ => false

def Val.isNeg : Val → Bool
  | .inf a => a
  | .fin s _ _ => s
  | .nan => false

/-- Larger of two, NaN if either is NaN, +0 above -0 (R124 MAX). -/
def Val.max (x y : Val) : Val :=
  if x.isNan || y.isNan then .nan
  else if x.lt y then y
  else if y.lt x then x
  else if x.isNeg then y else x

/-- Smaller of two, NaN if either is NaN, -0 below +0 (R124 MIN). -/
def Val.min (x y : Val) : Val :=
  if x.isNan || y.isNan then .nan
  else if x.lt y then x
  else if y.lt x then y
  else if x.isNeg then x else y

/-! ## Formats -/

/-- The specials a floating-point format has (R64). -/
inductive Specials where
  | ieee   -- exponent all ones: infinity and NaN
  | e4m3   -- S.1111.111 is NaN, no infinity
  | none   -- neither
deriving DecidableEq, Repr

/-- A floating-point format (R64). -/
structure FloatFmt where
  ebits : Nat
  fbits : Nat
  bias  : Nat
  spec  : Specials
deriving DecidableEq, Repr

/-- The format codes of R63 by kind. -/
inductive Fmt where
  | fp64 | m40 | fp32 | bf16 | fp16 | e4m3 | e5m2 | e3m2 | e2m1 | int8 | int32 | ue8m0
deriving DecidableEq, Repr

/-- R63. Codes 0xC to 0xF are reserved. -/
def Fmt.ofCode : Nat → Option Fmt
  | 0 => some .fp64
  | 1 => some .m40
  | 2 => some .fp32
  | 3 => some .bf16
  | 4 => some .fp16
  | 5 => some .e4m3
  | 6 => some .e5m2
  | 7 => some .e3m2
  | 8 => some .e2m1
  | 9 => some .int8
  | 10 => some .int32
  | 11 => some .ue8m0
  | _ => none

/-- R63. -/
def Fmt.code : Fmt → Nat
  | .fp64 => 0 | .m40 => 1 | .fp32 => 2 | .bf16 => 3 | .fp16 => 4 | .e4m3 => 5
  | .e5m2 => 6 | .e3m2 => 7 | .e2m1 => 8 | .int8 => 9 | .int32 => 10 | .ue8m0 => 11

/-- R64; none for the integer formats and UE8M0. -/
def Fmt.float : Fmt → Option FloatFmt
  | .fp64 => some ⟨11, 52, 1023, .ieee⟩
  | .m40 => some ⟨8, 31, 127, .ieee⟩
  | .fp32 => some ⟨8, 23, 127, .ieee⟩
  | .bf16 => some ⟨8, 7, 127, .ieee⟩
  | .fp16 => some ⟨5, 10, 15, .ieee⟩
  | .e4m3 => some ⟨4, 3, 7, .e4m3⟩
  | .e5m2 => some ⟨5, 2, 15, .ieee⟩
  | .e3m2 => some ⟨3, 2, 3, .none⟩
  | .e2m1 => some ⟨2, 1, 1, .none⟩
  | _ => none

/-- The width of an element in bits (R64). -/
def Fmt.width : Fmt → Nat
  | .fp64 => 64 | .m40 => 40 | .fp32 => 32 | .bf16 => 16 | .fp16 => 16 | .e4m3 => 8
  | .e5m2 => 8 | .e3m2 => 6 | .e2m1 => 4 | .int8 => 8 | .int32 => 32 | .ue8m0 => 8

/-- The bits of a floating-point format as a value (R64; M40 with all-ones exponent ignores its extension byte, R70). -/
def FloatFmt.decode (f : FloatFmt) (m40 : Bool) (b : Nat) : Val :=
  let s := bit b (f.ebits + f.fbits)
  let e := bits b f.fbits f.ebits
  let m := bits b 0 f.fbits
  let top := 2 ^ f.ebits - 1
  let sub : Int := 1 - Int.ofNat f.bias - Int.ofNat f.fbits
  if e = top ∧ f.spec = .ieee then
    (if (if m40 then m / 256 else m) = 0 then .inf s else .nan)
  else if e = top ∧ f.spec = .e4m3 ∧ m = 2 ^ f.fbits - 1 then .nan
  else if e = 0 then .fin s m sub
  else .fin s (2 ^ f.fbits + m) (sub + Int.ofNat e - 1)

/-- A two's complement integer of `w` bits. -/
def toSigned (w b : Nat) : Int := if b < 2 ^ (w - 1) then Int.ofNat b else Int.ofNat b - Int.ofNat (2 ^ w)

/-- The value an element's bits hold. -/
def Fmt.decode (f : Fmt) (b : Nat) : Val :=
  match f with
  | .int8 => .ofInt (toSigned 8 (b % 256))
  | .int32 => .ofInt (toSigned 32 (b % 2 ^ 32))
  | .ue8m0 => if b % 256 = 255 then .nan else .fin false 1 (Int.ofNat (b % 256) - 127)
  | f => match f.float with
    | some ff => ff.decode (f == .m40) b
    | none => .nan

/-- The canonical NaN (R67); formats without one take the value R82 gives. -/
def Fmt.canonicalNan : Fmt → Nat
  | .fp64 => 0x7FF8000000000000
  | .m40 => 0x7FC0000000
  | .fp32 => 0x7FC00000
  | .bf16 => 0x7FC0
  | .fp16 => 0x7E00
  | .e4m3 => 0x7F
  | .e5m2 => 0x7E
  | .ue8m0 => 0xFF
  | _ => 0

/-! ## Rounding -/

/-- How a magnitude is rounded (R80, R84): to nearest even, toward zero, or stochastically with the 16-bit draw. -/
inductive Rnd where
  | rne
  | rtz
  | sr (r : Nat)
deriving DecidableEq, Repr

/-- The column of R82 that decides overflow. -/
inductive Col where
  | inf   -- RNE or SR
  | rtz
  | sat
deriving DecidableEq, Repr

/-- Which counter of R89 a conversion adds to. -/
structure CFlags where
  overflow   : Bool
  saturation : Bool
  underflow  : Bool
  nan        : Bool
deriving DecidableEq, Repr

/-- No counter. -/
abbrev CFlags.none : CFlags := ⟨false, false, false, false⟩

/-- The magnitude `m * 2^e` rounded to a multiple of 2^q, in units of 2^q. -/
def roundUnits (rnd : Rnd) (m : Nat) (e q : Int) : Nat :=
  let s := e - q
  if 0 ≤ s then m * 2 ^ s.toNat
  else
    let u := 2 ^ (-s).toNat
    let lo := m / u
    let rem := m % u
    match rnd with
    | .rtz => lo
    | .rne => if 2 * rem > u ∨ (2 * rem = u ∧ lo % 2 = 1) then lo + 1 else lo
    | .sr r => if rem * 65536 / u + r ≥ 65536 then lo + 1 else lo

/-- The largest finite value of a format, in units of 2^q with its q. -/
def FloatFmt.maxFinite (f : FloatFmt) : Nat × Int :=
  let topE : Nat := 2 ^ f.ebits - 1 - (if f.spec = .ieee then 1 else 0)
  let m : Nat := 2 ^ (f.fbits + 1) - 1 - (if f.spec = .e4m3 then 1 else 0)
  (m, Int.ofNat topE - Int.ofNat f.bias - Int.ofNat f.fbits)

/-- The bits of a sign and of `n` units of 2^q, where n has at most fbits + 1 bits (or is the next power of two). -/
def FloatFmt.encode (f : FloatFmt) (s : Bool) (n : Nat) (q : Int) : Nat :=
  let sgn := flag s * 2 ^ (f.ebits + f.fbits)
  if n < 2 ^ f.fbits then sgn + n
  else
    let carry := n = 2 ^ (f.fbits + 1)
    let n' := if carry then n / 2 else n
    let q' := if carry then q + 1 else q
    let e := (q' + Int.ofNat f.fbits + Int.ofNat f.bias).toNat
    sgn + e * 2 ^ f.fbits + (n' - 2 ^ f.fbits)

/-- The bits of the largest finite value of a sign. -/
def FloatFmt.maxBits (f : FloatFmt) (s : Bool) : Nat :=
  let (m, q) := f.maxFinite
  f.encode s m q

/-- The bits of an infinity, where the format has one. -/
def FloatFmt.infBits (f : FloatFmt) (s : Bool) : Nat :=
  flag s * 2 ^ (f.ebits + f.fbits) + (2 ^ f.ebits - 1) * 2 ^ f.fbits

/-- The outcome of R82 for a magnitude beyond the largest finite value, finite or infinite. -/
def FloatFmt.overflowed (f : FloatFmt) (nanBits : Nat) (col : Col) (s infinite : Bool) : Nat × CFlags :=
  let sat := (f.maxBits s, { CFlags.none with saturation := true })
  match f.spec with
  | .none => sat
  | .e4m3 => if col = .inf then (nanBits, { CFlags.none with overflow := true }) else sat
  | .ieee =>
    if infinite then (if col = .sat then sat else (f.infBits s, .none))
    else if col = .inf then (f.infBits s, { CFlags.none with overflow := true }) else sat

/-- Conversion of an exact value to a floating-point format (R81 to R84). -/
def FloatFmt.convert (f : FloatFmt) (nanBits : Nat) (rnd : Rnd) (col : Col) : Val → Nat × CFlags
  | .nan => (nanBits, { CFlags.none with nan := true })
  | .inf s => f.overflowed nanBits col s true
  | .fin s m e =>
    if m = 0 then (f.encode s 0 0, .none)
    else
      let q := max (expOf m e - Int.ofNat f.fbits) (1 - Int.ofNat f.bias - Int.ofNat f.fbits)
      let n := roundUnits rnd m e q
      let (mx, mq) := f.maxFinite
      if (Val.fin false mx mq).lt (.fin false n q) then f.overflowed nanBits col s false
      else (f.encode s n q, { CFlags.none with underflow := n == 0 })

/-- Conversion to a two's complement integer of `w` bits (R82, R84). -/
def convertInt (w : Nat) (rnd : Rnd) : Val → Nat × CFlags
  | .nan => (0, { CFlags.none with nan := true })
  | .inf s => (if s then 2 ^ (w - 1) else 2 ^ (w - 1) - 1, { CFlags.none with saturation := true })
  | .fin s m e =>
    let n := roundUnits rnd m e 0
    let i : Int := if s then -(Int.ofNat n) else Int.ofNat n
    let hi : Int := Int.ofNat (2 ^ (w - 1)) - 1
    let lo : Int := -(Int.ofNat (2 ^ (w - 1)))
    if i > hi then (2 ^ (w - 1) - 1, { CFlags.none with saturation := true })
    else if i < lo then (2 ^ (w - 1), { CFlags.none with saturation := true })
    else ((i % Int.ofNat (2 ^ w)).toNat, .none)

/-- Conversion to UE8M0 (R82, R83). -/
def convertUe8m0 (rnd : Rnd) : Val → Nat × CFlags
  | .nan => (255, { CFlags.none with nan := true })
  | .inf s => if s then (255, { CFlags.none with nan := true }) else (254, { CFlags.none with saturation := true })
  | .fin s m e =>
    if s ∨ m = 0 then (255, { CFlags.none with nan := true })
    else
      let k := expOf m e
      -- the part above 2^k, in units of 2^k / 2^16, truncated, and exactly
      let rem := m - 2 ^ m.log2
      let unit := 2 ^ m.log2
      let up := match rnd with
        | .rtz => false
        | .rne => decide (2 * rem > unit) || (decide (2 * rem = unit) && (k + 127) % 2 == 1)
        | .sr r => decide (rem * 65536 / unit + r ≥ 65536)
      let k' := if up then k + 1 else k
      if k' < -127 then (0, { CFlags.none with underflow := true })
      else if k' > 127 then (254, { CFlags.none with saturation := true })
      else ((k' + 127).toNat, .none)

/-- Conversion of an exact value to any format: the bits and the counter it adds to (R80 to R85). -/
def Fmt.convert (f : Fmt) (rnd : Rnd) (col : Col) (x : Val) : Nat × CFlags :=
  match f with
  | .int8 => convertInt 8 rnd x
  | .int32 => convertInt 32 rnd x
  | .ue8m0 => convertUe8m0 rnd x
  | f => match f.float with
    | some ff => ff.convert f.canonicalNan rnd col x
    | none => (0, .none)

/-- An FP32 word from an exact value, RNE: the form of every vector-engine and update-unit operation (R125, R254). -/
def rne32 (x : Val) : Nat := (Fmt.fp32.convert .rne .inf x).1

/-- An FP64 word from an exact value, RNE. -/
def rne64 (x : Val) : Nat := (Fmt.fp64.convert .rne .inf x).1

/-- The value of an FP32 word. -/
abbrev v32 (b : Nat) : Val := Fmt.fp32.decode b

/-- The value of an FP64 word. -/
abbrev v64 (b : Nat) : Val := Fmt.fp64.decode b

/-- An exact value rounded to FP32 and read back. -/
def round32 (x : Val) : Val := v32 (rne32 x)

/-- Rounding toward +infinity to FP32 of a magnitude, +infinity beyond the largest finite (AMAX, R89). -/
def ceil32 : Val → Nat
  | .fin _ m e =>
    if m = 0 then 0
    else
      let ff : FloatFmt := ⟨8, 23, 127, .ieee⟩
      let q := max (expOf m e - 23) (-149)
      let n := roundUnits .rtz m e q + flag (shiftLoses m (e - q))
      if (Val.fin false ff.maxFinite.1 ff.maxFinite.2).lt (.fin false n q) then 0x7F800000 else ff.encode false n q
  | _ => 0x7F800000

/-- Rounding codes of R80 (0 DEFAULT is resolved by the numerics mode, R95). -/
inductive RndCode where
  | default | rne | rtz | sr | sat
deriving DecidableEq, Repr

def RndCode.ofCode : Nat → Option RndCode
  | 0 => some .default
  | 1 => some .rne
  | 2 => some .rtz
  | 3 => some .sr
  | 4 => some .sat
  | _ => none

/-! ## ACC (R72) -/

/-- The 49 significant bits and the overflow of ACC, RNE. -/
def accRound : Val → Val
  | .fin s m e =>
    if m = 0 then .fin s 0 0
    else
      let q := expOf m e - 48
      let n := roundUnits .rne m e q
      if expOf n q > 511 then .inf s else .fin s n q
  | v => v

/-- A sum in ACC with nearest-even. -/
def accAdd (x y : Val) : Val := accRound (x.add y)

/-- What the least significant bit of a chunk's register is worth: q of 2^q, E - 95 (R73). None without a nonzero finite product. -/
def chunkBase (ps : List Val) : Option Int :=
  let exps := ps.filterMap fun p => match p with
    | .fin _ m e => if m = 0 then none else some (expOf m e)
    | _ => none
  match exps with
  | [] => none
  | e0 :: es => some (es.foldl max e0 - 95)

/-- The finite products' contributions to a chunk, each made by `f` of sign, significand and shift, added up. -/
def chunkTotal (f : Bool → Nat → Int → Int) (q : Int) (ps : List Val) : Int :=
  ps.foldl (fun (acc : Int) p => match p with
    | .fin s m e => acc + f s m (e - q)
    | _ => acc) 0

/-- The chunk register: every product truncated toward zero to a multiple of 2^q, in units of 2^q (R73, R74). -/
def chunkRegister (q : Int) (ps : List Val) : Int := chunkTotal (fun neg m d => signedNat neg (shiftBy m d)) q ps

/-- The part of a product's significand that its alignment discards (R74): what stands below the window when it is shifted by `d`. -/
def lostBits (m : Nat) (d : Int) : Nat := if d < 0 then m % 2 ^ (-d).toNat else 0

/-- What the residue predictor adds for a product (R78): its significands' residue times 2^(d mod 7), less the residue of the
discarded part. -/
def residueTerm (neg : Bool) (m : Nat) (d : Int) : Int :=
  let w := 2 ^ (d % 7).toNat
  let r := Int.ofNat (m % 127 * w) - Int.ofNat (lostBits m d % 127 * w)
  if neg then -r else r

/-- The prediction for a chunk (R78). -/
def chunkPrediction (q : Int) (ps : List Val) : Int := chunkTotal residueTerm q ps % 127

/-- The prediction and the chunk register agree modulo 127 (R78). -/
def residueMatches (ps : List Val) : Bool :=
  match chunkBase ps with
  | none => true
  | some q => decide (chunkRegister q ps % 127 = chunkPrediction q ps)

/-- The chunk sum of a list of exact products (R73 to R76): truncation below 2^(E-95), exact addition, one rounding to ACC.
Infinite and NaN products override the register. -/
def chunkSum (ps : List Val) : Val :=
  if ps.any Val.isNan then .nan
  else
    let pinf := ps.any (· == .inf false)
    let ninf := ps.any (· == .inf true)
    if pinf && ninf then .nan
    else if pinf then .inf false
    else if ninf then .inf true
    else match chunkBase ps with
      | none => .zero
      | some q => accRound (.ofSigned (chunkRegister q ps) q)

/-- The running ACC sum of a list of chunk sums, in order (R77). -/
def accSum (cs : List Val) : Val := cs.foldl accAdd .zero

/-- A list cut into pieces of `n` (`fuel` pieces at most). -/
def piecesAux {α : Type} (n : Nat) : Nat → List α → List (List α)
  | 0, _ => []
  | _ + 1, [] => []
  | fuel + 1, l => l.take n :: piecesAux n fuel (l.drop n)

/-- A list cut into pieces of `n`, the last possibly shorter. -/
def pieces {α : Type} (n : Nat) (l : List α) : List (List α) := piecesAux n l.length l

/-- The pairwise tree of R126: adjacent values combine, level by level. -/
def treeLevel (f : Val → Val → Val) : List Val → List Val
  | a :: b :: t => f a b :: treeLevel f t
  | l => l

/-- The element of `l` at indices congruent to `i` modulo 128, in increasing index. -/
def laneElems (l : List Val) (i : Nat) : List Val :=
  (List.range (cdiv (l.length - i) 128)).filterMap fun k => l[i + 128 * k]?

/-- The row reduction of R126 with combiner `f`, starting every lane at `z`. -/
def rowReduce (f : Val → Val → Val) (z : Val) (l : List Val) : Val :=
  let lanes := (List.range 128).map fun i => (laneElems l i).foldl f z
  let r := (List.range 7).foldl (fun ls _ => treeLevel f ls) lanes
  r.headD z

/-- The row sum of R126: ACC additions with RNE, converted to FP32 with RNE. -/
def rowSum (l : List Val) : Val := round32 (rowReduce accAdd .zero l)

/-- The row maximum of R126, NaN if any element is NaN (R128). -/
def rowMax (l : List Val) : Val := round32 (rowReduce Val.max (.inf true) l)

end Sys2Proof.Machine
end

