-- ==== Sys2Proof/Machine/Philox.lean ====
section
/-!
DEFINITION. Machine/Philox.lean: the counter-based generator Philox-4x32-10 and the packing of its counter (R86 to R88, R158).
-/
namespace Sys2Proof.Machine

/-- The four 32-bit words of a block. -/
structure Block4 where
  x0 : Nat
  x1 : Nat
  x2 : Nat
  x3 : Nat
deriving DecidableEq, Repr

/-- One Philox round under key words `k0`, `k1`. -/
def philoxRound (c : Block4) (k0 k1 : Nat) : Block4 :=
  let p0 := 0xD2511F53 * c.x0
  let p1 := 0xCD9E8D57 * c.x2
  ⟨(p1 / 2 ^ 32) ^^^ c.x1 ^^^ k0, p1 % 2 ^ 32, (p0 / 2 ^ 32) ^^^ c.x3 ^^^ k1, p0 % 2 ^ 32⟩

/-- `n` rounds, bumping the key between rounds. -/
def philoxRounds : Nat → Block4 → Nat → Nat → Block4
  | 0, c, _, _ => c
  | n + 1, c, k0, k1 => philoxRounds n (philoxRound c k0 k1) ((k0 + 0x9E3779B9) % 2 ^ 32) ((k1 + 0xBB67AE85) % 2 ^ 32)

/-- Philox-4x32-10. -/
def philox (c : Block4) (k0 k1 : Nat) : Block4 := philoxRounds 10 c k0 k1

/-- Word `i` of a block. -/
def Block4.word (b : Block4) (i : Nat) : Nat :=
  if i = 0 then b.x0 else if i = 1 then b.x1 else if i = 2 then b.x2 else b.x3

/-- 16-bit value v_i of a block (R86). -/
def Block4.half (b : Block4) (i : Nat) : Nat := bits (b.word (i / 2)) (16 * (i % 2)) 16

/-- The counter of R86: element index (48 bits), Period (48 bits), position (24 bits) and stream. -/
def packCounter (stream element period position : Nat) : Block4 :=
  ⟨element % 2 ^ 32,
   element / 2 ^ 32 % 2 ^ 16 + 2 ^ 16 * (period % 2 ^ 16),
   period / 2 ^ 16 % 2 ^ 32,
   position % 2 ^ 24 + 2 ^ 24 * (stream % 2 ^ 8)⟩

/-- The block at a packed counter under the 64-bit job seed. -/
def drawBlock (seed stream element period position : Nat) : Block4 :=
  philox (packCounter stream element period position) (seed % 2 ^ 32) (seed / 2 ^ 32 % 2 ^ 32)

/-- The 16-bit draw `j` of site or tensor ID `t` (R88, R158). -/
def draw16 (seed stream t j period position : Nat) : Nat :=
  (drawBlock seed stream (t * 2 ^ 32 + j / 8) period position).half (j % 8)

/-- The stream IDs of R87. -/
abbrev Stream.dropout : Nat := 1
abbrev Stream.sr : Nat := 2
abbrev Stream.subsample : Nat := 3
abbrev Stream.sampleOrder : Nat := 4
abbrev Stream.noise : Nat := 5
abbrev Stream.eval : Nat := 6

end Sys2Proof.Machine
end

