-- ==== Sys2Proof/Machine/Numerics.lean ====
section
/-!
DEFINITION. Machine/Numerics.lean: random draws (R86 to R88, R158, R161), the Scale Ledger (R90 to R97, R102, R550), the numerics
modes, and the conversions that a conversion site makes, with their counters (R80 to R85, R89, R98 to R100).
-/
namespace Sys2Proof.Machine

/-! ## Draws (R158, R161) -/

/-- The Period that draws carry: the Period in progress, and outside one the Period after `PC_COMMITTED` (log entry 17). -/
def State.drawPeriod (s : State) : Nat :=
  if s.pcState = 2 ∨ s.pcState = 3 then s.get F.PC_PERIOD_PERIOD else nextPeriod (s.get F.PC_COMMITTED_COMMITTED)

/-- The job seed: the one armed, and before any PERIOD_ARM 0 (log entry 17). -/
def State.seed (s : State) : Nat :=
  match s.pd.arm, s.pd.run with
  | some a, _ => a.seed
  | none, some r => r.seed
  | none, none => 0

/-- The 16-bit draw `j` of a stream for a tensor or site ID; work bound to an EVALUATE Clause draws from EVAL (R161). -/
def State.half (s : State) (eval : Bool) (stream t j : Nat) : Nat :=
  draw16 s.seed (if eval then Stream.eval else stream) t j s.drawPeriod (s.get F.ZF_LOGICAL_LOGICAL)

/-- The command of a header is bound to an EVALUATE Clause. -/
def State.evalBound (s : State) (h : Hdr) : Bool := h.bound && decide (s.clauseKind h.clause.val = some 8)

/-! ## The Scale Ledger in HBM (R90, R91) -/

/-- The attached ledger, once it has passed its check (R550). -/
def State.ledger (s : State) : Option LedgerAttach := s.num.attach.filter (fun a => a.checked)

/-- The bytes of a ledger of `n` entries. -/
abbrev ledgerSize (n : Nat) : Nat := 128 * (n + 1)

/-- Where the entry of a tensor ID lies. -/
abbrev LedgerAttach.entry (a : LedgerAttach) (t : Nat) : Nat := a.address + 128 * (t + 1)

/-- The check of R550: FORMAT, ENTRIES and DIGEST. -/
def State.ledgerOk (s : State) (a : LedgerAttach) : Bool :=
  let bs := s.hbm.read a.address (ledgerSize a.count)
  decide (leAt bs 0 2 = 1) && decide (leAt bs 2 2 = a.count) &&
    decide (crc64 (bs.take 0x28 ++ bs.drop 128) = leAt bs 0x28 8)

/-- DIGEST rewritten over header bytes 0x00 to 0x27 and all entries. -/
def State.sealLedger (s : State) (a : LedgerAttach) : State :=
  let bs := s.hbm.read a.address (ledgerSize a.count)
  s.ownWord (a.address + 0x28) 8 (crc64 (bs.take 0x28 ++ bs.drop 128))

/-- The flag word of the header: FORCE_GUARDED, WARM_ACTIVE, WARM_PENDING. -/
def ledgerFlags (force active pend : Bool) : Nat := flag force + 2 * flag active + 4 * flag pend

/-- A ledger header, its DIGEST still 0 (R90). -/
def ledgerHeader (count committed guardOrigin warmOrigin guardPeriods warmPeriods flags : Nat) : List Byte :=
  padTo 128 (leBytes 2 1 ++ leBytes 2 count ++ leBytes 4 0 ++ leBytes 8 committed ++ leBytes 8 guardOrigin ++ leBytes 8 warmOrigin
    ++ leBytes 2 guardPeriods ++ leBytes 2 warmPeriods ++ leBytes 4 flags)

/-- The entry of a tensor ID that has a defined one: DEFINED is 1 (R89, R92, R95). -/
def State.definedEntry (s : State) (t : Nat) : Option Nat :=
  match s.ledger with
  | some a => if t < a.count ∧ bit (s.word (a.entry t + 0x40) 4) 14 then some (a.entry t) else none
  | none => none

/-- The CLASS that a tensor ID takes (R95): 3 without a defined entry. -/
def State.classOf (s : State) (t : Nat) : Nat :=
  match s.definedEntry t with
  | some e => bits (s.word (e + 0x40) 4) 12 2
  | none => 3

/-- MARGIN as a signed number (R91). -/
def marginOf (m : Nat) : Int := toSigned 8 m

/-! ## Scales (R92, R93) -/

/-- The largest finite value of a scaled target; none for a target that is not scaled (R92). -/
def scaledMax : Nat → Option Val
  | 4 => some (.fin false 65504 0)
  | 5 => some (.fin false 448 0)
  | 6 => some (.fin false 57344 0)
  | 7 => some (.fin false 28 0)
  | 8 => some (.fin false 6 0)
  | 9 => some (.fin false 127 0)
  | _ => none

/-- A scale exponent held to -127 .. 127. -/
def clampScale (s : Int) : Int := max (-127) (min 127 s)

/-- The scale exponent of R92 from an amax, an FP32 word: none for an amax of 0. -/
def scaleExponent (amax : Nat) (limit : Val) (margin : Int) : Option Int :=
  match v32 amax, limit with
  | .fin _ m e, .fin _ lm le =>
    if m = 0 then none
    else
      let s := expOf m e - expOf lm le
      let s := if (Val.fin false m (e - s)).le limit then s else s + 1
      some (clampScale (s + margin))
  | _, _ => some (clampScale (127 + margin))

/-- A conversion of a tensor ID to a format applies the scale of its entry (R92): the entry's address and the target's limit. -/
def State.scaledBy (s : State) (t : Nat) (f : Fmt) : Option (Nat × Val) :=
  match s.definedEntry t, scaledMax f.code with
  | some e, some l => if bits (s.word (e + 0x40) 4) 8 4 = f.code then some (e, l) else none
  | _, _ => none

/-! ## Counters (R89) -/

/-- No conversion counted. -/
abbrev Counts.zero : Counts := ⟨0, 0, 0, 0, 0, 0, none⟩

/-- Two sets of counts combined by addition and maximum, saturating. -/
def Counts.add (a b : Counts) : Counts :=
  { amax := max a.amax b.amax, overflow := satAdd 32 a.overflow b.overflow, saturation := satAdd 32 a.saturation b.saturation,
    underflow := satAdd 32 a.underflow b.underflow, nan := satAdd 32 a.nan b.nan,
    conversions := satAdd 64 a.conversions b.conversions,
    used := match a.used, b.used with
      | none, u => u
      | u, none => u
      | some x, some y => some (max x y) }

/-- The counts of one tensor's conversion: its amax and the flags of each element. -/
def countsOf (amax : Nat) (used : Option Nat) (fs : List CFlags) : Counts :=
  { amax := amax, overflow := fs.countP (·.overflow), saturation := fs.countP (·.saturation),
    underflow := fs.countP (·.underflow), nan := fs.countP (·.nan), conversions := fs.length, used := used }

/-- Counts added under a tensor ID: into its defined entry or into entry 0, the evaluation set for work bound to EVALUATE (R89,
R170); none are kept without a ledger. -/
def State.count (s : State) (eval : Bool) (t : Nat) (c : Counts) : State :=
  if s.ledger.isNone then s
  else
    let id := if (s.definedEntry t).isSome then t else 0
    let into (l : List (Nat × Counts)) : List (Nat × Counts) := alSet id (((alGet l id).getD Counts.zero).add c) l
    if eval then { s with num := { s.num with eval := into s.num.eval } }
    else { s with num := { s.num with pending := into s.num.pending } }

/-! ## Conversions at a site -/

/-- How a conversion rounds: the base rounding, and the column of R82 for overflow. -/
inductive Base where
  | rne | rtz | sr
deriving DecidableEq, Repr

/-- The rounding of a code of R80 where no mode changes it: DEFAULT is RNE, into E4M3 with the SAT column. -/
def baseRounding (f : Fmt) (code : Nat) : Base × Col :=
  match code with
  | 0 => if f = .e4m3 then (.rne, .sat) else (.rne, .inf)
  | 2 => (.rtz, .rtz)
  | 3 => (.sr, .inf)
  | 4 => (.rne, .sat)
  | _ => (.rne, .inf)

/-- The rounding in force for a code of R80: DEFAULT by the mode, and SR with the SAT column for a gradient under GUARDED (R95). Outside a
Period the mode of the last one stands (log entry 120). -/
def State.rounding (s : State) (t : Nat) (f : Fmt) (code : Nat) : Base × Col :=
  if s.pd.guarded && decide (s.classOf t = 2) then (.sr, .sat) else baseRounding f code

/-- The rounding of element `j`. -/
def State.rndAt (s : State) (eval : Bool) (t j : Nat) : Base → Rnd
  | .rne => .rne
  | .rtz => .rtz
  | .sr => .sr (s.half eval Stream.sr t j)

/-- The amax of the finite ones of some values, toward +infinity in FP32 (R89). -/
def amaxOf (vs : List Val) : Nat := maxList (vs.map (fun x => if x.isFinite then ceil32 x.abs else 0))

/-- The scale exponent that a conversion applies (R92, R93): just in time under GUARDED, delayed otherwise; and the SCALE that
SCALE_USED takes note of. -/
def State.siteScale (s : State) (t : Nat) (f : Fmt) (amax : Nat) : Int × Option Nat :=
  match s.scaledBy t f with
  | none => (0, none)
  | some (e, limit) =>
    let held := s.word (e + 0x40) 1
    if s.pd.guarded then
      match scaleExponent amax limit (marginOf (s.word (e + 0x42) 1)) with
      | some x => (x, some (x + 127).toNat)
      | none => (Int.ofNat held - 127, some held)
    else (Int.ofNat held - 127, some held)

/-- The conversion of elements of a tensor, each given by its index in the tensor's linear order and its value, at a site of
tensor ID `t` (R80 to R85, R89, R92, R95): each index with its bits. -/
def State.convertSite (s : State) (eval : Bool) (t : Nat) (f : Fmt) (code : Nat) (vs : List (Nat × Val)) :
    State × List (Nat × Nat) :=
  let amax := amaxOf (vs.map (·.2))
  let (x, used) := s.siteScale t f amax
  let (base, col) := s.rounding t f code
  let out := vs.map (fun p => (p.1, f.convert (s.rndAt eval t p.1 base) col (p.2.scale (-x))))
  (s.count eval t (countsOf amax (if eval then none else used) (out.map (·.2.2))), out.map (fun o => (o.1, o.2.1)))

/-! ## OCP MX (R98 to R100) -/

/-- emax of an MX element type, and the power of two that its elements carry beside the block scale (R99, R100). -/
def mxType : Fmt → Option (Int × Int)
  | .e4m3 => some (8, 0)
  | .e5m2 => some (15, 0)
  | .e3m2 => some (4, 0)
  | .e2m1 => some (2, 0)
  | .int8 => some (0, -6)
  | _ => none

/-- The largest finite magnitude's exponent in a block; none for amax 0. -/
def blockExp (vs : List Val) : Option Int :=
  vs.foldl (fun best v => match v with
    | .fin _ m e => if m = 0 then best else match best with
      | none => some (expOf m e)
      | some b => some (max b (expOf m e))
    | _ => best) none

/-- The scale byte of a block, and the exponent its elements are divided by. DEDUCED: the elements of a block that holds a NaN
convert by the amax of its finite elements (log entry 19). -/
def blockScale (emax : Int) (vs : List Val) : Nat × Int :=
  let b : Int := match blockExp vs with
    | none => 127
    | some x => max 0 (min 254 (x - emax + 127))
  (if vs.any Val.isNan then 0xFF else b.toNat, b - 127)

/-- The conversion of elements of a tensor to an MX type, block by block (R100); each element comes with the index of its block. The
elements' bits by index, and the scale bytes by block. `shade` holds the values of other elements of the blocks, which count for the
scales alone. -/
def State.convertMx (s : State) (eval : Bool) (t : Nat) (f : Fmt) (code : Nat) (blockOf : Nat → Nat) (vs shade : List (Nat × Val)) :
    State × List (Nat × Nat) × List (Nat × Nat) :=
  let (emax, unit) := (mxType f).getD (0, 0)
  let base := (s.rounding t f code).1
  let all := vs ++ shade
  let blocks := (all.map (fun p => blockOf p.1)).eraseDups
  let scaleOf (b : Nat) : Nat × Int := blockScale emax ((all.filter (fun p => decide (blockOf p.1 = b))).map (·.2))
  let scales := blocks.map (fun b => (b, scaleOf b))
  let out := vs.map (fun p =>
    let x : Int := ((alGet scales (blockOf p.1)).map (·.2)).getD 0
    (p.1, f.convert (s.rndAt eval t p.1 base) .sat (p.2.scale (-x - unit))))
  (s.count eval t (countsOf (amaxOf (vs.map (·.2))) none (out.map (·.2.2))), out.map (fun o => (o.1, o.2.1)),
    scales.map (fun b => (b.1, b.2.1)))

/-! ## The numerics mode and the commit (R94 to R96) -/

/-- Period `n` runs GUARDED by the ledger (R95, R96). -/
def State.ledgerGuarded (s : State) (n : Nat) : Bool :=
  match s.ledger with
  | none => true
  | some a =>
    let flags := s.word (a.address + 0x24) 4
    bit flags 0 || bit flags 1 ||
      decide ((n + 2 ^ 48 - s.word (a.address + 0x10) 6) % 2 ^ 48 < s.word (a.address + 0x20) 2)

/-- The new SCALE of an entry after the commit's amax is in its history (R92). -/
def State.rescale (s : State) (e : Nat) : Nat :=
  let w := s.word (e + 0x40) 4
  match scaledMax (bits w 8 4) with
  | none => 0x7F
  | some limit =>
    let valid := s.word (e + 0x44) 2
    let h := maxList ((List.range 16).map (fun i => if bit valid i then s.word (e + 4 * i) 4 else 0))
    match scaleExponent h limit (marginOf (bits w 16 8)) with
    | some x => (x + 127).toNat
    | none => bits w 0 8

/-- One entry at the commit of Period `n` (R94). -/
def State.commitEntry (s : State) (e n : Nat) (c : Counts) : State :=
  let w := s.word (e + 0x40) 4
  let scale := bits w 0 8
  let used := if bit w 14 && (scaledMax (bits w 8 4)).isSome then c.used.getD scale else 0x7F
  let hv := s.word (e + 0x44) 2
  let s := s.ownWord (e + 4 * (n % 16)) 4 c.amax
  let s := s.own (e + 0x44) (leBytes 2 (hv ||| 2 ^ (n % 16)) ++ leBytes 2 0 ++ leBytes 4 c.amax ++ leBytes 4 c.overflow
    ++ leBytes 4 c.saturation ++ leBytes 4 c.underflow ++ leBytes 4 c.nan ++ leBytes 1 used ++ leBytes 3 0 ++ leBytes 8 c.conversions)
  s.ownWord (e + 0x40) 1 (s.rescale e)

/-- The Scale Ledger at the commit of Period `n` (R94, R96). -/
def State.commitLedger (s : State) (n : Nat) : State :=
  match s.ledger with
  | none => s
  | some a =>
    let pending := s.num.pending
    let s := (List.range a.count).foldl (fun s t => s.commitEntry (a.entry t) n ((alGet pending t).getD Counts.zero)) s
    let s := s.ownWord (a.address + 8) 6 n
    let warmEnd := (s.word (a.address + 0x18) 6 + s.word (a.address + 0x22) 2 + 2 ^ 48 - 1) % 2 ^ 48
    let flags := s.word (a.address + 0x24) 4
    let s := if bit flags 1 ∧ n = warmEnd then s.ownWord (a.address + 0x24) 4 (flags - 2) else s
    let s := s.sealLedger a
    let s := { s with num := { s.num with pending := [] } }
    if pending.any (fun p => decide (p.2.nan ≠ 0)) then s.raise (Ev.plain 0x0201 0 2 0) else s

/-! ## PERIOD_ARM (R95, R96) -/

/-- The last DEFINE of an entry since the SETUP. -/
def NumState.defOf (n : NumState) (t : Nat) : Option LedgerDef :=
  n.defs.find? (fun d => decide (d.first ≤ t) && decide (t < d.first + d.count))

/-- The word at 0x40 of an entry: SCALE, TARGET, CLASS, DEFINED, MARGIN. -/
def entryWord (scale : Nat) (d : Option LedgerDef) : Nat :=
  match d with
  | some d => scale + d.target * 2 ^ 8 + d.cls * 2 ^ 12 + 2 ^ 14 + d.margin * 2 ^ 16
  | none => scale

/-- An entry of a ledger that is written anew: every field 0 but the scales and a DEFINE's (R96). -/
def entryBytes (scale used : Nat) (d : Option LedgerDef) : List Byte :=
  padTo 128 (List.replicate 64 0 ++ leBytes 4 (entryWord scale d) ++ List.replicate 24 0 ++ leBytes 1 used)

/-- A lost ledger built anew (R96). -/
def State.rebuildLedger (s : State) (a : LedgerAttach) (first : Nat) : State :=
  let m := s.num.mode.getD ⟨false, 64, 16⟩
  let entries := (List.range a.count).flatMap (fun t => entryBytes 0x7F 0x7F (s.num.defOf t))
  s.own a.address (ledgerHeader a.count noPeriod first 0 m.guard m.warm (ledgerFlags m.force false false) ++ entries)

/-- Scale warm-up started in a ledger (R96). -/
def State.startWarmup (s : State) (a : LedgerAttach) (first : Nat) : State :=
  let s := (List.range a.count).foldl (fun s t => s.ownWord (a.entry t + 0x44) 2 0) s
  let s := s.ownWord (a.address + 0x18) 6 first
  let flags := s.word (a.address + 0x24) 4
  (s.ownWord (a.address + 0x24) 4 (bits flags 0 1 + 2)).sealLedger a

/-- SCALE_WARMUP of class NOTE. -/
abbrev scaleWarmup : Ev := Ev.plain 0x0B0C 0 11 0

/-- The Scale Ledger at PERIOD_ARM (R95, R96): checked, rebuilt if lost, GUARD_ORIGIN set when it is due, warm-up started when the
ledger is missing, lost or pending. -/
def State.armLedger (s : State) (first : Nat) : State :=
  let due := s.num.originDue
  let s := { s with num := { s.num with originDue := false } }
  match s.num.attach with
  | none => s.raise scaleWarmup
  | some a =>
    let ok := s.ledgerOk a
    let s := if ok then s else s.rebuildLedger a first
    let s := { s with num := { s.num with attach := some { a with checked := true } } }
    let s := if due then (s.ownWord (a.address + 0x10) 6 first).sealLedger a else s
    if !ok || bit (s.word (a.address + 0x24) 4) 2 then (s.startWarmup a first).raise scaleWarmup else s

/-! ## SCALE_LEDGER's sub-operations (R102, R550) -/

/-- SETUP. R90 gives no default for COMMITTED and the two origins: an initialising SETUP writes none and 0 (log entry 119). -/
def State.ledgerSetup (s : State) (attach : Bool) (address count : Nat) : State :=
  let s := { s with num := { s.num with attach := some ⟨address, count, !attach⟩, mode := none, defs := [] } }
  if attach then s
  else
    let s := { s with num := { s.num with originDue := true } }
    let s := s.own address (ledgerHeader count noPeriod 0 0 64 16 0 ++ List.replicate (128 * count) 0)
    s.sealLedger ⟨address, count, true⟩

/-- A sub-operation that needs a ledger: ST_NOT_READY without a SETUP, and the check of R550 when it is still to be made. -/
def State.withLedger (s : State) (c : CmdRef) (k : LedgerAttach → State → Body) : Body :=
  match s.num.attach with
  | none => s.fail ST_NOT_READY
  | some a =>
    if a.checked then k a s
    else s.readingTable a.address (ledgerSize a.count) 8 c (fun s _ =>
      if s.ledgerOk a then
        k { a with checked := true } { s with num := { s.num with attach := some { a with checked := true } } }
      else s.fail ST_DIGEST)

/-- SET_MODE. -/
def State.ledgerSetMode (s : State) (a : LedgerAttach) (force : Bool) (guard warm : Nat) : State :=
  let s := { s with num := { s.num with mode := some ⟨force, guard, warm⟩ } }
  let flags := s.word (a.address + 0x24) 4
  (s.own (a.address + 0x20) (leBytes 2 guard ++ leBytes 2 warm ++ leBytes 4 (flags / 2 * 2 + flag force))).sealLedger a

/-- DEFINE. -/
def State.ledgerDefine (s : State) (a : LedgerAttach) (d : LedgerDef) : State :=
  let s := { s with num := { s.num with defs := d :: s.num.defs } }
  let s := (List.range d.count).foldl (fun s i =>
    let e := a.entry (d.first + i)
    s.ownWord (e + 0x40) 4 (entryWord (s.word (e + 0x40) 1) (some d))) s
  s.sealLedger a

/-- WARMUP. -/
def State.ledgerWarmup (s : State) (a : LedgerAttach) : State :=
  let flags := s.word (a.address + 0x24) 4
  (s.ownWord (a.address + 0x24) 4 (flags % 4 + 4)).sealLedger a

/-! ## The evaluation record (R170) -/

/-- The evaluation set written to `EV_RECORD` when an EVALUATE Clause of Period `n` completes. -/
def State.writeEvaluation (s : State) (n : Nat) : State :=
  let base := s.get F.EV_RECORD_ADDRESS
  match s.ledger with
  | some a =>
    if base = 0 then s
    else
      let entry (t : Nat) : List Byte :=
        let c := (alGet s.num.eval t).getD Counts.zero
        leBytes 4 c.amax ++ leBytes 4 c.overflow ++ leBytes 4 c.saturation ++ leBytes 4 c.underflow ++ leBytes 4 c.nan
          ++ leBytes 4 0 ++ leBytes 8 c.conversions
      (s.writeAt base (padTo 64 (leBytes 8 n ++ leBytes 8 a.count) ++ (List.range a.count).flatMap entry) none).1
  | none => s

/-! ## Fences of an EVALUATE Clause (R167, R168) -/

/-- A write range is fenced. -/
def State.fenced (s : State) (a n : Nat) : Bool :=
  (List.range 8).any (fun f =>
    let lo := s.get (F.EV_FENCE_BASE_BASE f)
    let hi := s.get (F.EV_FENCE_LIMIT_LIMIT f)
    decide (lo < hi) && decide (0 < n) && overlaps a n lo (hi - lo)) ||
  (match s.num.attach with
    | some l => decide (0 < n) && overlaps a n l.address (ledgerSize l.count)
    | none => false)

/-- A command bound to an EVALUATE Clause would write a fenced range. -/
def State.fenceHit (s : State) (h : Hdr) (ranges : List (Nat × Nat)) : Bool :=
  s.evalBound h && ranges.any (fun r => s.fenced r.1 r.2)

end Sys2Proof.Machine
end

