-- ==== Sys2Proof/Machine/Tensor.lean ====
section
/-!
DEFINITION. Machine/Tensor.lean: tensor descriptors of program images (R113), the packing of elements in memory (R65, R69), and the
reading and writing of tensors, MX tensors among them (R99).
-/
namespace Sys2Proof.Machine

/-! ## Steps that can fail -/

/-- What a step of a command comes to: a value, or the status that ends the command. -/
inductive Res (α : Type) where
  | ok (a : α)
  | fail (status : Nat)

/-- A step of a command. -/
abbrev Act (α : Type) : Type := State × Res α

/-- One step after another. -/
def Act.bind {α β : Type} (m : Act α) (k : State → α → Act β) : Act β :=
  match m with
  | (s, .ok a) => k s a
  | (s, .fail st) => (s, .fail st)

/-- A step for each element of a list, in order, with the results. -/
def actAll {α β : Type} (f : State → α → Act β) : State → List α → Act (List β)
  | s, [] => (s, .ok [])
  | s, a :: as => (f s a).bind (fun s b => (actAll f s as).bind (fun s bs => (s, .ok (b :: bs))))

/-- A step for what an optional operand names, or a value where it names none. -/
def State.maybe {α β : Type} (s : State) (o : Option α) (z : β) (f : State → α → Act β) : Act β :=
  match o with
  | some a => f s a
  | none => (s, .ok z)

/-- A checked read as a step. -/
def State.readAct (s : State) (a n : Nat) (c : CmdRef) : Act (List Byte) :=
  match s.readAt a n (some c) with
  | (s, .bytes bs) => (s, .ok bs)
  | (s, .error st) => (s, .fail st)

/-- A checked write as a step. -/
def State.writeAct (s : State) (a : Nat) (bs : List Byte) (c : CmdRef) : Act Unit :=
  match s.writeAt a bs (some c) with
  | (s, none) => (s, .ok ())
  | (s, some st) => (s, .fail st)

/-- The bytes that stand in a range, unchecked. -/
def State.peek (s : State) (a n : Nat) : List Byte :=
  match rangeSpace a n with
  | some .companion => s.comp.read (a - companionBase) n
  | _ => s.hbm.read (s.physical a) n

/-- A body made of a step and what follows it. -/
def Act.body {α : Type} (m : Act α) (k : State → α → Body) : Body :=
  match m with
  | (s, .ok a) => k s a
  | (s, .fail st) => s.fail st

/-! ## Elements in memory (R65, R69) -/

/-- Bytes that `n` elements of a format take from a packing boundary on; an M40 element counts its FP32 word. -/
def Fmt.bytes (f : Fmt) (n : Nat) : Nat :=
  match f with
  | .e2m1 => (n + 1) / 2
  | .e3m2 => 3 * cdiv n 4
  | .m40 => 4 * n
  | f => f.width / 8 * n

/-- The first `n` elements packed in some bytes. -/
def Fmt.unpack (f : Fmt) (bs : List Byte) (n : Nat) : List Nat :=
  (match f with
    | .e2m1 => bs.flatMap (fun (b : Byte) => [b.toNat % 16, b.toNat / 16])
    | .e3m2 => (pieces 3 bs).flatMap (fun g => (List.range 4).map (fun i => bits (ofLE g) (6 * i) 6))
    | .m40 => (pieces 4 bs).map ofLE
    | f => (pieces (f.width / 8) bs).map ofLE).take n

/-- Elements packed. -/
def Fmt.pack (f : Fmt) (es : List Nat) : List Byte :=
  match f with
  | .e2m1 => (pieces 2 es).map (fun g => BitVec.ofNat 8 (nth g 0 0 + 16 * nth g 1 0))
  | .e3m2 => (pieces 4 es).flatMap (fun g => leBytes 3 (nth g 0 0 + 64 * nth g 1 0 + 4096 * nth g 2 0 + 262144 * nth g 3 0))
  | .m40 => es.flatMap (leBytes 4)
  | f => es.flatMap (leBytes (f.width / 8))

/-- The formats that share bytes between elements. -/
def Fmt.packed : Fmt → Bool
  | .e2m1 => true
  | .e3m2 => true
  | _ => false

/-- An M40 value from its FP32 word and its extension byte. -/
abbrev m40Join (word ext : Nat) : Nat := word * 256 + ext

/-- The extension byte that is written with an M40 value: 0 when the exponent is all ones (R70). -/
def m40Ext (v : Nat) : Nat := if bits v 31 8 = 255 then 0 else v % 256

/-! ## Descriptors (R113) -/

/-- A tensor descriptor. -/
structure Tensor where
  base   : Nat
  aux    : Nat
  fmt    : Fmt
  mx     : Bool
  output : Bool
  digest : Bool
  id     : Nat
  d0     : Nat
  d1     : Nat
  d2     : Nat
  d3     : Nat
  s1     : Nat
  s2     : Nat
  s3     : Nat

/-- A descriptor read from its 64 bytes; none where an encoding is reserved (R112, R113). Dimensions beyond RANK are 1. -/
def Tensor.parse (bs : List Byte) : Option Tensor :=
  let w10 := leAt bs 0x10 4
  let rank := leAt bs 0x14 4
  let dim (i : Nat) : Nat := if i < rank then leAt bs (0x18 + 4 * i) 4 else 1
  match Fmt.ofCode (w10 % 16) with
  | none => none
  | some f =>
    let mx := bit w10 4
    let s1 := leAt bs 0x28 8
    let s2 := leAt bs 0x30 8
    let s3 := leAt bs 0x38 8
    let unit := match f with | .e2m1 => 2 | .e3m2 => 4 | _ => 1
    let base := leAt bs 0 8
    let aux := leAt bs 8 8
    if base < 2 ^ 48 ∧ aux < 2 ^ 48 ∧ bits w10 7 9 = 0 ∧ 1 ≤ rank ∧ rank ≤ 4 ∧ 1 ≤ dim 0 ∧ 1 ≤ dim 1 ∧ 1 ≤ dim 2 ∧ 1 ≤ dim 3
        ∧ s1 % unit = 0 ∧ s2 % unit = 0 ∧ s3 % unit = 0 ∧ (mx → (mxType f).isSome) ∧ (¬ mx → f ≠ .m40 → aux = 0)
        ∧ (f = .m40 → aux % 64 = 0) then
      some ⟨base, aux, f, mx, bit w10 5, bit w10 6, bits w10 16 16, dim 0, dim 1, dim 2, dim 3, s1, s2, s3⟩
    else none

/-- A relocation applied (R110): BASE is replaced, and AUX_BASE moves by the same difference. None where either leaves 48 bits. -/
def Tensor.relocate (d : Tensor) (base : Nat) : Option Tensor :=
  if d.mx || d.fmt == .m40 then
    let aux : Int := Int.ofNat d.aux + Int.ofNat base - Int.ofNat d.base
    if base < 2 ^ 48 ∧ 0 ≤ aux ∧ aux < 2 ^ 48 ∧ (d.fmt = .m40 → aux.toNat % 64 = 0) then
      some { d with base := base, aux := aux.toNat }
    else none
  else if base < 2 ^ 48 then some { d with base := base } else none

/-- The number of elements. -/
abbrev Tensor.count (d : Tensor) : Nat := d.d0 * d.d1 * d.d2 * d.d3

/-- The number of rows of DIM0 elements. -/
abbrev Tensor.rows (d : Tensor) : Nat := d.d1 * d.d2 * d.d3

/-- The element offset of row `r` from BASE. -/
def Tensor.rowAt (d : Tensor) (r : Nat) : Nat := r % d.d1 * d.s1 + r / d.d1 % d.d2 * d.s2 + r / (d.d1 * d.d2) * d.s3

/-- The address of row `r`. -/
def Tensor.rowAddr (d : Tensor) (r : Nat) : Nat := d.base + d.fmt.bytes (d.rowAt r)

/-- The blocks of 32 along DIM0 that a row of an MX tensor has. -/
abbrev Tensor.rowBlocks (d : Tensor) : Nat := cdiv d.d0 32

/-- The scale bytes of an MX tensor whose blocks lie along DIM0, or along DIM1 (`alongK` of a transposed operand); blocks are taken
in the linear order of their first elements (log entry 20). -/
def Tensor.scaleCount (d : Tensor) (along1 : Bool) : Nat :=
  if along1 then d.d0 * cdiv d.d1 32 * d.d2 * d.d3 else d.rowBlocks * d.rows

/-- The block of the element of linear index `i`. -/
def Tensor.blockOf (d : Tensor) (along1 : Bool) (i : Nat) : Nat :=
  if along1 then
    let j := i / d.d0
    i % d.d0 + d.d0 * (j % d.d1 / 32 + cdiv d.d1 32 * (j / d.d1))
  else i % d.d0 / 32 + d.rowBlocks * (i / d.d0)

/-- Ranges that lie end to end joined into one. -/
def joinSpans : List (Nat × Nat) → List (Nat × Nat)
  | [] => []
  | (a, n) :: t =>
    match joinSpans t with
    | (b, m) :: t' => if a + n = b then (a, n + m) :: t' else (a, n) :: (b, m) :: t'
    | [] => [(a, n)]

/-- The byte ranges that a tensor takes, row by row, without the gaps of its strides: its elements, and its extension plane or its scale
array, for each way in which its blocks are taken. -/
def Tensor.ranges (d : Tensor) (along1 : List Bool) : List (Nat × Nat) :=
  joinSpans ((List.range d.rows).map (fun r => (d.rowAddr r, d.fmt.bytes d.d0))) ++
    (if d.fmt = .m40 then [(d.aux, d.count)] else if d.mx then along1.map (fun x => (d.aux, d.scaleCount x)) else [])

/-! ## Reading -/

/-- The elements' bits of a tensor's rows `r` to `r + n - 1`, in linear order. -/
def State.readRows (s : State) (d : Tensor) (r n : Nat) (c : CmdRef) : Act (List Nat) :=
  let row (s : State) (i : Nat) : Act (List Nat) :=
    (s.readAct (d.rowAddr (r + i)) (d.fmt.bytes d.d0) c).bind (fun s bs =>
      let es := d.fmt.unpack bs d.d0
      if d.fmt = .m40 then
        (s.readAct (d.aux + (r + i) * d.d0) d.d0 c).bind (fun s xs =>
          (s, .ok ((es.zip xs).map (fun p => m40Join p.1 p.2.toNat))))
      else (s, .ok es))
  (actAll row s (List.range n)).bind (fun s rs => (s, .ok (rs.flatMap id)))

/-- An MX element's value under its block's scale byte (R99). -/
def mxValue (f : Fmt) (scale bits : Nat) : Val :=
  if scale = 255 then .nan
  else
    let unit := ((mxType f).map (·.2)).getD 0
    (f.decode bits).scale (Int.ofNat scale - 127 + unit)

/-- The values of a tensor's first `rows` rows, in linear order. -/
def State.readValues (s : State) (d : Tensor) (rows : Nat) (along1 : Bool) (c : CmdRef) : Act (List Val) :=
  (s.readRows d 0 rows c).bind (fun s es =>
    if d.mx then
      (s.readAct d.aux (d.scaleCount along1) c).bind (fun s sc =>
        let scales := sc.toArray
        (s, .ok (es.zipIdx.map (fun p => mxValue d.fmt ((scales[d.blockOf along1 p.2]?).getD 0).toNat p.1))))
    else (s, .ok (es.map d.fmt.decode)))

/-- The values of the elements of a tensor that are needed, in linear order, and +0 for the others: rows are read in pieces of 64 elements,
and those that hold no needed element are not read (R155). -/
def State.readNeeded (s : State) (d : Tensor) (need : Array Bool) (along1 : Bool) (c : CmdRef) : Act (List Val) :=
  let piece (s : State) (x : Nat × Nat) : Act (List Nat) :=
    let n := min 64 (d.d0 - 64 * x.2)
    let from_ := x.1 * d.d0 + 64 * x.2
    if (List.range n).any (fun i => (need[from_ + i]?).getD false) then
      (s.readAct (d.rowAddr x.1 + d.fmt.bytes (64 * x.2)) (d.fmt.bytes n) c).bind (fun s bs => (s, .ok (d.fmt.unpack bs n)))
    else (s, .ok (List.replicate n 0))
  let places := (List.range d.rows).flatMap (fun r => (List.range (cdiv d.d0 64)).map (fun q => (r, q)))
  (actAll piece s places).bind (fun s es =>
    let es := es.flatMap id
    if d.mx then
      let blocks := (((List.range d.count).filter (fun i => (need[i]?).getD false)).map (d.blockOf along1)).eraseDups
      (actAll (fun s b => (s.readAct (d.aux + b) 1 c).bind (fun s bs => (s, .ok (b, ofLE bs)))) s
          (sortBy (fun x y => decide (x ≤ y)) blocks)).bind (fun s sc =>
        (s, .ok (es.zipIdx.map (fun p => mxValue d.fmt ((alGet sc (d.blockOf along1 p.2)).getD 127) p.1))))
    else (s, .ok (es.map d.fmt.decode)))

/-- The values of a whole tensor. -/
abbrev State.readTensor (s : State) (d : Tensor) (c : CmdRef) : Act (List Val) := s.readValues d d.rows false c

/-- The first `n` values of a tensor in its linear order. -/
def State.readFirst (s : State) (d : Tensor) (n : Nat) (c : CmdRef) : Act (List Val) :=
  (s.readValues d (cdiv n d.d0) false c).bind (fun s vs => (s, .ok (vs.take n)))

/-- The first `n` elements' bits of a tensor in its linear order. -/
def State.readFirstBits (s : State) (d : Tensor) (n : Nat) (c : CmdRef) : Act (List Nat) :=
  (s.readRows d 0 (cdiv n d.d0) c).bind (fun s vs => (s, .ok (vs.take n)))

/-! ## Writing -/

/-- Pieces of memory that lie end to end joined into one. -/
def joinRuns : List (Nat × List Byte) → List (Nat × List Byte)
  | [] => []
  | (a, bs) :: t =>
    match joinRuns t with
    | (b, cs) :: t' => if a + bs.length = b then (a, bs ++ cs) :: t' else (a, bs) :: (b, cs) :: t'
    | [] => [(a, bs)]

/-- Several pieces written, in order. -/
def State.writeRuns (s : State) (rs : List (Nat × List Byte)) (c : CmdRef) : Act Unit :=
  (actAll (fun s r => s.writeAct r.1 r.2 c) s (joinRuns rs)).bind (fun s _ => (s, .ok ()))

/-- A byte of `old` replaced by that of `new` where a bit of `mask` is set: the element of a packed row. -/
def overlayElems (f : Fmt) (old : List Byte) (es : List (Nat × Nat)) (n : Nat) : List Byte :=
  let slots := if f = .e2m1 then 2 * old.length else 4 * (old.length / 3)
  let cur := (f.unpack old slots).toArray
  let cur := es.foldl (fun (a : Array Nat) e => if e.1 < n then a.setIfInBounds e.1 e.2 else a) cur
  f.pack cur.toList

/-- Elements written to a tensor, each by its linear index and its bits; the neighbours of a packed element keep theirs. -/
def State.writeElems (s : State) (d : Tensor) (es : List (Nat × Nat)) (c : CmdRef) : Act Unit :=
  if d.fmt.packed then
    let rows := (es.map (fun e => e.1 / d.d0)).eraseDups
    let one (r : Nat) : Nat × List Byte :=
      let mine := (es.filter (fun e => decide (e.1 / d.d0 = r))).map (fun e => (e.1 % d.d0, e.2))
      (d.rowAddr r, overlayElems d.fmt (s.peek (d.rowAddr r) (d.fmt.bytes d.d0)) mine d.d0)
    s.writeRuns (rows.map one) c
  else
    let at_ (i : Nat) : Nat := d.rowAddr (i / d.d0) + d.fmt.bytes (i % d.d0)
    let words := es.map (fun e => if d.fmt = .m40 then (at_ e.1, leBytes 4 (e.2 / 256)) else (at_ e.1, d.fmt.pack [e.2]))
    let exts := if d.fmt = .m40 then es.map (fun e => (d.aux + e.1, leBytes 1 (m40Ext e.2))) else []
    s.writeRuns (words ++ exts) c

/-- Values converted to a tensor's format and stored (R80 to R85, R89, R100), each at its linear index. `shade` holds the values of
elements that are not stored, which the scales of their MX blocks take account of (R155). -/
def State.storeShaded (s : State) (eval : Bool) (d : Tensor) (code : Nat) (vs shade : List (Nat × Val)) (c : CmdRef) : Act Unit :=
  if d.mx then
    match s.convertMx eval d.id d.fmt code (d.blockOf false) vs shade with
    | (s, es, sc) => (s.writeElems d es c).bind (fun s _ =>
        s.writeRuns (sc.map (fun b => (d.aux + b.1, leBytes 1 b.2))) c)
  else
    match s.convertSite eval d.id d.fmt code vs with
    | (s, es) => s.writeElems d es c

/-- Values converted and stored, with no others beside them. -/
abbrev State.storeValues (s : State) (eval : Bool) (d : Tensor) (code : Nat) (vs : List (Nat × Val)) (c : CmdRef) : Act Unit :=
  s.storeShaded eval d code vs [] c

/-- The bytes that a tensor contributes to a result digest (R118): its elements in packed form, an M40 tensor's words and then its
plane. The elements of a packed format follow each other across rows, and the scale bytes of an MX tensor are no part of it (log entry
118). -/
def State.digestBytes (s : State) (d : Tensor) (c : CmdRef) : Act (List Byte) :=
  (s.readRows d 0 d.rows c).bind (fun s es =>
    (s, .ok (if d.fmt = .m40 then d.fmt.pack (es.map (· / 256)) ++ es.map (fun e => BitVec.ofNat 8 e) else d.fmt.pack es)))

/-! ## Ranges of a command's operands (R280, R298, R448) -/

/-- What keeps a command from reading or writing a range: the status it fails with. -/
def State.spanFault (s : State) (a n : Nat) (write : Bool) : Option Nat :=
  match rangeSpace a n with
  | none => some ST_BAD_PARAM
  | some .hbm => none
  | some .companion => if s.companionMapped a n then none else some ST_BAD_PARAM
  | some _ => if write then some ST_BAD_PARAM else s.aliasCheck a n

/-- The first fault of several ranges, ST_BAD_PARAM before any other. -/
def firstFault (fs : List (Option Nat)) : Option Nat :=
  if fs.contains (some ST_BAD_PARAM) then some ST_BAD_PARAM else (fs.filterMap id).head?

end Sys2Proof.Machine
end

