-- ==== Sys2Proof/Machine/Gram.lean ====
section
/-!
DEFINITION. Machine/Gram.lean: the Gram taps and the factor accumulators (chapter 06).
-/
namespace Sys2Proof.Machine

/-! ## Sites and their regions (R174, R183, R184) -/

/-- The block width w. -/
abbrev GramSite.w (g : GramSite) : Nat := 2 ^ g.widthLog2

/-- The width of owned block `r`: w, but for the last block of the dimension (R174). -/
def GramSite.blockWidth (g : GramSite) (r : Nat) : Nat := min g.w (g.dim - (g.first + r) * g.w)

/-- The bytes of one block. -/
abbrev GramSite.blockBytes (g : GramSite) : Nat := g.w * g.w * 4

/-- The bytes of the region (R183). -/
abbrev GramSite.size (g : GramSite) : Nat := 4096 + 2 * g.count * g.blockBytes

/-- Where S begins. -/
abbrev GramSite.sAddr (g : GramSite) : Nat := g.base + 4096

/-- Where P begins. -/
abbrev GramSite.pAddr (g : GramSite) : Nat := g.sAddr + g.count * g.blockBytes

/-- Entry (p, q) of owned block `r` of the copy that begins at `a`. -/
abbrev GramSite.entryAddr (g : GramSite) (a r p q : Nat) : Nat := a + r * g.blockBytes + 4 * (p * g.w + q)

/-- A site by its ID. -/
def State.site (s : State) (id : Nat) : Option GramSite := s.gram.find? (fun g => decide (g.id = id))

/-- `s` with a site changed. -/
def State.setSite (s : State) (g : GramSite) : State :=
  { s with gram := s.gram.map (fun h => if h.id = g.id then g else h) }

/-- The header bytes 0x00 to 0x17 that a site's definition fixes (R184); NONFINITE is bit 5 at 0x08. -/
def GramSite.fixed (g : GramSite) (nonfinite : Bool) : List Byte :=
  leBytes 2 1 ++ leBytes 2 g.id ++ leBytes 4 g.dim ++ leBytes 2 (g.widthLog2 + 16 * flag g.gradient + 32 * flag nonfinite)
    ++ leBytes 2 g.subsample ++ leBytes 4 g.first ++ leBytes 4 g.count ++ leBytes 4 0

/-- DIGEST rewritten over header bytes 0x00 to 0x37. -/
def State.sealSite (s : State) (g : GramSite) : State := s.ownWord (g.base + 0x38) 8 (crc64 (s.hbm.read g.base 0x38))

/-- S emptied: every entry +0, COUNT 0, no Period, NONFINITE 0 (R185's consumed branch). -/
def State.emptySite (s : State) (g : GramSite) : State :=
  let s := s.own g.sAddr (List.replicate (g.count * g.blockBytes) 0)
  s.own g.base (g.fixed false ++ leBytes 8 noPeriod ++ leBytes 8 noPeriod ++ leBytes 8 0)

/-- P emptied: every entry +0 and PENDING_COUNT 0. -/
def State.clearPending (s : State) (g : GramSite) : State :=
  let s := s.own g.pAddr (List.replicate (g.count * g.blockBytes) 0)
  s.ownWord (g.base + 0x40) 8 0

/-- The result digest of DEFINE and CLEAR: CRC-64 of header bytes 0x00 to 0x3F (R188). -/
def State.siteDigest (s : State) (g : GramSite) : Nat := crc64 (s.hbm.read g.base 0x40)

/-! ## SET_GRAM_TAP (R187, R188) -/

/-- The site that a DEFINE names. -/
def GramSite.ofDef (p : GramDef) : GramSite :=
  { id := p.site.toNat, gradient := decide (p.side = .gradient), widthLog2 := p.widthLog2.toNat, subsample := p.subsample.toNat,
    base := p.base.toNat, dim := p.dim.toNat, first := p.blockFirst.toNat, count := p.blockCount.toNat, ring := none, tokens := 0 }

/-- The encodings of a DEFINE (R187). -/
def gramDefOk (p : GramDef) : Bool :=
  let w := 2 ^ p.widthLog2.toNat
  decide (p.site ≠ 0) && decide (7 ≤ p.widthLog2.toNat ∧ p.widthLog2.toNat ≤ 12) &&
    decide (1 ≤ p.subsample.toNat ∧ p.subsample.toNat ≤ 4096) && decide (p.base.toNat % 4096 = 0) &&
    decide (1 ≤ p.dim.toNat ∧ p.dim.toNat ≤ 262144) && decide (1 ≤ p.blockCount.toNat) &&
    decide (p.blockFirst.toNat + p.blockCount.toNat ≤ cdiv p.dim.toNat w)

/-- A region that reaches beyond HBM or overlaps another site's (R188). -/
def State.siteClash (s : State) (g : GramSite) : Bool :=
  decide (hbmEnd < g.base + g.size) ||
    s.gram.any (fun h => decide (h.id ≠ g.id) && overlaps g.base g.size h.base h.size)

/-- A site defined, replacing any of its ID. -/
def State.addSite (s : State) (g : GramSite) : State :=
  { s with gram := s.gram.filter (fun h => decide (h.id ≠ g.id)) ++ [g] }

/-- DEFINE. -/
def State.defineSite (s : State) (p : GramDef) (c : CmdRef) : Body :=
  let g := GramSite.ofDef p
  if s.siteClash g then s.fail ST_BAD_PARAM
  else if p.attach then
    s.reading g.base 0x48 c (fun s bs =>
      let same := decide (leAt bs 0 8 = ofLE ((g.fixed false).take 8)) &&
        decide (leAt bs 8 2 / 64 * 64 + leAt bs 8 2 % 32 = g.widthLog2 + 16 * flag g.gradient) &&
        decide (leAt bs 10 10 = ofLE (((g.fixed false).drop 10).take 10))
      if crc64 (bs.take 0x38) ≠ leAt bs 0x38 8 then s.fail ST_DIGEST
      else if !same then s.fail ST_BAD_PARAM
      else
        let s := (s.addSite g).clearPending g
        s.ok (s.siteDigest g))
  else
    let s := ((s.own g.base (List.replicate 4096 0)).emptySite g).clearPending g
    let s := (s.addSite g).sealSite g
    s.ok (s.siteDigest g)

/-- CLEAR. -/
def State.clearSite (s : State) (id : Nat) : Body :=
  match s.site id with
  | none => s.fail ST_BAD_PARAM
  | some g =>
    let s := ((s.emptySite g).clearPending g).sealSite g
    s.ok (s.siteDigest g)

/-- RELEASE. -/
def State.releaseSite (s : State) (id : Nat) : Body :=
  match s.site id with
  | none => s.fail ST_BAD_PARAM
  | some _ => State.ok { s with gram := s.gram.filter (fun h => decide (h.id ≠ id)) } 0

/-! ## Gathering (R172 to R180) -/

/-- The Clause kind that a site's side matches (R172). -/
abbrev GramSite.kind (g : GramSite) : Nat := if g.gradient then 2 else 1

/-- A stage of a command with header `h` gathers on a site (R172). -/
def State.gathers (s : State) (h : Hdr) (g : GramSite) : Bool := h.bound && decide (s.clauseKind h.clause.val = some g.kind)

/-- The tokens that a stage of M rows selects (R178). -/
def State.selected (s : State) (g : GramSite) (m : Nat) : List Nat :=
  (List.range m).filter (fun r =>
    let t := g.tokens + r
    let k := g.subsample
    decide (k ≤ 1) || decide (t % k = s.half false Stream.subsample g.id (t / k) * k / 65536))

/-- An operand as the tap takes it: BF16 with RNE (R175). -/
def tapOperand (x : Val) : Val := Fmt.bf16.decode (Fmt.bf16.convert .rne .inf x).1

/-- The products of a tap chunk: those of the selected tokens of one row group, for columns `i` and `j` of A (R176). -/
def tapChunk (a : Nat → Nat → Val) (rows : List Nat) (i j : Nat) : List Val :=
  rows.map (fun r => (tapOperand (a r i)).mul (tapOperand (a r j)))

/-- The stage value V of one entry (R176): for each row group one chunk, summed in ACC. -/
def tapEntry (a : Nat → Nat → Val) (groups : List (List Nat)) (i j : Nat) : Val :=
  accSum (groups.map (fun rows => chunkSum (tapChunk a rows i j)))

/-- The row groups of a stage of `m` rows: the selected tokens of each 64 rows (R176). -/
def tapGroups (sel : List Nat) (m : Nat) : List (List Nat) :=
  (List.range (cdiv m 64)).map (fun k => sel.filter (fun r => decide (r / 64 = k)))

/-- The sub-tiles of the owned blocks in their numbering: block, sub-tile row and sub-tile column (R189). -/
def GramSite.subTiles (g : GramSite) : List (Nat × Nat × Nat) :=
  (List.range g.count).flatMap (fun r =>
    let b := cdiv (g.blockWidth r) 64
    (List.range b).flatMap (fun x => ((List.range b).filter (fun y => decide (x ≤ y))).map (fun y => (r, x, y))))

/-- The entries (p, q), p ≤ q, of a sub-tile, as columns of A. -/
def GramSite.subEntries (g : GramSite) (u : Nat × Nat × Nat) : List (Nat × Nat) :=
  let wb := g.blockWidth u.1
  let col0 := (g.first + u.1) * g.w
  let span (x : Nat) : List Nat := (List.range 64).map (64 * x + ·)
  ((span u.2.1).flatMap (fun p => (span u.2.2).map (fun q => (p, q)))).filterMap (fun e =>
    if e.1 ≤ e.2 ∧ e.2 < wb then some (col0 + e.1, col0 + e.2) else none)

/-- The tap chunks that the cluster of tile (`i`, `j`) of a stage completes, and whether each agrees with its prediction (R78, R189):
those of the sub-tiles u with u mod `columns` = j over row group i. -/
def GramSite.tapChecks (g : GramSite) (a : Nat → Nat → Val) (groups : List (List Nat)) (columns tile i j : Nat) : List ChunkCheck :=
  let mine := ((g.subTiles.zipIdx).filter (fun u => decide (u.2 % columns = j))).flatMap (fun u => g.subEntries u.1)
  mine.zipIdx.map (fun e => ⟨3, tile, e.2, residueMatches (tapChunk a (nth groups i []) e.1.1 e.1.2)⟩)

/-- One block of P after V is added: its rows, w_b entries each (R176). -/
def addBlock (g : GramSite) (a : Nat → Nat → Val) (groups : List (List Nat)) (old : Nat → Nat → Nat) (r : Nat) : List (List Nat) :=
  let wb := g.blockWidth r
  let col0 := (g.first + r) * g.w
  (List.range wb).map (fun p => (List.range wb).map (fun q =>
    let i := min p q
    let j := max p q
    rne32 (accAdd (v32 (old i j)) (tapEntry a groups (col0 + i) (col0 + j)))))

/-- A completed stage of `m` rows adds its V into P and its tokens into PENDING_COUNT (R176, R180). An uncorrectable error in P
leaves P undefined, and the command fails (R180). -/
def State.gather (s : State) (g : GramSite) (m : Nat) (a : Nat → Nat → Val) (c : CmdRef) : Act Unit :=
  let sel := s.selected g m
  let groups := tapGroups sel m
  let n := g.count * g.blockBytes
  match s.readHbm g.pAddr n (some c) with
  | (s, .error st) => (if st = ST_ECC then s.forgetHbm g.pAddr (g.pAddr + n) else s, .fail st)
  | (s, .bytes bs) =>
    let words := (pieces 4 bs).toArray
    let old (r p q : Nat) : Nat := ofLE ((words[r * g.w * g.w + p * g.w + q]?).getD [])
    let s := (List.range g.count).foldl (fun s r =>
      (addBlock g a groups (old r) r).zipIdx.foldl (fun s row =>
        s.own (g.entryAddr g.pAddr r row.2 0) (row.1.flatMap (leBytes 4))) s) s
    let s := s.ownWord (g.base + 0x40) 8 (s.word (g.base + 0x40) 8 + sel.length)
    (s.setSite { g with tokens := g.tokens + m }, .ok ())

/-! ## The commit and the halt (R180, R185) -/

/-- S + P of one site at the commit. The new entries, all of them FP32 words. -/
def summed (s p : List Byte) : List Nat :=
  ((pieces 4 s).zip (pieces 4 p)).map (fun e => rne32 (accAdd (v32 (ofLE e.1)) (v32 (ofLE e.2))))

/-- A site at the commit of Period `n` (R185). -/
def State.commitSite (s : State) (n : Nat) (consumed : Bool) (g : GramSite) : State :=
  let s := if consumed then s.emptySite g else s
  let pending := s.word (g.base + 0x40) 8
  let bytes := g.count * g.blockBytes
  let was := bit (s.word (g.base + 8) 1) 5
  let (s, raised) := if pending = 0 then (s, false) else
    let sums := summed (s.hbm.read g.sAddr bytes) (s.hbm.read g.pAddr bytes)
    let bad := sums.any (fun w => decide (bits w 23 8 = 255))
    let s := s.own g.sAddr (sums.flatMap (leBytes 4))
    let first := if s.word (g.base + 0x18) 6 = noPeriod then n else s.word (g.base + 0x18) 6
    let count := s.word (g.base + 0x28) 8 + pending
    let s := s.own g.base (g.fixed (was || bad) ++ leBytes 8 first ++ leBytes 8 n ++ leBytes 8 count)
    (s, bad && !was)
  let s := (s.clearPending g).sealSite g
  if raised then s.raise ⟨0x0301, 0, 3, 0, g.id, false, none⟩ else s

/-- Every defined site at the commit of Period `n`; `consumed` says which sites a published job consumed. -/
def State.commitGram (s : State) (n : Nat) (consumed : List Nat) : State :=
  s.gram.foldl (fun s g => s.commitSite n (consumed.contains g.id) g) s

/-- A halt discards P and PENDING_COUNT of every site (R180). -/
def State.discardGram (s : State) : State := s.gram.foldl (fun s g => s.clearPending g) s

/-- A new Period: no ring fixed and no token gathered on any site (R178, R179). -/
def State.tickGram (s : State) : State := { s with gram := s.gram.map (fun g => { g with ring := none, tokens := 0 }) }

end Sys2Proof.Machine
end

