-- ==== Sys2Proof/Machine/Elementary.lean ====
section
/-!
DEFINITION. Machine/Elementary.lean: EXP, LOG, TANH, SIGMOID, GELU and SILU of R124 and R125, which return the FP32 value
nearest to the exact real value.

The exact value is irrational at every input but the special ones, so it is computed in fixed point with 512 fraction bits and
a sticky bit, and rounded once. DEDUCED: the result is the correctly rounded one unless the exact value lies within about 2^-250
of a rounding boundary of FP32, relatively; no FP32 input is known to come near that (log entry 8).
-/
namespace Sys2Proof.Machine

/-- Fraction bits of the fixed-point work. -/
abbrev fixBits : Nat := 512

/-- One in fixed point. -/
abbrev fixOne : Nat := 2 ^ fixBits

/-- sum over k < n of y^(2k+1) / (2k+1): the series of atanh, for y in fixed point below 1/2. -/
def atanhAux (y2 : Nat) : Nat → Nat → Nat → Nat → Nat
  | 0, _, _, acc => acc
  | n + 1, k, term, acc => atanhAux y2 n (k + 1) (term * y2 / fixOne) (acc + term / (2 * k + 1))

/-- atanh(y) in fixed point. -/
def atanhFix (y : Nat) : Nat := atanhAux (y * y / fixOne) 200 0 y 0

/-- ln 2 in fixed point: 2 atanh(1/3). -/
def ln2Fix : Nat := 2 * atanhFix (fixOne / 3)

/-- sum of r^k / k! for r in fixed point below 1. -/
def expAux (r : Nat) : Nat → Nat → Nat → Nat → Nat
  | 0, _, _, acc => acc
  | n + 1, k, term, acc => expAux r n (k + 1) (term * r / fixOne / (k + 1)) (acc + term)

/-- e^r for r in [0, 1) in fixed point. -/
def expFix (r : Nat) : Nat := expAux r 110 0 fixOne 0

/-- A finite value as a signed fixed-point number, clamped to magnitudes below 2^12. -/
def toFix (s : Bool) (m : Nat) (e : Int) : Int :=
  let n := if m = 0 then 0 else if expOf m e > 11 then 2 ^ 12 * fixOne else shiftBy m (e + Int.ofNat fixBits)
  if s then -(Int.ofNat n) else Int.ofNat n

/-- e^x of a fixed-point x as a value with a sticky bit. -/
def expVal (x : Int) : Val :=
  let k := x / Int.ofNat ln2Fix
  let r := (x % Int.ofNat ln2Fix).toNat
  .fin false (2 * expFix r + 1) (k - Int.ofNat fixBits - 1)

/-- EXP. -/
def fexp : Val → Val
  | .nan => .nan
  | .inf s => if s then .zero else .inf false
  | .fin s m e => if m = 0 then .fin false 1 0 else expVal (toFix s m e)

/-- LOG: ln x of a positive value; ±0 gives -infinity and a negative value NaN. -/
def flog : Val → Val
  | .nan => .nan
  | .inf s => if s then .nan else .inf false
  | .fin s m e =>
    if m = 0 then .inf true
    else if s then .nan
    else
      -- x = f * 2^k with f in [1, 2)
      let k := expOf m e
      let f := shiftBy m (Int.ofNat fixBits - Int.ofNat m.log2)
      let y := (f - fixOne) * fixOne / (f + fixOne)
      let l : Int := k * Int.ofNat ln2Fix + 2 * Int.ofNat (atanhFix y)
      if l = 0 then .zero else .fin (decide (l < 0)) (2 * l.natAbs + 1) (-(Int.ofNat fixBits) - 1)

/-- 1 / (1 + e^(-x)) for a fixed-point x, with a sticky bit. -/
def sigmoidFix (x : Int) : Val :=
  let one : Val := .fin false 1 0
  let t := expVal (-(Int.ofNat x.natAbs))
  let d := one.add t
  if x ≥ 0 then one.div d else t.div d

/-- SIGMOID. -/
def fsigmoid : Val → Val
  | .nan => .nan
  | .inf s => if s then .zero else .fin false 1 0
  | .fin s m e => if m = 0 then .fin false 1 (-1) else sigmoidFix (toFix s m e)

/-- TANH: (1 - t) / (1 + t) with t = e^(-2|x|); below 2^-100 the value nearest to x is x itself. -/
def ftanh : Val → Val
  | .nan => .nan
  | .inf s => .fin s 1 0
  | .fin s m e =>
    if m = 0 then .fin s 0 0
    else if expOf m e < -100 then .fin s m e
    else
      let one : Val := .fin false 1 0
      let t := expVal (-(2 * Int.ofNat (toFix s m e).natAbs))
      let q := (one.sub t).div (one.add t)
      if s then q.neg else q

/-- SILU: x * sigmoid(x), rounded once; -infinity gives -0. -/
def fsilu : Val → Val
  | .nan => .nan
  | .inf s => if s then .fin true 0 0 else .inf false
  | .fin s m e => if m = 0 then .fin s 0 0 else (Val.fin s m e).mul (sigmoidFix (toFix s m e))

/-- GELU: 0.5 x (1 + tanh u) = x * sigmoid(2u), u = c1 (x + c2 x^3), with the FP32 constants nearest to sqrt(2/pi) (0x3F4C422A)
and 0.044715 (0x3D372713); ±infinity give +infinity and +0 (R124, R125). -/
def fgelu : Val → Val
  | .nan => .nan
  | .inf s => if s then .zero else .inf false
  | .fin s m e =>
    if m = 0 then .fin s 0 0
    else
      let x : Val := .fin s m e
      let u := (v32 0x3F4C422A).mul (x.add ((v32 0x3D372713).mul (x.mul (x.mul x))))
      match u with
      | .fin s' m' e' => x.mul (sigmoidFix (toFix s' m' (e' + 1)))
      | _ => .nan

end Sys2Proof.Machine
end

