-- ==== Sys2Proof/Machine/Vector.lean ====
section
/-!
DEFINITION. Machine/Vector.lean: what the vector engine computes: the element operations (R124, R125), the row operations (R126 to
R130) and the sum of the matrix engine's chunks (R77, R120).
-/
namespace Sys2Proof.Machine

/-! ## Element operations (R124, R125) -/

/-- One, as a value. -/
abbrev Val.one : Val := .fin false 1 0

/-- RSQRT: 1/√x correctly rounded; ±0 give ±∞ and a negative value NaN. -/
def rsqrt : Val → Val
  | .fin s m e => if m = 0 then .inf s else round32 (Val.invRoot 1 (.fin s m e))
  | v => Val.invRoot 1 v

/-- CLAMP: x limited to [-|b|, |b|]. -/
def clampTo (x b : Val) : Val :=
  if x.isNan || b.isNan then .nan
  else if b.abs.lt x then b.abs
  else if x.lt b.abs.neg then b.abs.neg
  else x

/-- The operations that R552 gives a second operand: ADD, SUB, MUL, MAX, MIN, CLAMP. -/
abbrev binaryOp (op : Nat) : Bool := [0x01, 0x02, 0x03, 0x04, 0x05, 0x09].contains op

/-- An element operation of R124 on x, with second operand b and immediate `imm` (its raw 32 bits). `keep` is the kept draw of
DROPOUT or the mask bit of SELECT. Values are exact FP32 values in and out. -/
def elementOp (op : Nat) (x b : Val) (imm : Nat) (keep : Bool) : Val :=
  match op with
  | 0x01 => round32 (x.add b)
  | 0x02 => round32 (x.sub b)
  | 0x03 => round32 (x.mul b)
  | 0x04 => x.max b
  | 0x05 => x.min b
  | 0x06 => x.abs
  | 0x07 => x.neg
  | 0x08 => round32 (x.scale (toSigned 32 imm))
  | 0x09 => clampTo x b
  | 0x0A => x.max .zero
  | 0x0B => round32 (fgelu x)
  | 0x0C => round32 (fsilu x)
  | 0x0D => round32 (fsigmoid x)
  | 0x0E => round32 (ftanh x)
  | 0x0F => round32 (fexp x)
  | 0x10 => round32 (flog x)
  | 0x11 => round32 (Val.one.div x)
  | 0x12 => round32 x.sqrt
  | 0x13 => rsqrt x
  | 0x14 => if keep then round32 (x.div (v32 imm)) else .zero
  | 0x15 => if keep then x else v32 imm
  | _ => x

/-! ## The matrix engine (R77, R120) -/

/-- The K order of tile (i, j): the half-open ranges of k of its chunks (R120). -/
def kOrder (i j k : Nat) : List (Nat × Nat) :=
  let f := k / 256
  let full := (List.range f).map (fun b => let b := (i + j + b) % f; (256 * b, 256 * b + 256))
  if k % 256 = 0 then full else full ++ [(256 * f, k)]

/-- The running sum of an element's chunks (R77): one segment leaves the ACC sum; more leave the FP32 value R, rounded
stochastically after each segment with draw index `draw s`. -/
def segmentSum (draw : Nat → Nat) (chunks : List Val) : Val :=
  match pieces 64 chunks with
  | [] => .zero
  | [seg] => accSum seg
  | segs => segs.zipIdx.foldl (fun r p => v32 (Fmt.fp32.convert (.sr (draw p.2)) .inf (accAdd r (accSum p.1))).1) .zero

/-! ## Row operations (R127 to R130) -/

/-- The flags of a row (R128). -/
structure RowFlags where
  empty : Bool
  split : Bool
  nan   : Bool
deriving DecidableEq, Repr

/-- No flag. -/
abbrev RowFlags.none : RowFlags := ⟨false, false, false⟩

/-- RNE(1 / n) in FP32. -/
def recipOf (n : Nat) : Val := round32 (Val.one.div (.fin false n 0))

/-- y, lse and the flags of a row (R128). Each element comes with whether it is active; a masked one counts as -∞. -/
def softmaxRow (xs : List (Val × Bool)) : List Val × Val × RowFlags :=
  let active := (xs.filter (·.2)).map (·.1)
  let vs : List Val := xs.map (fun p => if p.2 then p.1 else .inf true)
  if active.any Val.isNan then (vs.map (fun _ => .nan), .nan, { RowFlags.none with nan := true })
  else if active.all (· == .inf true) then (vs.map (fun _ => .zero), .inf true, { RowFlags.none with empty := true })
  else if active.contains (.inf false) then
    let y := recipOf (vs.countP (· == .inf false))
    (vs.map (fun x => if x == .inf false then y else .zero), .inf false, { RowFlags.none with split := true })
  else
    let m := rowMax vs
    let es := vs.map (fun x => round32 (fexp (round32 (x.sub m))))
    let sum := rowSum es
    (es.map (fun e => round32 (e.div sum)), round32 (m.add (round32 (flog sum))), .none)

/-- A masked element is written as +0 (R127), except in a NaN row (log entry 21). -/
def maskedZero (fl : RowFlags) (xs : List (Val × Bool)) (ys : List Val) : List Val :=
  if fl.nan then ys else (xs.zip ys).map (fun p => if p.1.2 then p.2 else .zero)

/-- LOGSOFTMAX: x - lse, and -∞ where y is 0 (R128). -/
def logSoftmaxRow (xs : List (Val × Bool)) (ys : List Val) (lse : Val) : List Val :=
  (xs.zip ys).map (fun p => if p.2.isZero then .inf true else round32 ((if p.1.2 then p.1.1 else .inf true).sub lse))

/-- XENT (R129): the loss, the gradient and the flags of a row with its label and the gradient's factor. -/
def xentRow (xs : List (Val × Bool)) (label : Int) (factor : Val) : Val × List Val × RowFlags :=
  let (ys, lse, fl) := softmaxRow xs
  let n := xs.length
  if label = -1 then (.zero, xs.map (fun _ => .zero), fl)
  else if label < 0 ∨ Int.ofNat n ≤ label then (.nan, xs.map (fun _ => .nan), { fl with nan := true })
  else
    let l := label.toNat
    let x := nth xs l (.zero, false)
    let grad := maskedZero fl xs (ys.zipIdx.map (fun p => round32 ((round32 (p.1.sub (if p.2 = l then Val.one else .zero))).mul factor)))
    if fl.empty then (.inf false, xs.map (fun _ => .zero), fl)
    else if !x.2 || x.1 == .inf true then (.inf false, grad, fl)
    else if fl.split then ((if x.1 == .inf false then .zero else .inf false), grad, fl)
    else (round32 (lse.sub x.1), grad, fl)

/-- LAYERNORM (R130). -/
def layerNormRow (vs : List Val) (eps : Val) (gamma beta : Nat → Val) : List Val × RowFlags :=
  if vs.all Val.isFinite then
    let r := recipOf vs.length
    let mu := round32 ((rowSum vs).mul r)
    let ds := vs.map (fun x => round32 (x.sub mu))
    let v := round32 ((rowSum (ds.map (fun d => round32 (d.mul d)))).mul r)
    let k := rsqrt (round32 (v.add eps))
    (ds.zipIdx.map (fun p => round32 ((round32 ((round32 (p.1.mul k)).mul (gamma p.2))).add (beta p.2))), .none)
  else (vs.map (fun _ => .nan), { RowFlags.none with nan := true })

/-- RMSNORM (R130). -/
def rmsNormRow (vs : List Val) (eps : Val) (gamma : Nat → Val) : List Val × RowFlags :=
  if vs.all Val.isFinite then
    let v := round32 ((rowSum (vs.map (fun x => round32 (x.mul x)))).mul (recipOf vs.length))
    let k := rsqrt (round32 (v.add eps))
    (vs.zipIdx.map (fun p => round32 ((round32 (p.1.mul k)).mul (gamma p.2))), .none)
  else (vs.map (fun _ => .nan), { RowFlags.none with nan := true })

end Sys2Proof.Machine
end

