-- ==== Sys2Proof/Machine/Program.lean ====
section
/-!
DEFINITION. Machine/Program.lean: program images and their checks (R110 to R118, R151, R154 to R156, R159, R551, R552), and the
stages that RUN_PROGRAM runs (R119 to R138). The meaning of the row stands in Machine/ClusterRows.lean.
-/
namespace Sys2Proof.Machine

/-! ## Records of an image -/

/-- An epilogue record (R123). -/
structure Epi where
  op     : Nat
  src    : Nat
  tensor : Nat
  imm    : Nat

/-- A geometry record (R117). -/
structure Geom where
  h       : Nat
  w       : Nat
  c       : Nat
  kh      : Nat
  kw      : Nat
  strideH : Nat
  strideW : Nat
  padH    : Nat
  padW    : Nat
  dilH    : Nat
  dilW    : Nat

/-- A stage record (R114) with its epilogue and geometry records. -/
structure Stage where
  kind    : Nat
  transA  : Bool
  transB  : Bool
  rowMode : Bool
  causal  : Bool
  routed  : Bool
  round   : Nat
  srcA    : Nat
  srcB    : Nat
  dst     : Nat
  aux     : Nat
  m       : Nat
  n       : Nat
  k       : Nat
  op      : Nat
  tap     : Nat
  imm0    : Nat
  imm1    : Nat
  imm2    : Nat
  aux2    : Nat
  epis    : List Epi
  geom    : Option Geom

/-- A mask table entry that governs a stage (R154): KIND and MASK. -/
structure GradMask where
  kind : Nat
  mask : Nat

/-- A program ready to run: its tensors and stages. -/
structure Program where
  tensors : List Tensor
  stages  : List Stage

/-- A tensor of the program. -/
def Program.tensor (p : Program) (i : Nat) : Option Tensor := p.tensors[i]?

/-! ## Reading the records -/

/-- An epilogue record from its 8 bytes; none where a reserved bit is set or SRC is reserved. -/
def Epi.parse (bs : List Byte) : Option Epi :=
  let w := leAt bs 0 4
  if bits w 12 4 = 0 ∧ bits w 24 8 = 0 ∧ bits w 8 4 ≤ 4 ∧ 1 ≤ w % 256 ∧ w % 256 ≤ 0x15 then
    some ⟨w % 256, bits w 8 4, bits w 16 8, leAt bs 4 4⟩
  else none

/-- A geometry record from its 32 bytes. -/
def Geom.parse (bs : List Byte) : Option Geom :=
  let b (i : Nat) : Nat := leAt bs i 1
  let g : Geom := ⟨leAt bs 0 2, leAt bs 2 2, leAt bs 4 4, b 8, b 9, b 10, b 11, b 12, b 13, b 14, b 15⟩
  if leAt bs 16 16 = 0 ∧ bs.length = 32 ∧ 1 ≤ g.kh ∧ g.kh ≤ 32 ∧ 1 ≤ g.kw ∧ g.kw ≤ 32 ∧ 1 ≤ g.strideH ∧ g.strideH ≤ 16
      ∧ 1 ≤ g.strideW ∧ g.strideW ≤ 16 ∧ g.padH ≤ 31 ∧ g.padW ≤ 31 ∧ 1 ≤ g.dilH ∧ g.dilH ≤ 16 ∧ 1 ≤ g.dilW ∧ g.dilW ≤ 16
      ∧ g.dilH * (g.kh - 1) + 1 ≤ g.h + 2 * g.padH ∧ g.dilW * (g.kw - 1) + 1 ≤ g.w + 2 * g.padW then
    some g
  else none

/-- OH of R117. -/
def Geom.oh (g : Geom) : Nat := (g.h + 2 * g.padH - g.dilH * (g.kh - 1) - 1) / g.strideH + 1

/-- OW of R117. -/
def Geom.ow (g : Geom) : Nat := (g.w + 2 * g.padW - g.dilW * (g.kw - 1) - 1) / g.strideW + 1

/-- Fields of a stage record that the kind leaves unused are 0 (R114). The tensor indices are checked with the kind. -/
def unusedZero (kind : Nat) (flags n k op tap imm0 imm1 imm2 aux2 geom epi epiOff : Nat) : Bool :=
  let z (x : Nat) : Bool := decide (x = 0)
  -- flags: TRANS_A, TRANS_B, ROWMODE, CAUSAL, ROUTED from bit 0
  match kind with
  | 1 => z (flags / 4) && z op && z imm0 && z imm1 && z imm2 && z (aux2 / 256) && z geom
  | 2 => z (flags / 4) && z (flags % 2) && z op && z imm0 && z imm1 && z imm2 && z (aux2 / 256)
  | 3 => z flags && z n && z k && z op && z tap && z imm0 && z imm1 && z imm2 && z (aux2 / 256) && z geom
  | 4 => z (flags % 8) && z (flags / 16) && z k && z tap && z imm2 && z (aux2 / 256) && z geom && z epi && z epiOff
  | _ => z (flags % 4) && z (flags / 8 % 2) && z k && z tap && z (aux2 / 256) && z geom && z epi && z epiOff

/-- A stage record from its 64 bytes, with the records it names in the image; none where an encoding is reserved (R112, R114). Epilogue and
geometry records follow the stage records, which end at `start` (R111). -/
def Stage.parse (img : List Byte) (start : Nat) (bs : List Byte) : Option Stage :=
  let w0 := leAt bs 0 4
  let w4 := leAt bs 4 4
  let w14 := leAt bs 0x14 4
  let kind := w0 % 256
  let count := w14 % 256
  let epiOff := leAt bs 0x28 4
  let geomOff := leAt bs 0x2C 4
  let epis := (List.range count).map (fun i => Epi.parse ((img.drop (epiOff + 8 * i)).take 8))
  let geom := if kind = 2 then Geom.parse ((img.drop geomOff).take 32) else none
  let n := leAt bs 0xC 4
  let k := leAt bs 0x10 4
  let i0 := leAt bs 0x18 4
  let i1 := leAt bs 0x1C 4
  let i2 := leAt bs 0x20 4
  let aux2 := leAt bs 0x24 4
  let op := bits w14 8 8
  let tap := bits w14 16 16
  if 1 ≤ kind ∧ kind ≤ 5 ∧ bits w0 13 3 = 0 ∧ bits w0 16 3 ≤ 4 ∧ bits w0 19 13 = 0 ∧ leAt bs 0x30 16 = 0 ∧ count ≤ 8
      ∧ epiOff % 8 = 0 ∧ (count ≠ 0 → start ≤ epiOff ∧ epiOff + 8 * count ≤ img.length) ∧ epis.all (·.isSome)
      ∧ (kind = 2 → start ≤ geomOff ∧ geom.isSome)
      ∧ unusedZero kind (bits w0 8 5) n k op tap i0 i1 i2 aux2 geomOff count epiOff then
    some { kind := kind, transA := bit w0 8, transB := bit w0 9, rowMode := bit w0 10, causal := bit w0 11, routed := bit w0 12,
           round := bits w0 16 3, srcA := w4 % 256, srcB := bits w4 8 8, dst := bits w4 16 8, aux := bits w4 24 8,
           m := leAt bs 8 4, n := n, k := k, op := op, tap := tap, imm0 := i0, imm1 := i1, imm2 := i2, aux2 := aux2 % 256,
           epis := epis.filterMap id, geom := geom }
  else none

/-! ## Shape rules -/

/-- The operand pairs of R115 and R98, by element format and MX. -/
def pairOk (a b : Tensor) : Bool :=
  let fp8 (f : Fmt) : Bool := f == .e4m3 || f == .e5m2
  let elem := (fp8 a.fmt && fp8 b.fmt) || (a.fmt == b.fmt && [Fmt.e3m2, .e2m1, .int8].contains a.fmt)
  (a.mx == b.mx) && (elem || (!a.mx && a.fmt == b.fmt && [Fmt.fp32, .bf16, .fp16].contains a.fmt))

/-- A format that no operation but a conversion takes (R125). -/
abbrev notVector (f : Fmt) : Bool := f == .fp64 || f == .m40 || f == .int32

/-- A tensor-index field that its stage kind does not use: 0 or 0xFF (R114). -/
abbrev unusedIx (i : Nat) : Bool := decide (i = 0) || decide (i = 255)

/-- The tensor of SRC_B, AUX or AUX2, where 0xFF means none (R114). -/
def optTensor (ts : List Tensor) (i : Nat) : Option Tensor := if i = 255 then none else ts[i]?

/-- An index that the stage's kind uses and its operation does not: in range, or none (R112, R114). -/
abbrev idleIx (ts : List Tensor) (i : Nat) : Bool := decide (i = 255) || decide (i < ts.length)

/-- SRC 2's vector in an epilogue: indexed by DST's row, ⌊e ÷ DIM0⌋ (log entry 22). -/
abbrev rowIndex (d : Tensor) (e : Nat) : Nat := e / d.d0

/-- One epilogue record's rules (R124, R125, R159, R552). `elems` is the number of elements it is applied to. A tensor of SRC 4 need only
hold that many elements, and is read in its own linear order, in a GEMM as in an ELTWISE stage (log entry 121). -/
def epiOk (ts : List Tensor) (dst : Tensor) (elems : Nat) (e : Epi) : Bool :=
  let t := ts[e.tensor]?
  let holds (n : Nat) : Bool := match t with
    | some t => !notVector t.fmt && decide (n ≤ t.count)
    | none => false
  let srcOk := match e.src with
    | 2 => holds (cdiv elems dst.d0)
    | 3 => holds (min elems dst.d0)
    | 4 => holds elems
    | _ => true
  if binaryOp e.op then decide (1 ≤ e.src) && srcOk
  else match e.op with
    | 0x08 => decide (e.src = 0) && decide (-255 ≤ toSigned 32 e.imm ∧ toSigned 32 e.imm ≤ 255)
    | 0x14 => decide (e.src = 0) && t.isSome && Val.zero.lt (v32 e.imm) && (v32 e.imm).le Val.one
    | 0x15 => decide (e.src = 4) && (match t with | some t => t.fmt == .int8 | none => false)
    | _ => decide (e.src = 0)

/-- The mask table entry that governs a gradient tensor (R154): the lowest index applies. -/
def State.maskEntry (s : State) (id : Nat) : Option GradMask :=
  let base := s.get F.BW_MASK_BASE_BASE
  ((List.range (s.get F.BW_MASK_COUNT)).find? (fun i => decide (s.word (base + 16 * i) 2 = id))).map
    (fun i => ⟨bits (s.word (base + 16 * i) 4) 16 2, s.word (base + 16 * i + 8) 6⟩)

/-- The tensor IDs of the mask table's entries. -/
def State.maskTableIds (s : State) : List Nat :=
  (List.range (s.get F.BW_MASK_COUNT)).map (fun i => s.word (s.get F.BW_MASK_BASE_BASE + 16 * i) 2)

/-- A write between the tick and DONE touches an entry of the mask table that governs a tensor, now or at the tick, or its mask (R157). -/
def State.touchesMask (s : State) (w : Nat × Nat) (id mask len : Nat) : Bool :=
  overlaps w.1 w.2 mask len ||
    (List.range (s.get F.BW_MASK_COUNT)).any (fun i => overlaps w.1 w.2 (s.get F.BW_MASK_BASE_BASE + 16 * i) 16 &&
      (decide (s.pd.maskIds[i]? = some id) || decide (s.word (s.get F.BW_MASK_BASE_BASE + 16 * i) 2 = id)))

/-- The shapes of a GEMM stage (R551). -/
def gemmShapes (st : Stage) (a b d : Tensor) : Bool :=
  let two (t : Tensor) (x y : Nat) : Bool := decide (t.d0 = x ∧ t.d1 = y)
  let batch (t : Tensor) : Bool := decide ((t.d2 = d.d2 ∨ t.d2 = 1) ∧ (t.d3 = d.d3 ∨ t.d3 = 1))
  two d st.n st.m && batch a && batch b &&
    (if st.transA then two a st.m st.k else two a st.k st.m) && (if st.transB then two b st.k st.n else two b st.n st.k)

/-- The shapes of an IMPLICIT_GEMM stage (R117, R551): the input is (batch, H, W, C), C fastest. -/
def implicitShapes (st : Stage) (g : Geom) (a b d : Tensor) : Bool :=
  decide (a.d0 = g.c ∧ a.d1 = g.w ∧ a.d2 = g.h ∧ st.m = a.d3 * g.oh * g.ow ∧ st.k = g.kh * g.kw * g.c) &&
    decide (d.d0 = st.n ∧ d.d1 = st.m ∧ d.d2 = 1 ∧ d.d3 = 1 ∧ b.d2 = 1 ∧ b.d3 = 1) &&
    (if st.transB then decide (b.d0 = st.k ∧ b.d1 = st.n) else decide (b.d0 = st.n ∧ b.d1 = st.k))

/-- A tapped stage's rules (R172, R181). -/
def State.tapOk (s : State) (st : Stage) (d : Tensor) : Bool :=
  decide (st.tap = 0) || (match s.site st.tap with
    | some g => decide (st.k = g.dim) && decide (d.d2 = 1 ∧ d.d3 = 1)
    | none => false)

/-- A matrix stage's rules (R115, R117, R155, R156, R181, R551). -/
def State.matrixOk (s : State) (ts : List Tensor) (st : Stage) : Bool :=
  match ts[st.srcA]?, optTensor ts st.srcB, ts[st.dst]? with
  | some a, some b, some d =>
    decide (1 ≤ st.m ∧ 1 ≤ st.n ∧ 1 ≤ st.k) && d.output && pairOk a b && unusedIx st.aux && unusedIx st.aux2 &&
      (match st.geom with
        | some g => implicitShapes st g a b d
        | none => gemmShapes st a b d) &&
      s.tapOk st d && st.epis.all (epiOk ts d d.count) &&
      (match s.maskEntry d.id with
        | some m => (decide (m.kind = 1) || decide (m.kind = 2)) && decide (st.tap = 0)
        | none => true)
  | _, _, _ => false

/-- An ELTWISE stage's rules (R125, R552). ROWS may be 0, as in a ROW and an ELLIPSIS stage: the stage then works on no element (log entry
122). -/
def eltwiseOk (ts : List Tensor) (st : Stage) : Bool :=
  match ts[st.srcA]?, ts[st.dst]? with
  | some a, some d =>
    d.output && unusedIx st.srcB && unusedIx st.aux && unusedIx st.aux2 &&
      decide (st.m ≤ a.count ∧ st.m ≤ d.count) && (st.epis.isEmpty || !notVector a.fmt) &&
      st.epis.all (epiOk ts d st.m)
  | _, _ => false

/-- An output tensor that a field may name or leave out with 0xFF. -/
def optOutput (ts : List Tensor) (i : Nat) (ok : Tensor → Bool) : Bool :=
  decide (i = 255) || (match ts[i]? with
    | some t => t.output && ok t
    | none => false)

/-- An input tensor that a field may name or leave out with 0xFF. -/
def optInput (ts : List Tensor) (i : Nat) (ok : Tensor → Bool) : Bool :=
  decide (i = 255) || (match ts[i]? with
    | some t => ok t
    | none => false)

/-- A ROW stage's rules (R114, R127 to R131). Rows are DIM0 = ROW_LEN elements, in linear order (log entry 23). An immediate that the kind
uses may hold any value where its operation does not use it. -/
def rowOk (ts : List Tensor) (st : Stage) : Bool :=
  let rowsOf (t : Tensor) : Bool := decide (t.d0 = st.n) && decide (st.m ≤ t.rows)
  let vector (t : Tensor) : Bool := !notVector t.fmt && decide (st.n ≤ t.count)
  let perRow := [0x03, 0x04, 0x07, 0x08].contains st.op
  let eps := v32 st.imm0
  let normal := match eps with
    | .fin false _ _ => decide (1 ≤ st.imm0 / 2 ^ 23)
    | _ => false
  match ts[st.srcA]?, ts[st.dst]? with
  | some a, some d =>
    d.output && decide (1 ≤ st.n ∧ st.n ≤ 16777216) && !notVector a.fmt && rowsOf a &&
      (if perRow then decide (st.m ≤ d.count) else rowsOf d) &&
      optOutput ts st.aux2 (fun t => decide (t.fmt.width = 8) && decide (st.m ≤ t.count)) &&
      (match st.op with
        | 0x01 => Val.zero.lt eps && idleIx ts st.srcB && idleIx ts st.aux
        | 0x02 => idleIx ts st.srcB && idleIx ts st.aux
        | 0x03 => idleIx ts st.srcB && idleIx ts st.aux
        | 0x04 => optOutput ts st.srcB rowsOf && (match optTensor ts st.aux with
            | some t => t.fmt == .int32 && decide (st.m ≤ t.count)
            | none => false)
        | 0x05 => normal && optInput ts st.srcB vector && optInput ts st.aux vector
        | 0x06 => normal && optInput ts st.srcB vector && idleIx ts st.aux
        | 0x07 => idleIx ts st.srcB && idleIx ts st.aux
        | 0x08 => idleIx ts st.srcB && idleIx ts st.aux
        | _ => false)
  | _, _ => false

/-- The elements of a unit of an ELLIPSIS stage (R135). -/
abbrev Stage.unit (st : Stage) : Nat := if st.rowMode then st.n else 1

/-- The entries that an index list may hold (R134). -/
abbrev listMax : Nat := 16777216

/-- An ELLIPSIS stage's rules (R134 to R136). Whether the active units of a COMPRESS fit DST and the list is known only when it runs (log
entry 88); a row of no elements is refused (log entry 122). -/
def ellipsisOk (ts : List Tensor) (st : Stage) : Bool :=
  let u := st.unit
  let list (t : Tensor) (n : Nat) : Bool := t.fmt == .int32 && decide (n ≤ t.count)
  match ts[st.srcA]?, ts[st.dst]? with
  | some a, some d =>
    d.output && decide (1 ≤ u) && (decide (st.op = 4) || decide (st.m * u ≤ a.count)) && (!st.routed || decide (st.op = 2 ∨ st.op = 3)) &&
      (match st.op with
        | 0x01 => idleIx ts st.srcB && (optTensor ts st.aux).isSome && optOutput ts st.aux2 (fun t => t.fmt == .int32) &&
            (match ts[st.imm1 % 256]? with | some t => t.output && t.fmt == .int32 | none => false)
        | 0x02 => idleIx ts st.srcB && idleIx ts st.aux2 && decide (st.m ≤ listMax) &&
            (match optTensor ts st.aux with | some t => list t st.m | none => false)
        | 0x03 => idleIx ts st.srcB && idleIx ts st.aux2 && decide (st.m ≤ listMax) &&
            !notVector a.fmt && !notVector d.fmt && (match optTensor ts st.aux with | some t => list t st.m | none => false)
        | 0x04 => decide (1 ≤ st.n ∧ 1 ≤ st.imm2 ∧ st.imm2 ≤ 8 ∧ 1 ≤ st.imm0 ∧ st.imm0 ≤ 4096 ∧ 1 ≤ st.imm1 ∧ st.imm1 < 2 ^ 31) &&
            decide (st.m * st.n ≤ a.count) && decide (st.imm0 * st.imm1 * st.n ≤ d.count) &&
            (match optTensor ts st.aux with | some t => list t (st.m * st.imm2) | none => false) &&
            optOutput ts st.aux2 (fun t => list t (st.imm0 * st.imm1) && decide (st.imm0 * st.imm1 ≤ listMax)) &&
            (match optTensor ts st.srcB with | some t => t.output && list t st.imm0 | none => false)
        | _ => false)
  | _, _ => false

/-- Every rule that R112 makes of a stage. -/
def State.stageOk (s : State) (ts : List Tensor) (st : Stage) : Bool :=
  match st.kind with
  | 1 => s.matrixOk ts st
  | 2 => s.matrixOk ts st
  | 3 => eltwiseOk ts st
  | 4 => rowOk ts st
  | _ => ellipsisOk ts st

/-! ## The image (R111, R112) -/

/-- The header of an image and its CRC (R111); the numbers of tensors and stages. -/
def imageHeader (img : List Byte) : Option (Nat × Nat) :=
  let nt := leAt img 8 2
  let ns := leAt img 10 2
  if 64 ≤ img.length ∧ leAt img 0 2 = 1 ∧ leAt img 2 2 = numRev ∧ leAt img 4 4 = img.length ∧ leAt img 0xC 4 = 0
      ∧ leAt img 0x18 32 = 0 ∧ 1 ≤ nt ∧ nt ≤ 256 ∧ 1 ≤ ns ∧ ns ≤ 4096 ∧ 64 * (1 + nt + ns) ≤ img.length
      ∧ crc64 (overlay img 0x38 (List.replicate 8 0)) = leAt img 0x38 8 then
    some (nt, ns)
  else none

/-- The descriptors of an image, relocated (R110, R113). -/
def imageTensors (img : List Byte) (nt : Nat) (relocs : List Reloc) : Option (List Tensor) :=
  let ts := (List.range nt).map (fun i => Tensor.parse ((img.drop (64 * (1 + i))).take 64))
  if ts.all (·.isSome) then
    relocs.foldl (fun acc r => acc.bind (fun ts =>
      (ts[r.tensor.toNat]?).bind (fun t => (t.relocate r.base.toNat).map (fun t => ts.set r.tensor.toNat t)))) (some (ts.filterMap id))
  else none

/-- The program that an image holds, when it passes R112. -/
def State.programOf (s : State) (img : List Byte) (relocs : List Reloc) : Option Program :=
  match imageHeader img with
  | none => none
  | some (nt, ns) =>
    match imageTensors img nt relocs with
    | none => none
    | some ts =>
      let st := (List.range ns).map (fun i => Stage.parse img (64 * (1 + nt + ns)) ((img.drop (64 * (1 + nt + i))).take 64))
      if st.all (·.isSome) && (st.filterMap id).all (s.stageOk ts) then some ⟨ts, st.filterMap id⟩ else none

/-- The TENSOR_IDs of the OUTPUT descriptors of an image as it stands in memory (R150, R151). -/
def State.imageOutputs (s : State) (a n : Nat) : List Nat :=
  let img := s.peek a n
  ((List.range (leAt img 8 2)).filterMap (fun i => Tensor.parse ((img.drop (64 * (1 + i))).take 64))).filterMap
    (fun t => if t.output then some t.id else none)

/-! ## The tie table (R149 to R151) -/

/-- The valid tie entries of a tensor ID. -/
def State.tiesOf (s : State) (id : Nat) : List TieUse :=
  (List.range 64).filterMap (fun i =>
    if s.on (F.BW_TIE_VALID i) && decide (s.get (F.BW_TIE_TENSOR_ID i) = id) then
      some ⟨s.get (F.BW_TIE_GROUP i), s.get (F.BW_TIE_SITE i)⟩
    else none)

/-- A tie group is consistent (R149). -/
def State.tieConsistent (s : State) (g : Nat) : Bool :=
  let valid := (List.range 64).filter (fun i => s.on (F.BW_TIE_VALID i))
  let mine := valid.filter (fun i => decide (s.get (F.BW_TIE_GROUP i) = g))
  let sites := mine.map (fun i => s.get (F.BW_TIE_SITE i))
  allBelow mine.length (fun k => decide (sites.count k = 1)) &&
    valid.all (fun i => decide (valid.countP (fun j => decide (s.get (F.BW_TIE_TENSOR_ID j) = s.get (F.BW_TIE_TENSOR_ID i))) = 1))

/-- The ring of a command was a deferred ring when the command was read; of one that no ring carried, it is one now (R144). -/
def State.fromDeferred (s : State) (h : Hdr) : Bool :=
  match s.flightOf h.ring.val h.seq.toNat with
  | some f => f.fromDefer
  | none => bit (s.get F.BW_DEFER_RINGS) h.ring.val

/-- A command with this header is a deferred command (R144), given that it is a RUN_PROGRAM. -/
def State.deferred (s : State) (h : Hdr) : Bool :=
  s.fromDeferred h && h.bound && decide (s.clauseKind h.clause.val = some 2)

/-! ## Operands of the stages -/

/-- The operand matrices of a batch: product β uses the DIM2 and DIM3 plane that R551 gives. -/
def planeOf (t d : Tensor) (beta : Nat) : Nat :=
  let i2 := beta % d.d2
  let i3 := beta / d.d2
  (if t.d2 = 1 then 0 else i2) + t.d2 * (if t.d3 = 1 then 0 else i3)

/-- The linear index in A's tensor of element (row, k) of A in product β; none: a position in the padding (R117). -/
def indexA (st : Stage) (a d : Tensor) (beta r k : Nat) : Option Nat :=
  match st.geom with
  | some g =>
    -- row (batch, oh, ow) with ow fastest; k (kh, kw, c) with c fastest
    let c := k % g.c
    let kw := k / g.c % g.kw
    let kh := k / g.c / g.kw
    let y := r / g.ow % g.oh * g.strideH + kh * g.dilH
    let x := r % g.ow * g.strideW + kw * g.dilW
    if g.padH ≤ y ∧ y < g.padH + g.h ∧ g.padW ≤ x ∧ x < g.padW + g.w then
      some (c + g.c * ((x - g.padW) + g.w * ((y - g.padH) + g.h * (r / (g.ow * g.oh)))))
    else none
  | none => some (planeOf a d beta * st.m * st.k + (if st.transA then k * st.m + r else r * st.k + k))

/-- The linear index in B's tensor of element (k, column) of B in product β. -/
def indexB (st : Stage) (b d : Tensor) (beta k c : Nat) : Nat :=
  planeOf b d beta * st.k * st.n + (if st.transB then c * st.k + k else k * st.n + c)

/-- Element (row, k) of A in product β; +0 in the padding. -/
def operandA (st : Stage) (a d : Tensor) (vs : Array Val) (beta r k : Nat) : Val :=
  ((indexA st a d beta r k).bind (fun i => vs[i]?)).getD .zero

/-- Element (k, column) of B in product β. -/
def operandB (st : Stage) (b d : Tensor) (vs : Array Val) (beta k c : Nat) : Val := (vs[indexB st b d beta k c]?).getD .zero

/-- The products of the chunk that holds k = `p.1` to `p.2` - 1 of an output element (R73, R120). -/
def chunkProducts (a b : Nat → Nat → Val) (r c : Nat) (p : Nat × Nat) : List Val :=
  (List.range (p.2 - p.1)).map (fun i => (a r (p.1 + i)).mul (b (p.1 + i) c))

/-- The output value of an element before its epilogue or final conversion (R77, R119, R120). -/
def gemmValue (st : Stage) (a b : Nat → Nat → Val) (draw : Nat → Nat) (r c : Nat) : Val :=
  segmentSum draw ((kOrder (r / 64) (c / 64) st.k).map (fun p => chunkSum (chunkProducts a b r c p)))

/-- The second operands of a stage's epilogue records, read when the stage starts: values for SRC 2, 3 and 4, mask bytes for
SELECT. -/
structure EpiData where
  epi  : Epi
  vals : Array Val
  mask : Array Byte
  key  : Nat

/-- The data of the epilogue records (R123, R124, R552). -/
def State.readEpis (s : State) (ts : List Tensor) (d : Tensor) (elems : Nat) (es : List Epi) (c : CmdRef) : Act (List EpiData) :=
  actAll (fun s e =>
    let t := ts[e.tensor]?
    let key := (t.map (·.id)).getD 0
    match t with
    | none => (s, .ok ⟨e, #[], #[], key⟩)
    | some t =>
      if e.op = 0x15 then
        (s.readAct t.base (cdiv elems 8) c).bind (fun s bs => (s, .ok ⟨e, #[], bs.toArray, key⟩))
      else
        let n := match e.src with
          | 2 => cdiv elems d.d0
          | 3 => min elems d.d0
          | 4 => elems
          | _ => 0
        if n = 0 then (s, .ok ⟨e, #[], #[], key⟩)
        else (s.readFirst t n c).bind (fun s vs => (s, .ok ⟨e, vs.toArray, #[], key⟩))) s es

/-- A bit of a mask (R133). -/
def maskBit (bs : Array Byte) (e : Nat) : Bool := bit ((bs[e / 8]?).getD 0).toNat (e % 8)

/-- q of R159: the keep probability in units of 2^-16, RNE, from 1 to 65,536. -/
def keepThreshold (imm : Nat) : Nat :=
  match v32 imm with
  | .fin _ m e => max 1 (min 65536 (roundUnits .rne m e (-16)))
  | _ => 1

/-- The epilogue records applied to element `e` of DST, in their order (R123, R124, R159). -/
def State.applyEpis (s : State) (eval : Bool) (d : Tensor) (eds : List EpiData) (e : Nat) (x : Val) : Val :=
  eds.foldl (fun x p =>
    let b := match p.epi.src with
      | 1 => v32 p.epi.imm
      | 2 => (p.vals[rowIndex d e]?).getD .zero
      | 3 => (p.vals[e % d.d0]?).getD .zero
      | 4 => (p.vals[e]?).getD .zero
      | _ => .zero
    let keep := match p.epi.op with
      | 0x14 => decide (s.half eval Stream.dropout p.key e < keepThreshold p.epi.imm)
      | 0x15 => maskBit p.mask e
      | _ => true
    elementOp p.epi.op x b p.epi.imm keep) x

/-! ## Stages -/

/-- The counts of a statistics record (R131). -/
structure Stats where
  empty : Nat
  split : Nat
  nan   : Nat
  valid : Nat
  index : Nat
  drop  : Nat

/-- No count. -/
abbrev Stats.zero : Stats := ⟨0, 0, 0, 0, 0, 0⟩

/-- Counts added. -/
def Stats.add (a b : Stats) : Stats :=
  ⟨a.empty + b.empty, a.split + b.split, a.nan + b.nan, a.valid + b.valid, a.index + b.index, a.drop + b.drop⟩

/-- The statistics record (R131): each count saturates. -/
def Stats.bytes (a : Stats) : List Byte :=
  let w (n : Nat) : List Byte := leBytes 4 (min n 0xFFFFFFFF)
  padTo 64 (w a.empty ++ w a.split ++ w a.nan ++ w a.valid ++ w a.index ++ w a.drop)

/-- What a stage needs of its command. -/
structure RunCtx where
  cmd   : CmdRef
  hdr   : Hdr
  first : Nat
  count : Nat

/-- The tile number of element (r, c) of product β (R119). -/
def tileOf (st : Stage) (beta r c : Nat) : Nat := beta * (cdiv st.m 64 * cdiv st.n 64) + r / 64 * cdiv st.n 64 + c / 64

/-- Which elements of a masked stage are active (R155): by DST row, or by tile. -/
def activeIn (mask : Option (GradMask × Array Byte)) (st : Stage) (beta r c : Nat) : Bool :=
  match mask with
  | none => true
  | some (m, bs) => if m.kind = 1 then maskBit bs (beta * st.m + r) else maskBit bs (tileOf st beta r c)

/-- The residue checks of a stage's tiles (R78, R79, R119): each cluster completes the chunks of its tiles in order, up to a second
mismatch. True: there was one. -/
def State.checkTiles (s : State) (ctx : RunCtx) (tiles : List Nat) (checks : Nat → List ChunkCheck) : State × Bool :=
  (List.range ctx.count).foldl (fun (acc : State × Bool) i =>
    match acc.1.completeChunks (ctx.first + i) (some ctx.cmd) ((tiles.filter (fun t => decide (t % ctx.count = i))).flatMap checks) with
    | (s, bad) => (s, acc.2 || bad)) (s, false)

/-- The matrix engine's chunks of a tile in the K order, each with the elements `es` (row, column) of the tile (R120). -/
def tileChecks (a b : Nat → Nat → Val) (k tile i j : Nat) (es : List (Nat × Nat)) : List ChunkCheck :=
  (kOrder i j k).zipIdx.map (fun p => ⟨1, tile, p.2, es.all (fun e => residueMatches (chunkProducts a b e.1 e.2 p.1))⟩)

/-- The rows or columns of a tile. -/
abbrev tileSpan (i n : Nat) : List Nat := (List.range (min 64 (n - 64 * i))).map (64 * i + ·)

/-- A tile's product, tile row and tile column (R119). -/
def tilePlace (st : Stage) (t : Nat) : Nat × Nat × Nat :=
  let cols := cdiv st.n 64
  let per := cdiv st.m 64 * cols
  (t / per, t % per / cols, t % per % cols)

/-- The places that a list of indices marks, of `n`. -/
def markedArray (n : Nat) (is : List Nat) : Array Bool := is.foldl (fun a i => a.setIfInBounds i true) (Array.replicate n false)

/-- The elements of A and of B that the computed tiles read (R155). -/
def neededOperands (st : Stage) (a b d : Tensor) (tiles : List Nat) : Array Bool × Array Bool :=
  let ps := tiles.map (tilePlace st)
  let as := ((ps.map (fun p => (p.1, p.2.1))).eraseDups).flatMap (fun p =>
    (tileSpan p.2 st.m).flatMap (fun r => (List.range st.k).filterMap (fun k => indexA st a d p.1 r k)))
  let bs := ((ps.map (fun p => (p.1, p.2.2))).eraseDups).flatMap (fun p =>
    (tileSpan p.2 st.n).flatMap (fun c => (List.range st.k).map (fun k => indexB st b d p.1 k c)))
  (markedArray a.count as, markedArray b.count bs)

/-- The mask bits of a stage that its table entry governs (R155, R119). -/
def maskBits (st : Stage) (d : Tensor) (m : GradMask) : Nat :=
  if m.kind = 1 then d.d2 * d.d3 * st.m else d.d2 * d.d3 * (cdiv st.m 64 * cdiv st.n 64)

/-- A masked stage, or one of a tensor that was masked at the tick, has written its DST: where software has since written its mask or its
entry of the table, the bits are undefined, and a later write makes them so (R157). -/
def State.afterMasked (s : State) (st : Stage) (d : Tensor) (entry : Option GradMask) : State :=
  let open_ := decide (s.pcState = 2 ∨ s.pcState = 3) && !s.on F.PC_STATUS_DONE
  if open_ && (entry.isSome || s.pd.maskIds.contains d.id) then
    let (mask, len) := match entry with
      | some m => (m.mask, cdiv (maskBits st d m) 8)
      | none => (0, 0)
    if s.pd.maskWrites.any (fun w => s.touchesMask w d.id mask len) then
      (d.ranges [false]).foldl (fun (s : State) r => s.forgetAt r.1 r.2) s
    else { s with pd := { s.pd with maskedOuts := s.pd.maskedOuts ++ [⟨d.id, mask, len, d.ranges [false]⟩] } }
  else s

/-- The operands of a stage: both whole, or under a mask what its computed tiles read. -/
def State.readOperands (s : State) (st : Stage) (a b d : Tensor) (masked : Bool) (tiles : List Nat) (c : CmdRef) :
    Act (List Val × List Val) :=
  let crossA := st.transA && st.geom.isNone
  let need := neededOperands st a b d tiles
  (if masked then s.readNeeded a need.1 crossA c else s.readValues a a.rows crossA c).bind (fun s av =>
    (if masked then s.readNeeded b need.2 (!st.transB) c else s.readValues b b.rows (!st.transB) c).bind (fun s bv =>
      (s, .ok (av, bv))))

/-- A GEMM or IMPLICIT_GEMM stage (R115, R117, R119 to R123, R154 to R157, R172 to R180, R551). A gathering FP32 stage's tap completes its
first chunk of a tile before the matrix engine does, any other's after it (R121, R189). A frozen element of a computed tile counts for
the scale of its MX block as without the mask, one of a tile that is not computed as +0 (R155, log entry 123). -/
def State.runMatrix (s : State) (ctx : RunCtx) (ts : List Tensor) (st : Stage) : Act Stats :=
  match ts[st.srcA]?, optTensor ts st.srcB, ts[st.dst]? with
  | some a, some b, some d =>
    let c := ctx.cmd
    let eval := s.evalBound ctx.hdr
    let entry := s.maskEntry d.id
    (s.maybe entry none (fun s m => (s.readAct m.mask (cdiv (maskBits st d m) 8) c).bind (fun s bs => (s, .ok (some (m, bs.toArray)))))).bind
      (fun s mask =>
    let elems := List.range d.count
    let place (e : Nat) : Nat × Nat × Nat := (e / (st.m * st.n), e / st.n % st.m, e % st.n)
    let tile (e : Nat) : Nat := tileOf st (place e).1 (place e).2.1 (place e).2.2
    let active (e : Nat) : Bool := activeIn mask st (place e).1 (place e).2.1 (place e).2.2
    let live := elems.filter active
    let tiles := (live.map tile).eraseDups
    (s.readOperands st a b d mask.isSome tiles c).bind (fun s ops =>
    (s.readEpis ts d d.count (if live.isEmpty then [] else st.epis) c).bind (fun s eds =>
    let va := ops.1.toArray
    let vb := ops.2.toArray
    let site := (if st.tap = 0 then none else s.site st.tap).filter (fun g => s.gathers ctx.hdr g)
    let groups := match site with
      | some g => tapGroups (s.selected g st.m) st.m
      | none => []
    let checks (t : Nat) : List ChunkCheck :=
      let (beta, i, j) := tilePlace st t
      let rows := tileSpan i st.m
      let own := tileChecks (operandA st a d va beta) (operandB st b d vb beta) st.k t i j
        (rows.flatMap (fun r => (tileSpan j st.n).map (fun x => (r, x))))
      match site with
      | some g =>
        let tap := g.tapChecks (operandA st a d va 0) groups (cdiv st.n 64) t i j
        if a.fmt = .fp32 then tap ++ own else own ++ tap
      | none => own
    match s.checkTiles ctx tiles checks with
    | (s, true) => (s, .fail ST_RESIDUE)
    | (s, false) =>
      let draw (e seg : Nat) : Nat := s.half eval Stream.sr d.id (seg * d.count + e)
      let value (e : Nat) : Val :=
        let beta := (place e).1
        gemmValue st (operandA st a d va beta) (operandB st b d vb beta) (draw e) (place e).2.1 (place e).2.2
      let final (e : Nat) : Val := if eds.isEmpty then value e else s.applyEpis eval d eds e (round32 (value e))
      let frozen := elems.filter (fun e => !active e)
      let shade := if d.mx then frozen.map (fun e => (e, if tiles.contains (tile e) then final e else .zero)) else []
      (s.storeShaded eval d st.round (live.map (fun e => (e, final e))) shade c).bind (fun s _ =>
        (s.writeElems d (frozen.map (fun e => (e, 0))) c).bind (fun s _ =>
          (s.maybe site () (fun s g => s.gather g st.m (operandA st a d va 0) c)).bind (fun s _ =>
            (s.afterMasked st d entry, .ok Stats.zero)))))))
  | _, _, _ => (s, .fail ST_BAD_PARAM)

/-- An ELTWISE stage (R552): elements 0 to ROWS - 1, in linear order. -/
def State.runEltwise (s : State) (ctx : RunCtx) (ts : List Tensor) (st : Stage) : Act Stats :=
  match ts[st.srcA]?, ts[st.dst]? with
  | some a, some d =>
    let eval := s.evalBound ctx.hdr
    (s.readFirst a st.m ctx.cmd).bind (fun s vs =>
    (s.readEpis ts d st.m st.epis ctx.cmd).bind (fun s eds =>
      let out := vs.zipIdx.map (fun p => (p.2, s.applyEpis eval d eds p.2 p.1))
      (s.storeValues eval d st.round out ctx.cmd).bind (fun s _ => (s, .ok Stats.zero))))
  | _, _ => (s, .fail ST_BAD_PARAM)

/-- Whether each element of row `r` is active (R127). -/
def rowActive (st : Stage) (mask : Option (Array Byte)) (r c : Nat) : Bool :=
  if st.causal then decide (Int.ofNat c ≤ Int.ofNat r + toSigned 32 st.imm1)
  else match mask with
    | some bs => maskBit bs (r * (8 * cdiv st.n 8) + c)
    | none => true

/-- The outcome of one row: the values for DST, the gradient of XENT, and the flags. -/
structure RowOut where
  ys    : List Val
  grad  : List Val
  flags : RowFlags

/-- One row of a ROW stage (R126 to R130). -/
def rowResult (st : Stage) (xs : List (Val × Bool)) (label : Int) (gamma beta : Nat → Val) : RowOut :=
  let vs : List Val := xs.map (fun p => if p.2 then p.1 else .inf true)
  match st.op with
  | 0x01 =>
    let xs := xs.map (fun p => (round32 (p.1.mul (v32 st.imm0)), p.2))
    let (ys, _, fl) := softmaxRow xs
    ⟨maskedZero fl xs ys, [], fl⟩
  | 0x02 =>
    let (ys, lse, fl) := softmaxRow xs
    ⟨maskedZero fl xs (logSoftmaxRow xs ys lse), [], fl⟩
  | 0x03 => let (_, lse, fl) := softmaxRow xs; ⟨[lse], [], fl⟩
  | 0x04 => let (loss, g, fl) := xentRow xs label (v32 st.imm0); ⟨[loss], g, fl⟩
  | 0x05 => let (ys, fl) := layerNormRow vs (v32 st.imm0) gamma beta; ⟨maskedZero fl xs ys, [], fl⟩
  | 0x06 => let (ys, fl) := rmsNormRow vs (v32 st.imm0) gamma; ⟨maskedZero fl xs ys, [], fl⟩
  | 0x07 => ⟨[rowSum vs], [], .none⟩
  | _ => ⟨[rowMax vs], [], .none⟩

/-- A row vector operand, each element 1 where the field names none (R130). -/
def State.rowVector (s : State) (ts : List Tensor) (i n : Nat) (c : CmdRef) : Act (Nat → Val) :=
  match optTensor ts i with
  | some t => (s.readFirst t n c).bind (fun s vs => let a := vs.toArray; (s, .ok (fun k => (a[k]?).getD .zero)))
  | none => (s, .ok (fun _ => Val.one))

/-- The mask tensor of a ROW stage (R127); AUX names the labels of an XENT and the β of a LAYERNORM. -/
def rowMask (ts : List Tensor) (st : Stage) : Option Tensor :=
  if st.causal || decide (st.op = 0x04) || decide (st.op = 0x05) then none else optTensor ts st.aux

/-- A ROW stage (R126 to R131). -/
def State.runRow (s : State) (ctx : RunCtx) (ts : List Tensor) (st : Stage) : Act Stats :=
  match ts[st.srcA]?, ts[st.dst]? with
  | some a, some d =>
    let c := ctx.cmd
    let eval := s.evalBound ctx.hdr
    let norm := decide (st.op = 0x05) || decide (st.op = 0x06)
    let readMask : Act (Option (Array Byte)) := match rowMask ts st with
      | some t => (s.readAct t.base (st.m * cdiv st.n 8) c).bind (fun s bs => (s, .ok (some bs.toArray)))
      | none => (s, .ok none)
    readMask.bind (fun s mask =>
    (s.rowVector ts (if norm then st.srcB else 255) st.n c).bind (fun s gamma =>
    (s.rowVector ts (if st.op = 0x05 then st.aux else 255) st.n c).bind (fun s beta =>
    (s.maybe (if st.op = 0x04 then optTensor ts st.aux else none) [] (fun s t => s.readFirstBits t st.m c)).bind (fun s labels =>
    (s.readFirst a (st.m * st.n) c).bind (fun s vs =>
      let rows := pieces st.n vs
      let outs := rows.zipIdx.map (fun p =>
        let xs := p.1.zipIdx.map (fun q => (q.1, rowActive st mask p.2 q.2))
        (p.2, rowResult st xs (toSigned 32 (nth labels p.2 0)) gamma beta))
      let width := if [0x03, 0x04, 0x07, 0x08].contains st.op then 1 else st.n
      let ys := outs.flatMap (fun o => o.2.ys.zipIdx.map (fun q => (o.1 * width + q.2, q.1)))
      (s.storeValues eval d st.round ys c).bind (fun s _ =>
      (s.maybe (if st.op = 0x04 then optTensor ts st.srcB else none) () (fun s g =>
        s.storeValues eval g st.round (outs.flatMap (fun o => o.2.grad.zipIdx.map (fun q => (o.1 * st.n + q.2, q.1)))) c)).bind (fun s _ =>
      (s.maybe (optTensor ts st.aux2) () (fun s t =>
        s.writeElems t (outs.map (fun o => (o.1, flag o.2.flags.empty + 2 * flag o.2.flags.split + 4 * flag o.2.flags.nan))) c)).bind (fun s _ =>
        let fs := outs.map (fun o => o.2.flags)
        let valid := if st.op = 0x04 then (labels.filter (fun l => decide (toSigned 32 l ≠ -1))).length else 0
        (s, .ok ⟨fs.countP (·.empty), fs.countP (·.split), fs.countP (·.nan), valid, 0, 0⟩)))))))))
  | _, _ => (s, .fail ST_BAD_PARAM)

/-! ## ELLIPSIS stages (R133 to R137) -/

/-- Elements of unit `src` of a tensor's values placed at unit `dst`. -/
def unitAt (u : Nat) (vs : Array Val) (src dst : Nat) : List (Nat × Val) :=
  (List.range u).map (fun i => (dst * u + i, (vs[src * u + i]?).getD .zero))

/-- The places of an index list that are kept, with the unit each takes, in list order, and the number discarded (R134, R137).
`units` is the number of units of DST. -/
def keptPlaces (rising routed : Bool) (units : Nat) (entries : List Nat) : List (Nat × Nat) × Nat :=
  let r := entries.zipIdx.foldl (fun (acc : List (Nat × Nat) × Option Nat × Nat) p =>
    let (kept, prev, bad) := acc
    if p.1 = 0xFFFFFFFF then acc
    else
      let place := if routed then p.1 % 2 ^ 29 else p.1
      let falls := rising && !routed && (match prev with | some q => decide (place ≤ q) | none => false)
      if units ≤ place || falls then (kept, prev, bad + 1)
      else ((p.2, place) :: kept, some place, bad)) ([], none, 0)
  (r.1.reverse, r.2.2)

/-- COMPRESS (R135). Units for which DST has no place, and indices for which the list has none, are not written; the count is that of the
active units all the same (log entry 88). -/
def State.compress (s : State) (ctx : RunCtx) (ts : List Tensor) (st : Stage) (a d : Tensor) : Act Stats :=
  let c := ctx.cmd
  let u := st.unit
  match optTensor ts st.aux, ts[st.imm1 % 256]? with
  | some mask, some cnt =>
    (s.readAct mask.base (cdiv st.m 8) c).bind (fun s bs =>
    (s.readFirst a (st.m * u) c).bind (fun s vs =>
      let arr := vs.toArray
      let act := (List.range st.m).filter (maskBit bs.toArray)
      let fit := act.take (d.count / u)
      (s.storeValues (s.evalBound ctx.hdr) d st.round (fit.zipIdx.flatMap (fun p => unitAt u arr p.1 p.2)) c).bind (fun s _ =>
      (s.maybe (optTensor ts st.aux2) () (fun s l =>
        s.writeElems l ((act.take (min listMax l.count)).zipIdx.map (fun p => (p.2, p.1))) c)).bind (fun s _ =>
      (s.writeElems cnt [(0, act.length)] c).bind (fun s _ => (s, .ok Stats.zero))))))
  | _, _ => (s, .fail ST_BAD_PARAM)

/-- EXPAND (R135): unit i goes to place list[i], and IMM0 to every other place. -/
def State.expand (s : State) (ctx : RunCtx) (st : Stage) (a d list : Tensor) : Act Stats :=
  let c := ctx.cmd
  let u := st.unit
  (s.readFirstBits list st.m c).bind (fun s es =>
  (s.readFirst a (st.m * u) c).bind (fun s vs =>
    let arr := vs.toArray
    let units := d.count / u
    let (kept, bad) := keptPlaces true st.routed units es
    let unitFor (p : Nat) : Option Nat := (kept.reverse.find? (fun k => decide (k.2 = p))).map (·.1)
    let out := (List.range units).flatMap (fun p => match unitFor p with
      | some i => unitAt u arr i p
      | none => (List.range u).map (fun i => (p * u + i, v32 st.imm0)))
    (s.storeValues (s.evalBound ctx.hdr) d st.round out c).bind (fun s _ => (s, .ok { Stats.zero with index := bad }))))

/-- EXPAND_ADD (R135): units added into their places in list order, in FP32 with RNE, converted once. -/
def State.expandAdd (s : State) (ctx : RunCtx) (st : Stage) (a d list : Tensor) : Act Stats :=
  let c := ctx.cmd
  let u := st.unit
  (s.readFirstBits list st.m c).bind (fun s es =>
  (s.readFirst a (st.m * u) c).bind (fun s vs =>
  (s.readTensor d c).bind (fun s old =>
    let arr := vs.toArray
    let (kept, bad) := keptPlaces false st.routed (d.count / u) es
    let sums := kept.foldl (fun (acc : Array Val) k =>
      (List.range u).foldl (fun acc i =>
        acc.setIfInBounds (k.2 * u + i) (round32 (((acc[k.2 * u + i]?).getD .zero).add ((arr[k.1 * u + i]?).getD .zero)))) acc) old.toArray
    let touched := ((kept.map (·.2)).eraseDups).flatMap (fun p => (List.range u).map (fun i => p * u + i))
    let touched := sortBy (fun x y => decide (x ≤ y)) touched
    (s.storeValues (s.evalBound ctx.hdr) d st.round (touched.map (fun i => (i, (sums[i]?).getD .zero))) c).bind (fun s _ =>
      (s, .ok { Stats.zero with index := bad })))))

/-- The placement of ROUTE (R136): for each assignment in order its token, slot and place; the counts per expert; how many were
dropped, and how many IDs were out of range. -/
structure Routing where
  placed : List (Nat × Nat × Nat)
  counts : List Nat
  drop   : Nat
  bad    : Nat

/-- Assignments taken in increasing slot, and in increasing token within a slot (R136). -/
def routeAll (tokens topk experts capacity : Nat) (ids : Array Nat) : Routing :=
  ((List.range topk).flatMap (fun k => (List.range tokens).map (fun t => (t, k)))).foldl (fun (r : Routing) (t, k) =>
    let id := toSigned 32 ((ids[t * topk + k]?).getD 0)
    if id = -1 then r
    else if id < 0 ∨ Int.ofNat experts ≤ id then { r with bad := r.bad + 1 }
    else
      let e := id.toNat
      let n := nth r.counts e 0
      if capacity ≤ n then { r with drop := r.drop + 1 }
      else { r with placed := r.placed ++ [(t, k, e * capacity + n)], counts := r.counts.set e (n + 1) })
    ⟨[], List.replicate experts 0, 0, 0⟩

/-- ROUTE (R136). -/
def State.routeTokens (s : State) (ctx : RunCtx) (ts : List Tensor) (st : Stage) (a d ids cnt : Tensor) : Act Stats :=
  let c := ctx.cmd
  (s.readFirstBits ids (st.m * st.imm2) c).bind (fun s ev =>
  (s.readFirst a (st.m * st.n) c).bind (fun s vs =>
    let arr := vs.toArray
    let r := routeAll st.m st.imm2 st.imm0 st.imm1 ev.toArray
    let places := st.imm0 * st.imm1
    let at_ (p : Nat) : Option (Nat × Nat) := (r.placed.find? (fun x => decide (x.2.2 = p))).map (fun x => (x.1, x.2.1))
    let out := (List.range places).flatMap (fun p => match at_ p with
      | some (t, _) => unitAt st.n arr t p
      | none => (List.range st.n).map (fun i => (p * st.n + i, Val.zero)))
    let list := (List.range places).map (fun p => (p, match at_ p with | some (t, k) => t % 2 ^ 29 + k * 2 ^ 29 | none => 0xFFFFFFFF))
    (s.storeValues (s.evalBound ctx.hdr) d st.round out c).bind (fun s _ =>
    (s.maybe (optTensor ts st.aux2) () (fun s l => s.writeElems l list c)).bind (fun s _ =>
    (s.writeElems cnt (r.counts.zipIdx.map (fun p => (p.2, p.1))) c).bind (fun s _ =>
      (s, .ok { Stats.zero with drop := r.drop, index := r.bad }))))))

/-- An ELLIPSIS stage. -/
def State.runEllipsis (s : State) (ctx : RunCtx) (ts : List Tensor) (st : Stage) : Act Stats :=
  match ts[st.srcA]?, ts[st.dst]?, st.op with
  | some a, some d, 1 => s.compress ctx ts st a d
  | some a, some d, 4 => match optTensor ts st.aux, optTensor ts st.srcB with
    | some ids, some cnt => s.routeTokens ctx ts st a d ids cnt
    | _, _ => (s, .fail ST_BAD_PARAM)
  | some a, some d, op => match optTensor ts st.aux with
    | some l => if op = 2 then s.expand ctx st a d l else s.expandAdd ctx st a d l
    | none => (s, .fail ST_BAD_PARAM)
  | _, _, _ => (s, .fail ST_BAD_PARAM)

/-- One stage. -/
def State.runStage (s : State) (ctx : RunCtx) (ts : List Tensor) (st : Stage) : Act Stats :=
  match st.kind with
  | 1 => s.runMatrix ctx ts st
  | 2 => s.runMatrix ctx ts st
  | 3 => s.runEltwise ctx ts st
  | 4 => s.runRow ctx ts st
  | _ => s.runEllipsis ctx ts st

/-! ## The ranges that a program reads and writes -/

/-- The operands of a stage that carry block scales, and whether their blocks lie along DIM1 (R99). -/
def Stage.operands (st : Stage) : List (Nat × Bool) :=
  if st.kind = 1 ∨ st.kind = 2 then [(st.srcA, st.transA && st.geom.isNone), (st.srcB, !st.transB)] else []

/-- The ways in which the stages take the blocks of a tensor: as an operand, or along DIM0 where it is written or otherwise read. -/
def Program.blocksOf (g : Program) (i : Nat) (output : Bool) : List Bool :=
  let used := ((g.stages.flatMap Stage.operands).filter (fun u => decide (u.1 = i))).map (·.2)
  (if output || used.isEmpty then false :: used else used).eraseDups

/-- The ranges of the tensors with OUTPUT as given. -/
def Program.rangesOf (g : Program) (output : Bool) : List (Nat × Nat) :=
  (g.tensors.zipIdx.filter (fun t => t.1.output == output)).flatMap (fun t => t.1.ranges (g.blocksOf t.2 output))

/-- The mask ranges that a stage reads beside its tensors (R127, R133, R135, R154, R552). -/
def State.maskRanges (s : State) (ts : List Tensor) (st : Stage) : List (Nat × Nat) :=
  let elems := match ts[st.dst]? with
    | some d => if st.kind = 3 then st.m else d.count
    | none => 0
  let selects := (st.epis.filter (fun e => decide (e.op = 0x15))).filterMap (fun e => (ts[e.tensor]?).map (fun t => (t.base, cdiv elems 8)))
  let own := match st.kind, ts[st.dst]? with
    | 4, _ => ((rowMask ts st).map (fun t => (t.base, st.m * cdiv st.n 8))).toList
    | 5, _ => if st.op = 1 then ((optTensor ts st.aux).map (fun t => (t.base, cdiv st.m 8))).toList else []
    | 3, _ => []
    | _, some d => ((s.maskEntry d.id).map (fun m => (m.mask, cdiv (maskBits st d m) 8))).toList
    | _, none => []
  selects ++ own

/-- Every range that a program writes: its OUTPUT tensors and the statistics record (R168). -/
def Program.writes (g : Program) (p : RunParams) : List (Nat × Nat) :=
  g.rangesOf true ++ (if p.stats = 0 then [] else [(p.stats.toNat, 64)])

/-- What keeps a checked program from running: its ranges and its masks, the fence and the tie table (R112, R151, R168, R280, R298). -/
def State.programFault (s : State) (h : Hdr) (p : RunParams) (g : Program) : Option Nat :=
  let reads := g.rangesOf false ++ g.stages.flatMap (s.maskRanges g.tensors)
  let spans := reads.map (fun r => s.spanFault r.1 r.2 false) ++ (g.writes p).map (fun r => s.spanFault r.1 r.2 true)
  let tied := !s.deferred h && g.tensors.any (fun t => t.output && !(s.tiesOf t.id).isEmpty)
  if s.fenceHit h (g.writes p) || tied then some ST_BAD_PARAM else firstFault spans

/-- The OUTPUT tensors of a program that ends with a status other than ST_OK and ST_BAD_PARAM are undefined (R118). -/
def State.forgetOutputs (s : State) (g : Program) (st : Nat) : State :=
  if st = ST_OK ∨ st = ST_BAD_PARAM then s else (g.rangesOf true).foldl (fun s r => s.forgetAt r.1 r.2) s

/-- The program of a RUN_PROGRAM, as its image stands in memory. -/
def State.programAt (s : State) (p : RunParams) : Option Program := s.programOf (s.peek p.image.toNat p.imageLen.toNat) p.relocs

/-- The same of a RUN_PROGRAM whose stages have not run to their end. -/
def State.forgetProgram (s : State) (p : RunParams) (st : Nat) : State :=
  match s.programAt p with
  | some g => s.forgetOutputs g st
  | none => s

/-! ## Gathering stages (R179) -/

/-- The sites that a program gathers on. -/
def State.gatherSites (s : State) (h : Hdr) (g : Program) : List GramSite :=
  (g.stages.filterMap (fun st => if st.tap = 0 then none else s.site st.tap)).filter (s.gathers h)

/-- The ring of each site that a program gathers on fixed for the Period; none where another ring has it. -/
def State.claimSites (s : State) (h : Hdr) (g : Program) : Option State :=
  (s.gatherSites h g).foldl (fun acc site => acc.bind (fun s =>
    match (s.site site.id).bind (·.ring) with
    | some r => if r = h.ring.val then some s else none
    | none => some (s.setSite { site with ring := some h.ring.val }))) (some s)

end Sys2Proof.Machine
end

