-- ==== Sys2Proof/Machine/Clusters.lean ====
section
/-!
DEFINITION. Machine/Clusters.lean: which clusters a command holds (R116), and the retirement of clusters (R139 to R143).
-/
namespace Sys2Proof.Machine

/-! ## Cluster sets (R116, R139) -/

/-- The logical clusters, first and count, that a command holds while it runs: its cluster set, or every cluster for a SELF_TEST. -/
def clusterSet : Instr → Option (Nat × Nat)
  | .runProgram _ p => some (p.clusterFirst.toNat, p.clusterCount.toNat)
  | .updatePrepare _ p => some (p.clusterFirst.toNat, p.clusterCount.toNat)
  | .shadowReplay _ p => some (p.clusterFirst.toNat, p.clusterCount.toNat)
  | .shadowRecover _ p => some (p.clusterFirst.toNat, p.clusterCount.toNat)
  | .selfTest _ _ _ => some (0, 256)
  | .conformanceRun _ p => if p.cluster.toNat < 256 then some (p.cluster.toNat, 1) else some (0, 256)
  | _ => none

/-- The cluster set of a dispatched command. -/
def Flight.clusters (f : Flight) : Option (Nat × Nat) :=
  if f.phase = .dispatched then f.cmd.bind clusterSet else none

/-- A logical cluster is held by a dispatched command. -/
def State.clusterBusy (s : State) (l : Nat) : Bool :=
  s.cp.flights.any (fun f => match f.clusters with
    | some (a, n) => decide (a ≤ l) && decide (l < a + n)
    | none => false)

/-- A logical cluster runs on a physical one that is marked for retirement: it takes no later command until the retirement takes
effect (R139, R140). -/
def State.clusterMarked (s : State) (l : Nat) : Bool := s.marks.any (fun m => decide (m.cluster = s.physOf l))

/-- Every cluster of a set is free (R116). -/
def State.clustersFree (s : State) (first count : Nat) : Bool :=
  allBelow count (fun i => !s.clusterBusy (first + i) && !s.clusterMarked (first + i))

/-- The clusters of a set, as physical clusters. -/
def State.physSet (s : State) (first count : Nat) : List Nat := (List.range count).map (fun i => s.physOf (first + i))

/-- What a command that runs on a cluster set meets first: a cluster in reset, an error in a quarter's map or in a local store (R118,
R474, R512, R513), or the fault of another command on a cluster that the two share (R139, R141). The status that ends it, if any. -/
def State.enterClusters (s : State) (first count : Nat) (c : CmdRef) : State × Option Nat :=
  let phys := s.physSet first count
  if phys.any s.clusterHeld then (s, some ST_ISOLATED)
  else match s.useCritical 5 (first / 64) (some c) with
    | (s, true) => (s, some ST_ISOLATED)
    | (s, false) =>
      phys.foldl (fun (acc : State × Option Nat) p => match acc.1.useStore .loc p (some c) with
        | (s, true) => (s.markCluster p false (some ST_ECC), some ST_ECC)
        | (s, false) => (s, acc.2)) (s, s.markStatus phys)

/-! ## The fuses (R140) -/

/-- A physical cluster's retirement fuse blown. -/
def State.blowRetirement (s : State) (cluster : Nat) : State :=
  if s.pwr.blown.retired.contains cluster then s
  else
    let s := { s with pwr := { s.pwr with blown := { s.pwr.blown with retired := cluster :: s.pwr.blown.retired } } }
    s.send (.fuse 0 cluster)

/-- A write of `QC_RETIRE_REQ` (R139, R140). Values 66 to 127 of INDEX are reserved (R15); a cluster that is already retired takes its
fuse only. -/
def State.requestRetirement (s : State) (q i : Nat) (persist : Bool) : State :=
  if 66 ≤ i then s
  else if s.retiredBit q i then (if persist then s.blowRetirement (66 * q + i) else s)
  else s.markCluster (66 * q + i) persist none

/-! ## Retirement (R140, R141) -/

/-- The local indices of a quarter that a physical index serves. -/
def State.served (s : State) (q i : Nat) : List Nat := (List.range 64).filter (fun l => decide (s.get (lmapPhys q l) = i))

/-- A physical index of a quarter that works: not retired and not marked. -/
def State.working (s : State) (q i : Nat) : Bool := !s.retiredBit q i && !s.marks.any (fun m => decide (m.cluster = 66 * q + i))

/-- The lowest unused spare of a quarter: working, and serving no logical cluster. -/
def State.freeSpare (s : State) (q : Nat) : Option Nat :=
  (List.range 66).find? (fun i => s.working q i && (s.served q i).isEmpty)

/-- The working physical index of a quarter with the lowest number that serves only one logical cluster (R141). -/
def State.singleHost (s : State) (q : Nat) : Option Nat :=
  (List.range 66).find? (fun i => s.working q i && decide ((s.served q i).length = 1))

/-- The bit of a retired physical index set in `QC_RETIRED`. -/
def State.setRetired (s : State) (q i : Nat) : State :=
  if s.retiredBit q i then s
  else if i < 64 then s.put (F.QC_RETIRED_RETIRED q) (s.get (F.QC_RETIRED_RETIRED q) + 2 ^ i)
  else s.put (F.QC_RETIRED_HI_RETIRED q) (s.get (F.QC_RETIRED_HI_RETIRED q) + 2 ^ (i - 64))

/-- `QC_STATUS.SHARED` counts the logical clusters of the quarter with SHARED set. -/
def State.countShared (s : State) (q : Nat) : State :=
  s.put (F.QC_STATUS_SHARED q) ((List.range 64).countP (fun l => s.on (lmapShared q l)))

/-- The module enters DEGRADED, unless it has FAILED. -/
def State.degrade (s : State) : State := if s.get F.PW_STATUS_STATE = 11 then s else s.put F.PW_STATUS_STATE 10

/-- What moving one logical cluster came to. -/
inductive Moved where
  | spare
  | shared
  | exhausted
deriving DecidableEq, Repr

/-- A cluster's local store zeroed: an error armed in a word of it is written over (R140, R555). -/
def State.zeroLocalStore (s : State) (cluster : Nat) : State :=
  { s with inject := s.inject.filter (fun i =>
      !((decide (i.kind = 2) || decide (i.kind = 3)) && decide (i.store = Store.loc.code) && decide (i.index = cluster))) }

/-- One local index of a quarter moved off a retired cluster: to an unused spare, whose local store is zeroed, or shared with the lowest
single host (R140, R141). -/
def State.moveCluster (s : State) (q l : Nat) : State × Moved :=
  match s.freeSpare q with
  | some i =>
    let s := s.zeroLocalStore (66 * q + i)
    (((s.put (lmapPhys q l) i).put (lmapShared q l) 0).put (F.QC_STATUS_SPARES q) (s.get (F.QC_STATUS_SPARES q) - 1), .spare)
  | none => match s.singleHost q with
    | some i =>
      let partners := s.served q i
      let s := (s.put (lmapPhys q l) i).put (lmapShared q l) 1
      (partners.foldl (fun s p => s.put (lmapShared q p) 1) s, .shared)
    | none => (s, .exhausted)

/-- The retirement of a marked cluster takes effect (R140, R141). -/
def State.retireCluster (s : State) (m : Mark) : State :=
  let q := m.cluster / 66
  let i := m.cluster % 66
  let ls := s.served q i
  let s := { s with marks := s.marks.filter (fun x => decide (x.cluster ≠ m.cluster)) }
  let s := if m.persist then s.blowRetirement m.cluster else s
  let s := (s.setRetired q i).put (F.QC_STATUS_WORKING q) (s.get (F.QC_STATUS_WORKING q) - 1)
  let s := if ls.isEmpty then s.put (F.QC_STATUS_SPARES q) (s.get (F.QC_STATUS_SPARES q) - 1) else s
  let (s, fates) := ls.foldl (fun (acc : State × List Moved) l =>
    let (s, f) := acc.1.moveCluster q l
    (s, acc.2 ++ [f])) (s, [])
  let s := s.countShared q
  let s := s.raise ⟨0x0103, 1, 1, m.cluster, 0, false, none⟩
  let s := if fates.contains .shared then (s.raise ⟨0x0104, 0, 1, m.cluster, 0, false, none⟩).degrade else s
  if fates.contains .exhausted then s.raise ⟨0x0105, 4, 1, m.cluster, 0, false, none⟩ else s

/-! ## The fuse-loaded map (R143) -/

/-- The fuse-loaded mapping of a quarter: each local index in turn takes the lowest working physical index not yet taken. Past the last one
they share, the lowest first (log entry 63). -/
def State.loadMap (s : State) (q : Nat) (retired : List Nat) : State :=
  let good := (List.range 66).filter (fun i => !retired.contains (66 * q + i))
  let n := good.length
  let shared (l : Nat) : Bool := decide (n ≤ l ∨ l + n < 64)
  let s := (List.range 64).foldl (fun s l => (s.put (lmapPhys q l) (nth good (l % n) 0)).put (lmapShared q l) (flag (shared l))) s
  let bad := (List.range 66).filter (fun i => retired.contains (66 * q + i))
  let lo := sumList ((bad.filter (fun i => decide (i < 64))).map (fun i => 2 ^ i))
  let hi := sumList ((bad.filter (fun i => decide (64 ≤ i))).map (fun i => 2 ^ (i - 64)))
  let s := (s.put (F.QC_RETIRED_RETIRED q) lo).put (F.QC_RETIRED_HI_RETIRED q) hi
  ((s.put (F.QC_STATUS_WORKING q) good.length).put (F.QC_STATUS_SPARES q) (good.length - 64)).put (F.QC_STATUS_SHARED q) ((List.range 64).countP shared)

end Sys2Proof.Machine
end

