-- ==== Sys2Proof/Machine/Clauses.lean ====
section
/-!
DEFINITION. Machine/Clauses.lean: the plan, the Clause instances that commands attach to, and when an instance is complete
(R34 to R42, R421 to R424).
-/
namespace Sys2Proof.Machine

/-! ## Plans -/

/-- Clause kinds (R35). -/
abbrev kindForward : Nat := 1
abbrev kindBackward : Nat := 2
abbrev kindExchange : Nat := 3
abbrev kindRefresh : Nat := 4
abbrev kindPrecondition : Nat := 5
abbrev kindUpdate : Nat := 6
abbrev kindShadow : Nat := 7
abbrev kindEvaluate : Nat := 8
abbrev kindGeneric : Nat := 9

/-- A soft deadline: REFRESH and EVALUATE (R35). -/
abbrev softKind (k : Nat) : Bool := decide (k = 4) || decide (k = 8)

/-- A Clause entry runs in Period `n` only when n mod EVERY = PHASE (R34). -/
def entryRuns (e : ClauseEntry) (n : Nat) : Bool := decide (e.every ≠ 0) && decide (n % e.every.toNat = e.phase.toNat)

/-- The entry of a plan for a Clause. -/
abbrev planEntry (p : Option Plan) (c : Nat) : Option ClauseEntry := p.bind (fun p => p.clauses[c]?)

/-- The encodings of R34 and R35, which R14 checks before R36's rules: KIND, FLAGS, EVERY and PHASE. -/
def entryEncoded (e : ClauseEntry) : Bool :=
  decide (1 ≤ e.kind.toNat ∧ e.kind.toNat ≤ 9) && decide (e.flags = 0) && decide (e.every ≠ 0) &&
    decide (e.phase.toNat < e.every.toNat)

/-- R36: what a plan must meet. `guard` is `PC_GUARD.GUARD_US`. -/
def planOk (p : Plan) (guard : Nat) : Bool :=
  let es := p.clauses
  let kinds (ks : List Nat) : List ClauseEntry := es.filter (fun e => ks.contains e.kind.toNat)
  let updates := kinds [6]
  decide (1 ≤ es.length ∧ es.length ≤ 16) && es.all entryEncoded &&
  decide (1000 ≤ p.periodUs.toNat ∧ p.periodUs.toNat ≤ 60000000) &&
  es.all (fun e => decide (e.startUs.toNat < e.deadlineUs.toNat) && decide (e.deadlineUs.toNat + guard ≤ p.periodUs.toNat)) &&
  decide (updates.length = 1) &&
  updates.all (fun u => decide (u.every = 1) &&
    (kinds [1, 2, 3, 5]).all (fun e => decide (e.deadlineUs.toNat ≤ u.startUs.toNat)) &&
    (kinds [4]).all (fun r => (kinds [5]).all (fun e => decide (r.deadlineUs.toNat ≤ e.startUs.toNat)) &&
      decide (r.deadlineUs.toNat ≤ u.startUs.toNat)) &&
    (kinds [7, 8]).all (fun e => decide (u.deadlineUs.toNat ≤ e.startUs.toNat)))

/-- The plan that a generation names: the active one, or the pending one (R39). -/
def State.planOf (s : State) (generation : Nat) : Option Plan :=
  match s.pd.plan with
  | some p => if p.generation.toNat = generation then some p
    else s.pd.pendingPlan.filter (fun q => decide (q.generation.toNat = generation))
  | none => s.pd.pendingPlan.filter (fun q => decide (q.generation.toNat = generation))

/-! ## Clause instants -/

/-- The fabric time of an instant given in µs after the tick. -/
abbrev State.instant (s : State) (us : Nat) : Nat := s.get F.PC_TICK_TICK + us * 1000

/-- A Clause of the current Period. -/
def State.clause (s : State) (c : Nat) : ClauseRun := nth s.pd.clauses c ⟨false, false, false, none, false⟩

/-- `s` with a Clause of the current Period set. -/
def State.setClause (s : State) (c : Nat) (v : ClauseRun) : State :=
  { s with pd := { s.pd with clauses := nthSet s.pd.clauses c v } }

/-- The kind of Clause `c` in the active plan, 0 for none. -/
def State.kindOf (s : State) (c : Nat) : Nat := (s.clauseKind c).getD 0

/-- Bit `c` of `PC_STATUS.ACTIVE`. -/
def State.setActive (s : State) (c : Nat) (b : Bool) : State :=
  let w := s.get F.PC_STATUS_ACTIVE
  if bit w c = b then s else s.put F.PC_STATUS_ACTIVE (if b then w + 2 ^ c else w - 2 ^ c)

/-- The Clauses of the current Period that run, of the given kinds. -/
def State.runningClauses (s : State) (kinds : List Nat) : List Nat :=
  (List.range 16).filter (fun c => (s.clause c).runs && kinds.contains (s.kindOf c))

/-! ## Instances (R422, R424) -/

/-- The rings that name Clause `c` in their CLAUSES field. -/
def State.ringsOf (s : State) (c : Nat) : List Nat :=
  (List.range 64).filter (fun k => bit (s.get (F.CP_RING_CTRL_CLAUSES k)) c)

/-- A ring has delivered its CLOSE for an instance. -/
def State.closed (s : State) (ring p c : Nat) : Bool := s.cp.closes.contains ⟨ring, p, c⟩

/-- A command attached to the instance has not completed: it is in flight, or its completion record is still to be written. -/
def State.attachedOpen (s : State) (p c : Nat) : Bool :=
  s.cp.flights.any (fun f => decide (f.attach = some (p, c))) || s.cp.ended.any (fun e => decide (e.attach = some (p, c)))

/-- R424: every ring of the instance's set has delivered its CLOSE, and every attached command has completed. -/
def State.instanceComplete (s : State) (p c : Nat) : Bool :=
  (s.ringsOf c).all (fun k => s.closed k p c) && !s.attachedOpen p c

/-- The first Period from `lo` on, among the next `n`, in which the entry runs and the ring has not closed the instance. -/
def State.firstInstance (s : State) (ring c : Nat) (e : ClauseEntry) (ok : Nat → Bool) : Nat → Nat → Option Nat
  | 0, _ => none
  | n + 1, p =>
    if entryRuns e p && ok p && !s.closed ring p c then some p
    else s.firstInstance ring c e ok n (nextPeriod p)

/-- The Period a bound command attaches to (R422): the earliest from the current Period and NOT_BEFORE on that runs the Clause,
whose deadline has not passed if it is the current one, and that its ring has not closed. -/
def State.attachPeriod (s : State) (ring c : Nat) (e : ClauseEntry) (notBefore : Option Nat) : Option Nat :=
  let cur := s.currentPeriod
  let lo := match notBefore with
    | some nb => if cur < nb then nb else cur
    | none => cur
  let deadlineOpen (p : Nat) : Bool :=
    !(decide ((s.pcState = 2 ∨ s.pcState = 3) ∧ p = s.get F.PC_PERIOD_PERIOD) && (s.clause c).passed)
  -- within EVERY Periods of any start the Clause runs once, and only as many instances as CLOSEs delivered, plus the current one,
  -- can be shut
  s.firstInstance ring c e deadlineOpen (e.every.toNat * (s.cp.closes.length + 2)) lo

/-- What attaching a bound command comes to (R422). -/
inductive Attach where
  | to (p : Nat)
  | wait
  | bad
deriving DecidableEq, Repr

/-- Where a bound command of `ring` for Clause `c` attaches when it is read: to an instance, or it waits for a plan, or it fails
(R422, R424). -/
def State.attach (s : State) (ring c : Nat) (notBefore : Option Nat) : Attach :=
  if !bit (s.get (F.CP_RING_CTRL_CLAUSES ring)) c then .bad
  else match planEntry s.pd.plan c with
    | some e => match s.attachPeriod ring c e notBefore with
      | some p => .to p
      | none => .bad
    | none =>
      if (planEntry s.pd.pendingPlan c).isSome then .wait
      else if s.pd.plan.isNone && s.pd.pendingPlan.isNone then .wait
      else .bad

/-! ## A Clause of the current Period becomes complete -/

/-- The instant of a Clause's deadline in the current Period. -/
def State.deadlineOf (s : State) (c : Nat) : Nat :=
  match planEntry s.pd.plan c with
  | some e => s.instant e.deadlineUs.toNat
  | none => 0

/-- The slack of a Clause that has ended, folded into `TM_SLACK` (R515): 0 for one that was abandoned or came after its deadline. -/
def State.sampleSlack (s : State) (c : Nat) : State :=
  let slack := match (s.clause c).complete with
    | some t => (s.deadlineOf c - t) / 1000
    | none => 0
  s.put (F.TM_SLACK_MIN_US c) (min slack (s.get (F.TM_SLACK_MIN_US c)))

/-- A Clause that ends when the commit of its Period has begun is sampled then (log entry 56). -/
def State.lateSlack (s : State) (c : Nat) : State :=
  let n := s.get F.PC_PERIOD_PERIOD
  if s.uu.openCommit = some n ∨ s.get F.PC_COMMITTED_COMMITTED = n then s.sampleSlack c else s

/-- An entry CLAUSE_END of the Period's record: completed or abandoned (R54). -/
def State.clauseEnd (s : State) (c : Nat) (completed : Bool) : State :=
  s.noteEntry ⟨1, c, 0, s.now, flag completed, 0⟩

/-- The Clause is found complete now. -/
def State.completeClause (s : State) (c : Nat) : State :=
  let v := s.clause c
  ((s.setClause c { v with complete := some s.now }).clauseEnd c true).lateSlack c

/-- The Clause runs, has started, and is newly complete. The UPDATE Clause is the commit's: it is complete once its Period has
committed (log entry 56). -/
def State.clauseReady (s : State) (c : Nat) : Bool :=
  let v := s.clause c
  let n := s.get F.PC_PERIOD_PERIOD
  v.runs && v.started && v.complete.isNone && !v.missed && s.instanceComplete n c &&
    (decide (s.kindOf c ≠ kindUpdate) || decide (s.get F.PC_COMMITTED_COMMITTED = n))

/-- No more of an instance is to come: it is complete, or its deadline has passed and every attached command has ended. -/
def State.instanceSpent (s : State) (n c : Nat) : Bool :=
  s.instanceComplete n c || ((s.clause c).passed && !s.attachedOpen n c)

/-- Every FORWARD, BACKWARD, EXCHANGE and PRECONDITION Clause of the Period is complete (R42). -/
def State.readyToCommit (s : State) : Bool :=
  (s.runningClauses [1, 2, 3, 5]).all (fun c => (s.clause c).complete.isSome)

/-- Every Clause of the Period is complete or abandoned (R42). -/
def State.allClausesEnded (s : State) : Bool :=
  (List.range 16).all (fun c => let v := s.clause c; !v.runs || v.complete.isSome || (v.missed && softKind (s.kindOf c)))

end Sys2Proof.Machine
end

