-- ==== Sys2Proof/Machine/Parse.lean ====
section
/-!
DEFINITION. Machine/Parse.lean: Parse-table images and the checks of LOAD_PARSE (chapter 08, R224 to R237, R554).
-/
namespace Sys2Proof.Machine

/-! ## The image (R224 to R226, R230, R231) -/

/-- The header and the pattern header of an image. -/
structure Parse where
  mask      : Nat
  wfmt      : Nat
  streamed  : Bool
  shares    : Nat
  nrhs      : Nat
  ops       : Nat
  phases    : Nat
  sharedKib : Nat
  exposed   : Nat
  cold      : Nat
  warm      : Nat
  sliceKib  : Nat
  pattern   : Nat
  alg       : Nat
  pLog2     : Nat
  wLog2     : Nat
  arrowLast : Bool
  dim       : Nat
  first     : Nat
  n         : Nat
  band      : Nat
  arrow     : Nat

/-- The headers read from the image's first 0x60 bytes. -/
def Parse.of (b : List Byte) : Parse :=
  let w0c := leAt b 0x0C 4
  let w40 := leAt b 0x40 4
  { mask := leAt b 8 4, wfmt := w0c % 16, streamed := bit w0c 4, shares := bits w0c 8 5, nrhs := bits w0c 16 16,
    ops := leAt b 0x10 4, phases := leAt b 0x14 2, sharedKib := leAt b 0x18 4, exposed := leAt b 0x1C 4, cold := leAt b 0x20 8,
    warm := leAt b 0x28 8, sliceKib := leAt b 0x30 8, pattern := w40 % 256, alg := bits w40 8 8, pLog2 := bits w40 16 2,
    wLog2 := bits w40 18 4, arrowLast := bit w40 22, dim := leAt b 0x44 4, first := leAt b 0x48 4, n := leAt b 0x4C 4,
    band := leAt b 0x50 1, arrow := leAt b 0x51 1 }

/-- The block width w. -/
abbrev Parse.w (p : Parse) : Nat := 2 ^ p.wLog2

/-- The working format W (R225). -/
def Parse.fmt (p : Parse) : Fmt := match p.wfmt with | 0 => .fp64 | 1 => .m40 | _ => .fp32

/-- A phase record. -/
structure Phase where
  first  : Nat
  count  : Nat
  cycles : Nat
  cold   : Nat
  warm   : Nat

/-- An operation record. -/
structure ParseOp where
  op      : Nat
  core    : Nat
  trans   : Bool
  exposed : Bool
  block   : Nat
  subA    : Nat
  subB    : Nat
  start   : Nat
  len     : Nat
  clear   : Bool

/-- The phase records. -/
def phasesOf (p : Parse) (img : List Byte) : List Phase :=
  (List.range p.phases).map (fun i =>
    let b := (img.drop (0x60 + 16 * i)).take 16
    ⟨leAt b 0 4, leAt b 4 4, leAt b 8 4, leAt b 12 2, leAt b 14 2⟩)

/-- An operation record from its 16 bytes; `clear`: its reserved bits are 0. -/
def ParseOp.of (b : List Byte) : ParseOp :=
  let w := leAt b 0 4
  let l := leAt b 12 4
  ⟨w % 256, bits w 8 5, bit w 13, bit w 14, bits w 16 16, leAt b 4 2, leAt b 6 2, leAt b 8 4, l % 2 ^ 24, !bit w 15 && decide (l / 2 ^ 24 = 0)⟩

/-- The operation records of a phase. -/
def opsOf (p : Parse) (img : List Byte) (ph : Phase) : List ParseOp :=
  (List.range ph.count).map (fun i => ParseOp.of ((img.drop (0x60 + 16 * (p.phases + ph.first + i))).take 16))

/-- Slice operations are codes 0x01 to 0x03 (R232). -/
abbrev ParseOp.slice (o : ParseOp) : Bool := decide (o.op ≤ 3)

/-! ## Patterns (R227, R228) -/

/-- Block rows i ≤ j whose pair the pattern stores. -/
def Parse.stores (p : Parse) (i j : Nat) : Bool :=
  match p.pattern with
  | 1 => decide (i = j)
  | 2 => decide (j - i ≤ 1)
  | 3 => decide (j - i ≤ p.band)
  | _ => decide (i = j) || (if p.arrowLast then decide (p.n - p.arrow ≤ j) else decide (i < p.arrow))

/-- The stored pairs in the order of R228. -/
def Parse.pairs (p : Parse) : List (Nat × Nat) :=
  (List.range p.n).flatMap (fun i => (List.range (p.n - i)).filterMap (fun k => if p.stores i (i + k) then some (i, i + k) else none))

/-- The number of stored blocks (R227). -/
def Parse.stored (p : Parse) : Nat :=
  match p.pattern with
  | 1 => p.n
  | 2 => 2 * p.n - 1
  | 3 => (p.band + 1) * p.n - p.band * (p.band + 1) / 2
  | _ => (p.n - p.arrow) * (p.arrow + 1) + p.arrow * (p.arrow + 1) / 2

/-- The blocks of the dimension. -/
abbrev Parse.blocks (p : Parse) : Nat := cdiv p.dim p.w

/-- The pattern and its limits (R227), and the algorithms each pattern takes (R203, R227). -/
def Parse.patternOk (p : Parse) : Bool :=
  let whole := decide (p.first = 0 ∧ p.n = p.blocks)
  let factor := p.alg == 1 || p.alg == 2 || p.alg == 3
  decide (1 ≤ p.alg ∧ p.alg ≤ 9) && decide (7 ≤ p.wLog2 ∧ p.wLog2 ≤ 12) && decide (1 ≤ p.dim ∧ p.dim ≤ 1048576) &&
    decide (p.pattern = 3 ∨ p.band = 0) && decide (p.pattern = 4 ∨ (p.arrow = 0 ∧ p.arrowLast = false)) &&
    (match p.pattern with
      | 1 => decide (p.alg ≠ 9 ∧ 1 ≤ p.n ∧ p.first + p.n ≤ p.blocks)
      | 2 => (factor || p.alg == 9) && whole && decide (2 ≤ p.n)
      | 3 => (factor || p.alg == 9) && whole && decide (2 ≤ p.band ∧ p.band ≤ 8 ∧ p.band < p.n)
      | 4 => (p.alg == 9 || (factor && p.arrowLast)) && whole && decide (1 ≤ p.arrow ∧ p.arrow ≤ 4 ∧ p.arrow < p.n)
      | _ => false) &&
    decide (p.stored ≤ 65536)

/-- P_LOG2 as the algorithm fixes p (R203, R226). -/
def Parse.pOk (p : Parse) : Bool :=
  match p.alg with
  | 6 => true
  | 7 => decide (p.pLog2 = 1)
  | 8 => true
  | _ => decide (p.pLog2 = 0)

/-- Algorithms with a warm start (R212). -/
abbrev warmAlg (alg : Nat) : Bool := alg == 5 || alg == 6 || alg == 8 || alg == 9

/-- Algorithms with right-hand sides. -/
abbrev rhsAlg (alg : Nat) : Bool := alg == 3 || alg == 9

/-- The encodings of the headers (R225, R226). -/
def Parse.headerOk (p : Parse) (b : List Byte) : Bool :=
  decide (p.mask ≠ 0 ∧ p.wfmt ≤ 2 ∧ 1 ≤ p.shares ∧ p.shares ≤ 16 ∧ p.sharedKib ≤ 65536) &&
    (if rhsAlg p.alg then decide (1 ≤ p.nrhs ∧ p.nrhs ≤ 4096) else decide (p.nrhs = 0)) &&
    decide (1 ≤ p.ops ∧ p.ops ≤ 4190202 ∧ 1 ≤ p.phases ∧ p.phases ≤ 4096 ∧ p.phases + p.ops ≤ 4194298) &&
    decide (bits (leAt b 0x0C 4) 5 3 = 0 ∧ bits (leAt b 0x0C 4) 13 3 = 0 ∧ leAt b 0x16 2 = 0) &&
    decide (leAt b 0x40 4 / 2 ^ 23 = 0 ∧ leAt b 0x52 14 = 0)

/-! ## The checks of R236 -/

/-- The phase records cover the operation records contiguously, in order. -/
def phasesCover (phs : List Phase) (ops : Nat) : Bool :=
  let r := phs.foldl (fun (acc : Nat × Bool) ph => (ph.first + ph.count, acc.2 && decide (ph.first = acc.1 ∧ 1 ≤ ph.count))) (0, true)
  r.2 && decide (r.1 = ops)

/-- One operation by itself: its encodings, its core and its block. -/
def opOk (p : Parse) (ph : Phase) (o : ParseOp) : Bool :=
  o.clear && decide (1 ≤ o.op ∧ o.op ≤ 12) && bit p.mask o.core && decide (o.block < p.stored) && decide (1 ≤ o.len) &&
    (o.slice || (!o.exposed && decide (o.len ≤ 21600) && decide (o.start + o.len ≤ ph.cycles)))

/-- The core operations on one core do not overlap. -/
def coresDisjoint (core : List ParseOp) : Bool :=
  let sorted := sortBy (fun a b => decide (a.core < b.core) || (a.core == b.core && decide (a.start ≤ b.start))) core
  (sorted.zip (sorted.drop 1)).all (fun e => e.1.core != e.2.core || decide (e.1.start + e.1.len ≤ e.2.start))

/-- An exposed operation that is leading (R554). -/
def leading (core : List ParseOp) (o : ParseOp) : Bool := core.all (fun k => decide (o.start ≤ k.start))

/-- An exposed operation that is trailing (R554). -/
def trailing (core : List ParseOp) (o : ParseOp) : Bool := core.all (fun k => decide (k.start + k.len ≤ o.start))

/-- A slice operation of a resident table that is not exposed ends in time (R236). -/
def sliceInTime (p : Parse) (ph : Phase) (core : List ParseOp) (o : ParseOp) : Bool :=
  let next := core.filter (fun k => k.core == o.core && k.block == o.block && decide (o.start ≤ k.start))
  let stop := next.foldl (fun (acc : Option Nat) k => match acc with
    | some t => some (min t k.start)
    | none => some k.start) none
  decide (o.len * 36864 ≤ (stop.getD ph.cycles - o.start) * p.shares * 250)

/-- A phase's operations. -/
def phaseOk (p : Parse) (img : List Byte) (ph : Phase) : Bool :=
  let ops := opsOf p img ph
  let core := ops.filter (fun o => !o.slice)
  ops.all (opOk p ph) && coresDisjoint core &&
    ops.all (fun o => !o.slice ||
      (if o.exposed then leading core o || trailing core o else p.streamed || sliceInTime p ph core o))

/-- The exposed KiB of one instance of a phase. -/
def exposedKib (p : Parse) (img : List Byte) (ph : Phase) : Nat :=
  sumList ((opsOf p img ph).map (fun o => if o.slice && o.exposed then o.len else 0))

/-- The bytes of an element of W in the solver store (R211). -/
abbrev Parse.elemBytes (p : Parse) : Nat := if p.wfmt = 2 then 4 else 8

/-- The working set of one block of a BLOCK_DIAG job (R211). -/
def Parse.blockSet (p : Parse) : Nat :=
  let m := p.w * p.w * p.elemBytes
  match p.alg with
  | 1 => m
  | 2 => m
  | 3 => m + p.w * p.nrhs * p.elemBytes
  | 4 => 2 * m
  | 5 => 2 * m + 3 * 65536 * p.elemBytes
  | 6 => 4 * m
  | 7 => 5 * m
  | _ => 3 * m + 3 * 65536 * p.elemBytes

/-- The working set of a whole job of another pattern (R211, R236). -/
def Parse.wholeSet (p : Parse) : Nat :=
  let m := p.stored * (p.w * p.w * p.elemBytes)
  match p.alg with
  | 3 => m + p.dim * p.nrhs * p.elemBytes
  | 9 => m + 5 * p.dim * p.nrhs * p.elemBytes
  | _ => m

/-- The working set of a resident table fits (R236). -/
def storeOk (p : Parse) (img : List Byte) (phs : List Phase) : Bool :=
  let distinct (ph : Phase) : Nat := (((opsOf p img ph).filter (fun o => !o.slice)).map (·.block)).eraseDups.length
  let need := if p.pattern = 1 then p.blockSet * maxList (phs.map distinct) else p.wholeSet
  let cores := ((List.range 32).filter (bit p.mask)).length
  p.streamed || decide (need ≤ cores * 2097152 + p.sharedKib * 1024)

/-- All that R236 asks of an image of `len` bytes. -/
def parseOk (img : List Byte) (len : Nat) : Bool :=
  let p := Parse.of img
  let phs := phasesOf p img
  decide (leAt img 0 2 = 1 ∧ leAt img 2 2 = numRev ∧ leAt img 4 4 = len ∧ len = 0x60 + 16 * (p.phases + p.ops) ∧ len ≤ 0x4000000) &&
    decide (leAt img 0x38 8 = crc64 (overlay img 0x38 (leBytes 8 0))) &&
    p.headerOk img && p.patternOk && p.pOk && phasesCover phs p.ops && phs.all (phaseOk p img) &&
    decide (p.cold = sumList (phs.map (fun h => h.cycles * h.cold)) ∧ p.warm = sumList (phs.map (fun h => h.cycles * h.warm))) &&
    (warmAlg p.alg || decide (p.warm = 0)) && storeOk p img phs &&
    decide (p.exposed = sumList (phs.map (fun h => exposedKib p img h * h.cold)))

/-- The structure fingerprint (R213, R226). -/
def fingerprint (img : List Byte) : Nat := crc64 ((img.drop 0x40).take 0x20)

/-! ## LOAD_PARSE (R235, R237) -/

/-- The table loaded under an ID. -/
def State.parseTable (s : State) (id : Nat) : Option ParseRef := s.cj.tables.find? (fun t => decide (t.id = id))

/-- The loaded tables, changed. -/
abbrev State.setTables (s : State) (ts : List ParseRef) : State := { s with cj := { s.cj with tables := ts } }

/-- LOAD. -/
def State.loadParse (s : State) (id address length : Nat) (c : CmdRef) : Body :=
  s.reading address length c (fun s img =>
    if parseOk img length then
      (s.setTables (s.cj.tables.filter (fun t => decide (t.id ≠ id)) ++ [⟨id, address, length, false⟩])).ok (fingerprint img)
    else s.fail ST_BAD_PARAM)

/-- UNLOAD. -/
def State.unloadParse (s : State) (id : Nat) : Body :=
  match s.parseTable id with
  | none => s.fail ST_BAD_PARAM
  | some _ => (s.setTables (s.cj.tables.filter (fun t => decide (t.id ≠ id)))).ok 0

/-! ## What a run of a table executes (R204, R231 to R233) -/

/-- The width of diagonal block `i` of a job. -/
def Parse.width (p : Parse) (i : Nat) : Nat := min p.w (p.dim - p.w * (p.first + i))

/-- A run: its phases in order, each with its operations and the number of its instances; a phase without an instance is left out
(R233). -/
abbrev TableRun : Type := List (List ParseOp × Nat)

/-- The run of a table, cold or warm. -/
def runOf (p : Parse) (img : List Byte) (warm : Bool) : TableRun :=
  ((phasesOf p img).map (fun ph => (opsOf p img ph, if warm then ph.warm else ph.cold))).filter (fun x => decide (x.2 ≠ 0))

/-- How often a run executes operations of a kind. -/
def TableRun.times (run : TableRun) (f : ParseOp → Bool) : Nat := sumList (run.map (fun x => x.2 * (x.1.filter f).length))

/-- The run up to and with its last phase that holds an operation of a kind. -/
def TableRun.upTo (run : TableRun) (f : ParseOp → Bool) : TableRun := (run.reverse.dropWhile (fun x => !x.1.any f)).reverse

/-- The operation by which an iteration or sweep on block `r` is told: the inner sweeps of its pair problems (R207), the symmetric
products on its first sub-block (R205, R206), or the products of the first block row with it (R210). -/
def Parse.iterOp (p : Parse) (r : Nat) (o : ParseOp) : Bool :=
  match p.alg with
  | 5 => decide (o.op = 8 ∧ o.block = r)
  | 8 => decide (o.op = 8 ∧ o.block = r)
  | 9 => decide (o.op = 4 ∧ o.block = 0 ∧ o.subA = 0) && !o.trans
  | _ => decide (o.op = 5 ∧ o.block = r ∧ o.subA = 0 ∧ o.subB = 0)

/-- The operations of a product of one output sub-block of a block `n` wide: 256 products each (R194, R232). -/
abbrev chunksOf (n : Nat) : Nat := cdiv n 256

/-- How many such operations one iteration on block `r` takes (R205, R206, R207, R210). -/
def Parse.perIteration (p : Parse) (r : Nat) : Nat :=
  let n := p.width r
  let q := cdiv n 128 + cdiv n 128 % 2
  match p.alg with
  | 5 => 2 * q * (q - 1)
  | 8 => 2 * q * (q - 1)
  | 6 => chunksOf n * (match p.pLog2 with | 0 => 1 | 1 => 2 | 2 => 2 | _ => 3)
  | 9 => chunksOf n * cdiv p.nrhs 128
  | _ => chunksOf n

/-- How many of them a run takes beside its iterations: a warm set-up, and the acceptance test of NEWTON_SCHULZ. -/
def Parse.besides (p : Parse) (r : Nat) (warm : Bool) : Nat :=
  match p.alg with
  | 6 => if warm then chunksOf (p.width r) * (p.pLog2 + 1) else 0
  | 7 => chunksOf (p.width r)
  | 9 => if warm then p.perIteration r else 0
  | _ => 0

/-- The algorithms that iterate or sweep. -/
abbrev iterates (alg : Nat) : Bool := decide (5 ≤ alg ∧ alg ≤ 9)

/-- The iterations or sweeps on block `r` in a run, or in its part up to an operation (R204; log entry 28). -/
def Parse.iterations (p : Parse) (run : TableRun) (warm : Bool) (r : Nat) : Nat :=
  (run.times (p.iterOp r) - p.besides r warm) / p.perIteration r

/-- Every 128-wide panel of the stored block `r`, `n` wide, has its factor step (R209). -/
def TableRun.factors (run : TableRun) (r n : Nat) : Bool :=
  allBelow (cdiv n 128) (fun k => decide (run.times (fun o => decide (o.op = 6 ∧ o.block = r ∧ o.subA = k)) ≠ 0))

/-- What a run does for block `r` of a BLOCK_DIAG job, or for a job of another pattern as a whole: whether it holds the operations of
its algorithm, whether it tests and stores, and the iterations before its last TEST and its last STORE. -/
structure BlockRun where
  complete : Bool
  tested   : Bool
  stored   : Bool
  testIter : Nat
  iter     : Nat

/-- The steps of the algorithm on diagonal block `i`, which is stored block `r`, are in the run (R204 to R210, R232). -/
def Parse.holdsSteps (p : Parse) (run : TableRun) (warm : Bool) (i r : Nat) : Bool :=
  let n := run.times (p.iterOp r)
  let whole := decide (p.besides r warm ≤ n ∧ (n - p.besides r warm) % p.perIteration r = 0)
  let solves := decide (run.times (fun o => decide (o.op = 7 ∧ o.block = r)) ≠ 0)
  match p.alg with
  | 3 => solves
  | 4 => run.factors r (p.width i) && solves
  | 9 => run.factors r (p.width i) && (decide (i ≠ 0) || whole)
  | a => if iterates a then whole else run.factors r (p.width i)

/-- The run for block `r`, or for the whole job. A TRSV assembles nothing (log entry 33). -/
def Parse.blockRun (p : Parse) (run : TableRun) (warm : Bool) (r : Nat) : BlockRun :=
  let mine (o : ParseOp) : Bool := decide (p.pattern ≠ 1 ∨ o.block = r)
  let test (o : ParseOp) : Bool := decide (o.op = 12) && mine o
  let store (o : ParseOp) : Bool := decide (o.op = 3) && mine o
  let assembled (x : Nat) : Bool := decide (p.alg = 3) || decide (run.times (fun o => decide (o.op = 1 ∧ o.block = x)) ≠ 0)
  let diagonal := if p.pattern = 1 then [(r, r)] else (p.pairs.zipIdx.filter (fun x => x.1.1 == x.1.2)).map (fun x => (x.1.1, x.2))
  { complete := diagonal.all (fun x => p.holdsSteps run warm x.1 x.2) &&
      (if p.pattern = 1 then assembled r else allBelow p.stored assembled)
    tested := run.any (fun x => x.1.any test), stored := run.any (fun x => x.1.any store)
    testIter := p.iterations (run.upTo test) warm r, iter := p.iterations (run.upTo store) warm r }

/-- A run moves data through the solver slice (R232). -/
def TableRun.usesSlice (run : TableRun) : Bool := run.any (fun x => x.1.any (·.slice))

/-- The core-cycles of the block operations of a run. -/
def busyCycles (p : Parse) (img : List Byte) (warm : Bool) : Nat :=
  sumList ((runOf p img warm).map (fun x => x.2 * sumList (x.1.map (fun o => if o.slice then 0 else o.len))))

end Sys2Proof.Machine
end

