-- ==== Sys2Proof/Machine/Records.lean ====
section
/-!
DEFINITION. Machine/Records.lean: what the records of the replay ring say (R52 to R56), for the parts that read them.
-/
namespace Sys2Proof.Machine

/-- The size of the ring (R52). -/
abbrev State.ringSize (s : State) : Nat := 2 ^ 24 * 2 ^ s.get F.RR_CTRL_SIZE

/-- The bytes of a record in the ring. -/
abbrev State.recordBytes (s : State) (r : RingRec) : List Byte := s.hbm.read (s.get F.RR_BASE_BASE + r.offset) r.length

/-- A record is valid: its FORMAT, its length, and the header's CRC over the header and all entries (R53). -/
def recordValid (b : List Byte) : Bool :=
  decide (leAt b 0 2 = 1 ∧ leAt b 4 4 = b.length ∧ leAt b 0x78 8 = crc64 (b.take 0x78 ++ b.drop 0x80))

/-- The newest valid record of a Period in the ring. -/
def State.findRecord (s : State) (period : Nat) : Option (List Byte) :=
  (s.rr.records.reverse.map s.recordBytes).find? (fun b => recordValid b && decide (leAt b 8 6 = period))

/-- The entries of a record (R54). -/
def recordEntries (b : List Byte) : List RecEntry :=
  (List.range ((b.length - 128) / 32)).map (fun i =>
    let e := (b.drop (128 + 32 * i)).take 32
    ⟨leAt e 0 1, leAt e 1 1, leAt e 4 4, leAt e 8 8, leAt e 0x10 8, leAt e 0x18 8⟩)

/-- The entries of the record that replay mode re-runs (R56). -/
def State.replayEntries (s : State) : List RecEntry :=
  match s.pd.replay with
  | some r => match s.findRecord r.period with
    | some b => recordEntries b
    | none => []
  | none => []

/-- The module runs a Period in replay mode. -/
def State.replaying (s : State) : Bool :=
  s.pd.replay.isSome && (match s.pd.run with | some r => r.replay | none => false)

/-- An entry that says a solver job was published (R54). -/
abbrev RecEntry.published (e : RecEntry) : Bool := decide (e.type = 3) && bit e.b 0

/-- The record marks the job of this command as published (R56, R221). -/
def State.marksPublished (s : State) (clause tag : Nat) : Bool :=
  s.replayEntries.any (fun e => e.published && decide (e.clause = clause ∧ e.tag = tag))

end Sys2Proof.Machine
end

