-- ==== Sys2Proof/Machine/Solver.lean ====
section
/-!
DEFINITION. Machine/Solver.lean: the algorithms of the Conjugator on one job's matrices, in the working format W (R194, R203 to
R210). They read no state: Machine/Conjugator.lean reads their inputs and writes their outputs.
-/
namespace Sys2Proof.Machine

/-! ## Arithmetic in W (R194) -/

/-- A matrix, by rows. -/
abbrev Mat : Type := List (List Val)

/-- An exact value rounded once to W. -/
def rw_ (f : Fmt) (x : Val) : Val := f.decode (f.convert .rne .inf x).1

/-- The element (i, j). -/
def Mat.el (a : Mat) (i j : Nat) : Val := nth (nth a i []) j .zero

/-- A matrix from its elements. -/
def Mat.of (rows cols : Nat) (g : Nat → Nat → Val) : Mat := (List.range rows).map (fun i => (List.range cols).map (fun j => g i j))

/-- The columns of a matrix, `n` of them. -/
def Mat.columns (n : Nat) (a : Mat) : Mat := (List.range n).map (fun j => a.map (fun r => nth r j .zero))

/-- The identity times a scalar. -/
def Mat.diag (n : Nat) (x : Val) : Mat := .of n n (fun i j => if i = j then x else .zero)

/-- A sum of products in increasing index, one FMA at a time. -/
def dotW (f : Fmt) (a b : List Val) : Val := (a.zip b).foldl (fun acc p => rw_ f (p.1.fma p.2 acc)) .zero

/-- A product of `n`-column matrices. -/
def prodW (f : Fmt) (n : Nat) (a b : Mat) : Mat :=
  let cs := b.columns n
  a.map (fun r => cs.map (dotW f r))

/-- A matrix whose upper triangle, with the diagonal, is computed, and the rest copied from it. -/
def mirrored (n : Nat) (g : Nat → Nat → Val) : Mat :=
  let up := Mat.of n n (fun i j => if i ≤ j then g i j else .zero)
  .of n n (fun i j => if i ≤ j then up.el i j else up.el j i)

/-- A product that is symmetric in exact arithmetic. -/
def symW (f : Fmt) (n : Nat) (a b : Mat) : Mat :=
  let cs := b.columns n
  mirrored n (fun i j => dotW f (nth a i []) (nth cs j []))

/-- A sequential sum of squares, and its root: the norms. -/
def normW (f : Fmt) (xs : List Val) : Val := rw_ f (dotW f xs xs).sqrt

/-- Every element by itself. -/
def Mat.each (g : Val → Val) (a : Mat) : Mat := a.map (fun r => r.map g)

/-- All elements, row by row. -/
def Mat.all_ (a : Mat) : List Val := a.flatMap id

/-- ‖M − I‖_F, the subtraction on the diagonal rounded. -/
def distanceI (f : Fmt) (n : Nat) (m : Mat) : Val :=
  normW f (Mat.of n n (fun i j => if i = j then rw_ f ((m.el i j).sub (.ofInt 1)) else m.el i j)).all_

/-- (c I − M) ÷ d, each element rounded per operation. -/
def shifted (f : Fmt) (n : Nat) (c d : Int) (m : Mat) : Mat :=
  .of n n (fun i j => rw_ f ((rw_ f ((if i = j then Val.ofInt c else .zero).sub (m.el i j))).div (.ofInt d)))

/-- norm ÷ √w_b ≤ TOL. -/
def withinTol (f : Fmt) (n : Nat) (norm tol : Val) : Bool := (rw_ f (norm.div (rw_ f (Val.ofInt n).sqrt))).le tol

/-- Every element finite. -/
def Mat.finite (a : Mat) : Bool := a.all (fun r => r.all Val.isFinite)

/-- The outputs, converted to FP32 (R198), are finite. -/
def outFinite (a : Mat) : Bool := (a.each round32).finite

/-- What a block's algorithm comes to: the matrix for ROOTs, the vectors and values for AUXs, and whether it passed. -/
structure Solved where
  root : Mat
  vecs : Mat
  vals : List Val
  ok   : Bool

/-! ## NEWTON_ROOT (R205) -/

/-- T^p × M. -/
def powTimes (f : Fmt) (n p : Nat) (t m : Mat) : Mat :=
  match p with
  | 1 => symW f n t m
  | 2 => symW f n (symW f n t t) m
  | 4 => let u := symW f n t t; symW f n u (prodW f n u m)
  | _ => let u := symW f n t t; let u2 := symW f n u u; symW f n u2 (prodW f n u2 m)

/-- X^p × M, all products mirrored: the warm set-up. -/
def warmSetup (f : Fmt) (n p : Nat) (x m : Mat) : Mat :=
  symW f n ((List.range p.log2).foldl (fun u _ => symW f n u u) x) m

/-- NEWTON_ROOT on one block. `saved`: the saved root of a warm start. While X is still a multiple of I, its product with T is a
scaling. -/
def newtonRoot (f : Fmt) (n p iters : Nat) (tol : Val) (m : Mat) (saved : Option Mat) : Solved :=
  let z := normW f m.all_
  let c := rw_ f (z.invRoot p.log2)
  let x0 := match saved with
    | some x => x.each (rw_ f)
    | none => Mat.diag n c
  let m0 := match saved with
    | some _ => warmSetup f n p x0 m
    | none => m.each (fun v => rw_ f (v.div z))
  let step (a : Mat × Mat) (k : Nat) : Mat × Mat :=
    let t := shifted f n (Int.ofNat p + 1) p a.2
    let x := if k = 0 ∧ saved.isNone then t.each (fun v => rw_ f (v.mul c)) else prodW f n a.1 t
    (x, powTimes f n p t a.2)
  let r := (List.range iters).foldl step (x0, m0)
  if saved.isNone ∧ z.isZero then ⟨Mat.diag n .zero, [], [], false⟩
  else ⟨r.1, [], [], r.1.finite && withinTol f n (distanceI f n r.2) tol⟩

/-! ## NEWTON_SCHULZ (R206) -/

/-- NEWTON_SCHULZ on one block. -/
def newtonSchulz (f : Fmt) (n iters : Nat) (tol : Val) (m : Mat) : Solved :=
  let z := normW f m.all_
  let step (a : Mat × Mat) (k : Nat) : Mat × Mat :=
    let p := if k = 0 then a.1 else prodW f n a.2 a.1
    let t := shifted f n 3 2 p
    (symW f n a.1 t, if k = 0 then t else prodW f n t a.2)
  let r := (List.range iters).foldl step (m.each (fun v => rw_ f (v.div z)), Mat.diag n (.ofInt 1))
  let c := rw_ f (z.invRoot 1)
  if z.isZero then ⟨Mat.diag n .zero, [], [], false⟩
  else ⟨r.2.each (fun v => rw_ f (v.mul c)), [], [],
    r.2.finite && withinTol f n (distanceI f n (symW f n r.2 r.1)) tol⟩

/-! ## JACOBI_EIG and EIG_ROOT (R207, R208) -/

/-- t of a rotation, from ζ. -/
def rotationT (f : Fmt) (z : Val) : Val :=
  let neg := if z.isZero then Config.signOfZero z.isNeg else z.isNeg
  let den := rw_ f (z.abs.add (rw_ f (rw_ f (z.fma z (.ofInt 1))).sqrt))
  rw_ f ((Val.ofInt (if neg then -1 else 1)).div den)

/-- c x − s y, and s x + c y: one product rounded, then one FMA (log entry 25). -/
def turnMinus (f : Fmt) (c s x y : Val) : Val := rw_ f (c.fma x (rw_ f (s.mul y)).neg)

/-- s x + c y. -/
def turnPlus (f : Fmt) (c s x y : Val) : Val := rw_ f (s.fma x (rw_ f (c.mul y)))

/-- One rotation of (i, j), i < j, on the pair's matrix and on J (R207; log entry 25). -/
def rotate (f : Fmt) (n : Nat) (st : Mat × Mat) (i j : Nat) : Mat × Mat :=
  let a := st.1
  let aij := a.el i j
  if aij.isZero then st
  else
    let z := rw_ f ((rw_ f ((a.el j j).sub (a.el i i))).div (rw_ f ((Val.ofInt 2).mul aij)))
    let t := rotationT f z
    let c := rw_ f ((Val.ofInt 1).div (rw_ f (rw_ f (t.fma t (.ofInt 1))).sqrt))
    let s := rw_ f (t.mul c)
    let el (p q : Nat) : Val :=
      if p = i ∧ q = i then rw_ f (t.neg.fma aij (a.el i i))
      else if p = j ∧ q = j then rw_ f (t.fma aij (a.el j j))
      else if (p = i ∧ q = j) ∨ (p = j ∧ q = i) then .zero
      else if q = i then turnMinus f c s (a.el p i) (a.el p j)
      else if q = j then turnPlus f c s (a.el p i) (a.el p j)
      else if p = i then turnMinus f c s (a.el q i) (a.el q j)
      else if p = j then turnPlus f c s (a.el q i) (a.el q j)
      else a.el p q
    let v := st.2
    let jel (p q : Nat) : Val :=
      if q = i then turnMinus f c s (v.el p i) (v.el p j)
      else if q = j then turnPlus f c s (v.el p i) (v.el p j)
      else v.el p q
    (.of n n el, .of n n jel)

/-- A pair problem: J after 4 inner sweeps in row-major order (R207). -/
def pairProblem (f : Fmt) (n : Nat) (a : Mat) : Mat :=
  let order := (List.range n).flatMap (fun i => (List.range (n - i - 1)).map (fun k => (i, i + 1 + k)))
  ((List.range 4).foldl (fun st _ => order.foldl (fun st ij => rotate f n st ij.1 ij.2) st) (a, Mat.diag n (.ofInt 1))).2

/-- pos(i, round) of R207, for `q` sub-blocks. -/
def sweepPos (q i round : Nat) : Nat := if i = 0 then 0 else (i - 1 + round) % (q - 1) + 1

/-- The indices of sub-block `k` in a block of width `n`. -/
def subIndices (n k : Nat) : List Nat := (List.range (min 128 (n - 128 * k))).map (fun i => 128 * k + i)

/-- The pairs of a round, each as its indices in increasing order. -/
def roundPairs (n q round : Nat) : List (List Nat) :=
  (List.range (q / 2)).map (fun i =>
    let a := sweepPos q i round
    let b := sweepPos q (q - 1 - i) round
    subIndices n (min a b) ++ subIndices n (max a b))

/-- A round: every pair's rotation from the matrix at the round's start, then A and V updated, left factor first. -/
def jacobiRound (f : Fmt) (n q : Nat) (st : Mat × Mat) (round : Nat) : Mat × Mat :=
  let a := st.1
  let pairs := roundPairs n q round
  let js := pairs.map (fun ix => pairProblem f ix.length (.of ix.length ix.length (fun i j => a.el (nth ix i 0) (nth ix j 0))))
  let pairOf (i : Nat) : Nat := pairs.findIdx (fun ix => ix.contains i)
  let place (i : Nat) : List Nat × Mat × Nat :=
    let p := pairOf i
    (nth pairs p [], nth js p [], (nth pairs p []).findIdx (· == i))
  -- column `i` of the pair's J against the pair's entries of a row or column of a matrix
  let along (i : Nat) (g : Nat → Val) : Val :=
    match place i with
    | (ix, j, at_) => dotW f (j.map (fun r => nth r at_ .zero)) (ix.map g)
  let t := Mat.of n n (fun i l => along i (fun k => a.el k l))
  (mirrored n (fun i j => along j (fun l => t.el i l)), .of n n (fun i j => along j (fun l => st.2.el i l)))

/-- The sweeps of R207 on A, from V = I. -/
def jacobiSweeps (f : Fmt) (n sweeps : Nat) (a : Mat) : Mat × Mat :=
  let q := cdiv n 128
  let q := q + q % 2
  (List.range sweeps).foldl (fun st _ => (List.range (q - 1)).foldl (fun st round => jacobiRound f n q st round) st)
    (a, Mat.diag n (.ofInt 1))

/-- JACOBI_EIG on one block. `saved`: the saved V of a warm start. -/
def jacobiEig (f : Fmt) (n sweeps : Nat) (tol : Val) (m : Mat) (saved : Option Mat) : Solved :=
  let v0 := (saved.getD []).each (rw_ f)
  let a := if saved.isSome then symW f n (prodW f n (v0.columns n) m) v0 else m
  let r := jacobiSweeps f n sweeps a
  let v := if saved.isSome then prodW f n v0 r.2 else r.2
  let vals := (List.range n).map (fun i => r.1.el i i)
  let off := normW f ((List.range n).flatMap (fun i => (List.range n).filterMap (fun j => if i = j then none else some (r.1.el i j))))
  ⟨[], v, vals, off.le (rw_ f (tol.mul (normW f m.all_))) && outFinite v && outFinite [vals]⟩

/-- The largest of some values. -/
def largest (vs : List Val) : Val := vs.foldl (fun m v => if m.lt v then v else m) (.inf true)

/-- EIG_ROOT on one block: R207, then the root from the floored eigenvalues (R208). -/
def eigRoot (f : Fmt) (n p sweeps : Nat) (tol floor : Val) (m : Mat) (saved : Option Mat) : Solved :=
  let r := jacobiEig f n sweeps tol m saved
  let top := largest r.vals
  let low := rw_ f (floor.mul top)
  let s := r.vals.map (fun l => rw_ f ((if l.lt low then low else l).invRoot p.log2))
  let vs := r.vecs.map (fun row => (row.zip s).map (fun e => rw_ f (e.1.mul e.2)))
  let root := symW f n vs (r.vecs.columns n)
  { r with root := root, ok := r.ok && Val.zero.lt top && outFinite root }

/-! ## Factorisations and substitutions (R209) -/

/-- A factorisation in progress: the columns of L (each from its own row 0), LDLT's w columns, and the pivots. -/
structure Factor where
  l : List (List Val)
  w : List (List Val)
  d : List Val

/-- Element (i, k) of L. -/
def Factor.el (g : Factor) (i k : Nat) : Val := nth (nth g.l k []) i .zero

/-- a_ij after the eliminated columns before j, each by one FMA in place. `st` says which elements a stored block holds. -/
def eliminated (f : Fmt) (st : Nat → Nat → Bool) (a : Nat → Nat → Val) (g : Factor) (i j : Nat) : Val :=
  (List.range j).foldl (fun acc k =>
    if st i k && st j k then rw_ f ((nth (nth g.w k []) i .zero).neg.fma (g.el j k) acc) else acc) (a i j)

/-- One column of CHOLESKY or LDLT. -/
def factorColumn (f : Fmt) (ldl : Bool) (n : Nat) (st : Nat → Nat → Bool) (a : Nat → Nat → Val) (g : Factor) (j : Nat) : Factor :=
  let d := eliminated f st a g j j
  let piv := if ldl then d else rw_ f d.sqrt
  let l := (List.range n).map (fun i =>
    if i < j then Val.zero
    else if i = j then (if ldl then Val.ofInt 1 else piv)
    else if st i j then rw_ f ((eliminated f st a g i j).div piv) else Val.zero)
  let w := if ldl then l.map (fun x => rw_ f (x.mul d)) else l
  ⟨g.l ++ [l], g.w ++ [w], g.d ++ [d]⟩

/-- CHOLESKY or LDLT of a symmetric matrix of dimension `n`, its lower triangle given by `a`. -/
def factorise (f : Fmt) (ldl : Bool) (n : Nat) (st : Nat → Nat → Bool) (a : Nat → Nat → Val) : Factor :=
  (List.range n).foldl (fun g j => factorColumn f ldl n st a g j) ⟨[], [], []⟩

/-- The acceptance of the pivots: positive before the square root, or at least TOL times the largest diagonal entry (R203). -/
def pivotsOk (f : Fmt) (ldl : Bool) (tol : Val) (n : Nat) (a : Nat → Nat → Val) (g : Factor) : Bool :=
  if ldl then
    let top := largest ((List.range n).map (fun i => (a i i).abs))
    g.d.all (fun d => (rw_ f (tol.mul top)).le d.abs)
  else g.d.all (fun d => Val.zero.lt d)

/-- Element (i, j) as the outputs hold it: L, or the unit-lower L with D on its diagonal (R198). -/
def Factor.out (g : Factor) (ldl : Bool) (i j : Nat) : Val :=
  if i < j then .zero else if i = j ∧ ldl then nth g.d i .zero else g.el i j

/-- Forward substitution L x = b, in increasing k. -/
def forward (f : Fmt) (n : Nat) (st : Nat → Nat → Bool) (l : Nat → Nat → Val) (b : Nat → Val) : List Val :=
  (List.range n).foldl (fun xs i =>
    let v := (xs.zipIdx).foldl (fun acc p => if st i p.2 then rw_ f ((l i p.2).neg.fma p.1 acc) else acc) (b i)
    xs ++ [rw_ f (v.div (l i i))]) []

/-- Back substitution Lᵀ x = b: x_i for i from the last down, each in increasing k (log entry 26). -/
def backward (f : Fmt) (n : Nat) (l : Nat → Nat → Val) (b : List Val) : List Val :=
  (List.range n).foldl (fun xs k =>
    let i := n - 1 - k
    let v := (xs.zipIdx).foldl (fun acc p => rw_ f ((l (i + 1 + p.2) i).neg.fma p.1 acc) ) (nth b i .zero)
    rw_ f (v.div (l i i)) :: xs) []

/-- Every element stored. -/
abbrev dense (_ _ : Nat) : Bool := true

/-- SPD_INV on one block: CHOLESKY, L⁻¹ by forward substitution, L⁻ᵀ L⁻¹ as a symmetric product. -/
def spdInv (f : Fmt) (n : Nat) (m : Mat) : Solved :=
  let g := factorise f false n dense m.el
  let cols : Mat := (List.range n).map (fun j => forward f n dense g.el (fun i => if i = j then .ofInt 1 else .zero))
  let out := symW f n cols (cols.columns n)
  ⟨out, [], [], pivotsOk f false .zero n m.el g && outFinite out⟩

/-! ## PCG (R210) -/

/-- K x, each element summed in increasing k over the stored elements. -/
def mulK (f : Fmt) (n : Nat) (st : Nat → Nat → Bool) (k : Nat → Nat → Val) (x : List Val) : List Val :=
  (List.range n).map (fun i => (x.zipIdx).foldl (fun acc p => if st i p.2 then rw_ f ((k i p.2).fma p.1 acc) else acc) .zero)

/-- One column's iterate. -/
structure PcgCol where
  x   : List Val
  r   : List Val
  d   : List Val
  rho : Val
  ok  : Bool

/-- x + a y, element by element. -/
def axpy (f : Fmt) (a : Val) (y x : List Val) : List Val := (x.zip y).map (fun p => rw_ f (a.fma p.2 p.1))

/-- One iteration of one column. -/
def pcgStep (f : Fmt) (mul prec : List Val → List Val) (s : PcgCol) : PcgCol :=
  let q := mul s.d
  let g := dotW f s.d q
  let alpha := if Val.zero.lt g then rw_ f (s.rho.div g) else .zero
  let r := axpy f alpha.neg q s.r
  let z := prec r
  let rho := dotW f r z
  let d := if Val.zero.lt s.rho then axpy f (rw_ f (rho.div s.rho)) s.d z else z
  ⟨axpy f alpha s.d s.x, r, d, rho, s.ok && Val.zero.lt g⟩

/-- One column of PCG: the solution, and whether it passed. -/
def pcgColumn (f : Fmt) (iters : Nat) (tol : Val) (mul prec : List Val → List Val) (b x0 : List Val) : List Val × Bool :=
  let r := (b.zip (mul x0)).map (fun p => rw_ f (p.1.sub p.2))
  let z := prec r
  let s := (List.range iters).foldl (fun s _ => pcgStep f mul prec s) ⟨x0, r, z, dotW f r z, true⟩
  (s.x, s.ok && (normW f s.r).le (rw_ f (tol.mul (normW f b))))

end Sys2Proof.Machine
end

