-- ==== Sys2Proof/Machine/Conjugator.lean ====
section
/-!
DEFINITION. Machine/Conjugator.lean: the root table, the Assembler, and the life of a solver job from admission to commit (chapters
07 and 08).
-/
namespace Sys2Proof.Machine

/-! ## Root-table entries (R196, R197) -/

/-- Where entry `e` lies. -/
def State.rootAddr (s : State) (e : Nat) : Nat := s.get F.CJ_ROOT_BASE_BASE + 128 * e

/-- The 128 bytes of entry `e`. -/
def State.rootBytes (s : State) (e : Nat) : List Byte := s.hbm.read (s.rootAddr e) 128

/-- An entry's fields, on its bytes. -/
abbrev rtSite (b : List Byte) : Nat := leAt b 0 2 % 4096
abbrev rtKind (b : List Byte) : Nat := leAt b 2 1 % 16
abbrev rtPLog2 (b : List Byte) : Nat := bits (leAt b 2 1) 4 2
abbrev rtDampTrace (b : List Byte) : Bool := bit (leAt b 2 1) 6
abbrev rtWarm (b : List Byte) : Bool := bit (leAt b 2 1) 7
abbrev rtAvgFmt (b : List Byte) : Nat := leAt b 3 1 % 16
abbrev rtSource (b : List Byte) : Nat := leAt b 4 2
abbrev rtNrhs (b : List Byte) : Nat := leAt b 6 2
abbrev rtBeta (b : List Byte) : Val := v32 (leAt b 8 4)
abbrev rtDelta (b : List Byte) : Val := v32 (leAt b 0x0C 4)
abbrev rtFloor (b : List Byte) : Val := v32 (leAt b 0x10 4)
abbrev rtTol (b : List Byte) : Val := v32 (leAt b 0x14 4)
abbrev rtInput (b : List Byte) : Nat := leAt b 0x18 6
abbrev rtRhs (b : List Byte) : Nat := leAt b 0x20 6
abbrev rtRoot (b : List Byte) (slot : Nat) : Nat := leAt b (0x28 + 8 * slot) 6
abbrev rtAvg (b : List Byte) (slot : Nat) : Nat := leAt b (0x38 + 8 * slot) 6
abbrev rtAux (b : List Byte) (slot : Nat) : Nat := leAt b (0x48 + 8 * slot) 6
abbrev rtFprint (b : List Byte) (slot : Nat) : Nat := leAt b (0x58 + 8 * slot) 8
abbrev rtFlags (b : List Byte) : Nat := leAt b 0x68 1
abbrev rtCurrent (b : List Byte) : Nat := rtFlags b % 2
abbrev rtCommitted (b : List Byte) : Nat := bits (rtFlags b) 1 1
abbrev rtValid (b : List Byte) (slot : Nat) : Bool := bit (rtFlags b) (2 + slot)
abbrev rtPublished (b : List Byte) : Bool := bit (rtFlags b) 4
abbrev rtMiss (b : List Byte) : Nat := leAt b 0x69 1

/-- The scratch slot: the one that is not COMMITTED (R214). -/
abbrev rtScratch (b : List Byte) : Nat := 1 - rtCommitted b

/-- The format of the averaged matrices. -/
abbrev rtAvgFormat (b : List Byte) : Fmt := if rtAvgFmt b = 0 then .fp64 else .fp32

/-- An entry's slot state set: CURRENT, COMMITTED, VALID0, VALID1, PUBLISHED. -/
def rtSetFlags (b : List Byte) (cur com : Nat) (v0 v1 pub : Bool) : List Byte :=
  overlay b 0x68 (leBytes 1 (cur + 2 * com + 4 * flag v0 + 8 * flag v1 + 16 * flag pub))

/-- One slot's VALID bit set. -/
def rtSetValid (b : List Byte) (slot : Nat) (v : Bool) : List Byte :=
  rtSetFlags b (rtCurrent b) (rtCommitted b) (if slot = 0 then v else rtValid b 0) (if slot = 1 then v else rtValid b 1) (rtPublished b)

/-- MISS set. -/
abbrev rtSetMiss (b : List Byte) (n : Nat) : List Byte := overlay b 0x69 (leBytes 1 n)

/-- PUB_PERIOD set. -/
abbrev rtSetPeriod (b : List Byte) (n : Nat) : List Byte := overlay b 0x70 (leBytes 6 n)

/-- The DIGEST of an entry rewritten. -/
def rtSeal (b : List Byte) : List Byte := b.take 0x78 ++ leBytes 8 (crc64 (b.take 0x78))

/-- The DIGEST of an entry verifies. -/
abbrev rtDigestOk (b : List Byte) : Bool := decide (crc64 (b.take 0x78) = leAt b 0x78 8)

/-- An entry written, sealed. -/
def State.putRoot (s : State) (e : Nat) (b : List Byte) : State := s.own (s.rootAddr e) (rtSeal b)

/-- The bytes of an entry kept as of the last commit, before a change within the Period (R243). -/
def State.snapRoot (s : State) (e : Nat) : State :=
  if s.cj.snaps.any (fun r => decide (r.entry = e)) then s
  else { s with cj := { s.cj with snaps := ⟨e, s.rootBytes e⟩ :: s.cj.snaps } }

/-- An entry as Clause `c` reads it: as it stood when the Clause started (R215). -/
def State.rootAt (s : State) (c e : Nat) : List Byte :=
  match s.cj.held.find? (fun h => decide (h.clause = c ∧ h.entry = e)) with
  | some h => h.bytes
  | none => s.rootBytes e

/-- An entry that is about to change is kept for the Clauses that have started (R215). -/
def State.holdRoot (s : State) (e : Nat) : State :=
  let keep (c : Nat) : Bool := (s.clause c).started && !s.cj.held.any (fun h => decide (h.clause = c ∧ h.entry = e))
  let new := ((List.range 16).filter keep).map (fun c => (⟨c, e, s.rootBytes e⟩ : HeldRoot))
  { s with cj := { s.cj with held := s.cj.held ++ new } }

/-- CRC-64 of entries `e` to `e + n - 1`. -/
def State.rootDigest (s : State) (e n : Nat) : Nat := crc64 (s.hbm.read (s.rootAddr e) (128 * n))

/-! ## ROOT_TABLE (R243, R244) -/

/-- The registers of SETUP, and a table with no Period in progress. -/
def State.adoptRoots (s : State) (address count : Nat) : State :=
  let s := (s.put F.CJ_ROOT_BASE_BASE address).put F.CJ_ROOT_COUNT_COUNT count
  { s with cj := { s.cj with snaps := [], held := [], submitted := [], due := [] } }

/-- An entry of zeros with no publication. -/
def emptyRoot : List Byte := rtSetPeriod (List.replicate 128 0) noPeriod

/-- SETUP. -/
def State.rootSetup (s : State) (attach : Bool) (count address : Nat) (c : CmdRef) : Body :=
  if attach then
    s.readingTable address (128 * count) 8 c (fun s bs =>
      let es := pieces 128 bs
      if es.all rtDigestOk then
        let s := s.adoptRoots address count
        let s := es.zipIdx.foldl (fun (s : State) p =>
          s.putRoot p.2 (rtSetFlags p.1 (rtCommitted p.1) (rtCommitted p.1) (rtValid p.1 0) (rtValid p.1 1) false)) s
        s.ok (s.rootDigest 0 count)
      else s.fail ST_DIGEST)
  else
    let s := s.adoptRoots address count
    let s := (List.range count).foldl (fun (s : State) e => s.putRoot e emptyRoot) s
    s.ok (s.rootDigest 0 count)

/-- The six regions of an image that are not 0. -/
def rtRegions (b : List Byte) : List Nat := ((List.range 6).map (fun k => leAt b (0x28 + 8 * k) 6)).filter (· ≠ 0)

/-- What WRITE checks of one image (R244; the reserved bits by log entry 27). -/
def rtImageOk (b : List Byte) : Bool :=
  decide (bits (leAt b 0 2) 12 4 = 0 ∧ 1 ≤ rtKind b ∧ rtKind b ≤ 5 ∧ leAt b 3 1 / 16 = 0 ∧ (rtAvgFmt b = 0 ∨ rtAvgFmt b = 2)) &&
    allBelow 8 (fun k => decide (leAt b (0x18 + 8 * k + 6) 2 = 0)) &&
    (rtRegions b).all (fun a => decide (a % 4096 = 0 ∧ a < hbmEnd)) && decide ((rtRegions b).eraseDups.length = (rtRegions b).length)

/-- An image may be written over an entry with KEEP: SITE, KIND and the slot regions are the entry's. -/
def rtKeeps (new old : List Byte) : Bool :=
  decide (rtSite new = rtSite old ∧ rtKind new = rtKind old ∧ (new.drop 0x28).take 48 = (old.drop 0x28).take 48)

/-- WRITE. -/
def State.rootWrite (s : State) (keep : Bool) (e n address : Nat) (c : CmdRef) : Body :=
  match s.spanFault address (128 * n) false with
  | some st => s.fail st
  | none => s.reading address (128 * n) c (fun s bs =>
    let imgs := pieces 128 bs
    let ok := imgs.all rtImageOk && (!keep || imgs.zipIdx.all (fun p => rtKeeps p.1 (s.rootBytes (e + p.2))))
    if !ok then s.fail ST_BAD_PARAM
    else
      let s := imgs.zipIdx.foldl (fun (s : State) p =>
        let tail := if keep then (s.rootBytes (e + p.2)).drop 0x58 else emptyRoot.drop 0x58
        s.putRoot (e + p.2) (p.1.take 0x58 ++ tail)) s
      s.ok (s.rootDigest e n))

/-- READ: the entries as of the last commit. -/
def State.rootRead (s : State) (e n address : Nat) (c : CmdRef) : Body :=
  s.readingTable (s.rootAddr e) (128 * n) 8 c (fun s bs =>
    let es := (pieces 128 bs).zipIdx.map (fun p => match s.cj.snaps.find? (fun r => decide (r.entry = e + p.2)) with
      | some r => r.bytes
      | none => p.1)
    s.writing address (es.flatMap id) c (fun s => s.ok (crc64 (es.flatMap id))))

/-- INVALIDATE. -/
def State.rootInvalidate (s : State) (e n : Nat) : Body :=
  let s := (List.range n).foldl (fun (s : State) i =>
    let b := s.rootBytes (e + i)
    s.putRoot (e + i) (rtSetPeriod (rtSetMiss (rtSetFlags b (rtCurrent b) (rtCommitted b) false false (rtPublished b)) 0) noPeriod)) s
  s.ok (s.rootDigest e n)

/-! ## Jobs -/

/-- The Conjugator is held in reset. -/
def State.conjHeld (s : State) : Bool := s.pwr.held.any (fun h => decide (h.dom = .conjugator))

/-- The job of an entry. -/
def State.jobOf (s : State) (e : Nat) : Option SolveJob := s.cj.jobs.find? (fun j => decide (j.entry = e))

/-- A running job uses the solver slice: it is streamed, or its run has operations that the Assembler performs (R222, R232). -/
def State.slicing (s : State) (j : SolveJob) : Bool :=
  let img := s.hbm.read j.table.address j.table.length
  let p := Parse.of img
  p.streamed || (runOf p img j.warm).usesSlice

/-- `CJ_STATUS` and `CJ_CORE_BUSY` as the jobs stand (log entry 29). -/
def State.solverStatus (s : State) : State :=
  let running := s.cj.jobs.filter (·.running)
  let s := s.put F.CJ_STATUS_ADMITTED s.cj.jobs.length
  let s := s.put F.CJ_CORE_BUSY_BUSY (running.foldl (fun m j => m ||| j.cores) 0)
  s.put F.CJ_STATUS_SLICE_ACTIVE (flag (running.any s.slicing))

/-- A SOLVE counts as submitted for its entry (R218). -/
def State.submit (s : State) (period entry : Nat) : State :=
  let x : Submission := ⟨period, entry⟩
  if entry < s.get F.CJ_ROOT_COUNT_COUNT ∧ ¬ s.cj.submitted.contains x then
    { s with cj := { s.cj with submitted := x :: s.cj.submitted } }
  else s

/-- A SOLVE's outcome in the Period's record (R54). -/
def State.noteSolve (s : State) (c : CmdRef) (clause : Nat) (d : Done) (published : Bool) : State :=
  s.noteEntry ⟨3, clause, c.tag, s.now, d.result, flag published + 256 * d.status⟩

/-- What a command leaves when it ends with a status: of a RUN_PROGRAM, undefined OUTPUT tensors (R118); of a DMA_COPY or FILL, an undefined
destination (R292). -/
def State.forgetCommand (s : State) (cmd : Option Instr) (st : Nat) : State :=
  match cmd with
  | some (.runProgram _ p) => s.forgetProgram p st
  | some (.dmaCopy _ p) => s.forgetAt p.dst.toNat p.length.toNat
  | some (.fill _ dst n _ _) => s.forgetAt dst.toNat n.toNat
  | _ => s

/-- What a command that has not run leaves when it ends with a status. -/
def State.spoilFlight (s : State) (f : Flight) (st : Nat) : State :=
  match f.cmd with
  | some (.runProgram _ p) => s.forgetProgram p st
  | _ => s

/-- A command in hand that has not run ends with a status; a SOLVE's outcome is recorded (R54). -/
def State.endFlight (s : State) (f : Flight) (st : Nat) : State :=
  let s := match f.cmd with
    | some (.solve _ _ _) => s.noteSolve f.ref f.clause (Done.fail st) false
    | _ => s.spoilFlight f st
  s.finish f.ref (Done.fail st)

/-- The units of a kind that a job still holds take its end time (R241). -/
def releaseUnits (free : List Nat) (units : List Nat) (reserved now : Nat) : List Nat :=
  free.zipIdx.map (fun p => if units.contains p.2 ∧ p.1 = reserved then now else p.1)

/-- The cores of a mask. -/
abbrev coresOf (mask : Nat) : List Nat := (List.range 32).filter (bit mask)

/-- A job ends: its units are released, its outcome is recorded and its command completes. -/
def State.endJob (s : State) (j : SolveJob) (d : Done) (published : Bool) : State :=
  let cj := s.cj
  let s := { s with cj := { cj with
    jobs := cj.jobs.filter (fun k => decide (k.entry ≠ j.entry))
    coreFree := releaseUnits cj.coreFree (coresOf j.cores) j.reserved s.now
    shareFree := releaseUnits cj.shareFree j.shares j.reserved s.now
    storeFree := releaseUnits cj.storeFree j.stores j.reserved s.now } }
  let s := if (s.flightOf j.cmd.ring j.cmd.seq).all (fun f => f.attach.isNone) then s.submit s.currentPeriod j.entry else s
  let s := if bit d.flags 0 then s.bump F.CJ_COUNT_COLD_COUNT 1 else s
  ((s.noteSolve j.cmd j.clause d published).solverStatus).finish j.cmd d

/-- The regions of slot `k` of an entry that the jobs of a table write (R196, R198): averaged matrices, roots and eigenpairs. -/
def slotRegions (b : List Byte) (p : Parse) (k : Nat) : List (Nat × Nat) :=
  let w2 := p.w * p.w
  let avg := if p.alg = 3 then [] else [(rtAvg b k, w2 * (rtAvgFormat b).width / 8 * p.stored)]
  let root := if p.alg = 5 then [] else [(rtRoot b k, if rhsAlg p.alg then 4 * p.dim * p.nrhs else 4 * w2 * p.stored)]
  let aux := if p.alg = 5 ∨ p.alg = 8 then [(rtAux b k, 4 * (w2 + p.w) * p.n)] else []
  (avg ++ root ++ aux).filter (fun r => decide (r.1 ≠ 0))

/-- The contents of a slot that is discarded are no one's (R201, R204, R219): the regions the job writes become undefined. -/
def State.discardSlot (s : State) (j : SolveJob) : State :=
  let b := s.rootBytes j.entry
  (slotRegions b (Parse.of (s.hbm.read j.table.address 0x60)) (rtScratch b)).foldl (fun (s : State) r => s.forgetHbm r.1 (r.1 + r.2)) s

/-- The cycles counted for a job that is stopped: those of the operations it had executed, which no command can know (log entry
30). -/
def State.partCycles (s : State) (j : SolveJob) : State :=
  let all := busyCycles (Parse.of (s.hbm.read j.table.address 0x60)) (s.hbm.read j.table.address j.table.length) j.warm
  let n := (Config.freeWord s.draws).toNat % (all + 1)
  ({ s with draws := s.draws + 1 }).bump F.CJ_BUSY_CYCLES_CYCLES n

/-- The VALID bit of the scratch slot is 0 before the slot is written (R216), and where it is discarded. -/
def State.openSlot (s : State) (e : Nat) : State :=
  let b := s.rootBytes e
  (s.snapRoot e).putRoot e (rtSetValid b (rtScratch b) false)

/-- A job is stopped before its end (R219, R220): nothing is published and the scratch slot is discarded. Of a job that has not
started, or ends with R200's status, the slot has not been written (log entry 113). -/
def State.stopJob (s : State) (j : SolveJob) (status : Nat) : State :=
  let s := if j.running then (s.partCycles j).discardSlot j else s
  (s.openSlot j.entry).endJob j ⟨status, flag j.cold, 0⟩ false

/-- Every job ends with a status (R220): a halt before the grant, or a reset of the Conjugator. -/
def State.stopJobs (s : State) (status : Nat) : State := s.cj.jobs.foldl (fun s j => s.stopJob j status) s

/-- The jobs of a REFRESH Clause at its deadline (R219), but for those that a replayed record marks (R221). -/
def State.jobDeadline (s : State) (clause : Nat) : State :=
  (s.cj.jobs.filter (fun j => decide (j.clause = clause) && !j.marked)).foldl (fun s j =>
    let s := (s.bump F.CJ_COUNT_DEADLINE_COUNT 1).raise ⟨0x0401, 2, 4, 0, j.entry, false, some j.cmd⟩
    s.stopJob j ST_DEADLINE) s

/-! ## SOLVE (R238 to R242) -/

/-- The KIND that an algorithm takes (R203). -/
def algKind (alg : Nat) : Nat :=
  match alg with
  | 1 => 2 | 2 => 3 | 3 => 5 | 5 => 4 | 9 => 5
  | _ => 1

/-- The entry and the table agree (R203, R229, R239). -/
def State.solveAgrees (s : State) (b : List Byte) (p : Parse) : Bool :=
  decide (rtKind b = algKind p.alg ∧ rtNrhs b = p.nrhs ∧ (rtKind b = 1 → rtPLog2 b = p.pLog2)) &&
    (decide (rtSite b = 0) || (match s.site (rtSite b) with
      | none => false
      | some g => decide (p.pattern = 1 ∧ p.wLog2 = g.widthLog2 ∧ p.dim = g.dim ∧ p.first = g.first ∧ p.n = g.count))) &&
    (decide (rtKind b ≠ 4 ∧ p.alg ≠ 8) || decide (rtAux b 0 ≠ 0 ∧ rtAux b 1 ≠ 0)) &&
    (decide (p.alg ≠ 3) || (decide (rtSource b < s.get F.CJ_ROOT_COUNT_COUNT) && decide (rtKind (s.rootBytes (rtSource b)) = 2)))

/-- The job's bound T in ns, rounded up (R240; log entry 31). -/
def jobBound (p : Parse) (mhz : Nat) : Nat :=
  let x := if p.streamed then p.sliceKib else p.exposed
  cdiv (p.cold * 1000 * 25 * p.shares + x * 1024 * mhz) (mhz * 25 * p.shares) + 1000

/-- The `n` units with the earliest reservation times, the lower-numbered first on equal times (R240). -/
def earliest (free : List Nat) (n : Nat) : List Nat :=
  let at_ (i : Nat) : Nat := nth free i 0
  (sortBy (fun i j => decide (at_ i < at_ j) || (at_ i == at_ j && decide (i ≤ j))) (List.range free.length)).take n

/-- The latest reservation time of some units. -/
def latest (free units : List Nat) : Nat := maxList (units.map (fun i => nth free i 0))

/-- Units reserved until a time. -/
def reserve (free units : List Nat) (t : Nat) : List Nat := units.foldl (fun f i => nthSet f i t) free

/-- Admission (R240, R242). -/
def State.takeParse (s : State) (c : CmdRef) (clause entry : Nat) (t : ParseRef) (p : Parse) : Body :=
  let cj := s.cj
  let cores := coresOf p.mask
  let shares := earliest cj.shareFree p.shares
  let stores := earliest cj.storeFree (cdiv p.sharedKib 1024)
  let start := max s.now (max (latest cj.coreFree cores) (max (latest cj.shareFree shares) (latest cj.storeFree stores)))
  let stop := start + jobBound p (s.get F.PW_CLOCK_ARITH_MHZ)
  let marked := s.replaying && s.marksPublished clause c.tag
  if 255 ≤ cj.jobs.length ∨ (¬ marked ∧ s.deadlineOf clause < stop) then s.fail ST_BUDGET
  else
    let job : SolveJob := ⟨c, clause, entry, t, p.mask, shares, stores, stop, marked, false, false, false, t.spoiled⟩
    let s := { s with cj := { cj with
      jobs := cj.jobs ++ [job]
      coreFree := reserve cj.coreFree cores stop
      shareFree := reserve cj.shareFree shares stop
      storeFree := reserve cj.storeFree stores stop } }
    (s.solverStatus, none)

/-- SOLVE's body: the checks of R239 in its order, then R521's, then admission. -/
def State.solve (s : State) (c : CmdRef) (clause entry parse : Nat) : Body :=
  match s.parseTable parse with
  | none => s.fail ST_BAD_PARAM
  | some t =>
    if s.get F.CJ_ROOT_COUNT_COUNT ≤ entry then s.fail ST_BAD_PARAM
    else if s.conjHeld then s.fail ST_ISOLATED
    else s.readingTable (s.rootAddr entry) 128 8 c (fun s b =>
      let p := Parse.of (s.hbm.read t.address 0x60)
      s.guard [(!s.solveAgrees b p || rtPublished b || (s.jobOf entry).isSome, ST_BAD_PARAM), (!rtDigestOk b, ST_DIGEST),
          (decide (p.mask &&& s.cj.withdrawn ≠ 0), ST_NOT_READY)]
        (fun s => s.takeParse c clause entry t p))

/-! ## The Assembler (R199 to R202) -/

/-- A block's matrix read: `rows` rows of `cols` elements, with the stride of a w × w place. -/
def State.readBlock (s : State) (f : Fmt) (a w rows cols : Nat) (c : CmdRef) : Act Mat :=
  actAll (fun s i => (s.readAct (a + f.width / 8 * w * i) (f.width / 8 * cols) c).bind (fun s bs =>
    (s, .ok ((f.unpack bs cols).map f.decode)))) s (List.range rows)

/-- A block's place: w × w elements, +0 outside the block (R198). -/
def blockBytes (f : Fmt) (w : Nat) (m : Mat) : List Byte :=
  (List.range w).flatMap (fun i => f.pack ((List.range w).map (fun j => (f.convert .rne .inf (m.el i j)).1)))

/-- An exact value rounded to FP64. -/
abbrev r64 (x : Val) : Val := v64 (rne64 x)

/-- The averaged matrix of one stored block (R199): symmetrised and converted to AVG_FMT. An off-diagonal block's transpose is the
block itself, stored once (log entry 32). -/
def averaged (f : Fmt) (beta : Val) (diag : Bool) (c prev : Option Mat) : Mat :=
  let a : Mat := match c, prev with
    | some c, some p =>
      let omb := r64 ((Val.ofInt 1).sub beta)
      (p.zip c).map (fun r => (r.1.zip r.2).map (fun e => r64 (beta.fma e.1 (r64 (omb.mul e.2)))))
    | some c, none => c
    | none, some p => p
    | none, none => []
  let half (x y : Val) : Val := r64 ((r64 (x.add y)).mul (.fin false 1 (-1)))
  a.zipIdx.map (fun r => r.1.zipIdx.map (fun e => rw_ f (half e.1 (if diag then a.el e.2 r.2 else e.1))))

/-- The trace of some diagonal blocks, in increasing index. -/
def traceOf (ms : List Mat) : Val :=
  ms.foldl (fun acc m => (m.zipIdx).foldl (fun acc r => r64 (acc.add (nth r.1 r.2 .zero))) acc) .zero

/-- λ of R199, for a trace over `n` rows. -/
def dampOf (b : List Byte) (trace : Val) (n : Nat) : Val :=
  if rtDampTrace b then r64 ((r64 ((rtDelta b).mul trace)).div (.ofInt n)) else rtDelta b

/-- M of a stored block in W. -/
def dampedBlock (f : Fmt) (lambda : Val) (diag : Bool) (a : Mat) : Mat :=
  a.zipIdx.map (fun r => r.1.zipIdx.map (fun e => rw_ f (if diag ∧ r.2 = e.2 then r64 (e.1.add lambda) else e.1)))

/-- The stored pairs with their averaged matrices damped (R199). -/
def dampedAll (b : List Byte) (p : Parse) (as : List ((Nat × Nat) × Mat)) : List ((Nat × Nat) × Mat) :=
  let diag (x : (Nat × Nat) × Mat) : Bool := decide (x.1.1 = x.1.2)
  let whole := traceOf ((as.filter diag).map (·.2))
  as.map (fun x =>
    let lambda := if p.pattern = 1 then dampOf b (traceOf [x.2]) (p.width x.1.1) else dampOf b whole p.dim
    (x.1, dampedBlock p.fmt lambda (diag x) x.2))

/-- C of a stored block: the INPUT block, or S ÷ COUNT; none when COUNT is 0. -/
def State.statistics (s : State) (b : List Byte) (p : Parse) (count r rows cols : Nat) (c : CmdRef) : Act (Option Mat) :=
  let at_ := 4 * p.w * p.w * r
  match s.site (rtSite b) with
  | some g =>
    if rtSite b = 0 ∨ count = 0 then (s, .ok none)
    else
      let n := r64 (.ofInt count)
      (s.readBlock .fp32 (g.sAddr + at_) p.w rows cols c).bind (fun s m => (s, .ok (some (m.each (fun x => r64 (x.div n))))))
  | none => (s.readBlock .fp32 (rtInput b + at_) p.w rows cols c).bind (fun s m => (s, .ok (some m)))

/-- The averaged matrices of every stored block. -/
def State.assemble (s : State) (b : List Byte) (p : Parse) (count : Nat) (c : CmdRef) : Act (List ((Nat × Nat) × Mat)) :=
  let k := rtCommitted b
  let f := rtAvgFormat b
  let one (s : State) (x : (Nat × Nat) × Nat) : Act ((Nat × Nat) × Mat) :=
    let rows := p.width x.1.1
    let cols := p.width x.1.2
    (s.statistics b p count x.2 rows cols c).bind (fun s st =>
      (s.maybe (if rtValid b k then some () else none) none (fun s _ =>
        (s.readBlock f (rtAvg b k + p.w * p.w * (f.width / 8) * x.2) p.w rows cols c).bind (fun s m => (s, .ok (some m))))).bind
      (fun s prev => (s, .ok (x.1, averaged f (rtBeta b) (decide (x.1.1 = x.1.2)) st prev))))
  actAll one s p.pairs.zipIdx

/-- The averaged matrices written to the scratch slot. -/
def State.writeAverages (s : State) (b : List Byte) (p : Parse) (as : List ((Nat × Nat) × Mat)) (c : CmdRef) : Act Unit :=
  let f := rtAvgFormat b
  (actAll (fun s (x : ((Nat × Nat) × Mat) × Nat) =>
    s.writeAct (rtAvg b (rtScratch b) + p.w * p.w * (f.width / 8) * x.2) (blockBytes f p.w x.1.2) c) s as.zipIdx).bind
    (fun s _ => (s, .ok ()))

/-! ## SOLVE_JOB_START (R199 to R201, R212, R216, R241) -/

/-- No job admitted earlier that holds one of the job's units is still there (R241). -/
def State.jobFree (s : State) (j : SolveJob) : Bool :=
  (s.cj.jobs.takeWhile (fun k => decide (k.entry ≠ j.entry))).all (fun k =>
    decide (k.cores &&& j.cores = 0) && !k.shares.any j.shares.contains && !k.stores.any j.stores.contains)

/-- A job whose statistics are not finite (R201): it publishes without change. -/
def State.nonfiniteJob (s : State) (j : SolveJob) : State :=
  let due : Publication := ⟨j.entry, none⟩
  let s := s.raise ⟨0x0403, 0, 4, 0, j.entry, false, some j.cmd⟩
  let publishes := !s.replaying || j.marked
  let s := if publishes then { s with cj := { s.cj with due := s.cj.due ++ [due] } } else s
  s.endJob j ⟨ST_OK, flag j.cold + 2, 0⟩ publishes

/-- The Assembler's work at the start of a job: done once, before the cores solve. A TRSV has nothing to assemble (log entry 33). -/
def State.assembleJob (s : State) (j : SolveJob) (b : List Byte) (p : Parse) (count : Nat) : State :=
  if p.alg = 3 then s.openSlot j.entry
  else match s.assemble b p count j.cmd with
    | (s, .fail st) => (s.discardSlot j).stopJob j st
    | (s, .ok as) =>
      let s := s.openSlot j.entry
      if !(dampedAll b p as).all (fun x => x.2.finite) then (s.discardSlot j).nonfiniteJob j
      else match s.writeAverages b p as j.cmd with
        | (s, .fail st) => (s.discardSlot j).stopJob j st
        | (s, .ok _) => s

/-- A job in hand changed. -/
def State.setJob (s : State) (j : SolveJob) : State :=
  { s with cj := { s.cj with jobs := s.cj.jobs.map (fun k => if k.entry = j.entry then j else k) } }

/-- The job runs, if it has not ended in the Assembler. -/
def State.jobRuns (s : State) (e : Nat) : State :=
  match s.jobOf e with
  | some j => (s.setJob { j with running := true }).solverStatus
  | none => s

/-- A job whose units are free starts, with how it starts (R212, R213). -/
def State.startJob (s : State) (j : SolveJob) : State :=
  match s.readAct j.table.address j.table.length j.cmd with
  | (s, .fail st) => s.stopJob j st
  | (s, .ok img) =>
    let p := Parse.of img
    let b := s.rootBytes j.entry
    let src := s.rootAt j.clause (rtSource b)
    let prev := rtValid b (rtCommitted b)
    let header := match s.site (rtSite b) with
      | some g => if rtSite b = 0 then (1, false) else (s.word (g.base + 0x28) 8, bit (s.word (g.base + 8) 1) 5)
      | none => (1, false)
    let warm := warmAlg p.alg && rtWarm b && prev && decide (rtFprint b (rtCommitted b) = fingerprint img)
    let j := { j with warm := warm, cold := warmAlg p.alg && rtWarm b && !warm }
    let s := s.setJob j
    if p.alg = 3 ∧ ¬ rtValid src (rtCurrent src) then s.stopJob j ST_NOT_READY
    else if p.alg ≠ 3 ∧ header.2 then s.nonfiniteJob j
    else if p.alg ≠ 3 ∧ header.1 = 0 ∧ ¬ prev then s.stopJob j ST_NOT_READY
    else (s.assembleJob j b p header.1).jobRuns j.entry

/-! ## SOLVE_JOB_END (R204 to R214) -/

/-- The outputs of a job by address: the regions of ROOTs and AUXs that it writes. -/
abbrev JobOut : Type := List (Nat × List Byte)

/-- What a run's table makes of the outputs and the acceptance of a block, or of the whole job: written where it stores them, judged where it
tests them. A run that does not hold the operations of its algorithm, or whose inputs software has written over, leaves free values:
LOAD_PARSE does not check the operations, and the spec gives a block operation no operands beyond its place (R204, R232, R234, R237;
log entry 84). `d` names them. -/
def byTable (br : BlockRun) (spoiled : Bool) (d : Nat) (o : JobOut × Bool) : JobOut × Bool :=
  let known := br.complete && !spoiled
  let outs := if known then o.1 else o.1.map (fun x => (x.1, (List.range x.2.length).map (fun i => Config.freeByte d (x.1 + i))))
  (if br.stored then outs else [], !br.tested || (if known then o.2 else bit (Config.freeWord d).toNat 0))

/-- The outputs of several blocks together. -/
def joinOuts (os : List (JobOut × Bool)) : JobOut × Bool := (os.flatMap (·.1), os.all (·.2))

/-- The FP32 place of a block's matrix. -/
abbrev place32 (w : Nat) (m : Mat) : List Byte := blockBytes .fp32 w m

/-- Row `i` of the whole matrix as its block and its place in it. -/
abbrev Parse.split (p : Parse) (i : Nat) : Nat × Nat := (i / p.w, i % p.w)

/-- The element (i, k) of the whole symmetric matrix of a job, from its stored blocks. -/
def wholeEl (p : Parse) (ms : List ((Nat × Nat) × Mat)) (i k : Nat) : Val :=
  let hi := max i k
  let lo := min i k
  match ms.find? (fun x => decide (x.1 = ((p.split lo).1, (p.split hi).1))) with
  | some x => x.2.el (p.split lo).2 (p.split hi).2
  | none => .zero

/-- The element (i, k) lies in a stored block. -/
def wholeStored (p : Parse) (i k : Nat) : Bool := p.stores (min i k / p.w) (max i k / p.w)

/-- A factorisation of a job: per block for BLOCK_DIAG, of the whole matrix otherwise; one member for each stored block. -/
def factorJob (b : List Byte) (p : Parse) (ms : List ((Nat × Nat) × Mat)) (root : Nat) : List (JobOut × Bool) :=
  let ldl := decide (p.alg = 2)
  let outs : List (Mat × Bool) :=
    if p.pattern = 1 then ms.map (fun x =>
      let n := p.width x.1.1
      let g := factorise p.fmt ldl n dense (fun i k => x.2.el i k)
      let m := Mat.of n n (fun i k => g.out ldl i k)
      (m, pivotsOk p.fmt ldl (rtTol b) n x.2.el g && outFinite m))
    else
      let a := wholeEl p ms
      let g := factorise p.fmt ldl p.dim (wholeStored p) a
      let ok := pivotsOk p.fmt ldl (rtTol b) p.dim a g
      ms.map (fun x =>
        let m := Mat.of (p.width x.1.2) (p.width x.1.1) (fun i k => g.out ldl (p.w * x.1.2 + i) (p.w * x.1.1 + k))
        (m, ok && outFinite m))
  outs.zipIdx.map (fun o => ([(root + 4 * p.w * p.w * o.2, place32 p.w o.1.1)], o.1.2))

/-- The columns of right-hand sides for rows `lo` to `lo + n - 1`. -/
def rhsColumn (p : Parse) (rhs : List Val) (lo n col : Nat) : List Val :=
  (List.range n).map (fun i => nth rhs ((lo + i) * p.nrhs + col) .zero)

/-- Columns of X as rows of FP32 at ROOTs. -/
def solutionRows (p : Parse) (root lo n : Nat) (cols : Mat) : Nat × List Byte :=
  (root + 4 * lo * p.nrhs, (List.range n).flatMap (fun i => Fmt.fp32.pack (cols.map (fun c => rne32 (nth c i .zero)))))

/-- TRSV (R209): L X = B, with L the blocks of entry SOURCE's slot in force; at the index of a pair (i, j) with i < j they hold
L's block (j, i). -/
def trsvJob (p : Parse) (ls : List ((Nat × Nat) × Mat)) (rhs : List Val) (root : Nat) : List (JobOut × Bool) :=
  let solve (lo n : Nat) (st : Nat → Nat → Bool) (l : Nat → Nat → Val) : Nat × List Byte × Bool :=
    let cols : Mat := (List.range p.nrhs).map (fun c => forward p.fmt n st l (fun i => rw_ p.fmt (nth (rhsColumn p rhs lo n c) i .zero)))
    let out := solutionRows p root lo n cols
    (out.1, out.2, outFinite cols)
  let outs :=
    if p.pattern = 1 then ls.map (fun x => solve (p.w * (p.first + x.1.1)) (p.width x.1.1) dense x.2.el)
    else
      let el (i k : Nat) : Val := match ls.find? (fun x => decide (x.1 = (k / p.w, i / p.w))) with
        | some x => x.2.el (i % p.w) (k % p.w)
        | none => .zero
      [solve 0 p.dim (wholeStored p) el]
  outs.map (fun o => ([(o.1, o.2.1)], o.2.2))

/-- PCG (R210). -/
def pcgJob (b : List Byte) (p : Parse) (iters : Nat) (ms : List ((Nat × Nat) × Mat)) (rhs : List Val) (saved : Option (List Val))
    (root : Nat) : List (JobOut × Bool) :=
  let f := p.fmt
  let diags := ms.filter (fun x => decide (x.1.1 = x.1.2))
  let facs := diags.map (fun x => (p.width x.1.1, factorise f false (p.width x.1.1) dense x.2.el))
  let facsOk := (diags.zip facs).all (fun y => pivotsOk f false .zero y.2.1 y.1.2.el y.2.2)
  let prec (r : List Val) : List Val := facs.zipIdx.flatMap (fun g =>
    let part := (r.drop (p.w * g.2)).take g.1.1
    backward f g.1.1 g.1.2.el (forward f g.1.1 dense g.1.2.el (fun i => nth part i .zero)))
  let mul := mulK f p.dim (wholeStored p) (wholeEl p ms)
  let cols := (List.range p.nrhs).map (fun c =>
    let x0 := match saved with
      | some x => (rhsColumn p x 0 p.dim c).map (rw_ f)
      | none => List.replicate p.dim .zero
    pcgColumn f iters (rtTol b) mul prec ((rhsColumn p rhs 0 p.dim c).map (rw_ f)) x0)
  [([solutionRows p root 0 p.dim (cols.map (·.1))], facsOk && cols.all (·.2))]

/-- One block of the other algorithms, with its saved iterate. -/
def solveBlock (b : List Byte) (p : Parse) (iters n : Nat) (m : Mat) (saved : Option Mat) : Solved :=
  match p.alg with
  | 4 => spdInv p.fmt n m
  | 5 => jacobiEig p.fmt n iters (rtTol b) m saved
  | 6 => newtonRoot p.fmt n (2 ^ p.pLog2) iters (rtTol b) m saved
  | 7 => newtonSchulz p.fmt n iters (rtTol b) m
  | _ => eigRoot p.fmt n (2 ^ p.pLog2) iters (rtTol b) (rtFloor b) m saved

/-- The place of a block's vectors and values at AUXs (R198). -/
def eigenBytes (w : Nat) (r : Solved) : List Byte :=
  place32 w r.vecs ++ Fmt.fp32.pack ((List.range w).map (fun i => rne32 (nth r.vals i .zero)))

/-- The outputs of a block-diagonal job of those algorithms, block by block: as they stand when the run stores them, and the acceptance as it
stands when the run tests it (R204). -/
def blockJob (b : List Byte) (p : Parse) (run : TableRun) (warm : Bool) (ms : List ((Nat × Nat) × Mat)) (saved : List Mat)
    (root aux : Nat) : List (JobOut × Bool) :=
  ms.zipIdx.map (fun x =>
    let br := p.blockRun run warm x.2
    let at_ (iters : Nat) : Solved := solveBlock b p iters (p.width x.1.1.1) x.1.2 (if warm then saved[x.2]? else none)
    let o := at_ br.iter
    let roots := if p.alg = 5 then [] else [(root + 4 * p.w * p.w * x.2, place32 p.w o.root)]
    let auxs := if p.alg = 5 ∨ p.alg = 8 then [(aux + 4 * (p.w * p.w + p.w) * x.2, eigenBytes p.w o)] else []
    (roots ++ auxs, if br.testIter = br.iter then o.ok else (at_ br.testIter).ok))

/-- The saved iterates of a warm start (R212): the root, or V, of every block of the committed slot. -/
def State.savedBlocks (s : State) (b : List Byte) (p : Parse) (c : CmdRef) : Act (List Mat) :=
  let k := rtCommitted b
  actAll (fun s r =>
    let n := p.width r
    let a := if p.alg = 6 then rtRoot b k + 4 * p.w * p.w * r else rtAux b k + 4 * (p.w * p.w + p.w) * r
    s.readBlock .fp32 a p.w n n c) s (List.range p.n)

/-- FP32 values read, row-major. -/
def State.readWords (s : State) (a n : Nat) (c : CmdRef) : Act (List Val) :=
  (s.readAct a (4 * n) c).bind (fun s bs => (s, .ok ((Fmt.fp32.unpack bs n).map v32)))

/-- What the algorithm of a job's table computes, part by part: its blocks, or the whole job. -/
def State.jobParts (s : State) (j : SolveJob) (img b : List Byte) : Act (List (JobOut × Bool)) :=
  let p := Parse.of img
  let run := runOf p img j.warm
  let k := rtScratch b
  let f := rtAvgFormat b
  let as := p.pairs.zipIdx.map (fun x =>
    let rows := p.width x.1.1
    let cols := p.width x.1.2
    let a := rtAvg b k + p.w * p.w * (f.width / 8) * x.2
    let m : Mat := (List.range rows).map (fun i =>
      (f.unpack (s.hbm.read (a + f.width / 8 * p.w * i) (f.width / 8 * cols)) cols).map f.decode)
    (x.1, m))
  let ms := dampedAll b p as
  let root := rtRoot b k
  let d := p.dim * p.nrhs
  match p.alg with
  | 1 => (s, .ok (factorJob b p ms root))
  | 2 => (s, .ok (factorJob b p ms root))
  | 3 =>
    let src := s.rootAt j.clause (rtSource b)
    let l := rtRoot src (rtCurrent src)
    (s.readWords (rtRhs b) d j.cmd).bind (fun s rhs =>
      (actAll (fun s (x : (Nat × Nat) × Nat) =>
        (s.readBlock .fp32 (l + 4 * p.w * p.w * x.2) p.w (p.width x.1.2) (p.width x.1.1) j.cmd).bind
          (fun s m => (s, .ok (x.1, m.each (rw_ p.fmt))))) s p.pairs.zipIdx).bind
        (fun s ls => (s, .ok (trsvJob p ls rhs root))))
  | 9 =>
    (s.readWords (rtRhs b) d j.cmd).bind (fun s rhs =>
      (s.maybe (if j.warm then some () else none) none (fun s _ =>
        (s.readWords (rtRoot b (rtCommitted b)) d j.cmd).bind (fun s x => (s, .ok (some x))))).bind
      (fun s saved => (s, .ok (pcgJob b p (p.iterations run j.warm 0) ms rhs saved root))))
  | _ =>
    (s.maybe (if j.warm then some () else none) [] (fun s _ => s.savedBlocks b p j.cmd)).bind (fun s saved =>
      (s, .ok (blockJob b p run j.warm ms saved root (rtAux b k))))

/-- What a job that has run its schedule writes, and whether every test of its table passed (R204, R233). -/
def State.jobOutputs (s : State) (j : SolveJob) (img b : List Byte) : Act (JobOut × Bool) :=
  let p := Parse.of img
  let run := runOf p img j.warm
  let runs := (List.range (if p.pattern = 1 then p.n else 1)).map (p.blockRun run j.warm)
  (s.jobParts j img b).bind (fun s os =>
    let d := s.draws
    let s : State := if j.spoiled || !runs.all (·.complete) then { s with draws := s.draws + 1 } else s
    let br (i : Nat) : BlockRun := nth runs (if p.pattern = 1 then i else 0) ⟨false, false, false, 0, 0⟩
    (s, .ok (joinOuts (os.zipIdx.map (fun o => byTable (br o.2) j.spoiled d o.1)))))

/-- The instances of the solver store that a job uses: its cores' private stores, and 32 for the shared store (log entry 34). -/
def storeInstances (p : Parse) : List Nat := coresOf p.mask ++ (if p.sharedKib = 0 then [] else [32])

/-- The result digest: CRC-64 of what was written, in increasing address (R214). -/
def outDigest (o : JobOut) : Nat :=
  if o.isEmpty then 0 else crc64 ((sortBy (fun x y => decide (x.1 ≤ y.1)) o).flatMap (·.2))

/-- A job that succeeds (R214): the outputs and the fingerprint written, and its publication due, but in replay only where the record
marks it (R56). -/
def State.jobSucceeds (s : State) (j : SolveJob) (img : List Byte) (o : JobOut) : State :=
  match actAll (fun s x => s.writeAct x.1 x.2 j.cmd) s o with
  | (s, .fail st) => s.endJob j ⟨st, flag j.cold, 0⟩ false
  | (s, .ok _) =>
    let b := s.rootBytes j.entry
    let k := rtScratch b
    let s := s.putRoot j.entry (overlay b (0x58 + 8 * k) (leBytes 8 (fingerprint img)))
    let publishes := !s.replaying || j.marked
    let s := if publishes then { s with cj := { s.cj with due := s.cj.due ++ [⟨j.entry, some k⟩] } } else s
    let late := s.replaying && j.marked && (s.clause j.clause).passed
    s.endJob j ⟨ST_OK, flag j.cold + 4 * flag late, outDigest o⟩ publishes

/-- A job finishes its schedule and is judged (R204). -/
def State.judgeJob (s : State) (j : SolveJob) : State :=
  let img := s.hbm.read j.table.address j.table.length
  let p := Parse.of img
  let s := s.bump F.CJ_BUSY_CYCLES_CYCLES (busyCycles p img j.warm)
  match s.useStores .solver (storeInstances p) (some j.cmd) with
  | (s, true) => (s.discardSlot j).endJob j ⟨ST_ECC, flag j.cold, 0⟩ false
  | (s, false) => match s.jobOutputs j img (s.rootBytes j.entry) with
    | (s, .fail st) => (s.discardSlot j).endJob j ⟨st, flag j.cold, 0⟩ false
    | (s, .ok r) =>
      if r.2 then s.jobSucceeds j img r.1
      else
        let s := (s.bump F.CJ_COUNT_UNACCEPTED_COUNT 1).raise ⟨0x0402, 2, 4, 0, j.entry, false, some j.cmd⟩
        (s.discardSlot j).endJob j ⟨ST_OK, flag j.cold + 2, 0⟩ false

/-! ## Publication and commit (R214 to R218) -/

/-- The publications due at a Clause boundary. -/
def State.publish (s : State) : State :=
  let s := s.cj.due.foldl (fun (s : State) p =>
    let s := (s.snapRoot p.entry).holdRoot p.entry
    let b := s.rootBytes p.entry
    let b := match p.slot with
      | some k =>
        let b := rtSetValid b k true
        rtSetFlags b k (rtCommitted b) (rtValid b 0) (rtValid b 1) true
      | none => rtSetFlags b (rtCommitted b) (rtCommitted b) (rtValid b 0) (rtValid b 1) true
    (s.putRoot p.entry b).bump F.CJ_COUNT_OK_COUNT 1) s
  { s with cj := { s.cj with due := [] } }

/-- One entry at the commit of Period `n` (R217, R218). -/
def State.commitRoot (s : State) (n e : Nat) : State :=
  let b := s.rootBytes e
  if rtPublished b then
    s.putRoot e (rtSetPeriod (rtSetMiss (rtSetFlags b (rtCurrent b) (rtCurrent b) (rtValid b 0) (rtValid b 1) false) 0) n)
  else if s.cj.submitted.contains ⟨n, e⟩ then
    let miss := min (rtMiss b + 1) 255
    let s := s.putRoot e (rtSetMiss b miss)
    let limit := s.get F.CJ_CTRL_MISS_LIMIT
    if limit ≠ 0 ∧ miss = limit ∧ rtMiss b ≠ limit then
      (s.put F.CJ_LAST_MISS_ENTRY e).raise ⟨0x0404, 0, 4, 0, e, false, none⟩
    else s
  else s

/-- The entries of the table. -/
abbrev State.rootEntries (s : State) : List Nat := List.range (s.get F.CJ_ROOT_COUNT_COUNT)

/-- The sites that Period `n` consumes (R217). -/
def State.consumedSites (s : State) : List Nat :=
  s.rootEntries.filterMap (fun e => let b := s.rootBytes e; if rtPublished b ∧ rtSite b ≠ 0 then some (rtSite b) else none)

/-- The submissions of a Period and the snapshots forgotten. -/
def State.clearRoots (s : State) (n : Nat) : State :=
  { s with cj := { s.cj with submitted := s.cj.submitted.filter (fun x => decide (x.period ≠ n)), snaps := [], held := [], due := [] } }

/-- The table at the commit of Period `n`. -/
def State.commitRoots (s : State) (n : Nat) : State := (s.rootEntries.foldl (fun s e => s.commitRoot n e) s).clearRoots n

/-- The table when Period `n` is discarded before its grant (R217). -/
def State.discardRoots (s : State) (n : Nat) : State :=
  (s.rootEntries.foldl (fun (s : State) e =>
    let b := s.rootBytes e
    if rtPublished b then s.putRoot e (rtSetFlags b (rtCommitted b) (rtCommitted b) (rtValid b 0) (rtValid b 1) false) else s) s).clearRoots n

/-- The solver jobs that a replayed record marks as published have all published (R221). -/
def State.replayPublished (s : State) : Bool :=
  let count (es : List RecEntry) : Nat := (es.filter (·.published)).length
  s.cj.due.isEmpty && decide (count s.replayEntries ≤ count s.pd.entries)

end Sys2Proof.Machine
end

