-- ==== Sys2Proof/Machine/Sha.lean ====
section
/-!
DEFINITION. Machine/Sha.lean: SHA-384 (FIPS 180-4), HMAC and HKDF over it, AES-256-GCM, and the verification of an ECDSA P-384
signature: the algorithms of chapters 10, 13 and 17 that a named external standard fixes.
-/
namespace Sys2Proof.Machine

/-! ## SHA-384 -/

/-- The first 64 fraction bits of the cube roots of the first 80 primes (FIPS 180-4), as one number for each prime. -/
def shaPrimes : List Nat :=
  [2, 3, 5, 7, 11, 13, 17, 19, 23, 29, 31, 37, 41, 43, 47, 53, 59, 61, 67, 71, 73, 79, 83, 89, 97, 101, 103, 107, 109, 113] ++
  [127, 131, 137, 139, 149, 151, 157, 163, 167, 173, 179, 181, 191, 193, 197, 199, 211, 223, 227, 229, 233, 239, 241, 251] ++
  [257, 263, 269, 271, 277, 281, 283, 293, 307, 311, 313, 317, 331, 337, 347, 349, 353, 359, 367, 373, 379, 383, 389, 397] ++
  [401, 409]

/-- The floor of the cube root of `n`, from bit `k` down. -/
def icbrtAux (n : Nat) : Nat → Nat → Nat
  | 0, r => if (r + 1) ^ 3 ≤ n then r + 1 else r
  | k + 1, r => icbrtAux n k (if (r + 2 ^ (k + 1)) ^ 3 ≤ n then r + 2 ^ (k + 1) else r)

/-- The floor of the square root of `n`, from bit `k` down. -/
def isqrtFrom (n : Nat) : Nat → Nat → Nat
  | 0, r => if (r + 1) ^ 2 ≤ n then r + 1 else r
  | k + 1, r => isqrtFrom n k (if (r + 2 ^ (k + 1)) ^ 2 ≤ n then r + 2 ^ (k + 1) else r)

/-- The round constants: fraction bits of cube roots. -/
def shaK : List Nat := shaPrimes.map fun p => icbrtAux (p * 2 ^ 192) 67 0 % 2 ^ 64

/-- The initial hash of SHA-384: fraction bits of the square roots of the 9th to 16th primes. -/
def shaInit : List Nat := ((shaPrimes.drop 8).take 8).map fun p => isqrtFrom (p * 2 ^ 128) 67 0 % 2 ^ 64

/-- Rotation of a 64-bit word to the right. -/
def rotr (n x : Nat) : Nat := x / 2 ^ n + x % 2 ^ n * 2 ^ (64 - n)

/-- The message schedule: `n` more words after the newest-first list `w`. -/
def shaExpand : Nat → List Nat → List Nat
  | 0, w => w
  | n + 1, w =>
    let a := nth w 1 0
    let b := nth w 14 0
    let s1 := rotr 19 a ^^^ rotr 61 a ^^^ (a / 2 ^ 6)
    let s0 := rotr 1 b ^^^ rotr 8 b ^^^ (b / 2 ^ 7)
    shaExpand n ((s1 + nth w 6 0 + s0 + nth w 15 0) % 2 ^ 64 :: w)

/-- The working variables of the compression function. -/
structure ShaVars where
  a : Nat
  b : Nat
  c : Nat
  d : Nat
  e : Nat
  f : Nat
  g : Nat
  h : Nat
deriving DecidableEq, Repr

/-- One round with `k + w`. -/
def shaRound (v : ShaVars) (kw : Nat) : ShaVars :=
  let s1 := rotr 14 v.e ^^^ rotr 18 v.e ^^^ rotr 41 v.e
  let ch := (v.e &&& v.f) ^^^ ((2 ^ 64 - 1 - v.e) &&& v.g)
  let t1 := v.h + s1 + ch + kw
  let s0 := rotr 28 v.a ^^^ rotr 34 v.a ^^^ rotr 39 v.a
  let maj := (v.a &&& v.b) ^^^ (v.a &&& v.c) ^^^ (v.b &&& v.c)
  ⟨(t1 + s0 + maj) % 2 ^ 64, v.a, v.b, v.c, (v.d + t1) % 2 ^ 64, v.e, v.f, v.g⟩

/-- One 128-byte block. -/
def shaBlock (h : List Nat) (block : List Byte) : List Nat :=
  let w16 := (List.range 16).map fun i => ofBE ((block.drop (8 * i)).take 8)
  let w := (shaExpand 64 w16.reverse).reverse
  let v0 : ShaVars := ⟨nth h 0 0, nth h 1 0, nth h 2 0, nth h 3 0, nth h 4 0, nth h 5 0, nth h 6 0, nth h 7 0⟩
  let v := (shaK.zip w).foldl (fun v kw => shaRound v (kw.1 + kw.2)) v0
  (h.zip [v.a, v.b, v.c, v.d, v.e, v.f, v.g, v.h]).map fun p => (p.1 + p.2) % 2 ^ 64

/-- SHA padding for a message of `n` bytes. -/
def shaPad (n : Nat) : List Byte := 0x80 :: (List.replicate ((239 - n % 128) % 128) 0 ++ beBytes 16 (8 * n))

/-- Blocks of 128 bytes, folded (`fuel` blocks). -/
def shaBlocks : Nat → List Nat → List Byte → List Nat
  | 0, h, _ => h
  | n + 1, h, bs => shaBlocks n (shaBlock h (bs.take 128)) (bs.drop 128)

/-- SHA-384 of a byte list: 48 bytes. -/
def sha384 (m : List Byte) : List Byte :=
  let bs := m ++ shaPad m.length
  ((shaBlocks (bs.length / 128) shaInit bs).take 6).flatMap (beBytes 8)

/-- HMAC-SHA-384. -/
def hmac384 (key msg : List Byte) : List Byte :=
  let k := padTo 128 (if key.length > 128 then sha384 key else key)
  sha384 (k.map (· ^^^ 0x5C) ++ sha384 (k.map (· ^^^ 0x36) ++ msg))

/-- HKDF-SHA-384 to 32 bytes (one output block). -/
def hkdf384 (secret salt info : List Byte) : List Byte :=
  let prk := hmac384 (if salt.isEmpty then List.replicate 48 0 else salt) secret
  (hmac384 prk (info ++ [1])).take 32

/-! ## The shard digest (R300) -/

/-- One level of the hash tree. -/
def merkleLevel : List (List Byte) → List (List Byte)
  | a :: b :: t => sha384 (1 :: (a ++ b)) :: merkleLevel t
  | l => l

/-- The root of a list of nodes: levels until one is left (`fuel` levels). -/
def merkleRoot : Nat → List (List Byte) → List Byte
  | 0, l => l.headD []
  | n + 1, l => if l.length ≤ 1 then l.headD [] else merkleRoot n (merkleLevel l)

/-- The digest of a shard of `len` bytes with these leaf hashes. -/
def shardDigest (len : Nat) (leaves : List (List Byte)) : List Byte :=
  sha384 (2 :: (leBytes 8 len ++ merkleRoot leaves.length leaves))

/-- The leaf of one chunk. -/
def shardLeaf (chunk : List Byte) : List Byte := sha384 (0 :: chunk)

/-! ## AES-256-GCM (SP 800-38D) -/

/-- Multiplication by x in GF(2^8). -/
def xtime (b : Nat) : Nat := if b < 128 then 2 * b else (2 * b) % 256 ^^^ 0x1B

/-- Multiplication in GF(2^8), by the bits of `b` (`n` bits). -/
def gmulAux : Nat → Nat → Nat → Nat → Nat
  | 0, _, _, acc => acc
  | n + 1, a, b, acc => gmulAux n (xtime a) (b / 2) (if b % 2 = 1 then acc ^^^ a else acc)

/-- Multiplication in GF(2^8). -/
def gmul (a b : Nat) : Nat := gmulAux 8 a b 0

/-- b^254, the inverse in GF(2^8) (0 for 0). -/
def ginv (b : Nat) : Nat := (List.range 253).foldl (fun acc _ => gmul acc b) b

/-- The S-box. -/
def sbox (b : Nat) : Nat :=
  let i := ginv b
  let rot := fun n => (i * 2 ^ n) % 256 + i / 2 ^ (8 - n)
  i ^^^ rot 1 ^^^ rot 2 ^^^ rot 3 ^^^ rot 4 ^^^ 0x63

/-- The S-box as a table. -/
def sboxTable : List Nat := (List.range 256).map sbox

/-- The key schedule: `n` more 4-byte words (newest first) with round constant `rc`. -/
def aesExpand : Nat → Nat → Nat → List (List Nat) → List (List Nat)
  | 0, _, _, ws => ws
  | n + 1, i, rc, ws =>
    let prev := nth ws 0 []
    let back := nth ws 7 []
    let sub := fun (w : List Nat) => w.map fun b => nth sboxTable b 0
    let t :=
      if i % 8 = 0 then
        match sub (prev.drop 1 ++ prev.take 1) with
        | h :: tl => (h ^^^ rc) :: tl
        | [] => []
      else if i % 8 = 4 then sub prev else prev
    let w := (t.zip back).map fun p => p.1 ^^^ p.2
    aesExpand n (i + 1) (if i % 8 = 0 then xtime rc else rc) (w :: ws)

/-- The 15 round keys of AES-256, 16 bytes each. -/
def aesKeys (key : List Nat) : List (List Nat) :=
  let ws := (aesExpand 52 8 1 (pieces4 key).reverse).reverse
  (List.range 15).map fun r => ((ws.drop (4 * r)).take 4).flatten
where
  pieces4 (k : List Nat) : List (List Nat) := (List.range 8).map fun i => (k.drop (4 * i)).take 4

/-- MixColumns on one column. -/
def mixCol (c : List Nat) : List Nat :=
  let a := nth c 0 0
  let b := nth c 1 0
  let d := nth c 2 0
  let e := nth c 3 0
  [gmul 2 a ^^^ gmul 3 b ^^^ d ^^^ e, a ^^^ gmul 2 b ^^^ gmul 3 d ^^^ e,
   a ^^^ b ^^^ gmul 2 d ^^^ gmul 3 e, gmul 3 a ^^^ b ^^^ d ^^^ gmul 2 e]

/-- SubBytes and ShiftRows. -/
def subShift (s : List Nat) : List Nat :=
  (List.range 16).map fun i => nth sboxTable (nth s ((i + 4 * (i % 4)) % 16) 0) 0

/-- Byte-wise exclusive or. -/
def xorList (a b : List Nat) : List Nat := (a.zip b).map fun p => p.1 ^^^ p.2

/-- AES-256 of one 16-byte block. -/
def aesBlock (keys : List (List Nat)) (s : List Nat) : List Nat :=
  let mid := (List.range 13).foldl (fun s r =>
    let t := subShift s
    xorList ((List.range 4).flatMap fun c => mixCol ((t.drop (4 * c)).take 4)) (nth keys (r + 1) []))
    (xorList s (nth keys 0 []))
  xorList (subShift mid) (nth keys 14 [])

/-- Multiplication in GF(2^128) of GHASH, over the bits of `y` from the top (`n` bits). -/
def ghashMulAux : Nat → Nat → Nat → Nat → Nat
  | 0, _, _, z => z
  | n + 1, v, y, z =>
    let z := if y / 2 ^ n % 2 = 1 then z ^^^ v else z
    ghashMulAux n (if v % 2 = 1 then v / 2 ^^^ (0xE1 * 2 ^ 120) else v / 2) y z

/-- GHASH product. -/
def ghashMul (x y : Nat) : Nat := ghashMulAux 128 x y 0

/-- Byte list padded to whole 16-byte blocks, as numbers (`n` blocks). -/
def ghashBlocks : Nat → List Byte → List Nat
  | 0, _ => []
  | n + 1, bs => ofBE (padTo 16 (bs.take 16)) :: ghashBlocks n (bs.drop 16)

/-- GHASH of AAD and ciphertext under `h`. -/
def ghash (h : Nat) (aad ct : List Byte) : Nat :=
  let bl := ghashBlocks (cdiv aad.length 16) aad ++ ghashBlocks (cdiv ct.length 16) ct
    ++ [8 * aad.length * 2 ^ 64 + 8 * ct.length]
  bl.foldl (fun y b => ghashMul (y ^^^ b) h) 0

/-- Counter-mode keystream over `bs` from counter `c` with IV `iv` (12 bytes); `fuel` blocks. -/
def gctr (keys : List (List Nat)) (iv : List Byte) : Nat → Nat → List Byte → List Byte
  | 0, _, _ => []
  | n + 1, c, bs =>
    let ks := aesBlock keys ((iv ++ beBytes 4 c).map BitVec.toNat)
    ((bs.take 16).zip ks).map (fun p => p.1 ^^^ BitVec.ofNat 8 p.2) ++ gctr keys iv n (c + 1) (bs.drop 16)

/-- AES-256-GCM encryption: ciphertext and 16-byte tag. -/
def gcmEncrypt (key iv aad pt : List Byte) : List Byte × List Byte :=
  let keys := aesKeys (key.map BitVec.toNat)
  let h := ofBE ((aesBlock keys (List.replicate 16 0)).map (BitVec.ofNat 8))
  let ct := gctr keys iv (cdiv pt.length 16) 2 pt
  let j0 := aesBlock keys ((iv ++ beBytes 4 1).map BitVec.toNat)
  (ct, beBytes 16 (ghash h aad ct ^^^ ofBE (j0.map (BitVec.ofNat 8))))

/-- AES-256-GCM decryption; none when the tag does not verify. -/
def gcmDecrypt (key iv aad ct tag : List Byte) : Option (List Byte) :=
  let keys := aesKeys (key.map BitVec.toNat)
  let h := ofBE ((aesBlock keys (List.replicate 16 0)).map (BitVec.ofNat 8))
  let j0 := aesBlock keys ((iv ++ beBytes 4 1).map BitVec.toNat)
  if beBytes 16 (ghash h aad ct ^^^ ofBE (j0.map (BitVec.ofNat 8))) = tag then
    some (gctr keys iv (cdiv ct.length 16) 2 ct)
  else none

/-! ## ECDSA P-384 verification (FIPS 186) -/

/-- The field prime. -/
def p384 : Nat := 2 ^ 384 - 2 ^ 128 - 2 ^ 96 + 2 ^ 32 - 1

/-- The group order. -/
def n384 : Nat :=
  0xFFFFFFFFFFFFFFFFFFFFFFFFFFFFFFFFFFFFFFFFFFFFFFFFC7634D81F4372DDF581A0DB248B0A77AECEC196ACCC52973

/-- The curve's constant b. -/
def b384 : Nat :=
  0xB3312FA7E23EE7E4988E056BE3F82D19181D9C6EFE8141120314088F5013875AC656398D8A2ED19D2A85C8EDD3EC2AEF

/-- The base point. -/
def g384 : Nat × Nat :=
  (0xAA87CA22BE8B05378EB1C71EF320AD746E1D3B628BA79B9859F741E082542A385502F25DBF55296C3A545E3872760AB7,
   0x3617DE4A96262C6F5D9E98BF9292DC29F8F41DBD289A147CE9DA3113B5F0B8C00A60B1CE1D7E819D7A431D7C90EA0E5F)

/-- a^e mod m over the low `n` bits of e. -/
def powModAux (m : Nat) : Nat → Nat → Nat → Nat → Nat
  | 0, _, _, acc => acc
  | n + 1, a, e, acc => powModAux m n (a * a % m) (e / 2) (if e % 2 = 1 then acc * a % m else acc)

/-- The inverse of `a` modulo the prime `m`. -/
def invMod (m a : Nat) : Nat := powModAux m 384 (a % m) (m - 2) 1

/-- A point of the curve; none is the point at infinity. -/
abbrev Point := Option (Nat × Nat)

/-- Addition on the curve (a = -3). -/
def ecAdd : Point → Point → Point
  | none, q => q
  | p, none => p
  | some (x1, y1), some (x2, y2) =>
    let p := p384
    if x1 = x2 ∧ (y1 + y2) % p = 0 then none
    else
      let l := if x1 = x2 then (3 * x1 * x1 + (p - 3)) * invMod p (2 * y1) % p
        else (y2 + p - y1) * invMod p (x2 + p - x1) % p
      let x3 := (l * l + 2 * p - x1 - x2) % p
      some (x3, (l * (x1 + p - x3) + p - y1) % p)

/-- The negative of a point. -/
def ecNeg (q : Point) : Point := q.map (fun q => (q.1, (p384 - q.2) % p384))

/-- k times a point, over the low `n` bits of k. -/
def ecMulAux : Nat → Nat → Point → Point → Point
  | 0, _, _, acc => acc
  | n + 1, k, q, acc => ecMulAux n (k / 2) (ecAdd q q) (if k % 2 = 1 then ecAdd acc q else acc)

/-- Whether a point satisfies the curve equation. -/
def onCurve (x y : Nat) : Bool :=
  decide (x < p384) && decide (y < p384) && decide (y * y % p384 = (x * x * x + (p384 - 3) * x + b384) % p384)

/-- ECDSA P-384 over a SHA-384 digest. -/
def ecdsaVerify (pubX pubY r s : Nat) (digest : List Byte) : Bool :=
  if r = 0 ∨ r ≥ n384 ∨ s = 0 ∨ s ≥ n384 ∨ !onCurve pubX pubY then false
  else
    let w := invMod n384 s
    let u1 := ofBE digest * w % n384
    let u2 := r * w % n384
    match ecAdd (ecMulAux 384 u1 (some g384) none) (ecMulAux 384 u2 (some (pubX, pubY)) none) with
    | none => false
    | some (x, _) => x % n384 == r

end Sys2Proof.Machine
end

