-- ==== Sys2Proof/Machine/Telemetry.lean ====
section
/-!
DEFINITION. Machine/Telemetry.lean: the numeric sensors and their thresholds (R514, R517, R518).
-/
namespace Sys2Proof.Machine

/-- The place of a reading among a sensor's thresholds: 0 within, 1 to 3 above a warning, critical or fatal threshold, 5 and 6
below a warning or critical one. -/
structure Thresholds where
  above : List Nat
  below : List Nat

/-- The level of a reading. -/
def Thresholds.level (t : Thresholds) (x : Nat) : Nat :=
  let high := t.above.countP (fun y => decide (y < x))
  let low := t.below.countP (fun y => decide (x < y))
  if 0 < high then high else if 0 < low then 4 + low else 0

/-- The severity of a level: 1 warning, 2 critical, 3 fatal. -/
abbrev severity (l : Nat) : Nat := if 4 ≤ l then l - 4 else l

/-- R517's thresholds, in the units of the readings: mV, 10 mA, W/10, °C and MHz. -/
def thresholds (id : Nat) : Thresholds :=
  if id = 1 then ⟨[40500, 43000], [32000, 30500]⟩
  else if id = 3 then ⟨[19000, 20000], []⟩
  else if 4 ≤ id ∧ id ≤ 8 then ⟨[100, 105, 115], []⟩
  else if 9 ≤ id ∧ id ≤ 24 then ⟨[85, 95], []⟩
  else if id = 25 then ⟨[], [3600, 1200]⟩
  else ⟨[], []⟩

/-- A numeric sensor has a new reading: when it has crossed a threshold, a sensorEvent is queued, and ALERT is set when a critical or
fatal threshold was crossed (R518, R519). -/
def State.sensor (s : State) (id reading : Nat) : State :=
  let new := (thresholds id).level reading
  let old := (alGet s.mgmt.levels id).getD 0
  if new = old then s
  else
    let levels := if new = 0 then alErase id s.mgmt.levels else alSet id new s.mgmt.levels
    let s := { s with mgmt := { s.mgmt with levels := levels } }
    s.queuePldm (.sensor id new) (decide (2 ≤ max (severity old) (severity new)))

end Sys2Proof.Machine
end

