-- ==== Sys2Proof/Machine/DataMover.lean ====
section
/-!
DEFINITION. Machine/DataMover.lean: copies and fills (R290 to R292), gather windows (R293 to R295), and the Tense banks: loading,
verification and the swap (R297 to R306).
-/
namespace Sys2Proof.Machine

/-- 1 MiB: a block of DMA_COPY's digests and a chunk of a shard. -/
abbrev mebi : Nat := 0x100000

/-- The 1 MiB blocks of `n` bytes: offset and length. -/
def blocksOf (n : Nat) : List (Nat × Nat) :=
  (List.range (cdiv n mebi)).map (fun k => (k * mebi, min mebi (n - k * mebi)))

/-! ## DMA_COPY and FILL -/

/-- The block digests of R291. -/
def blockDigests (bs : List Byte) : List Byte :=
  (blocksOf bs.length).flatMap (fun b => leBytes 8 (crc64 ((bs.drop b.1).take b.2)))

/-- A command whose destination range is then undefined ends with a status (R292). -/
def State.failCopy (s : State) (dst n st : Nat) : Body := (s.forgetAt dst n).fail st

/-- DMA_COPY's encodings (R290). -/
def copyEncoded (p : CopyParams) : Bool :=
  decide (1 ≤ p.length.toNat ∧ p.length.toNat ≤ 2 ^ 40) && (!p.digest || decide (p.digestAddr.toNat % 8 = 0))

/-- What keeps a DMA_COPY from running (R168, R280, R292, R298). The two ranges are compared where they lie, an alias in its bank, once
the bank's state has been checked. -/
def State.copyFault (s : State) (h : Hdr) (p : CopyParams) : Option Nat :=
  let n := p.length.toNat
  let src := p.src.toNat
  let dst := p.dst.toNat
  let dg := if p.digest then [(p.digestAddr.toNat, 8 * cdiv n mebi)] else []
  if s.fenceHit h ((dst, n) :: dg) then some ST_BAD_PARAM
  else match firstFault (s.spanFault src n false :: s.spanFault dst n true :: dg.map (fun r => s.spanFault r.1 r.2 true)) with
    | some st => some st
    | none => if overlaps (s.physical src) n dst n then some ST_BAD_PARAM else none

/-- DMA_COPY's body. -/
def State.dmaCopy (s : State) (h : Hdr) (p : CopyParams) (c : CmdRef) : Body :=
  let n := p.length.toNat
  let dst := p.dst.toNat
  if !copyEncoded p then s.fail ST_BAD_PARAM
  else match s.copyFault h p with
    | some st => s.fail st
    | none => match s.readAct p.src.toNat n c with
      | (s, .fail st) => s.failCopy dst n st
      | (s, .ok bs) => match s.writeAct dst bs c with
        | (s, .fail st) => s.failCopy dst n st
        | (s, .ok _) =>
          if p.digest then match s.writeAct p.digestAddr.toNat (blockDigests bs) c with
            | (s, .fail st) => s.failCopy dst n st
            | (s, .ok _) => s.ok (crc64 bs)
          else s.ok (crc64 bs)

/-- WIDTH in bytes. -/
def fillBytes : FillWidth → Nat
  | .one => 1 | .two => 2 | .four => 4 | .eight => 8

/-- The bytes that FILL writes. -/
def fillPattern (w pattern n : Nat) : List Byte := (List.replicate (n / w) (leBytes w pattern)).flatten

/-- FILL's body. -/
def State.fillBody (s : State) (h : Hdr) (dst n : Nat) (width : FillWidth) (pattern : Nat) (c : CmdRef) : Body :=
  let w := fillBytes width
  s.guard [(decide (dst % w ≠ 0 ∨ n = 0 ∨ n % w ≠ 0), ST_BAD_PARAM), (s.fenceHit h [(dst, n)], ST_BAD_PARAM)]
    (fun s => match s.spanFault dst n true with
      | some st => s.fail st
      | none =>
        let bs := fillPattern w pattern n
        match s.writeAct dst bs c with
        | (s, .fail st) => s.failCopy dst n st
        | (s, .ok _) => s.ok (crc64 bs))

/-! ## Gather windows -/

/-- A layer entry (R293). -/
structure LayerEntry where
  src   : Nat
  piece : Nat
  axis  : Nat
  ring  : Nat

/-- A layer entry from its 32 bytes. -/
def LayerEntry.parse (bs : List Byte) : LayerEntry :=
  let r := leAt bs 0x11 1
  ⟨leAt bs 0 6, leAt bs 8 8, leAt bs 0x10 1 % 4, if r = 0 then 256 else r⟩

/-- The encodings of a layer entry: PIECE a multiple of 64, AXIS not 3, and its reserved bits 0 (R293, R294). -/
def layerOk (bs : List Byte) (slotBytes : Nat) : Bool :=
  let e := LayerEntry.parse bs
  decide (e.piece % 64 = 0 ∧ e.axis ≠ 3 ∧ e.ring * e.piece ≤ slotBytes ∧ leAt bs 6 2 = 0 ∧ leAt bs 0x10 1 / 4 = 0 ∧ leAt bs 0x12 14 = 0)

/-- GATHER_WINDOW SETUP's body. -/
def State.gatherSetup (s : State) (count base slotBytes table : Nat) (c : CmdRef) : Body :=
  s.guard [(decide (count = 0 ∨ 4096 < count ∨ base % 4096 ≠ 0 ∨ slotBytes % 4096 ≠ 0 ∨ table % 64 ≠ 0), ST_BAD_PARAM),
      (!s.idle, ST_NOT_READY), (!inHbm base (3 * slotBytes), ST_BAD_PARAM)] (fun s =>
    match s.spanFault table (32 * count) false with
    | some st => s.fail st
    | none => s.reading table (32 * count) c (fun s bs =>
      if allBelow count (fun i => layerOk ((bs.drop (32 * i)).take 32) slotBytes) then
        ({ s with dm := { s.dm with gather := some ⟨count, base, slotBytes, table⟩ } }).ok 0
      else s.fail ST_BAD_PARAM))

/-- Whether a slot of the gather window is held. -/
abbrev State.slotHeld (s : State) (k : Nat) : Bool := bit (s.get F.GW_STATE_HELD) k

/-- `s` with a slot held or not. -/
def State.holdSlot (s : State) (k : Nat) (b : Bool) : State :=
  let w := s.get F.GW_STATE_HELD
  if bit w k = b then s else s.put F.GW_STATE_HELD (if b then w + 2 ^ k else w - 2 ^ k)

/-- The tick clears all three slots, and their contents are then undefined (R295). -/
def State.dropWindows (s : State) : State :=
  let s := s.put F.GW_STATE_HELD 0
  match s.dm.gather with
  | some g => s.forgetHbm g.base (g.base + 3 * g.slotBytes)
  | none => s

/-! ## Shards and their manifests -/

/-- A manifest for `n` bytes: its chunks' leaves, where it is consistent (R301). A FORMAT other than 0x0001 is no manifest. -/
def manifestLeaves (m : List Byte) (n : Nat) : Option (List (List Byte)) :=
  let count := cdiv n mebi
  let leaves := (List.range count).map (fun i => (m.drop (0x80 + 48 * i)).take 48)
  if leAt m 0 2 = 1 ∧ leAt m 4 4 = count ∧ shardDigest n leaves = (m.drop 0x40).take 48 then some leaves else none

/-- The bytes of a manifest for `n` bytes. -/
abbrev manifestSize (n : Nat) : Nat := 128 + 48 * cdiv n mebi

/-- A digest mismatch recorded (R303, R305): `DM_FAIL` and `DM_COUNTS.FAILS`. -/
def State.chunkFailed (s : State) (chunk target : Nat) : State :=
  ((s.put F.DM_FAIL_CHUNK chunk).put F.DM_FAIL_TARGET target).bump F.DM_COUNTS_FAILS 1

/-- The range of the PRESENT bank. -/
def State.presentRange (s : State) : Nat × Nat :=
  let k := s.bankOf .present
  (s.get (F.TB_BASE_BASE k), s.get (F.TB_LEN_LENGTH k))

/-- A running command holds the FUTURE bank (R297): a transfer whose source, or one of whose SEND moves, lies in the FUTURE alias. -/
def State.futureHeld (s : State) : Bool :=
  let future (a : Nat) : Bool := decide (spaceOf a = some .future)
  s.coll.runs.any (fun r => future r.p.src.toNat || r.moves.any (fun m => m.send && future m.addr))

/-- A load that has failed: the bank FAILED. -/
def State.loadFailed (s : State) (bank st : Nat) : Body := (s.putBankState bank 3).fail st

/-- The chunks of a load from memory, in order: each is read, written to its place, hashed and compared. A chunk that does not match
is not kept. -/
def State.loadChunks (s : State) (src dst bank : Nat) (c : CmdRef) : List (Nat × (Nat × Nat) × List Byte) → Body
  | [] => (s.putBankState bank 2, none)
  | (i, (o, n), leaf) :: rest =>
    match s.readAct (src + o) n c with
    | (s, .fail st) => s.loadFailed bank st
    | (s, .ok bs) => match s.writeAct (dst + o) bs c with
      | (s, .fail st) => s.loadFailed bank st
      | (s, .ok _) =>
        if shardLeaf bs = leaf then s.loadChunks src dst bank c rest
        else ((s.forgetHbm (dst + o) (dst + o + n)).chunkFailed i bank).loadFailed bank ST_DIGEST

/-- Chunk number, place and leaf of every chunk. -/
def chunkTable (n : Nat) (leaves : List (List Byte)) : List (Nat × (Nat × Nat) × List Byte) :=
  ((blocksOf n).zip leaves).zipIdx.map (fun p => (p.2, p.1.1, p.1.2))

/-- The result digest of a verified shard: the first 8 bytes of its digest. -/
abbrev shardResult (n : Nat) (leaves : List (List Byte)) : Nat := leAt (shardDigest n leaves) 0 8

/-- A load that has passed its checks: the bank LOADING and its registers set (R303). -/
def State.beginLoad (s : State) (bank dst n manifest : Nat) : State :=
  (((s.put (F.TB_BASE_BASE bank) dst).put (F.TB_LEN_LENGTH bank) n).put (F.TB_MANIFEST_MANIFEST bank) manifest).putBankState bank 1

/-- LOAD_SHARD's encodings (R302). -/
def loadEncoded (p : LoadParams) : Bool :=
  decide (p.dst.toNat % mebi = 0 ∧ 1 ≤ p.length.toNat ∧ p.length.toNat ≤ 2 ^ 36 ∧ p.manifest.toNat % 64 = 0) &&
    (match p.source with
      | .memory _ => true
      | .stream id => decide (2 ^ 31 ≤ id.toNat))

/-- LOAD_SHARD's checks that come before the manifest is read: of the state, and then of the ranges (R303). -/
def State.loadFault (s : State) (p : LoadParams) : Option Nat :=
  let n := p.length.toNat
  let pr := s.presentRange
  if s.on F.TB_STATE_ARMED || s.dm.load.isSome || s.futureHeld then some ST_NOT_READY
  else if !inHbm p.dst.toNat n || overlaps p.dst.toNat n pr.1 pr.2 then some ST_BAD_PARAM
  else firstFault [(match p.source with
      | .memory src => s.spanFault src.toNat n false
      | .stream _ => none), s.spanFault p.manifest.toNat 128 false]

/-- The manifest of `n` bytes at an address read and checked: its leaves; a LENGTH that differs fails with ST_BAD_PARAM, and an
inconsistent one with ST_DIGEST. -/
def State.readManifest (s : State) (a n : Nat) (c : CmdRef) : Act (List (List Byte)) :=
  (s.readAct a 128 c).bind (fun s hd =>
    if leAt hd 8 8 ≠ n then (s, .fail ST_BAD_PARAM)
    else if leAt hd 4 4 ≠ cdiv n mebi then (s, .fail ST_DIGEST)
    else match s.spanFault a (manifestSize n) false with
      | some st => (s, .fail st)
      | none => (s.readAct a (manifestSize n) c).bind (fun s m =>
        match manifestLeaves m n with
        | some leaves => (s, .ok leaves)
        | none => (s, .fail ST_DIGEST)))

/-- LOAD_SHARD's body. From a stream the command stays in flight until its data have landed. Its source and its manifest are those of the
bank that stood behind an alias when it started (R297). -/
def State.loadShard (s : State) (p : LoadParams) (c : CmdRef) : Body :=
  let n := p.length.toNat
  let dst := p.dst.toNat
  if !loadEncoded p then s.fail ST_BAD_PARAM
  else match s.loadFault p with
    | some st => s.fail st
    | none => (s.readManifest p.manifest.toNat n c).body (fun s leaves =>
      let bank := s.bankOf .future
      let manifest := s.physical p.manifest.toNat
      let from_ := match p.source with
        | .memory src => s.physical src.toNat
        | .stream _ => 0
      let s := s.beginLoad bank dst n p.manifest.toNat
      match p.source with
      | .stream id => ({ s with dm := { s.dm with load := some ⟨c, bank, id.toNat, dst, n, manifest, []⟩ } }, none)
      | .memory _ =>
        match s.loadChunks from_ dst bank c (chunkTable n leaves) with
        | (s, some d) => (s, some d)
        | (s, none) => s.ok (shardResult n leaves))

/-- The chunks that a piece of a stream completes: those it touches that are now covered. -/
def LoadRun.completed (r : LoadRun) (off len : Nat) : List (Nat × (Nat × Nat)) :=
  ((blocksOf r.length).zipIdx.map (fun p => (p.2, p.1))).filter (fun k =>
    overlaps k.2.1 k.2.2 off len && covers r.landed k.2.1 (k.2.1 + k.2.2))

/-- The running load ends with a status and its bank's state. -/
def State.endLoad (s : State) (r : LoadRun) (bankState : Nat) (d : Done) : State :=
  (({ s with dm := { s.dm with load := none } }).putBankState r.bank bankState).finish r.cmd d

/-- Data of the running stream's load (R303, R316): written at DST + OFFSET, and each chunk that is now whole compared with its
leaf. The leaves are read from the manifest again. A message that reaches beyond LENGTH brings nothing. -/
def State.loadData (s : State) (r : LoadRun) (off : Nat) (bs : List Byte) : State :=
  match s.writeHbm (r.dst + off) bs (some r.cmd) with
  | (s, some st) => s.endLoad r 3 (Done.fail st)
  | (s, none) =>
    let r : LoadRun := { r with landed := r.landed ++ [(off, bs.length)] }
    let s := { s with dm := { s.dm with load := some r } }
    let leaf (k : Nat) : List Byte := s.peek (r.manifest + 0x80 + 48 * k) 48
    let good (k : Nat × (Nat × Nat)) : Bool := decide (shardLeaf (s.hbm.read (r.dst + k.2.1) k.2.2) = leaf k.1)
    match (r.completed off bs.length).find? (fun k => !good k) with
    | some k =>
      ((s.forgetHbm (r.dst + k.2.1) (r.dst + k.2.1 + k.2.2)).chunkFailed k.1 r.bank).endLoad r 3 (Done.fail ST_DIGEST)
    | none =>
      if covers r.landed 0 r.length then
        let leaves := (List.range (cdiv r.length mebi)).map leaf
        s.endLoad r 2 (Done.ok (shardResult r.length leaves))
      else s

/-! ## Verification (R305, R306) -/

/-- The chunks of a range compared with their leaves; the first that does not match, or the status of a read that failed. -/
def State.verifyChunks (s : State) (a : Nat) (c : CmdRef) : List (Nat × (Nat × Nat) × List Byte) → Act (Option Nat)
  | [] => (s, .ok none)
  | (i, (o, n), leaf) :: rest =>
    (s.readAct (a + o) n c).bind (fun s bs => if shardLeaf bs = leaf then s.verifyChunks a c rest else (s, .ok (some i)))

/-- A range compared with the leaves of a manifest. -/
def State.verifyRange (s : State) (a n manifest : Nat) (c : CmdRef) : Act (Option Nat) :=
  match s.spanFault manifest (manifestSize n) false with
  | some st => (s, .fail st)
  | none => (s.readAct (manifest + 0x80) (48 * cdiv n mebi) c).bind (fun s m =>
    let leaves := (List.range (cdiv n mebi)).map (fun i => (m.drop (48 * i)).take 48)
    s.verifyChunks a c (chunkTable n leaves))

/-- A mismatch in a bank (R305): PRESENT_DIGEST_FAIL or FUTURE_DIGEST_FAIL, and the bank FAILED. -/
def State.bankMismatch (s : State) (bank chunk : Nat) (c : Option CmdRef) : State :=
  let s := (s.chunkFailed chunk bank).putBankState bank 3
  if bank = s.bankOf .present then s.raise ⟨0x0802, 3, 8, 0, chunk, false, c⟩
  else s.raise ⟨0x0803, 2, 8, 0, chunk, false, c⟩

/-- VERIFY_SHARD of a bank. -/
def State.verifyBank (s : State) (bank : Nat) (c : CmdRef) : Body :=
  if s.bankState bank ≠ 2 then s.fail ST_NOT_READY
  else (s.verifyRange (s.get (F.TB_BASE_BASE bank)) (s.get (F.TB_LEN_LENGTH bank)) (s.get (F.TB_MANIFEST_MANIFEST bank)) c).body
    (fun s bad => match bad with
      | none => s.ok 0
      | some k => (s.bankMismatch bank k (some c)).fail ST_DIGEST)

/-- VERIFY_SHARD's body. -/
def State.verifyShard (s : State) (t : VerifyTarget) (c : CmdRef) : Body :=
  match t with
  | .present => s.verifyBank (s.bankOf .present) c
  | .future => s.verifyBank (s.bankOf .future) c
  | .region a n m =>
    if n = 0 then s.fail ST_BAD_PARAM
    else match firstFault [s.spanFault a.toNat n.toNat false, s.spanFault m.toNat (manifestSize n.toNat) false] with
      | some st => s.fail st
      | none => (s.verifyRange a.toNat n.toNat m.toNat c).body (fun s bad => match bad with
        | none => s.ok 0
        | some k => (s.chunkFailed k 2).fail ST_DIGEST)

/-- A command that stands for the module's own re-verification: none is in flight. -/
abbrev noCmd : CmdRef := ⟨0, 0, 0, 0, false, 0⟩

/-- One re-verification pass over a bank (R306). -/
def State.reverify (s : State) (bank : Nat) : State :=
  if s.on F.DM_REVERIFY_ENABLE && decide (0 < s.get F.DM_REVERIFY_ENGINES) && decide (s.bankState bank = 2) then
    match s.verifyRange (s.get (F.TB_BASE_BASE bank)) (s.get (F.TB_LEN_LENGTH bank)) (s.get (F.TB_MANIFEST_MANIFEST bank)) noCmd with
    | (s, .ok none) => s.bump F.DM_COUNTS_PASSES 1
    | (s, .ok (some k)) => s.bankMismatch bank k none
    | (s, .fail _) => s
  else s

/-! ## The swap (R304) -/

/-- The tick of a Period has already passed: it is the current Period while one runs, or an earlier one. -/
def State.tickPassed (s : State) (p : Nat) : Bool :=
  if s.pcState = 2 ∨ s.pcState = 3 then decide (p ≤ s.get F.PC_PERIOD_PERIOD) else decide (p < s.currentPeriod)

/-- SWAP_TENSE's body. -/
def State.swapTense (s : State) (at_ : Nat) (cancel : Bool) : Body :=
  if cancel then (s.put F.TB_STATE_ARMED 0).ok 0
  else
    s.guard [(decide (s.bankState (s.bankOf .future) ≠ 2), ST_NOT_READY), (s.tickPassed at_, ST_BAD_PARAM)] (fun s =>
      ((s.put F.TB_STATE_ARMED 1).put F.TB_AT_AT_PERIOD at_).ok 0)

/-- An address of one alias as the address of the other, so that it goes on naming the same bank across a swap. -/
def swapAlias (a : BitVec 48) : BitVec 48 :=
  match spaceOf a.toNat with
  | some .present => a + 0x1000000000
  | some .future => a - 0x1000000000
  | _ => a

/-- The tick of Period `n` (R304): an armed swap is made. A command keeps the bank it started with (R297). -/
def State.tickSwap (s : State) (n : Nat) : State :=
  if s.on F.TB_STATE_ARMED && decide (s.get F.TB_AT_AT_PERIOD ≤ n) then
    let s := (s.put F.TB_STATE_PRESENT (1 - s.get F.TB_STATE_PRESENT)).put F.TB_STATE_ARMED 0
    let keepMove (m : Move) : Move := { m with addr := (swapAlias (BitVec.ofNat 48 m.addr)).toNat }
    let keep (r : CollRun) : CollRun := { r with p := { r.p with src := swapAlias r.p.src }, moves := r.moves.map keepMove }
    let s := { s with coll := { s.coll with runs := s.coll.runs.map keep } }
    s.raise (Ev.plain 0x0801 0 8 0)
  else s

/-! ## HBM (R282 to R285) -/

/-- The scrub's read of a line that it finds correctable: the controller's check of R284, as for every read. -/
def State.scrubCorrected (s : State) (k line : Nat) (injected : Bool) : State :=
  (s.bump (F.HM_ECC_CORRECTED k) 1).raise ⟨0x0601, 1, 6, k, line, injected, none⟩

/-- The scrub's read of an uncorrectable line: R284's check, and, for a line that was not poisoned yet, HBM_SCRUB_POISON (R285). -/
def State.scrubPoisoned (s : State) (k line : Nat) (injected : Bool) : State :=
  let fresh := !s.poison.contains line
  let s : State := { s with poison := if fresh then line :: s.poison else s.poison }
  let s := (s.bump (F.HM_ECC_UNCORRECTABLE k) 1).bump (F.HM_ECC_POISONED k) (flag fresh)
  let s := (s.put (F.HM_ERR_ADDR_ADDR k) line).raise ⟨0x0602, 2, 6, k, line, injected, none⟩
  if fresh then s.raise ⟨0x0603, 2, 6, k, line, injected, none⟩ else s

/-- One line of the stack that the patrol scrub finds bad (R285). -/
def State.scrubLine (s : State) (k : Nat) (f : ScrubFinding) : State :=
  let line := f.line.toNat / 64 * 64
  if s.stackOf line ≠ k then s
  else if f.uncorrectable then s.scrubPoisoned k line false
  else s.scrubCorrected k line false

/-- The scrub reads every line, so it meets the poisoned lines of the stack and the errors armed in its lines (R284, R285, R555). -/
def State.scrubArmed (s : State) (k : Nat) : State :=
  let armed := s.inject.filter (fun i => (decide (i.kind = 4) || decide (i.kind = 5)) && decide (s.stackOf i.address = k))
  let struck := armed.map (fun i => i.address / 64 * 64)
  let old := (s.poison.filter (fun l => decide (s.stackOf l = k) && !struck.contains l))
  let s := old.foldl (fun (s : State) l => s.scrubPoisoned k l false) s
  armed.foldl (fun s i =>
    let s : State := { s with inject := s.inject.erase i }
    let line := i.address / 64 * 64
    if i.kind = 5 ∨ s.poison.contains line then s.scrubPoisoned k line true else s.scrubCorrected k line true) s

/-- A stack's temperature as read (R283): `HM_STATUS.TEMP` and HOT, with HBM_HOT when it rises above 85 °C. -/
def State.stackTemperature (s : State) (k t : Nat) : State :=
  let s := (s.put (F.HM_STATUS_TEMP k) t).sensor (9 + k) t
  if 85 < t then
    if s.on (F.HM_STATUS_HOT k) then s
    else (s.put (F.HM_STATUS_HOT k) 1).raise (Ev.plain 0x0604 0 6 k)
  else s.put (F.HM_STATUS_HOT k) 0

/-- A change of `DM_MAP.LOCAL`: the contents of every region whose bit changed are undefined (R282). -/
def State.remapRegions (s : State) (map : Nat) : State :=
  let changed := (List.range 6).filter (fun r => decide (bit (s.get F.DM_MAP_LOCAL) r ≠ bit map r))
  changed.foldl (fun s r => s.forgetHbm (r * 2 ^ 36) ((r + 1) * 2 ^ 36)) (s.put F.DM_MAP_LOCAL map)

/-- A command is running (R282). -/
def State.commandRunning (s : State) : Bool := s.cp.flights.any (fun f => decide (f.phase = .dispatched))

/-- A write of `DM_MAP`: LOCAL while the module is IDLE or HALTED with no command running and LOCK clear; LOCK is W1S. -/
def State.writeMap (s : State) (map : Nat) (lock : Bool) : State :=
  let s := if s.idle && !s.commandRunning && !s.on F.DM_MAP_LOCK then s.remapRegions map else s
  if lock then s.put F.DM_MAP_LOCK 1 else s

end Sys2Proof.Machine
end

