-- ==== Sys2Proof/Machine/Queues.lean ====
section
/-!
DEFINITION. Machine/Queues.lean: the commands that have been read and have not ended: when each may be dispatched (R418, R421 to R424),
how a bound one is attached to its Clause instance (R422), and the deferred weight-gradient queue (R144 to R151).
-/
namespace Sys2Proof.Machine

/-! ## The commands of a ring -/

/-- The commands of a ring that have been read and have not ended, in ring order. -/
def State.ringFlights (s : State) (k : Nat) : List Flight := s.cp.flights.filter (fun f => decide (f.ref.ring = k))

/-- The next command of a ring to be dispatched. -/
def State.nextFlight (s : State) (k : Nat) : Option Flight := (s.ringFlights k).find? (fun f => decide (f.phase = .waiting))

/-- `s` with a command in hand changed. -/
def State.setFlight (s : State) (f : Flight) : State :=
  let same (g : Flight) : Bool := decide (g.ref.ring = f.ref.ring ∧ g.ref.seq = f.ref.seq)
  { s with cp := { s.cp with flights := s.cp.flights.map (fun g => if same g then f else g) } }

/-- Every command of a ring numbered below `seq` has been read and has completed (R435): its record is written. -/
def State.completedBelow (s : State) (ring seq : Nat) : Bool :=
  decide (seq ≤ s.get (F.CP_RING_SEQ_SEQ ring)) &&
    !s.cp.flights.any (fun f => decide (f.ref.ring = ring ∧ f.ref.seq < seq)) &&
    !s.cp.ended.any (fun e => decide (e.ref.ring = ring ∧ e.ref.seq < seq))

/-- The INFLIGHT counts and ACTIVE of a ring, as its commands stand (R413, R414). -/
def State.countRing (s : State) (k : Nat) : State :=
  let n := (s.ringFlights k).length + s.cp.ended.countP (fun e => decide (e.ref.ring = k))
  let s := (s.put (F.CP_RING_STATUS_INFLIGHT k) n).put F.CP_STATUS_INFLIGHT (s.cp.flights.length + s.cp.ended.length)
  s.put (F.CP_RING_STATUS_ACTIVE k) (flag (s.on (F.CP_RING_CTRL_ENABLE k) || decide (n ≠ 0)))

/-- A ring faults: it stops being read, and RING_FAULT is raised. -/
def State.faultRing (s : State) (k code : Nat) : State :=
  let s := ((s.disown (.ring k)).put (F.CP_RING_STATUS_FAULT k) 1).put (F.CP_RING_STATUS_FAULT_CODE k) code
  (s.put F.CP_FAULTS_FAULT (s.get F.CP_FAULTS_FAULT ||| 2 ^ k)).raise (Ev.plain 0x0A01 2 10 k)

/-! ## Attaching (R422) -/

/-- A bound command is attached to an instance; with CLOSE, the ring has delivered its last one for it. A SOLVE then counts as
submitted in the instance's Period (R218). -/
def State.attachTo (s : State) (f : Flight) (p : Nat) : State :=
  let s := s.setFlight { f with attach := some (p, f.clause) }
  let s := if f.close then { s with cp := { s.cp with closes := s.cp.closes ++ [(⟨f.ref.ring, p, f.clause⟩ : Closed)] } } else s
  match f.cmd with
  | some (.solve _ entry _) => s.submit p entry.toNat
  | _ => s

/-- A bound command that has been read is attached, waits for a plan, or fails. -/
def State.attachFlight (s : State) (f : Flight) : State :=
  match s.attach f.ref.ring f.clause f.notBefore with
  | .to p => s.attachTo f p
  | .wait => s
  | .bad => s.endFlight f ST_BAD_PARAM

/-- The commands that wait for a plan, once a plan has become active. -/
def State.attachWaiting (s : State) : State :=
  (s.cp.flights.filter (fun f => f.bound && f.attach.isNone)).foldl State.attachFlight s

/-- At the tick of Period `n` every command attached to it is checked against the plan in force. -/
def State.checkAttached (s : State) (n : Nat) : State :=
  let runs (c : Nat) : Bool := match planEntry s.pd.plan c with
    | some e => entryRuns e n
    | none => false
  (s.cp.flights.filter (fun f => match f.attach with | some a => decide (a.1 = n) && !runs a.2 | none => false)).foldl
    (fun (s : State) f => s.endFlight f ST_BAD_PARAM) s

/-! ## When a command may be dispatched (R418, R421, R423) -/

/-- Its binding allows a command to run: unbound, once the tick of NOT_BEFORE has passed; bound, once its instance has started. The work
of an UPDATE Clause starts with the grant (R43); an APPLY itself waits for it. -/
def State.bindingOpen (s : State) (f : Flight) : Bool :=
  if !f.bound then (match f.notBefore with | some nb => s.tickPassed nb | none => true)
  else match f.attach with
    | some a =>
      let granted := s.on F.PC_STATUS_GRANT || (match f.cmd with | some (.updateApply _ _) => true | _ => false)
      decide ((s.pcState = 2 ∨ s.pcState = 3) ∧ a.1 = s.get F.PC_PERIOD_PERIOD) && (s.clause a.2).started &&
        (decide (s.kindOf a.2 ≠ kindUpdate) || granted)
    | none => false

/-- A FENCE entry allows dispatch: its commands have completed, or it names the FENCE's own ring beyond the FENCE itself, which fails
when it is dispatched (R435). -/
def State.fenceEntryOpen (s : State) (r : CmdRef) (e : FenceEntry) : Bool :=
  s.completedBelow e.ring.val e.seq.toNat || decide (e.ring.val = r.ring ∧ r.seq < e.seq.toNat)

/-- A FENCE's entries all allow dispatch. -/
def State.fenceOpen (s : State) (f : Flight) : Bool :=
  match f.cmd with
  | some (.fence _ es) => es.all (s.fenceEntryOpen f.ref)
  | _ => true

/-- A command whose cluster set is in range waits until every cluster of it is free (R116). -/
def State.clustersOpen (s : State) (f : Flight) : Bool :=
  match f.cmd.bind clusterSet with
  | some (a, n) => decide (256 < a + n) || s.clustersFree a n
  | none => true

/-- ORDER: every earlier command of the ring has completed. -/
abbrev State.orderOpen (s : State) (f : Flight) : Bool := !f.order || s.completedBelow f.ref.ring f.ref.seq

/-! ## Program images in companion memory (R446) -/

/-- The image of a RUN_PROGRAM has been read, or stands in HBM, or cannot be read. -/
def State.imageReady (s : State) (f : Flight) : Bool :=
  match f.cmd with
  | some (.runProgram _ p) =>
    let a := p.image.toNat
    let n := p.imageLen.toNat
    decide (rangeSpace a n ≠ some .companion) || !s.companionMapped a n || (s.oxlPort 0).isNone ||
      s.known f.ref.owner (a - companionBase) n || (s.failedRead f.ref.owner (a - companionBase) n).isSome
  | _ => true

/-- The image of a RUN_PROGRAM at the head of its ring asked for, where it is not there. -/
def State.fetchImage (s : State) (f : Flight) : State :=
  if s.imageReady f then s
  else match f.cmd with
    | some (.runProgram _ p) => s.fetch f.ref.owner (p.image.toNat - companionBase) p.imageLen.toNat
    | _ => s

/-- The images of the commands at the heads of the rings asked for. -/
def State.fetchImages (s : State) : State := ((List.range 64).filterMap s.nextFlight).foldl State.fetchImage s

/-! ## Deferred commands (R144 to R151) -/

/-- A command in hand that is a deferred command (R144): a RUN_PROGRAM read from what was a deferred ring, bound to a BACKWARD Clause. -/
def State.isDeferred (s : State) (f : Flight) : Bool :=
  match f.cmd with
  | some (.runProgram _ _) => f.fromDefer && f.bound && decide (s.clauseKind f.clause = some 2)
  | _ => false

/-- R147: another command of a deferred ring waits for every deferred command ahead of it. -/
def State.behindDeferred (s : State) (f : Flight) : Bool :=
  f.fromDefer && !s.isDeferred f &&
    (s.cp.flights.any (fun g => decide (g.ref.ring = f.ref.ring ∧ g.ref.seq < f.ref.seq) && s.isDeferred g) ||
     s.cp.ended.any (fun e => decide (e.ref.ring = f.ref.ring ∧ e.ref.seq < f.ref.seq ∧ e.ref.opcode = 0x20) &&
       (match e.attach with | some a => decide (s.kindOf a.2 = kindBackward) | none => false)))

/-- The commands in the deferred queue, in the order in which they entered it. -/
abbrev State.deferQueue (s : State) : List Flight := s.cp.flights.filter (fun f => decide (f.phase = .deferred))

/-- The use sites that a deferred command belongs to (R150). -/
def State.sitesOf (s : State) (f : Flight) : List TieUse :=
  match f.cmd with
  | some (.runProgram _ p) => ((s.imageOutputs p.image.toNat p.imageLen.toNat).flatMap s.tiesOf).eraseDups
  | _ => []

/-- What R151 checks of a deferred command as it enters the queue: at most one site, of a consistent group, that no command of the same
Period has taken. -/
def State.tieBad (s : State) (f : Flight) : Bool :=
  let us := s.sitesOf f
  let p := (f.attach.map (·.1)).getD 0
  decide (1 < us.length) || us.any (fun u => !s.tieConsistent u.group || s.cp.tieEntered.contains (p, u))

/-- `BW_QUEUE` as the deferred queue stands. -/
def State.countDeferred (s : State) : State :=
  let n := s.deferQueue.length
  if s.get F.BW_QUEUE_DEPTH = n ∧ n ≤ s.get F.BW_QUEUE_PEAK then s
  else (s.put F.BW_QUEUE_DEPTH n).put F.BW_QUEUE_PEAK (max n (s.get F.BW_QUEUE_PEAK))

/-- A deferred command enters the queue, or fails (R145, R151). DEFER_QUEUE_FULL is raised once in a Period. -/
def State.enterDeferred (s : State) (f : Flight) : State :=
  if s.tieBad f then s.finish f.ref (Done.fail ST_BAD_PARAM)
  else
    let us := (s.sitesOf f).map (fun u => ((f.attach.map (·.1)).getD 0, u))
    let rest := s.cp.flights.filter (fun g => !decide (g.ref.ring = f.ref.ring ∧ g.ref.seq = f.ref.seq))
    let cp : CpState := { s.cp with flights := rest ++ [{ f with phase := .deferred }], tieEntered := s.cp.tieEntered ++ us }
    let s : State := State.countDeferred { s with cp := cp }
    if s.deferQueue.length = 1024 ∧ !s.cp.deferFullNoted then
      ({ s with cp := { s.cp with deferFullNoted := true } }).raise (Ev.plain 0x0A03 0 10 0)
    else s

/-- A deferred command at the head of its ring that may enter the queue: attached, in order, and with room. -/
def State.mayDefer (s : State) (k : Nat) : Option Flight :=
  match s.nextFlight k with
  | some f => if s.isDeferred f && f.attach.isSome && s.orderOpen f && s.imageReady f && decide (s.deferQueue.length < 1024) then some f else none
  | none => none

/-- The deferred commands at the head of a ring move into the queue, one after the other (`fuel` at most). -/
def State.deferRing (s : State) (k : Nat) : Nat → State
  | 0 => s
  | fuel + 1 => match s.mayDefer k with
    | some f => State.deferRing (s.enterDeferred f) k fuel
    | none => s

/-- Every deferred ring's commands that can move do. -/
def State.pumpDeferred (s : State) : State :=
  let rings := (List.range 64).filter (fun k => (s.nextFlight k).any s.isDeferred)
  (rings.foldl (fun (s : State) k => s.deferRing k (s.ringFlights k).length) s).countDeferred

/-- A deferred command is eligible (R150): every site of its group below its own has run in the Period. -/
def State.eligible (s : State) (f : Flight) : Bool :=
  (s.sitesOf f).all (fun u => allBelow u.site (fun i => s.cp.tieDone.contains ⟨u.group, i⟩))

/-! ## Gathering commands (R179) -/

/-- The sites that a command in hand gathers on. -/
def State.flightSites (s : State) (f : Flight) : List Nat :=
  match f.cmd with
  | some (.runProgram h p) => match s.programAt p with
    | some g => (s.gatherSites h g).map (·.id)
    | none => []
  | _ => []

/-- A command that gathers on a site waits for the commands read before it from its ring that gather there. -/
def State.behindGather (s : State) (f : Flight) : Bool :=
  let mine := s.flightSites f
  !mine.isEmpty && s.cp.flights.any (fun g => decide (g.ref.ring = f.ref.ring ∧ g.ref.seq < f.ref.seq) && (s.flightSites g).any mine.contains)

/-- A command that is dispatched fixes the rings of the sites it gathers on, if it passes R112; none: another ring has one. -/
def State.claimFlight (s : State) (f : Flight) : Option State :=
  match f.cmd with
  | some (.runProgram h p) => match s.programAt p with
    | some g => if (s.programFault h p g).isNone then s.claimSites h g else some s
    | none => some s
  | _ => some s

/-! ## Which command goes next -/

/-- The next command of a ring that can be dispatched now, if it can (R418). -/
def State.dispatchable (s : State) (k : Nat) : Option Flight :=
  match s.nextFlight k with
  | some f =>
    if !s.isDeferred f && s.bindingOpen f && s.fenceOpen f && s.orderOpen f && s.imageReady f && s.clustersOpen f && !s.behindDeferred f &&
        !s.behindGather f then some f
    else none
  | none => none

/-- The ring that is served next: the first with a command to dispatch, in rising number after the ring last served (R418). -/
def State.nextRing (s : State) : Option Nat :=
  ((List.range 64).map (fun i => (s.cp.lastServed + 1 + i) % 64)).find? (fun k => (s.dispatchable k).isSome)

/-- Two cluster sets share a cluster. -/
def setsMeet (x y : Option (Nat × Nat)) : Bool :=
  match x, y with
  | some (a, n), some (b, m) => overlaps a n b m
  | _, _ => false

/-- An immediate command bound to a running Clause waits only for a cluster of the given set (R146). -/
def State.clusterWanted (s : State) (set : Option (Nat × Nat)) : Bool :=
  (List.range 64).any (fun k => match s.nextFlight k with
    | some f => f.bound && !s.isDeferred f && s.bindingOpen f && s.orderOpen f && !s.behindDeferred f && setsMeet (f.cmd.bind clusterSet) set
    | none => false)

/-- The deferred command that is dispatched next (R146). -/
def State.nextDeferred (s : State) : Option Flight :=
  s.deferQueue.find? (fun f => s.eligible f && s.bindingOpen f && s.clustersOpen f && !s.behindGather f && !s.clusterWanted (f.cmd.bind clusterSet))

/-- WAITING of a ring: its next command waits on its binding or a fence. -/
def State.ringWaits (s : State) (k : Nat) : Bool :=
  match s.nextFlight k with
  | some f => !s.isDeferred f && (!s.bindingOpen f || !s.fenceOpen f)
  | none => false

/-- `CP_RING_STATUS.WAITING` of every ring. -/
def State.putWaiting (s : State) : State :=
  (List.range 64).foldl (fun (s : State) k =>
    if s.on (F.CP_RING_STATUS_WAITING k) = s.ringWaits k then s else s.put (F.CP_RING_STATUS_WAITING k) (flag (s.ringWaits k))) s

end Sys2Proof.Machine
end

