-- ==== Sys2Proof/Machine/Flits.lean ====
section
/-!
DEFINITION. Machine/Flits.lean: what a message is on a link (R312 to R316): the type and header of its flits, its payload bytes, the 256-byte
image of a flit with its CRC-32, and the lanes that carry it.
-/
namespace Sys2Proof.Machine

/-- The DEST that means the module at the far end of the link (R313). -/
abbrev farEnd : Nat := 0xFFFFFF

/-- Payload bytes of a flit (R312). -/
abbrev flitPayloadBytes : Nat := 240

/-- Flits of a message with `n` data bytes behind its 16-byte header (R312, R315). -/
def flitsOf (n : Nat) : Nat := max 1 (cdiv (16 + n) flitPayloadBytes)

/-! ## Headers (R313, R314) -/

/-- The TYPE of a message's flits (R314); what is no message on a link has none. -/
def OutMsg.flitType : OutMsg → Option Nat
  | .idle _ _ => some 0x00
  | .nak _ _ => some 0x01
  | .echoReq _ _ => some 0x02
  | .echoRsp _ _ _ _ => some 0x03
  | .discover _ _ => some 0x04
  | .linkState _ _ _ _ => some 0x05
  | .time _ _ => some 0x06
  | .tick _ _ => some 0x07
  | .halt _ _ => some 0x08
  | .reduce _ _ => some 0x09
  | .grant _ _ => some 0x0A
  | .identReq _ _ => some 0x0B
  | .identRsp _ _ _ => some 0x0C
  | .collective _ _ _ _ => some 0x10
  | .shadow _ _ _ _ => some 0x11
  | .p2p _ _ _ _ => some 0x12
  | .bulk _ _ _ => some 0x13
  | _ => none

/-- DEST and SRC of a message's flits: those of a routed message, and otherwise the far end of the link and the module's own position. -/
def OutMsg.ends (own : Nat) : OutMsg → Nat × Nat
  | .identReq _ r => (r.dest.toNat, r.src.toNat)
  | .identRsp _ r _ => (r.dest.toNat, r.src.toNat)
  | .collective _ r _ _ => (r.dest.toNat, r.src.toNat)
  | .shadow _ r _ _ => (r.dest.toNat, r.src.toNat)
  | .p2p _ r _ _ => (r.dest.toNat, r.src.toNat)
  | .bulk _ r _ => (r.dest.toNat, r.src.toNat)
  | _ => (farEnd, own)

/-- The 96 bits of a flit's header (R313). -/
def FlitHeader.word (h : FlitHeader) : Nat :=
  h.type % 2 ^ 5 + h.vc % 4 * 2 ^ 5 + flag h.dl * 2 ^ 7 + flag h.last * 2 ^ 8 + flag h.pool * 2 ^ 9 + h.cr % 16 * 2 ^ 10 + h.seq % 2 ^ 15 * 2 ^ 14
    + h.ack % 2 ^ 15 * 2 ^ 29 + h.credits % 16 * 2 ^ 44 + h.dest % 2 ^ 24 * 2 ^ 48 + h.src % 2 ^ 24 * 2 ^ 72

/-- A header read from its 96 bits. -/
def FlitHeader.ofWord (w : Nat) : FlitHeader :=
  { type := bits w 0 5, vc := bits w 5 2, dl := bit w 7, last := bit w 8, pool := bit w 9, cr := bits w 10 4, seq := bits w 14 15,
    ack := bits w 29 15, credits := bits w 44 4, dest := bits w 48 24, src := bits w 72 24 }

/-! ## Payloads (R315, R328, R331, R335, R336, R355, R357, R363, R386) -/

/-- Fields at byte offsets of a payload of `n` bytes, zero elsewhere. -/
def payloadOf (n : Nat) (fields : List (Nat × List Byte)) : List Byte :=
  fields.foldl (fun (bs : List Byte) f => overlay bs f.1 f.2) (List.replicate n 0)

/-- The payload of DISCOVER and IDENT_RSP (R331). -/
def discoverBytes (d : DiscoverPayload) : List Byte :=
  payloadOf flitPayloadBytes [(0, leBytes 8 d.unitId.toNat), (8, leBytes 8 d.boardId.toNat),
    (0x10, leBytes 4 (d.feedTag.toNat + d.slotId.toNat * 2 ^ 8 + d.port.val * 2 ^ 16 + flag d.parent * 2 ^ 19 + flag d.spare * 2 ^ 20)),
    (0x14, leBytes 4 (d.phys.toNat + flag d.physValid * 2 ^ 24)), (0x18, leBytes 4 (d.logical.toNat + flag d.logicalValid * 2 ^ 24)),
    (0x1C, leBytes 2 d.numRev.toNat)]

/-- The flags of the noise sums (R357): NAN, OVERFLOW, EMPTY (log entry 129). -/
abbrev noiseFlags (nan overflow empty : Bool) : List Byte := leBytes 1 (flag nan + 2 * flag overflow + 4 * flag empty)

/-- The message header of a COLLECTIVE message (R355). -/
def collHdrBytes (m : CollHdr) : List Byte :=
  leBytes 4 m.matchId.toNat ++ leBytes 2 (m.subop.toNat + flag m.ready * 2 ^ 8 + flag m.dir * 2 ^ 9 + m.axis.toNat * 2 ^ 10) ++ leBytes 2 m.pdigest.toNat
    ++ leBytes 8 m.offset.toNat

/-- The message header of a SHADOW message (R386). -/
def shadowHdrBytes (m : ShadowHdr) : List Byte :=
  leBytes 2 (m.kind.toNat + flag m.packed * 2 ^ 8) ++ leBytes 2 m.item.toNat ++ leBytes 2 m.periodTag.toNat ++ leBytes 2 m.part.toNat ++ leBytes 8 m.offset.toNat

/-- The payload of a message, from the first payload byte of its first flit on; offsets count from flit byte 0x10. Of an ECHO_REQ and
ECHO_RSP the stamps follow each other, and a BULK message's header is zero (log entry 129). -/
def OutMsg.payload : OutMsg → List Byte
  | .nak _ seq => leBytes 2 seq
  | .echoReq _ t1 => leBytes 8 t1
  | .echoRsp _ t1 t2 t3 => leBytes 8 t1 ++ leBytes 8 t2 ++ leBytes 8 t3
  | .discover _ d => discoverBytes d
  | .identRsp _ _ d => discoverBytes d
  | .linkState _ axis link broken => leBytes 4 (axis % 4 + link % 256 * 2 ^ 8 + flag broken * 2 ^ 16)
  | .time _ p => leBytes 8 p.masterId.toNat ++ leBytes 8 p.origin.toNat ++ leBytes 8 p.correction.toNat ++ leBytes 4 p.hops.toNat ++ leBytes 4 p.sequence.toNat
  | .tick _ p => leBytes 8 p.period.toNat ++ leBytes 8 p.start.toNat ++ leBytes 2 (p.generation.toNat + (flag p.retry + 2 * flag p.replay + 4 * flag p.barrier) * 2 ^ 8)
  | .halt _ p => leBytes 8 p.period.toNat ++ leBytes 4 p.origin.toNat ++ leBytes 2 p.code.toNat
  | .reduce _ p => payloadOf flitPayloadBytes ([(0, leBytes 8 p.period.toNat), (8, leBytes 1 p.kind.toNat)] ++
      (if p.kind = 3 then [(0x10, leBytes 80 p.sLocal.toNat), (0x60, leBytes 80 p.sRed.toNat), (0xB0, noiseFlags p.nan p.overflow p.empty)]
       else if p.kind = 4 then [(0x10, leBytes 2 p.round.toNat)] else []))
  | .grant _ p => payloadOf flitPayloadBytes ([(0, leBytes 8 p.period.toNat), (8, leBytes 1 p.kind.toNat)] ++
      (if p.kind = 3 then [(0x10, leBytes 8 p.sLocal.toNat), (0x18, leBytes 8 p.sRed.toNat), (0x20, noiseFlags p.nan p.overflow p.empty)]
       else if p.kind = 4 then [(0x10, leBytes 2 p.round.toNat)] else []))
  | .collective _ _ m data => collHdrBytes m ++ data
  | .shadow _ _ m data => shadowHdrBytes m ++ data
  | .p2p _ _ m data => leBytes 4 m.streamId.toNat ++ leBytes 4 data.length ++ leBytes 8 m.offset.toNat ++ data
  | .bulk _ _ data => List.replicate 16 0 ++ data
  | _ => []

/-- The payload of a sent flit: 240 bytes, with zeros behind the message's end. -/
def SentFlit.payload (f : SentFlit) : List Byte := padTo flitPayloadBytes ((f.m.payload.drop (flitPayloadBytes * f.ix)).take flitPayloadBytes)

/-! ## The image of a flit (R312) -/

/-- One byte into a CRC-32 with the IEEE 802.3 polynomial, least significant bit first. -/
def crc32Byte (c : Nat) (b : Byte) : Nat :=
  (List.range 8).foldl (fun c _ => if c % 2 = 1 then (c / 2) ^^^ 0xEDB88320 else c / 2) (c ^^^ b.toNat)

/-- The CRC-32 of IEEE 802.3: initially all ones, and complemented at the end (log entry 129). -/
def crc32 (bs : List Byte) : Nat := bs.foldl crc32Byte 0xFFFFFFFF ^^^ 0xFFFFFFFF

/-- A flit of 256 bytes: the header, the CRC-32 over it and the payload, and the payload. -/
def flitImage (h : FlitHeader) (payload : List Byte) : List Byte :=
  let head := leBytes 12 h.word
  head ++ leBytes 4 (crc32 (head ++ payload)) ++ payload

/-- The CRC field of an image agrees with its contents. -/
def imageOk (bs : List Byte) : Bool := decide (leAt bs 12 4 = crc32 (bs.take 12 ++ bs.drop 16))

/-- The image of a flit in the replay buffer. -/
def SentFlit.image (f : SentFlit) : List Byte := flitImage f.hdr f.payload

/-- The groups of 16 bytes of an image that active lane `l` of `n` carries: group g on lane g mod n. -/
def laneGroups (bs : List Byte) (n l : Nat) : List (List Byte) :=
  ((List.range (cdiv bs.length 16)).filter (fun g => decide (g % n = l))).map (fun g => (bs.drop (16 * g)).take 16)

/-! ## Buffers (R319) -/

/-- Receive slots C of a port (R319). -/
def recvSlots (p : Nat) : Nat := if p < 6 then 4369 else 17476

/-- Flits that a port's replay buffer holds (R319). -/
def replaySlots (p : Nat) : Nat := if p < 6 then 4369 else 17476

/-- Bytes of a port's tag store: the header of each slot, 16 B (R319). -/
def tagStoreBytes (p : Nat) : Nat := 16 * recvSlots p

/-- Bytes of the router's staging: what the other stores leave of the 32 MiB (R319). -/
def stagingBytes : Nat :=
  0x2000000 - sumList ((List.range 8).map (fun p => flitPayloadBytes * recvSlots p + tagStoreBytes p + 256 * replaySlots p))

end Sys2Proof.Machine
end

