-- ==== Sys2Proof/Machine/Fabric.lean ====
section
/-!
DEFINITION. Machine/Fabric.lean: the Zorren fabric (chapter 11): positions, routing, the break maps, ports, and the sending of
messages. The meanings of the fabric's rows stand in Machine/FabricRows.lean.
-/
namespace Sys2Proof.Machine

/-! ## Positions (R324) -/

/-- Coordinate `a` (0 X, 1 Y, 2 Z) of a position or a dimension word. -/
abbrev coord (p a : Nat) : Nat := bits p (8 * a) 8

/-- A dimension of a PDIM or LDIM word: 0 means 256. -/
def dimOf (d a : Nat) : Nat := if coord d a = 0 then 256 else coord d a

/-- The position word of three coordinates. -/
abbrev position (x y z : Nat) : Nat := x + 256 * y + 65536 * z

/-- `p` with coordinate `a` set to `v`. -/
def setCoord (p a v : Nat) : Nat := p - coord p a * 2 ^ (8 * a) + v % 256 * 2 ^ (8 * a)

/-- The module's logical position; all ones when it has none (R313). -/
def State.logical (s : State) : Nat := if s.on F.ZF_LOGICAL_VALID then s.get F.ZF_LOGICAL_LOGICAL else farEnd

/-- The module's physical coordinate. -/
abbrev State.here (s : State) : Nat := s.get F.ZF_PHYS_PHYS

/-- The entry of the remap table for a logical position (R324), and whether it is VALID. -/
def State.remap (s : State) (p : Nat) : Option Nat :=
  let d := s.get F.ZF_LDIM_DIM
  if coord p 0 < dimOf d 0 ∧ coord p 1 < dimOf d 1 ∧ coord p 2 < dimOf d 2 then
    let i := coord p 0 + dimOf d 0 * (coord p 1 + dimOf d 1 * coord p 2)
    let base := s.get F.ZF_REMAP_BASE_BASE
    let w := if companionBase ≤ base then leAt s.fab.map (4 * i) 4 else ofLE (s.hbm.read (base + 4 * i) 4)
    if bit w 24 then some (bits w 0 24) else none
  else none

/-- The module's state as QUERY reports it (R433); DEGRADED and FAILED stay until a reset. -/
def State.setModule (s : State) (v : Nat) : State := if 10 ≤ s.get F.PW_STATUS_STATE then s else s.put F.PW_STATUS_STATE v

/-! ## Ports -/

/-- A port's state beside its registers. -/
def State.port (s : State) (p : Nat) : PortState := nth s.fab.ports p PortState.reset

/-- `s` with a port's state set, in a list of eight. -/
def State.setPort (s : State) (p : Nat) (v : PortState) : State :=
  { s with fab := { s.fab with ports := nthSet (s.fab.ports ++ List.replicate (8 - s.fab.ports.length) PortState.reset) p v } }

/-- The port is UP (R331, R339). -/
def State.portUp (s : State) (p : Nat) : Bool := decide (s.get (F.ZP_STATUS_STATE p) = 3)

/-- The ports that are UP. -/
def State.upPorts (s : State) : List Nat := (List.range 8).filter s.portUp

/-- The port that carries a torus direction (R325): axis 0 to 2, `minus` for descending. -/
def State.dirPort (s : State) (axis : Nat) (minus : Bool) : Nat := bits (s.get F.ZF_DIRMAP_DIRMAP) (4 * (2 * axis + flag minus)) 3

/-- The torus direction that a port carries, if any. -/
def State.portDir (s : State) (p : Nat) : Option (Nat × Bool) :=
  ((List.range 6).find? (fun i => decide (s.dirPort (i / 2) (decide (i % 2 = 1)) = p))).map (fun i => (i / 2, decide (i % 2 = 1)))

/-- Both ends start with full counts at link training (R318). -/
def State.fullCredits (s : State) (p : Nat) : Nat × List Nat :=
  let r := s.get (F.ZP_CTRL_RESERVE p)
  (recvSlots p - 8 * r, List.replicate 8 r)

/-- The port exchanges flits: DISCOVERY, UP or MISWIRED. -/
def State.portRuns (s : State) (p : Nat) : Bool := [2, 3, 5].contains (s.get (F.ZP_STATUS_STATE p))

/-! ## The output of a port (R317, R318, R320) -/

/-- The message of a sub-channel, or of the link-local flits, that sends next: one begun goes on to its end, then a peer's before the module's
own, then the oldest (R315, R317). Its place in the queue. -/
def PortState.head (v : PortState) (sub : Option Nat) : Option (Nat × TxMsg) :=
  let ms := (v.queue.zipIdx.filter (fun x => decide (x.1.sub = sub))).map (fun x => (x.2, x.1))
  match ms.find? (fun x => decide (x.2.next ≠ 0)) with
  | some x => some x
  | none => match ms.find? (fun x => x.2.origin.isSome) with
    | some x => some x
    | none => ms.head?

/-- A sub-channel's next message, where the port holds a credit for its next flit: shared, or of the sub-channel's reserve (R318). -/
def PortState.credited (v : PortState) (k : Nat) : Option (Nat × TxMsg) :=
  if 0 < v.shared ∨ 0 < nth v.reserve k 0 then v.head (some k) else none

/-- The next message of a class: of its two sub-channels the one whose message came first. -/
def PortState.ofClass (v : PortState) (vc : Nat) : Option (Nat × TxMsg) :=
  match v.credited (2 * vc), v.credited (2 * vc + 1) with
  | some a, some b => if a.1 < b.1 then some a else some b
  | some a, none => some a
  | none, b => b

/-- The class that has a slot of the round robin of 4, 2 and 1 flits, and the first slot of the class after it. -/
def turnClass (t : Nat) : Nat × Nat := if t < 4 then (1, 4) else if t < 6 then (2, 6) else (3, 0)

/-- The message whose flit goes next, and the slot of the round robin that then comes next (R317): link-local flits, VC 0, and then the round
robin, in which a class with nothing to send gives up its turn. -/
def PortState.choose (v : PortState) (up : Bool) : Option ((Nat × TxMsg) × Nat) :=
  match v.head none, up with
  | some x, _ => some (x, v.turn)
  | none, false => none
  | none, true => match v.ofClass 0 with
    | some x => some (x, v.turn)
    | none =>
      let t0 := v.turn % 7
      let t1 := (turnClass t0).2
      let t2 := (turnClass t1).2
      [t0, t1, t2].findSome? (fun t => (v.ofClass (turnClass t).1).map (fun x => (x, (t + 1) % 7)))

/-- The credit target that a flit returns slots to, and how many units of 8 (R313, R318): the first one that is owed a unit. -/
def PortState.returns (v : PortState) : Nat × Nat :=
  match (List.range 9).find? (fun c => decide (8 ≤ nth v.owed c 0)) with
  | some c => (c, min 15 (nth v.owed c 0 / 8))
  | none => (15, 0)

/-- `v` with slots returned to a target: owed no longer, and free again to the far end. -/
def PortState.returned (v : PortState) (target units : Nat) : PortState :=
  if target = 15 then v
  else
    let v := { v with owed := nthSet v.owed target (nth v.owed target 0 - 8 * units) }
    if target = 8 then { v with rxShared := v.rxShared + 8 * units }
    else { v with rxReserve := nthSet v.rxReserve target (nth v.rxReserve target 0 + 8 * units) }

/-- `n` slots freed of a port's receive buffer, of a sub-channel's reserve or, for target 8, of the shared pool. -/
def State.owe (s : State) (p target n : Nat) : State :=
  let v := s.port p
  s.setPort p { v with owed := nthSet v.owed target (nth v.owed target 0 + n) }

/-- The header of the next flit of a message (R313). -/
def State.flitHeader (s : State) (p : Nat) (t : TxMsg) : FlitHeader :=
  let v := s.port p
  let sub := t.sub.getD 0
  let ends := t.m.ends s.logical
  { type := t.m.flitType.getD 0, vc := sub / 2, dl := decide (sub % 2 = 1), last := decide (t.total ≤ t.next + 1),
    pool := t.sub.isSome && decide (v.shared = 0), cr := v.returns.1, seq := v.txNext, ack := v.rxNext, credits := v.returns.2,
    dest := ends.1, src := ends.2 }

/-- The next flit sent on a port on which FABRIC_CRC is armed fails its CRC at the receiver (R522). -/
def State.injectCrc (s : State) (p : Nat) : State :=
  match s.inject.find? (fun i => decide (i.kind = 6) && decide (i.index = p)) with
  | some i =>
    let s := { s with inject := s.inject.erase i }
    (s.setPort p { s.port p with injected := true }).send (.badCrc p (s.port p).txNext)
  | none => s

/-- One flit sent: it takes the next SEQ and a credit, stays in the replay buffer, and returns credits; a flit sent on for a peer frees its
slot where it came in (R318, R320). The message has left with its last flit. -/
def State.sendFlit (s : State) (p : Nat) (x : Nat × TxMsg) (turn : Nat) : State :=
  let s := s.injectCrc p
  let v := s.port p
  let t := x.2
  let h := s.flitHeader p t
  let v := v.returned h.cr h.credits
  let v : PortState := match t.sub with
    | none => v
    | some k => if 0 < v.shared then { v with shared := v.shared - 1 } else { v with reserve := nthSet v.reserve k (nth v.reserve k 0 - 1) }
  let queue := if h.last then v.queue.eraseIdx x.1 else nthSet v.queue x.1 { t with next := t.next + 1 }
  let s := s.setPort p { v with
    txNext := (v.txNext + 1) % 2 ^ 15, buffer := v.buffer ++ [⟨h, t.m, t.next⟩], queue := queue, turn := turn }
  let s := match t.origin with
    | some o => s.owe o.port (if t.next < o.shared then 8 else o.sub) 1
    | none => s
  if h.last then s.send (match t.m with | .idle p _ => .idle p h | m => m) else s

/-- Flits sent on a port for as long as there is one to send: a running port sends link-local flits, one that is UP the others too, and none
sends while its replay buffer is full (R320). The first argument bounds their number. -/
def State.drain : Nat → State → Nat → State
  | 0, s, _ => s
  | n + 1, s, p =>
    let v := s.port p
    if !s.portRuns p || decide (replaySlots p ≤ v.buffer.length) then s
    else match v.choose (s.portUp p) with
      | some (x, turn) => (s.sendFlit p x turn).drain n p
      | none => s

/-- The flits that wait at a port. -/
def PortState.waiting (v : PortState) : Nat := sumList (v.queue.map (fun t => t.total - t.next))

/-- A port sends what it can. -/
def State.flush (s : State) (p : Nat) : State := s.drain (s.port p).waiting p

/-- A message queued at a port. -/
def State.enqueue (s : State) (p : Nat) (t : TxMsg) : State :=
  let v := s.port p
  s.setPort p { v with queue := v.queue ++ [t] }

/-- IDLE flits for the credits that a port owes in whole units and that no other flit has taken along (R318). -/
def State.returnCredits (s : State) (p : Nat) : State :=
  let v := s.port p
  let flits := sumList (v.owed.map (fun n => cdiv (n / 8) 15))
  if flits = 0 ∨ v.queue.any (fun t => decide (t.m.flitType = some 0)) then s
  else ((List.range flits).foldl (fun (s : State) _ =>
    s.enqueue p ⟨.idle p ⟨0, 0, false, true, false, 15, 0, 0, 0, farEnd, farEnd⟩, none, 1, 0, none⟩) s).flush p

/-- A port sends what it can, and every port returns the slots that this has freed. -/
def State.pumpPort (s : State) (p : Nat) : State := (List.range 8).foldl State.returnCredits (s.flush p)

/-- A message of `n` flits sent on a port: queued, and then whatever the port can send. -/
def State.sendOn (s : State) (p n : Nat) (sub : Option Nat) (m : OutMsg) : State := (s.enqueue p ⟨m, sub, n, 0, none⟩).flush p

/-- A message of one flit sent on each of the given ports. -/
def State.sendEach (s : State) (ports : List Nat) (m : Nat → OutMsg) : State :=
  ports.foldl (fun s p => s.sendOn p 1 (some 0) (m p)) s

/-! ## The input of a port (R318, R320, R342) -/

/-- `n` flits accepted on a port (R320), with the access to the port's credit and replay state that this makes (R513). -/
def State.accepted (s : State) (p n : Nat) : State :=
  let s := s.touchCritical 2 p
  let v := s.port p
  s.setPort p { v with rxNext := (v.rxNext + n) % 2 ^ 15, nakOut := false }

/-- Flits of a sub-channel that take slots: shared ones while there are any, then its reserve, as the far end counts them (R318). Where they
stand. -/
def State.arrive (s : State) (p n sub : Nat) : State × Origin :=
  let s := s.accepted p n
  let v := s.port p
  let a := min n v.rxShared
  (s.setPort p { v with rxShared := v.rxShared - a, rxReserve := nthSet v.rxReserve sub (nth v.rxReserve sub 0 - (n - a)) }, ⟨p, sub, a⟩)

/-- The slots of `n` flits that have been consumed here, or discarded, are free again. -/
def State.consume (s : State) (o : Origin) (n : Nat) : State :=
  ((s.owe o.port 8 (min n o.shared)).owe o.port o.sub (n - o.shared)).returnCredits o.port

/-- Flits that arrive: accepted and, where the port's buffer holds good data, kept. An uncorrectable error in the buffer discards the flit it
strikes, which is LOST, and the message cannot be completed (R315, R342). False: the message is lost. -/
def State.arrived (s : State) (p n sub : Nat) : State × Origin × Bool :=
  let (s, o) := s.arrive p n sub
  match s.useStore .fabric p none with
  | (s, true) => ((s.bump F.ZF_ERRS_LOST 1).consume o n, o, false)
  | (s, false) => (s, o, true)

/-- A VC 0 flit of the tree, of a ring or of the time that arrives is consumed at once. False: it is lost. -/
def State.takeControl (s : State) (p : Nat) : State × Bool :=
  match s.arrived p 1 0 with
  | (s, o, true) => (s.consume o 1, true)
  | (s, _, false) => (s, false)

/-! ## The break maps (R328) -/

/-- Whether link `k` of the ring of an axis is broken. -/
def State.broken (s : State) (axis k : Nat) : Bool := bit (s.get (F.ZF_BREAK_BREAKS axis (k / 64))) (k % 64)

/-- `s` with a bit of a break map set or cleared. -/
def State.setBroken (s : State) (axis k : Nat) (b : Bool) : State :=
  let f := F.ZF_BREAK_BREAKS axis (k / 64)
  let w := s.get f
  if bit w (k % 64) = b then s else s.put f (if b then w + 2 ^ (k % 64) else w - 2 ^ (k % 64))

/-- The links of a ring of `n` that a path of `f` hops from `h` crosses. -/
def pathLinks (n h f : Nat) (minus : Bool) : List Nat :=
  (List.range f).map (fun i => if minus then (h + n * (i + 1) - (i + 1)) % n else (h + i) % n)

/-- A path crosses a broken link. -/
def State.pathBroken (s : State) (axis n h f : Nat) (minus : Bool) : Bool :=
  (pathLinks n h f minus).any (fun k => s.broken axis k)

/-- The direction R326 takes when a message enters a dimension, with its hops; none: unroutable. -/
def State.enter (s : State) (axis n h d : Nat) : Option (Bool × Nat) :=
  let f := (d + n - h) % n
  let minus := decide (n - f < f)
  let hops := if minus then n - f else f
  if !s.pathBroken axis n h hops minus then some (minus, hops)
  else if !s.pathBroken axis n h (n - hops) (!minus) then some (!minus, n - hops)
  else none

/-- What the router does with the first flit of a message (R326): the output port, with DL. -/
inductive RouteTo where
  | deliver
  | out (port : Nat) (dl : Bool)
  | unroutable
deriving DecidableEq, Repr

/-- The next link of a ring of `n` from coordinate `h` is its wrap link (R326, R327). -/
def wrapLink (n h : Nat) (minus : Bool) : Bool := if minus then decide (h = 0) else decide (h + 1 = n)

/-- A direction that a message travels in: its dimension, and the DL it has there. -/
structure Travel where
  axis  : Nat
  minus : Bool
  dl    : Bool

/-- The output in a direction: DL is 1 on the wrap link and from there on to the end of the dimension (R327). -/
def State.outTo (s : State) (n : Nat) (t : Travel) : RouteTo :=
  .out (s.dirPort t.axis t.minus) (t.dl || wrapLink n (coord s.here t.axis) t.minus)

/-- The route of a message addressed to physical coordinate `dest`, for the dimensions from `axis` on. `travelling` is the
direction in use of a message that arrived in a dimension; one that enters a dimension starts on DL 0. -/
def State.routeFrom (s : State) (dest : Nat) (travelling : Option Travel) : List Nat → RouteTo
  | [] => .deliver
  | a :: rest =>
    if coord s.here a = coord dest a then s.routeFrom dest travelling rest
    else
      let n := dimOf (s.get F.ZF_PDIM_DIM) a
      let fresh : RouteTo := match s.enter a n (coord s.here a) (coord dest a) with
        | some (m, _) => s.outTo n ⟨a, m, false⟩
        | none => .unroutable
      match travelling with
      | some t => if t.axis = a then s.outTo n t else fresh
      | none => fresh

/-- The route of a message to logical position `dest` (R326). A message that came in on a port, on a sub-channel, travels away from that
port's neighbour, in the direction opposite to the one the port carries. -/
def State.route (s : State) (dest : Nat) (arrival : Option (Nat × Nat)) : RouteTo :=
  match s.remap dest with
  | none => .unroutable
  | some phys =>
    let travelling := arrival.bind (fun x => (s.portDir x.1).map (fun d => (⟨d.1, !d.2, decide (x.2 % 2 = 1)⟩ : Travel)))
    s.routeFrom phys travelling [0, 1, 2]

/-- The hops of the route from the module to a logical position, where there is one. -/
def State.routeHops (s : State) (dest : Nat) : Option Nat :=
  match s.remap dest with
  | none => none
  | some phys => [0, 1, 2].foldl (fun acc a =>
      match acc with
      | none => none
      | some h =>
        if coord s.here a = coord phys a then some h
        else match s.enter a (dimOf (s.get F.ZF_PDIM_DIM) a) (coord s.here a) (coord phys a) with
          | some (_, k) => some (h + k)
          | none => none) (some 0)

/-! ## The watchdog's minimum (R405) -/

/-- The six logical neighbours of the module. -/
def State.neighbours (s : State) : List Nat :=
  let p := s.get F.ZF_LOGICAL_LOGICAL
  [0, 1, 2].flatMap (fun a =>
    let n := dimOf (s.get F.ZF_LDIM_DIM) a
    [setCoord p a ((coord p a + 1) % n), setCoord p a ((coord p a + n - 1) % n)])

/-- H: the largest hop count of the routes to the six logical neighbours, 0 for a module without a position. -/
def State.minHops (s : State) : Nat :=
  if s.on F.ZF_LOGICAL_VALID then maxList (s.neighbours.filterMap s.routeHops) else 0

/-- 4 × 110 µs × H, in µs. -/
abbrev watchdogFloor (h : Nat) : Nat := 4 * 110 * h

/-- After a change of the remap table, the break maps or the position: `SH_WATCHDOG.MIN_HOPS`, and WATCHDOG_RAISED once when the
minimum rises above the configured watchdog (R405). -/
def State.remeasure (s : State) : State :=
  let h := s.minHops
  let s := s.put F.SH_WATCHDOG_MIN_HOPS (min h 4095)
  if s.get F.SH_WATCHDOG_CONFIGURED_US < watchdogFloor h then
    if s.fab.watchdogRaised then s
    else { s.raise (Ev.plain 0x0908 0 9 0) with fab := { s.fab with watchdogRaised := true } }
  else { s with fab := { s.fab with watchdogRaised := false } }

/-! ## Discovery (R331, R332, R335) -/

/-- The payload of the DISCOVER and IDENT_RSP that the module sends (R331). FEEDTAG and SLOTID are strap pins of the board. -/
def State.discoverPayload (s : State) (p : Nat) : DiscoverPayload :=
  { unitId := BitVec.ofNat 64 (s.get F.ZF_UNIT_ID_UNIT_ID), boardId := BitVec.ofNat 64 (s.get F.ZF_BOARD_ID_BOARD_ID),
    feedTag := s.pwr.straps.feedTag, slotId := s.pwr.straps.slotId, port := Fin.ofNat 8 p, parent := s.on (F.ZP_STATUS_PARENT p),
    spare := s.on F.ZF_LOGICAL_SPARE, phys := BitVec.ofNat 24 s.here, physValid := s.on F.ZF_PHYS_VALID,
    logical := BitVec.ofNat 24 (s.get F.ZF_LOGICAL_LOGICAL), logicalValid := s.on F.ZF_LOGICAL_VALID,
    numRev := 0x0103 }

/-- DISCOVER sent on every port that exchanges flits, because a field of its payload changed (R331). -/
def State.announce (s : State) : State :=
  ((List.range 8).filter s.portRuns).foldl (fun s p => s.sendOn p 1 none (.discover p (s.discoverPayload p))) s

/-- The UP port that is the parent by R335: fewest HOPS, then the lower number, by the count `hops` reads. -/
def State.bestParent (s : State) (hops : PortState → Option Nat) : Option Nat :=
  (s.upPorts.foldl (fun best p => match hops (s.port p), best with
    | none, b => b
    | some h, none => some (p, h)
    | some h, some (q, k) => if h < k then some (p, h) else some (q, k)) none).map (·.1)

/-- The parent port, if any. -/
def State.parent (s : State) : Option Nat := if s.get F.ZF_TREE_PARENT = 0xF then none else some (s.get F.ZF_TREE_PARENT)

/-- `s` with a parent port, or none. -/
def State.setParent (s : State) (p : Option Nat) : State :=
  let s := (List.range 8).foldl (fun s q => s.put (F.ZP_STATUS_PARENT q) (flag (p = some q))) s
  s.put F.ZF_TREE_PARENT (p.getD 0xF)

/-- The ports whose peers report PARENT = 1 (R336). -/
def State.children (s : State) : List Nat := (List.range 8).filter (fun p => bit (s.get F.ZF_TREE_CHILDREN) p)

/-- `s` with a port made a child port or not. -/
def State.setChild (s : State) (p : Nat) (b : Bool) : State :=
  let w := s.get F.ZF_TREE_CHILDREN
  let s := s.put (F.ZP_STATUS_CHILD p) (flag b)
  if bit w p = b then s else s.put F.ZF_TREE_CHILDREN (if b then w + 2 ^ p else w - 2 ^ p)

/-- The module has left UP on its parent port: the UP port whose latest TIME had the fewest HOPS takes over, the change is
announced, and PARENT_CHANGED raised (R335). -/
def State.reparent (s : State) (old : Nat) : State :=
  let s := s.setParent (s.bestParent (·.lastHops))
  let s := match s.parent with
    | some p => s.put F.ZF_TREE_HOPS (min 255 ((s.port p).lastHops.getD 0 + 1))
    | none => s.put F.ZF_TREE_HOPS 0
  (s.announce).raise ⟨0x0705, 0, 7, old, s.get (F.ZP_PEER_UNIT_UNIT_ID old), false, none⟩

/-- The link of its ring that a torus port sits on (R328): here to here + 1 going +, here - 1 to here going −. -/
def State.portLink (s : State) (axis : Nat) (minus : Bool) : Nat :=
  let n := dimOf (s.get F.ZF_PDIM_DIM) axis
  if minus then (coord s.here axis + n - 1) % n else coord s.here axis

/-- The module sets or clears the bit of its own link and announces it along the ring through its other port on that axis
(R328). A module that has no physical coordinate has no ring. -/
def State.markLink (s : State) (p : Nat) (b : Bool) : State :=
  match s.portDir p with
  | none => s
  | some (axis, minus) =>
    if s.on F.ZF_PHYS_VALID then
      let k := s.portLink axis minus
      let s := s.setBroken axis k b
      let q := s.dirPort axis (!minus)
      let s := if s.portUp q then s.sendOn q 1 (some 0) (.linkState q axis k b) else s
      s.remeasure
    else s

/-- A message is the latest one of a SEND run (R351). -/
def CollRun.isTail (r : CollRun) (own : Nat) : OutMsg → Bool
  | .p2p q rt h _ => decide (r.subop = 6) && decide (r.lastFlit = some (some q, h.offset.toNat)) && decide (rt.src.toNat = own) &&
      decide (rt.dest = r.p.peer) && decide (h.streamId = r.p.streamId)
  | _ => false

/-- SENDs whose latest message is among those lost are never acknowledged. -/
def State.strand (s : State) (lost : List OutMsg) : State :=
  let own := s.logical
  { s with coll := { s.coll with runs := s.coll.runs.map (fun r =>
      if lost.any (r.isTail own) then { r with lastFlit := r.lastFlit.map (fun x => (none, x.2)) } else r) } }

/-- The messages that wait at a port that counts as DOWN are discarded: their flits are LOST (R329), and the slots they stood in free. -/
def State.dropQueue (s : State) (p : Nat) : State :=
  let gone := (s.port p).queue.filter (fun t => t.sub.isSome)
  let s := s.strand (gone.map (·.m))
  let s := s.setPort p { s.port p with queue := (s.port p).queue.filter (fun t => t.sub.isNone) }
  let s := gone.foldl (fun (s : State) t => match t.origin with
    | some o =>
      let inShared := o.shared - t.next
      (s.owe o.port 8 inShared).owe o.port o.sub (t.total - t.next - inShared)
    | none => s) s
  let n := sumList (gone.map (fun t => t.total - t.next))
  if n = 0 then s else s.bump F.ZF_ERRS_LOST n

/-- A port goes DOWN (R323): its buffers are discarded, PORT_DOWN raised, the break announced, and a lost parent replaced. Its width stays
as it is (R322). -/
def State.portDown (s : State) (p : Nat) (c : Option CmdRef) : State :=
  let wasParent := s.on (F.ZP_STATUS_PARENT p)
  let s := ((s.put (F.ZP_STATUS_STATE p) 0).put (F.ZP_STATUS_RETRYING p) 0).put (F.ZP_STATUS_LAT_OK p) 0
  let ended := match (s.port p).episode with
    | some _ => some s.now
    | none => (s.port p).lastRetry
  let s := (s.dropQueue p).strand ((s.port p).buffer.map (·.m))
  let s := (s.setPort p { PortState.reset with lastRetry := ended }).setChild p false
  let s := s.raise ⟨0x0703, 2, 7, p, s.get (F.ZP_PEER_UNIT_UNIT_ID p), false, c⟩
  let s := s.markLink p true
  if wasParent then (s.put (F.ZP_STATUS_PARENT p) 0).reparent p else s

/-- Every port taken DOWN (R323: a module that enters FAILED; R474: the hub in reset). -/
def State.allPortsDown (s : State) : State :=
  (List.range 8).foldl (fun s p => if s.get (F.ZP_STATUS_STATE p) = 0 then s else s.portDown p none) s

/-- The check of R332 on one port that carries a torus direction: MISWIRED with CABLING_MISMATCH, or the mark cleared. -/
def State.checkCabling (s : State) (p : Nat) : State :=
  match s.portDir p with
  | none => s
  | some (axis, minus) =>
    let st := s.get (F.ZP_STATUS_STATE p)
    if ¬ (s.on F.ZF_PHYS_VALID && s.on (F.ZP_PEER_INFO_PHYS_VALID p)) ∨ ¬ (st = 3 ∨ st = 5) then s
    else
      let n := dimOf (s.get F.ZF_PDIM_DIM) axis
      let want := setCoord s.here axis ((coord s.here axis + (if minus then n - 1 else 1)) % n)
      if s.get (F.ZP_PEER_INFO_PHYS p) = want then
        if st = 5 then ((s.put (F.ZP_STATUS_STATE p) 3).markLink p false).pumpPort p else s
      else if st = 5 then s
      else
        let wasParent := s.on (F.ZP_STATUS_PARENT p)
        let s := (s.put (F.ZP_STATUS_STATE p) 5).dropQueue p
        let s := s.raise ⟨0x0704, 0, 7, p, s.get (F.ZP_PEER_UNIT_UNIT_ID p), false, none⟩
        let s := s.markLink p true
        if wasParent then (s.put (F.ZP_STATUS_PARENT p) 0).reparent p else s

/-! ## Sending routed messages (R326, R329) -/

/-- The sub-channel that a routed message travels on: VC 0 and its own class for each type, and for P2P the class it came on (R314, R317). -/
def OutMsg.subOn (vc : Nat) (dl : Bool) : OutMsg → Nat
  | .p2p _ r _ _ => 2 * (if r.sub.toNat / 2 = 3 then 3 else vc) + flag dl
  | _ => 2 * vc + flag dl

/-- The sub-channel that a routed message came on: of a class, with the DL of its flits. -/
abbrev subOf (vc : Nat) (r : Route) : Nat := 2 * vc + r.sub.toNat % 2

/-- A message with its sub-channel in its header. -/
def OutMsg.onSub (sub : Nat) : OutMsg → OutMsg
  | .identReq p r => .identReq p { r with sub := BitVec.ofNat 3 sub }
  | .identRsp p r d => .identRsp p { r with sub := BitVec.ofNat 3 sub } d
  | .collective p r m bs => .collective p { r with sub := BitVec.ofNat 3 sub } m bs
  | .shadow p r m bs => .shadow p { r with sub := BitVec.ofNat 3 sub } m bs
  | .p2p p r m bs => .p2p p { r with sub := BitVec.ofNat 3 sub } m bs
  | .bulk p r bs => .bulk p { r with sub := BitVec.ofNat 3 sub } bs
  | m => m

/-- A port counts as DOWN for routing: DOWN, or MISWIRED (R323). -/
def State.routeDown (s : State) (p : Nat) : Bool := decide (s.get (F.ZP_STATUS_STATE p) = 0) || decide (s.get (F.ZP_STATUS_STATE p) = 5)

/-- A message that the router sends on, forwarded or injected, on a sub-channel of its class. At a port that counts as DOWN it is lost, its
flits counted (R329); at one that is not UP yet, or retrains, it waits. -/
def State.forwardTo (s : State) (p n vc : Nat) (dl : Bool) (m : OutMsg) (origin : Option Origin) : State :=
  let sub := m.subOn vc dl
  if s.routeDown p then
    let s := s.bump F.ZF_ERRS_LOST n
    match origin with
    | some o => s.consume o n
    | none => s
  else (s.enqueue p ⟨m.onSub sub, some sub, n, 0, origin⟩).pumpPort p

/-- A port that a command in flight uses (R406). -/
def State.usePort (s : State) (c : Option CmdRef) (p : Nat) : State :=
  match c with
  | some c => { s with cp := { s.cp with flights := s.cp.flights.map (fun f =>
      if decide (f.ref.ring = c.ring) && decide (f.ref.seq = c.seq) && !f.ports.contains p then { f with ports := p :: f.ports } else f) } }
  | none => s

/-- A message of the module itself, of `n` flits, to logical position `dest`. False: it is unroutable, and the command that sent
it completes with ST_FABRIC (R329). A message to the module's own position is delivered locally and sends nothing. -/
def State.injectMsg (s : State) (dest n vc : Nat) (c : Option CmdRef) (m : Nat → OutMsg) : State × Bool :=
  match s.route dest none with
  | .unroutable => ((s.bump F.ZF_ERRS_UNROUTABLE 1).raise ⟨0x0706, 2, 7, 0, 0, false, c⟩, false)
  | .deliver => (s, true)
  | .out p dl => ((s.usePort c p).forwardTo p n vc dl (m p) none, true)

/-- A routed message that came in on a sub-channel: delivered here (true), or sent on, or discarded (R326, R329, R330, R342). A message to
the far end of the link is delivered and never forwarded (R316). -/
def State.routed (s : State) (arrival dest n sub : Nat) (m : Nat → OutMsg) : State × Bool :=
  match s.arrived arrival n sub with
  | (s, _, false) => (s, false)
  | (s, o, true) =>
    let s := s.touchCritical 3 0
    if dest = farEnd then (s.consume o n, true)
    else if s.get F.PW_STATUS_STATE = 11 then (s.consume o n, false)
    else match s.route dest (some (arrival, sub)) with
      | .unroutable => (((s.bump F.ZF_ERRS_UNROUTABLE 1).raise (Ev.plain 0x0706 2 7 arrival)).consume o n, false)
      | .deliver => (s.consume o n, true)
      | .out p dl => (s.forwardTo p n (sub / 2) dl (m p) (some o), false)

end Sys2Proof.Machine
end

