-- ==== Sys2Proof/Machine/Links.lean ====
section
/-!
DEFINITION. Machine/Links.lean: what a port does at its link: acknowledgement and credits (R318, R320), retry and lane degrade (R321 to
R323), training and discovery (R331), latency (R334), and the break announcements of a ring (R328).
-/
namespace Sys2Proof.Machine

/-- The distance from SEQ `a` on to SEQ `b`, modulo 2^15. -/
abbrev seqDist (a b : Nat) : Nat := (b + 2 ^ 15 - a) % 2 ^ 15

/-- Flits sent and not yet acknowledged. -/
abbrev PortState.unacked (v : PortState) : Nat := seqDist v.txAcked v.txNext

/-- The UNIT_ID of a port's peer: DETAIL0 of the fabric's port events (R511). -/
abbrev State.peerUnit (s : State) (p : Nat) : Nat := s.get (F.ZP_PEER_UNIT_UNIT_ID p)

/-! ## Acknowledgement and credits (R318, R320) -/

/-- An ACK field: the flits before it are acknowledged and leave the replay buffer (R320). The episode closes once every flit that was
unacknowledged at its opening is, with LINK_RETRY (R321). -/
def State.acked (s : State) (p ack : Nat) : State :=
  let v := s.port p
  let adv := seqDist v.txAcked ack
  if v.unacked < adv then s
  else
    let w := { v with txAcked := ack, buffer := v.buffer.drop adv }
    match v.episode with
    | some e =>
      if seqDist v.txAcked e.upTo ≤ adv then
        let s := s.setPort p { w with episode := none, lastRetry := some s.now, injected := false }
        (s.put (F.ZP_STATUS_RETRYING p) 0).raise ⟨0x0701, 1, 7, p, s.peerUnit p, v.injected, none⟩
      else s.setPort p w
    | none => s.setPort p w

/-- A credit return (R313, R318): CR 0 to 7 names a reserve, 8 the shared pool, 15 nothing. -/
def State.credited (s : State) (p cr credits : Nat) : State :=
  let v := s.port p
  if cr < 8 then s.setPort p { v with reserve := nthSet v.reserve cr (nth v.reserve cr 0 + 8 * credits) }
  else if cr = 8 then s.setPort p { v with shared := v.shared + 8 * credits }
  else s

/-- Corrected FEC symbols counted, for the port and for the lane, and kept for 1 ms for the choice of R322 (R339). -/
def State.noteCorrected (s : State) (p : Nat) (counts : List (Fin 16 × BitVec 16)) : State :=
  counts.foldl (fun (s : State) c =>
    let n := c.2.toNat
    let s := (s.bump (F.ZP_FEC_CORRECTED p) n).bump (F.ZP_LANE_ERR_CORRECTED p c.1.val) n
    let v := s.port p
    s.setPort p { v with fec := (s.now, c.1.val, n) :: v.fec.filter (fun x => decide (s.now ≤ x.1 + 1000000)) }) s

/-- An IDLE flit (R320): its ACK counts even when it is out of sequence; in sequence it is accepted, and its credits count. The port then
sends what it now can. -/
def State.idleFlit (s : State) (p : Nat) (f : FlitHdr) : State :=
  let s := (s.noteCorrected p f.corrected).acked p f.ack.toNat
  let s := if f.seq.toNat = (s.port p).rxNext then (s.accepted p 1).credited p f.cr.toNat f.credits.toNat else s
  s.pumpPort p

/-! ## Retry (R321) -/

/-- A flit that failed its FEC or CRC check: counted, discarded, and answered with one NAK of the expected SEQ. -/
def State.flitError (s : State) (p : Nat) (crc : Bool) : State :=
  let s := if crc then s.bump (F.ZP_RETRY_CRC_ERRORS p) 1 else s.bump (F.ZP_FEC_UNCORRECTABLE p) 1
  let v := s.port p
  if v.nakOut then s else (s.setPort p { v with nakOut := true }).sendOn p 1 none (.nak p v.rxNext)

/-- The lanes at a WIDTH code. -/
abbrev lanesOf (w : Nat) : Nat := 16 / 2 ^ w

/-- The port degrades (R322): it starts retraining at half its width, or goes DOWN from 4 lanes (R323). -/
def State.degradePort (s : State) (p : Nat) : State :=
  let w := s.get (F.ZP_STATUS_WIDTH p)
  if 2 ≤ w then s.portDown p none
  else
    let s := ((s.put (F.ZP_STATUS_STATE p) 4).put (F.ZP_STATUS_WIDTH p) (w + 1)).put (F.ZP_STATUS_RETRYING p) 1
    let s := (s.put (F.ZP_STATUS_LAT_OK p) 0).setPort p { s.port p with episode := none }
    s.send (.retrain p (lanesOf (w + 1)))

/-- A replay from a SEQ. The first opens an episode; one that needs a fourth degrades the port. -/
def State.replayFrom (s : State) (p seq : Nat) : State :=
  let v := s.port p
  match v.episode with
  | none =>
    let s := s.setPort p { v with episode := some ⟨s.now, v.txNext, 1⟩ }
    let s := ((s.put (F.ZP_STATUS_RETRYING p) 1).bump (F.ZP_RETRY_EPISODES p) 1).bump (F.ZP_RETRY_REPLAYS p) 1
    s.send (.replay p seq)
  | some e =>
    if 3 ≤ e.replays then s.degradePort p
    else
      let s := s.setPort p { v with episode := some { e with replays := e.replays + 1 } }
      (s.bump (F.ZP_RETRY_REPLAYS p) 1).send (.replay p seq)

/-- A NAK, itself a flit with a SEQ (R320): the flits from the SEQ it names on are replayed. One that names no unacknowledged flit is
stale. -/
def State.nakReceived (s : State) (p seq : Nat) : State :=
  let s := s.accepted p 1
  let v := s.port p
  if seqDist v.txAcked seq < v.unacked then s.replayFrom p seq else s

/-! ## Lane degrade (R322, R323) -/

/-- The corrected symbols of `n` lanes from lane `l` on over the last 1 ms. -/
def State.laneErrors (s : State) (p l n : Nat) : Nat :=
  sumList (((s.port p).fec.filter (fun x => decide (s.now ≤ x.1 + 1000000 ∧ l ≤ x.2.1 ∧ x.2.1 < l + n))).map (·.2.2))

/-- Whether a degraded port, of `n` lanes now, keeps the upper half of its lanes (R322): the end with the lower UNIT_ID chooses, by the
corrected symbols of its own receive side; the peer's choice is what the row brings. -/
def State.keepsUpper (s : State) (p n : Nat) (peersChoice : Bool) : Bool :=
  let l := s.get (F.ZP_STATUS_FIRST_LANE p)
  if s.get F.ZF_UNIT_ID_UNIT_ID < s.peerUnit p then decide (s.laneErrors p (l + n) n < s.laneErrors p l n) else peersChoice

/-- Retraining has ended. A halved port raises LANE_DEGRADE; the port replays from the last ACK under a new episode. One that failed
goes DOWN. -/
def State.retrained (s : State) (p : Nat) (ok upperHalf : Bool) : State :=
  if !ok then s.portDown p none
  else
    let w := s.get (F.ZP_STATUS_WIDTH p)
    let v := s.port p
    let first := if w = 0 then 0 else s.get (F.ZP_STATUS_FIRST_LANE p) + (if s.keepsUpper p (lanesOf w) upperHalf then lanesOf w else 0)
    let s := (s.put (F.ZP_STATUS_FIRST_LANE p) first).put (F.ZP_STATUS_STATE p) (if v.discSent && v.discGot then 3 else 2)
    let s := (s.put (F.ZP_STATUS_RETRYING p) 0).setPort p { v with lastRetry := some s.now }
    let s := if v.unacked = 0 then s else s.replayFrom p v.txAcked
    let s := if w = 0 then s
      else (s.bump (F.ZP_RETRY_DEGRADES p) 1).raise ⟨0x0702, 1, 7, p, s.peerUnit p, v.injected, none⟩
    (s.checkCabling p).pumpPort p

/-- A write of RETRAIN (R322): a running port retrains at 16 lanes while the module is IDLE or HALTED. -/
def State.retrainPort (s : State) (p : Nat) : State :=
  if s.idle && s.portRuns p then
    let s := ((s.put (F.ZP_STATUS_STATE p) 4).put (F.ZP_STATUS_WIDTH p) 0).put (F.ZP_STATUS_FIRST_LANE p) 0
    let s := (s.put (F.ZP_STATUS_LAT_OK p) 0).setPort p { s.port p with episode := none }
    s.send (.retrain p 16)
  else s

/-- The port may train: enabled, not forced down, not in reset (training is its release sequence, R468), and the module in MEM_INIT or beyond
and not FAILED (R323, R330). -/
def State.portMayTrain (s : State) (p : Nat) : Bool :=
  s.on (F.ZP_CTRL_ENABLE p) && !s.on (F.ZP_CTRL_FORCE_DOWN p) &&
    !s.pwr.held.any (fun h => decide (h.dom = .port (Fin.ofNat 8 p)) && decide (h.phase = .reset)) &&
    decide (4 ≤ s.get F.PW_STATUS_STATE) && decide (s.get F.PW_STATUS_STATE ≠ 11)

/-- A port that is not DOWN goes DOWN. -/
def State.takeDown (s : State) (p : Nat) (c : Option CmdRef) : State :=
  if s.get (F.ZP_STATUS_STATE p) = 0 then s else s.portDown p c

/-- A DOWN port that may train starts training. -/
def State.startTraining (s : State) (p : Nat) : State :=
  if s.get (F.ZP_STATUS_STATE p) = 0 && s.portMayTrain p then s.put (F.ZP_STATUS_STATE p) 1 else s

/-- FORCE_DOWN written (R323, R338): the port is held DOWN, or trains again once released. -/
def State.forceDown (s : State) (p : Nat) (down : Bool) (c : Option CmdRef) : State :=
  let s := s.put (F.ZP_CTRL_FORCE_DOWN p) (flag down)
  if down then s.takeDown p c else s.startTraining p

/-- ENABLE written. -/
def State.enablePort (s : State) (p : Nat) (on : Bool) : State :=
  let s := s.put (F.ZP_CTRL_ENABLE p) (flag on)
  if on then s.startTraining p else s.takeDown p none

/-! ## Training and discovery (R331) -/

/-- Link training has ended: full credits at both ends (R318), sequence numbers from 0, and DISCOVER sent. A degraded port keeps its width
(R322), and what waits for the port to be UP still waits. -/
def State.portTrained (s : State) (p : Nat) : State :=
  let cr := s.fullCredits p
  let v := s.port p
  let s := s.setPort p { PortState.reset with
    shared := cr.1, reserve := cr.2, rxShared := cr.1, rxReserve := cr.2, discSent := true, lastRetry := v.lastRetry,
    queue := v.queue.filter (fun t => t.sub.isSome) }
  let s := s.put (F.ZP_STATUS_STATE p) 2
  s.sendOn p 1 none (.discover p (s.discoverPayload p))

/-- The peer registers of a port filled from DISCOVER. -/
def State.fillPeer (s : State) (p : Nat) (d : DiscoverPayload) : State :=
  let s := (s.put (F.ZP_PEER_UNIT_UNIT_ID p) d.unitId.toNat).put (F.ZP_PEER_BOARD_BOARD_ID p) d.boardId.toNat
  let s := (s.put (F.ZP_PEER_INFO_FEEDTAG p) d.feedTag.toNat).put (F.ZP_PEER_INFO_SLOTID p) d.slotId.toNat
  let s := (s.put (F.ZP_PEER_INFO_PORT p) d.port.val).put (F.ZP_PEER_INFO_SPARE p) (flag d.spare)
  (s.put (F.ZP_PEER_INFO_PHYS p) d.phys.toNat).put (F.ZP_PEER_INFO_PHYS_VALID p) (flag d.physValid)

/-- A DISCOVER: the peer registers, the child mark (R336), the port UP once both ends have exchanged it, which clears the port's
break (R328), and the check of R332. -/
def State.discovered (s : State) (p : Nat) (d : DiscoverPayload) : State :=
  let s := ((s.accepted p 1).fillPeer p d).setChild p d.parent
  let s := s.setPort p { s.port p with discGot := true }
  let s := if s.get (F.ZP_STATUS_STATE p) = 2 && (s.port p).discSent then
      (s.put (F.ZP_STATUS_STATE p) 3).markLink p false
    else s
  (s.checkCabling p).pumpPort p

/-! ## Latency (R334) -/

/-- A measurement starts: 16 ECHO_REQ, each with its transmit time, a stamp the module's lane clock gives. -/
def State.measureLatency (s : State) (p : Nat) : State :=
  let s := s.setPort p { s.port p with echoes := 0, echoSum := 0 }
  (List.range 16).foldl (fun s _ =>
    let t1 := Config.freeWord s.draws
    { s with draws := s.draws + 1 }.sendOn p 1 none (.echoReq p t1.toNat)) s

/-- One exchange of the 16; the last gives `ZP_LATENCY`, the mean of half the round trips. Its rounding is not stated (log entry
38). -/
def State.echoReturned (s : State) (p t1 t2 t3 t4 : Nat) : State :=
  let s := s.accepted p 1
  let v := s.port p
  if 16 ≤ v.echoes then s
  else
    let v := { v with echoes := v.echoes + 1, echoSum := v.echoSum + ((t4 : Int) - t1 - ((t3 : Int) - t2)) }
    let s := s.setPort p v
    if v.echoes = 16 then
      let up := Config.roundUp s.draws
      let mean := v.echoSum / 32 + (if v.echoSum % 32 ≠ 0 ∧ up then 1 else 0)
      (({ s with draws := s.draws + 1 }).put (F.ZP_LATENCY_LATENCY p) mean.toNat).put (F.ZP_STATUS_LAT_OK p) 1
    else s

/-! ## LINK_STATE (R328) -/

/-- A break announcement: the map is updated and the message goes on along the ring, up to the far side of the link it names. -/
def State.linkAnnounced (s : State) (p axis link : Nat) (broken : Bool) : State :=
  let (s, kept) := s.takeControl p
  let s := s.touchCritical 3 0
  if !kept || decide (3 ≤ axis) then s
  else
    let s := s.setBroken axis link broken
    let s := match s.portDir p with
      | some (a, minus) =>
        if a = axis && s.on F.ZF_PHYS_VALID && decide (s.portLink axis (!minus) ≠ link) then
          let q := s.dirPort axis (!minus)
          if s.portUp q then s.sendOn q 1 (some 0) (.linkState q axis link broken) else s
        else s
      | none => s
    s.remeasure

/-! ## IDENT (R333) -/

/-- An IDENT_REQ for this module is answered to its source, on the link it came from when the source has no position. -/
def State.identify (s : State) (p : Nat) (r : Route) : State :=
  let reply (q : Nat) : OutMsg := .identRsp q ⟨r.src, BitVec.ofNat 24 s.logical, 0#3⟩ (s.discoverPayload q)
  if r.src.toNat = farEnd then s.sendOn p 1 (some 0) (reply p)
  else (s.injectMsg r.src.toNat 1 0 none reply).1

/-! ## SET_POSITION and SET_ROUTES (R337, R338) -/

/-- Every coordinate lies below its dimension. -/
def coordsBelow (p d : Nat) : Bool := [0, 1, 2].all (fun a => decide (coord p a < dimOf d a))

/-- SET_POSITION's checks of its operands. -/
def State.positionOk (s : State) (p : PositionParams) : Bool :=
  coordsBelow p.phys.toNat p.pdim.toNat && (p.spare || coordsBelow p.logical.toNat p.ldim.toNat) &&
    [0, 1, 2].all (fun a => decide (dimOf p.ldim.toNat a ≤ dimOf p.pdim.toNat a)) && s.on F.ZF_CTRL_LOCK

/-- The registers of R340 set by SET_POSITION, DISCOVER sent and the cabling checked. A module that is not FAILED enters JOINED or SPARE. -/
def State.setPosition (s : State) (p : PositionParams) : State :=
  let s := ((s.put F.ZF_PHYS_PHYS p.phys.toNat).put F.ZF_PHYS_VALID 1).put F.ZF_PDIM_DIM p.pdim.toNat
  let s := (s.put F.ZF_LOGICAL_LOGICAL (if p.spare then 0 else p.logical.toNat)).put F.ZF_LOGICAL_VALID (flag (!p.spare))
  let s := (s.put F.ZF_LOGICAL_SPARE (flag p.spare)).put F.ZF_LDIM_DIM p.ldim.toNat
  let s := (if s.get F.PW_STATUS_STATE = 11 then s else s.put F.PW_STATUS_STATE (if p.spare then 8 else 6)).announce
  ((List.range 8).foldl (fun s q => s.checkCabling q) s).remeasure

/-- The remap table's size in entries. -/
def State.remapEntries (s : State) : Nat :=
  let d := s.get F.ZF_LDIM_DIM
  dimOf d 0 * dimOf d 1 * dimOf d 2

/-- The physical coordinates of a remap table's VALID entries, and every entry in order. -/
def remapWords (bs : List Byte) : List Nat := (List.range (bs.length / 4)).map (fun i => leAt bs (4 * i) 4)

/-- The index of a logical position in the remap table (R324). -/
def remapIndex (ldim p : Nat) : Nat := coord p 0 + dimOf ldim 0 * (coord p 1 + dimOf ldim 1 * coord p 2)

/-- The checks of a remap table (R338): VALID entries within PDIM, no coordinate twice, and the module's own entry. -/
def State.remapOk (s : State) (bs : List Byte) : Bool :=
  let ws := remapWords bs
  let valid := (ws.filter (fun w => bit w 24)).map (fun w => w % 2 ^ 24)
  let own := nth ws (remapIndex (s.get F.ZF_LDIM_DIM) (s.get F.ZF_LOGICAL_LOGICAL)) 0
  valid.all (fun p => coordsBelow p (s.get F.ZF_PDIM_DIM)) && decide valid.Nodup &&
    (!s.on F.ZF_LOGICAL_VALID || (bit own 24 && decide (own % 2 ^ 24 = s.here)))

/-- SET_ROUTES MAP's body. A table in companion memory is kept as it has been read (log entry 130). -/
def State.setRemap (s : State) (a digest : Nat) (c : CmdRef) : Body :=
  let n := 4 * s.remapEntries
  s.guard [(decide (a % 4096 ≠ 0), ST_BAD_PARAM), (!s.idle, ST_NOT_READY)] (fun s =>
    match s.aliasCheck a n with
    | some st => s.fail st
    | none => s.reading a n c (fun s bs =>
      if crc64 bs ≠ digest then s.fail ST_DIGEST
      else if !s.remapOk bs then s.fail ST_BAD_PARAM
      else
        let s : State := { s with fab := { s.fab with map := if companionBase ≤ a then bs else [] } }
        ((s.put F.ZF_REMAP_BASE_BASE a).remeasure).ok digest))

/-- The ports that a DIRMAP names. -/
def dirPorts (d : Nat) : List Nat := (List.range 6).map (fun i => bits d (4 * i) 4)

/-- SET_ROUTES DIRMAP's body. -/
def State.setDirmap (s : State) (d : Nat) : Body :=
  let ports := dirPorts d
  s.guard [(!s.idle, ST_NOT_READY), (!ports.all (fun p => decide (p < 8)) || !decide ports.Nodup, ST_BAD_PARAM)] (fun s =>
    let s := s.put F.ZF_DIRMAP_DIRMAP d
    (((List.range 8).foldl (fun s q => s.checkCabling q) s).remeasure).ok 0)

/-- SET_ROUTES BREAKS's body: the three maps of 32 bytes. -/
def State.setBreaks (s : State) (a : Nat) (c : CmdRef) : Body :=
  s.guard [(decide (a % 8 ≠ 0), ST_BAD_PARAM), (!s.idle, ST_NOT_READY)] (fun s =>
    match s.aliasCheck a 96 with
    | some st => s.fail st
    | none => s.reading a 96 c (fun s bs =>
      let s := (List.range 12).foldl (fun s i => s.put (F.ZF_BREAK_BREAKS (i / 4) (i % 4)) (leAt bs (8 * i) 8)) s
      (s.remeasure).ok 0))

end Sys2Proof.Machine
end

