-- ==== Sys2Proof/Machine/SampleOrder.lean ====
section
/-!
DEFINITION. Machine/SampleOrder.lean: the order in which the logical positions consume dataset samples (R162 to R166).
-/
namespace Sys2Proof.Machine

/-! ## The permutation (R165) -/

/-- w of R165: the smallest even integer, at least 2, with 2^w ≥ N. -/
def feistelWidth (n : Nat) : Nat := max 2 (2 * cdiv (if n ≤ 1 then 0 else (n - 1).log2 + 1) 2)

/-- One round of the Feistel permutation on halves of `h` bits in epoch `e`. -/
def feistelRound (seed e h round : Nat) (p : Nat × Nat) : Nat × Nat :=
  let f := (drawBlock seed Stream.sampleOrder (round * 2 ^ 24 + p.2) (e % 2 ^ 48) 0).x0 % 2 ^ h
  (p.2, p.1 ^^^ f)

/-- The six rounds. -/
def feistel (seed e h p : Nat) : Nat :=
  let q := (List.range 6).foldl (fun q round => feistelRound seed e h round q) (p / 2 ^ h, p % 2 ^ h)
  q.1 * 2 ^ h + q.2

/-- Cycle-walking: the permutation applied again until it falls below N. It does so within one cycle, at most 2^w steps. -/
def cycleWalk (seed e h n : Nat) : Nat → Nat → Nat
  | 0, y => y
  | fuel + 1, y => if y < n then y else cycleWalk seed e h n fuel (feistel seed e h y)

/-- π_e (R165). -/
def sampleIndex (seed e n p : Nat) : Nat :=
  let w := feistelWidth n
  cycleWalk seed e (w / 2) n (2 ^ w) (feistel seed e (w / 2) p)

/-! ## Ranks and checks (R162, R164) -/

/-- The data-parallel axes. -/
def State.dpAxes (s : State) : List Nat := (List.range 3).filter (fun a => bit (s.get F.SO_DP_AXES) a)

/-- The ring length of an axis: 0 means 256. -/
def State.dpSize (s : State) (a : Nat) : Nat :=
  let v := if a = 0 then s.get F.SO_DP_SIZE_X else if a = 1 then s.get F.SO_DP_SIZE_Y else s.get F.SO_DP_SIZE_Z
  if v = 0 then 256 else v

/-- D: the product of the ring lengths of the data-parallel axes. -/
def State.dpDegree (s : State) : Nat := s.dpAxes.foldl (fun d a => d * s.dpSize a) 1

/-- The data-parallel rank r. -/
def State.dpRank (s : State) : Nat :=
  (s.dpAxes.foldl (fun (acc : Nat × Nat) a => (acc.1 + coord (s.get F.ZF_LOGICAL_LOGICAL) a * acc.2, acc.2 * s.dpSize a)) (0, 1)).1

/-- The local batch b. -/
def State.localBatch (s : State) : Nat := s.get F.SO_BATCH_GLOBAL / s.dpDegree

/-- The configuration fails R164. -/
def State.sampleOrderBad (s : State) : Bool :=
  decide (s.get F.SO_BATCH_GLOBAL % s.dpDegree ≠ 0) || decide (s.localBatch < 1 ∨ 1048576 < s.localBatch) ||
    decide (s.get F.SO_DATASET_N = 0) || decide (s.get F.SO_LIST_BASE_BASE % 4096 ≠ 0) ||
    s.dpAxes.any (fun a => decide (s.dpSize a ≤ coord (s.get F.ZF_LOGICAL_LOGICAL) a) ||
      decide (dimOf (s.get F.ZF_LDIM_DIM) a < s.dpSize a))

/-! ## The list (R163, R166) -/

/-- One entry of the list: the sample of a slot and its epoch. -/
def sampleEntry (seed n slot : Nat) : List Byte :=
  let e := slot / n
  leBytes 6 (sampleIndex seed e n (slot % n)) ++ leBytes 2 e

/-- The bytes of the list of Period `p` for cursor `c`. -/
def State.sampleList (s : State) (p c : Nat) : List Byte :=
  let n := s.get F.SO_DATASET_N
  let b := s.localBatch
  let first := c + s.dpRank * b
  let entries := (List.range b).flatMap (fun i => sampleEntry s.seed n (first + i))
  let head := leBytes 8 p ++ leBytes 8 c ++ leBytes 4 b ++ leBytes 4 s.dpRank ++ leBytes 8 (first / n % 2 ^ 48)
  padTo 64 (head ++ leBytes 8 (crc64 (head ++ entries))) ++ entries

/-- The list of Period `p` written to its buffer, and `SO_STATUS.READY_PERIOD` set (R166). A configuration that fails R164 gives no
list: the first tick reports it. -/
def State.writeSampleList (s : State) (p c : Nat) : State :=
  if s.on F.SO_CTRL_ENABLE && !s.sampleOrderBad then
    let s := (s.writeAt (s.get F.SO_LIST_BASE_BASE + p % 2 * 0x801000) (s.sampleList p c) none).1
    s.put F.SO_STATUS_READY_PERIOD p
  else s

end Sys2Proof.Machine
end

