-- ==== Sys2Proof/Machine/ShardLedger.lean ====
section
/-!
DEFINITION. Machine/ShardLedger.lean: the rules, the parameter table and the Shard Ledger of the update units (chapter 09, R245 to
R251, R264 to R267, R275, R276).
-/
namespace Sys2Proof.Machine

/-! ## Rules (R250, R251) -/

/-- A rule record, decoded. -/
structure Rule where
  code     : Nat
  mfmt     : Nat
  mround   : Nat
  momentum : Bool
  beta1    : Val
  beta2    : Val
  eps1     : Val
  lr       : Val
  wd       : Val
  clip     : Val

/-- A rule from its 64 bytes. -/
def Rule.of (b : List Byte) : Rule :=
  let w := leAt b 0 4
  ⟨w % 256, bits w 8 4, bits w 12 3, bit w 15, v32 (leAt b 4 4), v32 (leAt b 8 4), v32 (leAt b 12 4), v32 (leAt b 16 4),
    v32 (leAt b 20 4), v32 (leAt b 24 4)⟩

/-- The rule keeps a moment. -/
def Rule.keeps (r : Rule) : Bool := decide (1 ≤ r.code ∧ r.code ≤ 5) || (r.code == 6 && r.momentum)

/-- The rule keeps factored vectors. -/
abbrev Rule.vectors (r : Rule) : Bool := r.code == 4 || r.code == 5

/-- The format of the moment. -/
abbrev Rule.fmt (r : Rule) : Fmt := if r.mfmt = 3 then .bf16 else .fp32

/-- Finite, and 0 or more. -/
def nonNegative (x : Val) : Bool := x.isFinite && (x.isZero || !x.isNeg)

/-- 0 or more, and below 1. -/
def fraction (x : Val) : Bool := nonNegative x && x.lt (.ofInt 1)

/-- The fields of a rule record are in range (R250, R276). -/
def ruleOk (b : List Byte) : Bool :=
  let r := Rule.of b
  decide (r.code ≤ 6 ∧ r.mround ≤ 4 ∧ leAt b 2 2 = 0 ∧ leAt b 0x1C 36 = 0) &&
    (if r.keeps then r.mfmt == 2 || r.mfmt == 3 else r.mfmt == 0) && (r.code == 6 || !r.momentum) &&
    fraction r.beta1 && nonNegative r.lr && nonNegative r.wd && nonNegative r.clip &&
    (!r.vectors || (fraction r.beta2 && nonNegative r.eps1 && (Val.fin false 1 (-126)).le r.eps1))

/-- The bytes of a rule, 64 zeros for an undefined one. -/
def State.ruleBytes (s : State) (id : Nat) : List Byte := (alGet s.uu.rules id).getD (List.replicate 64 0)

/-- A rule by its ID. -/
def State.rule (s : State) (id : Nat) : Rule := Rule.of (s.ruleBytes id)

/-- RULES_DIGEST (R265). -/
def State.rulesDigest (s : State) : Nat := crc64 ((List.range 256).flatMap s.ruleBytes)

/-! ## The parameter table (R247, R248) -/

/-- An entry of the parameter table, decoded. -/
structure Param where
  rule     : Nat
  sparse   : Bool
  tensor   : Nat
  rows     : Nat
  cols     : Nat
  first    : Nat
  master   : Nat
  plane    : Nat
  moment   : Nat
  vec0     : Nat
  vec1     : Nat
  grad     : Nat
  work     : Nat
  rowlist  : Nat
  rowcount : Nat
  left     : Nat
  right    : Nat
  lfirst   : Nat
  rfirst   : Nat
  fmask    : Nat

/-- An entry from its 128 bytes. -/
def Param.of (b : List Byte) : Param :=
  let a (o : Nat) : Nat := leAt b o 6
  ⟨leAt b 0 1, bit (leAt b 1 1) 0, leAt b 2 2, leAt b 4 4, leAt b 8 4, leAt b 12 4, a 0x10, a 0x18, a 0x20, a 0x28, a 0x30, a 0x38,
    a 0x40, a 0x48, a 0x50, leAt b 0x58 2, leAt b 0x5A 2, leAt b 0x5C 2, leAt b 0x5E 2, a 0x60⟩

/-- The elements of a tensor. -/
abbrev Param.count (e : Param) : Nat := e.rows * e.cols

/-- The blocks of a tensor (R246). -/
abbrev Param.blocks (e : Param) : Nat := cdiv e.count 4096

/-- The elements of block `b`: the first and how many (R246). -/
abbrev Param.span (e : Param) (b : Nat) : Nat × Nat := (4096 * b, min 4096 (e.count - 4096 * b))

/-- The regions of an entry with their lengths; 0 is none. -/
def Param.regions (e : Param) (r : Rule) : List (Nat × Nat) :=
  let n := e.count
  [(e.master, 4 * n), (e.plane, n), (e.moment, (if r.mfmt = 3 then 2 else 4) * n), (e.vec0, 4 * (e.rows + e.cols)),
    (e.vec1, 4 * (e.rows + e.cols)), (e.grad, 4 * n), (e.work, 2 * n), (e.rowlist, 4 * e.rows), (e.fmask, cdiv e.rows 8)]

/-- What R248 asks of one entry by itself, with the regions that `e` gives. -/
def State.entryOk (s : State) (b : List Byte) (e : Param) : Bool :=
  match alGet s.uu.rules e.rule with
  | none => false
  | some rb =>
    let r := Rule.of rb
    decide (crc64 (b.take 0x78) = leAt b 0x78 8) && decide (leAt b 1 1 / 2 = 0 ∧ leAt b 0x68 16 = 0) &&
      allBelow 9 (fun k => decide (leAt b (0x10 + 8 * k + 6) 2 = 0)) && decide (leAt b 0x66 2 = 0) &&
      decide (1 ≤ e.rows ∧ 1 ≤ e.cols ∧ e.count ≤ 2 ^ 32) &&
      (e.regions r).all (fun g => decide (g.1 = 0) || decide (g.1 % 4096 = 0 ∧ g.1 + g.2 ≤ hbmEnd)) &&
      decide (e.rowcount % 4 = 0 ∧ e.rowcount + 4 ≤ hbmEnd) &&
      decide (e.moment ≠ 0) == r.keeps && decide (e.vec0 ≠ 0) == r.vectors && decide (e.vec1 ≠ 0) == r.vectors &&
      (if e.sparse then decide (r.code ≤ 3) else decide (leAt b 0x48 6 = 0 ∧ leAt b 0x50 6 = 0))

/-- What R248 asks of an entry of the home's table. -/
abbrev State.paramOk (s : State) (b : List Byte) : Bool := s.entryOk b (Param.of b)

/-- What R373 asks of an entry of a shadow table: GRAD, ROWLIST and ROWCOUNT are offsets, and there is no working copy. -/
def State.shadowParamOk (s : State) (b : List Byte) : Bool :=
  let e := Param.of b
  s.entryOk b { e with grad := 0, rowlist := 0, rowcount := 0 } && decide (e.work = 0)

/-- LEDGER_FIRST of each entry follows from the entries before it (R248). -/
def firstsOk (es : List Param) : Bool :=
  (es.foldl (fun (acc : Nat × Bool) e => (acc.1 + e.blocks, acc.2 && decide (e.first = acc.1))) (0, true)).2

/-- The base of the attached table. -/
abbrev State.tableBase (s : State) : Nat := s.get (F.UU_TABLE_BASE 0)

/-- The entries of the table in use, in order. While the holder replays its shadow, GRAD, ROWLIST and ROWCOUNT are offsets within a log
slot (R373). -/
def State.params (s : State) : List Param :=
  (List.range s.uu.tensors).map (fun t =>
    let e := Param.of (s.hbm.read (s.tableBase + 128 * t) 128)
    { e with grad := e.grad + s.uu.slotBase, rowlist := e.rowlist + s.uu.slotBase, rowcount := e.rowcount + s.uu.slotBase })

/-- A table is attached. -/
abbrev State.tableAttached (s : State) : Bool := decide (s.uu.tensors ≠ 0)

/-- The blocks of all entries. -/
def State.allBlocks (s : State) : Nat := sumList (s.params.map Param.blocks)

/-! ## The Shard Ledger (R264 to R266) -/

/-- The base of the ledger. -/
abbrev State.shardLedger (s : State) : Nat := s.get (F.UU_LEDGER_BASE 0)

/-- Where the record of tensor `t` lies. -/
abbrev State.tensorAt (s : State) (t : Nat) : Nat := s.shardLedger + 0x80 + 16 * t

/-- Where the entry of block `b` lies. -/
abbrev State.blockAt (s : State) (b : Nat) : Nat := s.shardLedger + 0x80 + 16 * s.uu.tensors + 16 * b

/-- Header fields. -/
abbrev State.ledCommitted (s : State) : Nat := s.word (s.shardLedger + 0x10) 6
abbrev State.ledTarget (s : State) : Nat := s.word (s.shardLedger + 0x18) 6
abbrev State.ledPhase (s : State) : Nat := s.word (s.shardLedger + 0x1E) 1 % 4
abbrev State.ledCursor (s : State) : Nat := s.word (s.shardLedger + 0x20) 8
abbrev State.ledScale (s : State) : Nat := s.word (s.shardLedger + 0x28) 4
abbrev State.ledQ (s : State) : Nat := s.word (s.shardLedger + 0x30) 8
abbrev State.ledRules (s : State) : Nat := s.word (s.shardLedger + 0x38) 8

/-- CRC-64 of header bytes 0x00 to 0x3F: DIGEST, and the result digest of TABLE, APPLY and RECOVER. -/
def State.ledDigest (s : State) : Nat := crc64 (s.hbm.read s.shardLedger 0x40)

/-- The header's DIGEST verifies. -/
abbrev State.ledSealed (s : State) : Bool := decide (s.ledDigest = s.word (s.shardLedger + 0x40) 8)

/-- The header's DIGEST rewritten. -/
def State.sealHeader (s : State) : State := s.ownWord (s.shardLedger + 0x40) 8 s.ledDigest

/-- TARGET and PHASE written. -/
def State.ledPut (s : State) (target phase : Nat) : State :=
  s.own (s.shardLedger + 0x18) (leBytes 6 target ++ leBytes 2 phase)

/-- BUDDY_OVERRIDE of the header (R265). -/
abbrev State.ledOverride (s : State) : Bool := bit (s.word (s.shardLedger + 0x2C) 4) 0

/-- A ledger that was restored or recovered carries BUDDY_OVERRIDE: BUDDY_OVERRIDE_NOTED (R371). -/
def State.noteOverride (s : State) (c : CmdRef) : State :=
  if s.ledOverride then (s.put F.SH_STATUS_OVERRIDE 1).raise ⟨0x0905, 0, 9, 0, 0, false, some c⟩ else s

/-- A Period number compares below another; none is below every Period number (R264). -/
def periodBelow (a b : Nat) : Bool := decide (a ≠ b) && (decide (a = noPeriod) || (decide (b ≠ noPeriod) && decide (a < b)))

/-- VCUR of tensor `t` (R266). -/
abbrev State.vcur (s : State) (t : Nat) : Nat := s.word (s.tensorAt t + 6) 1 % 2

/-- VSTEP of tensor `t`. -/
abbrev State.vstep (s : State) (t : Nat) : Nat := s.word (s.tensorAt t) 6

/-- The vector copy in force of tensor `t`. -/
def State.vectorsNow (s : State) (t : Nat) (e : Param) : Nat := if s.vcur t = 0 then e.vec0 else e.vec1

/-- The other vector copy. -/
def State.vectorsNext (s : State) (t : Nat) (e : Param) : Nat := if s.vcur t = 0 then e.vec1 else e.vec0

/-- A write group of the module's own (R267, R272): its bytes at an address, or, when the write fails, the status it fails with and the
bytes undefined. -/
def State.groupWrite (s : State) (a : Nat) (bs : List Byte) (c : Option CmdRef) : Act Unit :=
  match s.writeHbm a bs c with
  | (s, none) => (s, .ok ())
  | (s, some st) => (s.forgetHbm a (a + bs.length), .fail st)

/-- A header group: some fields of the header, by offset, and its DIGEST again (R265, R267). -/
def State.headerGroup (s : State) (fields : List (Nat × List Byte)) (c : Option CmdRef) : Act Unit :=
  let bs := fields.foldl (fun (bs : List Byte) f => overlay bs f.1 f.2) (s.hbm.read s.shardLedger 0x40)
  s.groupWrite s.shardLedger (bs ++ leBytes 8 (crc64 bs)) c

/-- TARGET and PHASE as a field of a header group. -/
abbrev targetField (target phase : Nat) : Nat × List Byte := (0x18, leBytes 6 target ++ leBytes 2 phase)

/-- A vector group (R267): VCUR toggled, VSTEP set. -/
def State.vectorGroup (s : State) (t n : Nat) (c : CmdRef) : Act Unit :=
  s.groupWrite (s.tensorAt t) (leBytes 6 n ++ leBytes 2 (1 - s.vcur t)) (some c)

/-- A table that the update unit reads, with the status that stops it when the read fails (R272). -/
def State.unitRead (s : State) (a n structure_ : Nat) (c : CmdRef) : Act Unit :=
  match s.readTable a n structure_ c with
  | (s, .bytes _) => (s, .ok ())
  | (s, .error st) => (s, .fail st)

/-- What the update unit reads of its tables before it works (R272, R513): the parameter table, the ledger's header and tensor records, and,
with `blocks`, its block entries. -/
def State.readState (s : State) (blocks : Bool) (c : CmdRef) : Act Unit :=
  (s.unitRead s.tableBase (128 * s.uu.tensors) 8 c).bind (fun s _ =>
    s.unitRead s.shardLedger (0x80 + 16 * (s.uu.tensors + if blocks then s.allBlocks else 0)) 6 c)

/-! ## SET_RULE (R275, R276) -/

/-- RULE. -/
def State.setRule (s : State) (id : Nat) (b : List Byte) : Body :=
  let r := Rule.of b
  let changes := match alGet s.uu.rules id with
    | some old => decide ((Rule.of old).code ≠ r.code ∨ (Rule.of old).mfmt ≠ r.mfmt) && s.params.any (fun e => decide (e.rule = id))
    | none => false
  if !ruleOk b || changes then s.fail ST_BAD_PARAM
  else State.ok { s with uu := { s.uu with rules := alSet id b s.uu.rules } } (crc64 b)

/-- The table and the ledger attached: the registers of every quarter. -/
def State.attachTable (s : State) (count address ledger : Nat) : State :=
  let s := { s with uu := { s.uu with tensors := count } }
  (List.range 4).foldl (fun (s : State) q => (s.put (F.UU_TABLE_BASE q) address).put (F.UU_LEDGER_BASE q) ledger) s

/-- A ledger initialised (R276). -/
def State.initLedger (s : State) (blocks : Nat) : State :=
  let n := s.uu.tensors
  let none16 := leBytes 8 noPeriod ++ leBytes 8 0
  let pair := leBytes 8 noPeriod ++ leBytes 8 noPeriod
  let header := padTo 128 (leBytes 4 1 ++ leBytes 4 n ++ leBytes 4 blocks ++ leBytes 4 0 ++ leBytes 8 noPeriod ++ leBytes 8 noPeriod)
  let s := s.own s.shardLedger header
  let s := s.own (s.tensorAt 0) ((List.range n).flatMap (fun _ => none16))
  let s := s.own (s.blockAt 0) ((List.range blocks).flatMap (fun _ => pair))
  s.sealHeader

/-- TABLE. -/
def State.setTable (s : State) (attach : Bool) (count address ledger : Nat) (c : CmdRef) : Body :=
  s.readingTable address (128 * count) 8 c (fun s bs =>
    let imgs := pieces 128 bs
    let es := imgs.map Param.of
    let blocks := sumList (es.map Param.blocks)
    if !imgs.all s.paramOk || !firstsOk es || decide (hbmEnd < ledger + 0x80 + 16 * (count + blocks)) then s.fail ST_BAD_PARAM
    else if attach then
      s.readingTable ledger 0x48 6 c (fun s h =>
        if crc64 (h.take 0x40) ≠ leAt h 0x40 8 then s.fail ST_DIGEST
        else if leAt h 0 2 ≠ 1 ∨ leAt h 0x1E 1 % 4 = 3 ∨ leAt h 4 4 ≠ count ∨ leAt h 8 4 ≠ blocks then s.fail ST_BAD_PARAM
        else
          let s := s.attachTable count address ledger
          s.ok s.ledDigest)
    else
      let s := (s.attachTable count address ledger).initLedger blocks
      s.ok s.ledDigest)

/-- READ. -/
def State.readRules (s : State) (id count address : Nat) (c : CmdRef) : Body :=
  let bs := (List.range count).flatMap (fun i => s.ruleBytes (id + i))
  s.writing address bs c (fun s => s.ok (crc64 bs))

end Sys2Proof.Machine
end

