-- ==== Sys2Proof/Machine/Update.lean ====
section
/-!
DEFINITION. Machine/Update.lean: the work of the update units: PREPARE, APPLY, RECOVER, and their part of the commit (chapter 09, R252
to R263, R268 to R274).
-/
namespace Sys2Proof.Machine

/-! ## The scalars of a Period (R252, R253) -/

/-- Q of Period `n`, an FP64 word, once the noise reduction has brought it (R252, R357). -/
def State.qOf (s : State) (n : Nat) : Option Nat :=
  match s.coll.totals with
  | some t => if t.period = n then some t.sRed else none
  | none => none

/-- c of R252. -/
def clipScale (r : Rule) (q : Val) : Val :=
  if r.clip.isZero || q.isZero then .ofInt 1
  else
    let x := r64 (r.clip.div (r64 q.sqrt))
    round32 (if x.lt (.ofInt 1) then x else .ofInt 1)

/-- UPDATE_SKIPPED, once in a Period (R253). -/
def State.skipNote (s : State) (c : CmdRef) : State :=
  if s.uu.skipNoted then s
  else
    let s := { s with uu := { s.uu with skipNoted := true } }
    (s.bump (F.UU_COUNTS_SKIPPED 0) 1).raise ⟨0x0501, 0, 5, 0, 0, false, some c⟩

/-! ## PREPARE (R256 to R261) -/

/-- A tensor that a PREPARE processes: its index, entry and rule. -/
structure PrepItem where
  t : Nat
  e : Param
  r : Rule

/-- The tensors that a PREPARE processes, in table order (R256). -/
def State.prepItems (s : State) : List PrepItem :=
  (s.params.zipIdx.map (fun p => (⟨p.2, p.1, s.rule p.1.rule⟩ : PrepItem))).filter (fun i => decide (4 ≤ i.r.code ∧ i.r.code ≤ 6))

/-- One side of R249: the block width, when the root-table entry passes for `dim` rows or columns from its block `first` on. -/
def State.sideWidth (s : State) (r : Rule) (entry first dim : Nat) : Option Nat :=
  let b := s.rootBytes entry
  if s.get F.CJ_ROOT_COUNT_COUNT ≤ entry ∨ rtKind b ≠ 1 ∨ rtSite b = 0 ∨ (r.code = 6 ∧ rtPLog2 b ≠ 0) then none
  else match s.site (rtSite b) with
    | none => none
    | some g =>
      let lo := (g.first + first) * g.w
      let hi := min g.dim ((g.first + g.count) * g.w)
      if lo + dim ≤ hi then some g.w else none

/-- The scratch bytes that an item needs, when it passes R249. -/
def State.itemScratch (s : State) (i : PrepItem) : Option Nat :=
  if i.r.code = 4 then some 0
  else match s.sideWidth i.r i.e.left i.e.lfirst i.e.rows, s.sideWidth i.r i.e.right i.e.rfirst i.e.cols with
    | some l, some r => some (8 * l * r)
    | _, _ => none

/-- The checks of a PREPARE on its tensors (R249, R261). -/
def State.prepareOk (s : State) (p : PrepareParams) : Bool :=
  let needs := s.prepItems.map s.itemScratch
  needs.all Option.isSome && needs.all (fun n => decide (n.getD 0 ≤ p.scratchLen.toNat))

/-- RNE32(1 ÷ n). -/
abbrev inv32 (n : Nat) : Val := round32 ((Val.ofInt 1).div (.ofInt n))

/-- The factored statistics (R257): r', c' and u. `old`: the vectors in force, where VSTEP is not none. -/
def factored (e : Param) (r : Rule) (g : Mat) (old : Option (List Val)) : List Val × Mat :=
  let sq : Mat := g.each (fun x => round32 (x.fma x r.eps1))
  let r0 := sq.map (fun row => round32 ((rowSum row).mul (inv32 e.cols)))
  let c0 := (sq.columns e.cols).map (fun col => round32 ((rowSum col).mul (inv32 e.rows)))
  let b2 := round32 ((Val.ofInt 1).sub r.beta2)
  let mix (olds news : List Val) : List Val := (olds.zip news).map (fun p => round32 (r.beta2.fma p.1 (round32 (b2.mul p.2))))
  let rs := match old with | some o => mix (o.take e.rows) r0 | none => r0
  let cs := match old with | some o => mix (o.drop e.rows) c0 | none => c0
  let q := round32 ((Val.ofInt 1).div (round32 ((rowSum rs).mul (inv32 e.rows))))
  let u : Mat := (g.zip rs).map (fun row => (row.1.zip cs).map (fun p =>
    round32 (p.1.mul (rsqrt (round32 ((round32 (row.2.mul p.2)).mul q))))))
  (rs ++ cs, u)

/-- A GEMM of FP32 matrices with an FP32 DST and RNE (R119, R120, R258), K at most 4,096. -/
def gemm32 (a b : Mat) (k n : Nat) : Mat :=
  let cols := b.columns n
  a.zipIdx.map (fun row => cols.zipIdx.map (fun col =>
    round32 (accSum ((kOrder (row.2 / 64) (col.2 / 64) k).map (fun p =>
      chunkSum ((List.range (p.2 - p.1)).map (fun i => (nth row.1 (p.1 + i) .zero).mul (nth col.1 (p.1 + i) .zero))))))))

/-- A product on the clusters of the command: the residue checks of its tiles, then its value. -/
def State.product (s : State) (ctx : RunCtx) (a b : Mat) (m k n : Nat) : Act Mat :=
  let cols := cdiv n 64
  let at_ (x : Mat) (i j : Nat) : Val := x.el i j
  let checks (t : Nat) : List ChunkCheck :=
    tileChecks (at_ a) (at_ b) k t (t / cols) (t % cols)
      ((tileSpan (t / cols) m).flatMap (fun r => (tileSpan (t % cols) n).map (fun x => (r, x))))
  match s.checkTiles ctx (List.range (cdiv m 64 * cols)) checks with
  | (s, true) => (s, .fail ST_RESIDUE)
  | (s, false) => (s, .ok (gemm32 a b k n))

/-- The root of a block of an entry, in its leading `m` × `m` part (R258); none when the slot in force is not valid (R260). -/
def State.rootOf (s : State) (entry block w m : Nat) (c : CmdRef) : Act (Option Mat) :=
  let b := s.rootBytes entry
  let k := rtCurrent b
  s.maybe (if rtValid b k then some () else none) none (fun s _ =>
    (s.readBlock .fp32 (rtRoot b k + 4 * w * w * block) w m m c).bind (fun s x => (s, .ok (some x))))

/-- The sum of squares of a sub-matrix (R259): tile by tile under R126, the tile sums in ACC in tile order, then FP32. -/
def sumSquares (m : Mat) (rows cols : Nat) : Val :=
  let tile (t : Nat) : List Val :=
    let i := t / cdiv cols 64
    let j := t % cdiv cols 64
    ((m.drop (64 * i)).take 64).flatMap (fun r => ((r.drop (64 * j)).take 64).map (fun x => x.mul x))
  round32 (accSum ((List.range (cdiv rows 64 * cdiv cols 64)).map (fun t => rowReduce accAdd .zero (tile t))))

/-- s of R259. -/
def graftScale (a b : Val) : Val :=
  let x := round32 (a.div b).sqrt
  if Val.zero.lt b && x.isFinite then x else .zero

/-- One sub-matrix (I, J) of KRONECKER or NATURAL (R258 to R260): its direction, and whether a root is missing. -/
def State.subDirection (s : State) (ctx : RunCtx) (code : Nat) (g u : Mat) (l r : Option Mat) (m n : Nat) : Act (Mat × Bool) :=
  let missing := l.isNone || r.isNone
  if missing && code == 5 then (s, .ok (u, true))
  else
    (s.maybe l g (fun s l => s.product ctx l g m m n)).bind (fun s t =>
      (s.maybe r t (fun s r => s.product ctx t r m n n)).bind (fun s d =>
        if code = 5 then
          let k := graftScale (sumSquares u m n) (sumSquares d m n)
          (s, .ok (d.each (fun x => round32 (x.mul k)), false))
        else (s, .ok (d, missing))))

/-- A sub-matrix cut out of a matrix. -/
def cut (m : Mat) (i rows j cols : Nat) : Mat := ((m.drop i).take rows).map (fun r => (r.drop j).take cols)

/-- The sub-matrices of a tensor in increasing I and J, put together, with the number that lack a root (R258, R260). -/
def State.directions (s : State) (ctx : RunCtx) (i : PrepItem) (g u : Mat) (wl wr : Nat) : Act (Mat × Nat) :=
  let e := i.e
  let band (s : State) (bi : Nat) : Act (Mat × Nat) :=
    let i0 := bi * wl
    let m := min wl (e.rows - i0)
    (s.rootOf e.left (e.lfirst + bi) wl m ctx.cmd).bind (fun s l =>
      (actAll (fun s bj =>
        let j0 := bj * wr
        let n := min wr (e.cols - j0)
        (s.rootOf e.right (e.rfirst + bj) wr n ctx.cmd).bind (fun s r =>
          s.subDirection ctx i.r.code (cut g i0 m j0 n) (cut u i0 m j0 n) l r m n)) s (List.range (cdiv e.cols wr))).bind
      (fun s (parts : List (Mat × Bool)) =>
        let rows : Mat := (List.range m).map (fun p => parts.flatMap (fun x => nth x.1 p []))
        (s, .ok (rows, parts.countP (·.2)))))
  (actAll band s (List.range (cdiv e.rows wl))).bind (fun s bands =>
    (s, .ok (bands.flatMap (·.1), sumList (bands.map (·.2)))))

/-- What the preparation of one tensor comes to: the vectors it wrote, and the sub-matrices without a root. -/
def State.prepareItem (s : State) (ctx : RunCtx) (q : Val) (i : PrepItem) : Act (List Byte × Nat) :=
  let e := i.e
  let c := clipScale i.r q
  (s.readWords e.grad e.count ctx.cmd).bind (fun s gs =>
    let g : Mat := pieces e.cols (gs.map (fun x => round32 (c.mul x)))
    (s.maybe (if i.r.vectors ∧ s.vstep i.t ≠ noPeriod then some () else none) none (fun s _ =>
      (s.readWords (s.vectorsNow i.t e) (e.rows + e.cols) ctx.cmd).bind (fun s v => (s, .ok (some v))))).bind (fun s old =>
    let f := if i.r.vectors then factored e i.r g old else ([], g)
    let vec := Fmt.fp32.pack (f.1.map rne32)
    let dirs : Act (Mat × Nat) :=
      if i.r.code = 4 then (s, .ok (f.2, 0))
      else match s.sideWidth i.r e.left e.lfirst e.rows, s.sideWidth i.r e.right e.rfirst e.cols with
        | some wl, some wr => s.directions ctx i g f.2 wl wr
        | _, _ => (s, .fail ST_BAD_PARAM)
    dirs.bind (fun s d =>
      (s.writeAct (s.vectorsNext i.t e) vec ctx.cmd).bind (fun s _ =>
        (s.writeAct e.grad (Fmt.fp32.pack (d.1.all_.map rne32)) ctx.cmd).bind (fun s _ => (s, .ok (vec, d.2)))))))

/-- What a failed PREPARE may have written is undefined (R118, R274). -/
def State.forgetPrepared (s : State) : State :=
  s.prepItems.foldl (fun (s : State) i =>
    let s := s.forgetHbm i.e.grad (i.e.grad + 4 * i.e.count)
    if i.r.vectors then
      let a := s.vectorsNext i.t i.e
      s.forgetHbm a (a + 4 * (i.e.rows + i.e.cols))
    else s) s

/-- WAITING_NORM in every quarter. -/
def State.waitingNorm (s : State) (b : Bool) : State :=
  (List.range 4).foldl (fun (s : State) q => s.put (F.UU_STATUS_WAITING_NORM q) (flag b)) s

/-- NO_ROOT and its count (R260). -/
def State.rootNote (s : State) (n : Nat) (c : CmdRef) : State :=
  if n = 0 then s
  else
    let s := s.bump (F.UU_COUNTS_NOROOT 0) n
    if s.uu.rootNoted then s
    else
      let s := { s with uu := { s.uu with rootNoted := true } }
      s.raise ⟨0x0502, 0, 5, 0, 0, false, some c⟩

/-- A PREPARE that has Q does its work. -/
def State.prepare (s : State) (h : Hdr) (p : PrepareParams) (c : CmdRef) (qBits : Nat) : Body :=
  let q := v64 qBits
  let ctx : RunCtx := ⟨c, h, p.clusterFirst.toNat, p.clusterCount.toNat⟩
  let items := s.prepItems
  if !q.isFinite then (s.skipNote c, some ⟨ST_OK, 2, 0⟩)
  else match s.enterClusters ctx.first ctx.count c with
    | (s, some st) => (if st = ST_ISOLATED then s else s.forgetPrepared).fail st
    | (s, none) =>
      let s := if items.any (fun i => decide (i.r.code ≠ 4)) then s.forgetAt p.scratch.toNat p.scratchLen.toNat else s
      match actAll (fun s i => s.prepareItem ctx q i) s items with
      | (s, .fail st) => s.forgetPrepared.fail st
      | (s, .ok outs) =>
        let missing := sumList (outs.map (·.2))
        let vecs := outs.flatMap (·.1)
        ((s.rootNote missing c), some ⟨ST_OK, 2 * flag (missing ≠ 0), if vecs.isEmpty then 0 else crc64 vecs⟩)

/-- PREPARE's body: the checks, then the work, at once or when Q comes (R256). One without a tensor to process waits for Q as well: R253 asks
it what Q is (log entry 128). -/
def State.prepareBody (s : State) (h : Hdr) (p : PrepareParams) (c : CmdRef) : Body :=
  let n := s.currentPeriod
  let scratchOk := decide (p.scratch.toNat % 4096 = 0) && writable p.scratch.toNat p.scratchLen.toNat
  let clusters := decide (1 ≤ p.clusterCount.toNat ∧ p.clusterFirst.toNat + p.clusterCount.toNat ≤ 256)
  if !scratchOk || !clusters || s.uu.prepared == some n then s.fail ST_BAD_PARAM
  else
    let s := { s with uu := { s.uu with prepared := some n } }
    (if s.tableAttached then s.readState false c else (s, .ok ())).body (fun s _ =>
      if !s.prepareOk p then s.fail ST_BAD_PARAM
      else match s.qOf n with
        | some q => s.prepare h p c q
        | none => (({ s with uu := { s.uu with waitPrepare := some ⟨c, h, p⟩ } }).waitingNorm true, none))

/-- A PREPARE that waited for Q goes on. -/
def State.resumePrepare (s : State) : State :=
  match s.uu.waitPrepare, s.qOf s.currentPeriod with
  | some w, some q =>
    let s := ({ s with uu := { s.uu with waitPrepare := none } }).waitingNorm false
    match s.prepare w.hdr w.p w.cmd q with
    | (s, some d) => s.finish w.cmd d
    | (s, none) => s
  | _, _ => s

/-! ## Rows that are updated (R262, R263) -/

/-- The entries of a row list that are kept: below ROWS and rising; and those that are discarded. -/
def keptRows (rows : Nat) (entries : List Nat) : List Nat × List Nat :=
  entries.foldl (fun (acc : List Nat × List Nat) x =>
    let after := match acc.1.getLast? with | some y => decide (y < x) | none => true
    if decide (x < rows) && after then (acc.1 ++ [x], acc.2) else (acc.1, acc.2 ++ [x])) ([], [])

/-- The quarter whose unit processes the block that row `i` begins in; for a row beyond the tensor, that of its first block (log entry
35). -/
def Param.rowQuarter (e : Param) (i : Nat) : Nat := (e.first + if i < e.rows then i * e.cols / 4096 else 0) % 4

/-- Which rows of a tensor are updated, read at the start of APPLY, with the discarded entries counted. -/
def State.updatedRows (s : State) (e : Param) (c : CmdRef) : Act (Nat → Bool) :=
  (s.maybe (if e.fmask = 0 then none else some ()) none (fun s _ =>
    (s.readAct e.fmask (cdiv e.rows 8) c).bind (fun s bs => (s, .ok (some bs.toArray))))).bind (fun s mask =>
  (s.maybe (if e.sparse then some () else none) none (fun s _ =>
    (s.readAct e.rowcount 4 c).bind (fun s nb =>
      let n := (max 0 (min (Int.ofNat e.rows) (toSigned 32 (ofLE nb)))).toNat
      (s.readAct e.rowlist (4 * n) c).bind (fun s bs =>
        let kept := keptRows e.rows ((pieces 4 bs).map ofLE)
        let s := kept.2.foldl (fun (s : State) i => s.bump (F.UU_COUNTS_INDEX_FAULT (e.rowQuarter i)) 1) s
        (s, .ok (some kept.1)))))).bind (fun s list =>
  let open_ (i : Nat) : Bool := match mask with | some m => maskBit m i | none => true
  let listed (i : Nat) : Bool := match list with | some l => l.contains i | none => true
  (s, .ok (fun i => open_ i && listed i))))

/-! ## APPLY (R254, R255, R267 to R269, R272) -/

/-- What the update of a tensor's elements needs: its rule's scalars, which rows move, and the Period. -/
structure UpdCtx where
  n    : Nat
  e    : Param
  r    : Rule
  c    : Val
  a    : Val
  eta  : Val
  rows : Nat → Bool
  skip : Bool

/-- d of R254. -/
def UpdCtx.d (x : UpdCtx) (g : Val) : Val := if 4 ≤ x.r.code then g else round32 (x.c.mul g)

/-- The new moment before its conversion (R254). -/
def UpdCtx.moment (x : UpdCtx) (m d : Val) : Val :=
  if x.r.code = 1 ∨ x.r.code = 2 ∨ x.r.code = 6 then round32 (x.r.beta1.fma m d)
  else round32 (x.r.beta1.fma m (round32 (x.a.mul d)))

/-- sign(mm) of R254. -/
def signOf (m : Val) : Val := if m.isNan then .nan else if m.isZero then .zero else .ofInt (if m.isNeg then -1 else 1)

/-- The step of R254. -/
def UpdCtx.step (x : UpdCtx) (mm d : Val) : Val :=
  match x.r.code with
  | 2 => round32 (x.r.beta1.fma mm d)
  | 3 => signOf mm
  | 6 => if x.r.momentum then mm else d
  | _ => mm

/-- The new master, an M40 word (R254). -/
def UpdCtx.weight (x : UpdCtx) (w32 w step : Val) : Nat :=
  let t := round32 (x.r.wd.fma w32 step)
  (Fmt.m40.convert .rne .inf (w.sub (x.eta.mul t))).1

/-- The updated elements of a block: index and whether its row moves. -/
def UpdCtx.elems (x : UpdCtx) (b : Nat) : List Nat :=
  if x.skip || x.r.code == 0 then []
  else ((List.range (x.e.span b).2).map (fun i => (x.e.span b).1 + i)).filter (fun i => x.rows (i / x.e.cols))

/-- The draws of the Period in progress, for the tensors of the table in use: the seed and the position to draw with, and whether the Period
is GUARDED. -/
def State.momentDraws (s : State) (seed logical : Nat) (guarded : Bool) : MomentDraws :=
  ⟨seed, logical, if guarded then (s.params.map (·.tensor)).filter (fun t => decide (s.classOf t = 2)) else []⟩

/-- The stored form of a moment of element `i` (R88, R95, R250, R254). -/
def State.storeMoment (s : State) (x : UpdCtx) (i : Nat) (m : Val) : Nat :=
  let dr := s.uu.draws
  let rc := if dr.guarded.contains x.e.tensor then (.sr, .sat) else baseRounding x.r.fmt x.r.mround
  let rnd : Rnd := match rc.1 with
    | .rne => .rne
    | .rtz => .rtz
    | .sr => .sr (draw16 dr.seed Stream.sr x.e.tensor i x.n dr.logical)
  (x.r.fmt.convert rnd rc.2 m).1

/-- The values of a block read from an array of a format. -/
def State.readSpan (s : State) (f : Fmt) (base first n : Nat) (c : CmdRef) : Act (List Nat) :=
  (s.readAct (base + f.bytes first) (f.bytes n) c).bind (fun s bs => (s, .ok (f.unpack bs n)))

/-- The bytes that the moments group of a block writes, by address. -/
def State.momentWrites (s : State) (x : UpdCtx) (b : Nat) (c : CmdRef) : Act (List (Nat × List Byte)) :=
  let f := x.r.fmt
  let sp := x.e.span b
  let es := x.elems b
  if es.isEmpty || !x.r.keeps then (s, .ok [])
  else (s.readSpan .fp32 x.e.grad sp.1 sp.2 c).bind (fun s g => (s.readSpan f x.e.moment sp.1 sp.2 c).bind (fun s m =>
    (s, .ok (es.map (fun i =>
      let k := i - sp.1
      let new := x.moment (f.decode (nth m k 0)) (x.d (v32 (nth g k 0)))
      (x.e.moment + f.bytes i, f.pack [s.storeMoment x i new]))))))

/-- The bytes that the weights group of a block writes, by address. -/
def State.weightWrites (s : State) (x : UpdCtx) (b : Nat) (c : CmdRef) : Act (List (Nat × List Byte)) :=
  let f := x.r.fmt
  let sp := x.e.span b
  let es := x.elems b
  if es.isEmpty then (s, .ok [])
  else (s.readSpan .fp32 x.e.grad sp.1 sp.2 c).bind (fun s g =>
    (s.maybe (if x.r.keeps then some () else none) [] (fun s _ => s.readSpan f x.e.moment sp.1 sp.2 c)).bind (fun s m =>
    (s.readSpan .fp32 x.e.master sp.1 sp.2 c).bind (fun s w => (s.readAct (x.e.plane + sp.1) sp.2 c).bind (fun s xs =>
      let one (i : Nat) : List (Nat × List Byte) :=
        let k := i - sp.1
        let word := nth w k 0
        let step := x.step (f.decode (nth m k 0)) (x.d (v32 (nth g k 0)))
        let new := x.weight (v32 word) (Fmt.m40.decode (m40Join word (nth xs k 0).toNat)) step
        [(x.e.master + 4 * i, leBytes 4 (new / 256)), (x.e.plane + i, leBytes 1 (m40Ext new)),
          (x.e.work + 2 * i, leBytes 2 (Fmt.bf16.convert .rne .inf (Fmt.m40.decode new)).1)]
      let all := es.map one
      -- master words, then plane bytes, then the working copy if there is one: each array's pieces end to end
      (s, .ok ((List.range (if x.e.work = 0 then 2 else 3)).flatMap (fun k => all.map (fun l => nth l k (0, [])))))))))

/-- A block's tag written: MSTEP at `off` 0, WSTEP at 8. An uncorrectable error in the entry is one in critical state (R272, R513). -/
def State.writeTag (s : State) (x : UpdCtx) (b off : Nat) (c : CmdRef) : Act Unit :=
  let a := s.blockAt (x.e.first + b) + off
  match s.writeAct a (leBytes 6 x.n) c with
  | (s, .fail st) => (if st = ST_ECC then s.criticalError 6 (s.stackOf a) false (some c) else s, .fail st)
  | r => r

/-- A write group of a block (R267): its data, and its tag in the block entry. `off` is 0 for MSTEP, 8 for WSTEP. -/
def blockGroup (x : UpdCtx) (b off : Nat) (ws : Act (List (Nat × List Byte))) (c : CmdRef) : Act Unit :=
  ws.bind (fun s ws => (s.writeRuns ws c).bind (fun s _ => s.writeTag x b off c))

/-- The data of a block's group undefined. -/
def State.forgetData (s : State) (x : UpdCtx) (b off : Nat) : State :=
  let sp := x.e.span b
  let forget (s : State) (f base : Nat) : State := s.forgetHbm (base + f * sp.1) (base + f * (sp.1 + sp.2))
  if off = 0 then (if x.r.keeps then forget s (if x.r.mfmt = 3 then 2 else 4) x.e.moment else s)
  else
    let s := forget (forget s 4 x.e.master) 1 x.e.plane
    if x.e.work = 0 then s else forget s 2 x.e.work

/-- The contents of a failed group are undefined (R272). -/
def State.forgetGroup (s : State) (x : UpdCtx) (b off : Nat) : State :=
  let s := s.forgetData x b off
  let a := s.blockAt (x.e.first + b) + off
  s.forgetHbm a (a + 8)

/-- One group of a block, or the status that stops the unit, with the group undefined. -/
def State.sealGroup (s : State) (x : UpdCtx) (b off : Nat) (c : CmdRef) : Act Unit :=
  match blockGroup x b off (if off = 0 then s.momentWrites x b c else s.weightWrites x b c) c with
  | (s, .ok _) => (s, .ok ())
  | (s, .fail st) => (s.forgetGroup x b off, .fail (if st = ST_ISOLATED then st else ST_ECC))

/-- A block of the work of a unit: its tensor, its index there, and whether its moments group is still to be written. -/
structure BlockWork where
  x    : UpdCtx
  b    : Nat
  full : Bool

/-- The ledger index of a block of work. -/
abbrev BlockWork.index (w : BlockWork) : Nat := w.x.e.first + w.b

/-- A block: the moments group before the weights group (R268). -/
def State.applyBlock (s : State) (w : BlockWork) (c : CmdRef) : Act Unit :=
  let q := w.index % 4
  let moments : Act Unit := if w.full then s.sealGroup w.x w.b 0 c else (s, .ok ())
  moments.bind (fun s _ =>
    match s.sealGroup w.x w.b 8 c with
    | (s, .ok _) => (s.bump (F.UU_BLOCKS_DONE q) 1, .ok ())
    | (s, .fail st) => (s.put (F.UU_STATUS_INFLIGHT q) 1, .fail st))

/-- The blocks of one unit, in increasing ledger index, until it stops. -/
def State.applyUnit (s : State) (c : CmdRef) : List BlockWork → Act Unit
  | [] => (s, .ok ())
  | w :: ws => match s.applyBlock w c with
    | (s, .ok _) => s.applyUnit c ws
    | (s, .fail st) => (s, .fail st)

/-- The four units, each on its own blocks (R246); the first stop's status. A unit reads its staging store as it works (R512). -/
def State.applyUnits (s : State) (ws : List BlockWork) (c : CmdRef) : Act Unit :=
  (List.range 4).foldl (fun (acc : Act Unit) q =>
    let mine := ws.filter (fun w => decide (w.index % 4 = q))
    let s := acc.1
    let r : Act Unit := if mine.isEmpty then (s, .ok ())
      else match s.useStore .staging q (some c) with
        | (s, true) => (match mine.head? with | some w => s.forgetGroup w.x w.b (if w.full then 0 else 8) | none => s, .fail ST_ECC)
        | (s, false) => s.applyUnit c mine
    match acc.2 with
    | .ok _ => r
    | .fail st => (r.1, .fail st)) (s, .ok ())

/-- The context of each tensor (R252): the scalars, and the rows that move. -/
def State.updCtxs (s : State) (n : Nat) (q lr : Val) (c : CmdRef) : Act (List UpdCtx) :=
  let skip := !q.isFinite
  actAll (fun s (e : Param) =>
    let r := s.rule e.rule
    (s.maybe (if skip then none else some ()) (fun _ => false) (fun s _ => s.updatedRows e c)).bind (fun s rows =>
      (s, .ok (⟨n, e, r, clipScale r q, round32 ((Val.ofInt 1).sub r.beta1), round32 (r.lr.mul lr), rows, skip⟩ : UpdCtx))))
    s s.params

/-- All blocks of the table, to be done in full. -/
def allWork (xs : List UpdCtx) : List BlockWork := xs.flatMap (fun x => (List.range x.e.blocks).map (fun b => ⟨x, b, true⟩))

/-- The vector groups (R268 step 4) of the tensors for which `due` holds; none under R253. -/
def State.vectorGroups (s : State) (xs : List UpdCtx) (due : State → Nat → Bool) (c : CmdRef) : Act Unit :=
  (actAll (fun (s : State) (p : UpdCtx × Nat) =>
    if p.1.r.vectors && !p.1.skip && due s p.2 then s.vectorGroup p.2 p.1.n c else (s, .ok ())) s xs.zipIdx).bind (fun s _ => (s, .ok ()))

/-- The status of a command whose unit a failed access stops (R272). -/
abbrev stopStatus (st : Nat) : Nat := if st = ST_ISOLATED then st else ST_ECC

/-- The unit stops (R272). -/
def State.updateFault (s : State) (c : Option CmdRef) : State :=
  ({ s with uu := { s.uu with openCommit := none } }).raise ⟨0x0503, 4, 5, 0, 0, false, c⟩

/-- The unit stops, and the command with it. -/
def State.failUpdate (s : State) (st : Nat) (c : CmdRef) : Body := (s.updateFault (some c)).fail (stopStatus st)

/-- The blocks that forbidden writes leave undefined, once they have been written (R271). -/
def State.forgetSpoilt (s : State) (xs : List UpdCtx) : State :=
  let s := xs.foldl (fun (s : State) x => ((List.range x.e.blocks).filter (fun b => s.uu.spoilt.contains (x.e.first + b))).foldl
    (fun (s : State) b => (s.forgetData x b 0).forgetData x b 8) s) s
  { s with uu := { s.uu with spoilt := [] } }

/-- The counts of a commit that begins: the blocks of each unit that have WSTEP already, and none in between (R277). -/
def State.startBlocks (s : State) (doneIn : Nat → Nat) : State :=
  (List.range 4).foldl (fun (s : State) q => (s.put (F.UU_BLOCKS_DONE q) (doneIn q)).put (F.UU_STATUS_INFLIGHT q) 0) s

/-! ## The commit (R268) -/

/-- The ledger takes part in the commit: a table is attached and the ledger was CLOSED at the tick (R274; log entry 36). -/
abbrev State.ledgerLive (s : State) : Bool := s.tableAttached && s.uu.closedAtTick

/-- The APPLY attached to the UPDATE instance of Period `n`, or the one that waits. -/
def State.boundApply (s : State) (n : Nat) : Option (BitVec 32) :=
  s.cp.flights.findSome? (fun f => match f.cmd, f.attach with
    | some (.updateApply _ lr), some a => if a.1 = n then some lr else none
    | _, _ => none)

/-- A header group of the commit failed (R272): the unit stops, and an APPLY of the Period ends, now or when it comes. -/
def State.commitFault (s : State) (st : Nat) : State :=
  let waiting := s.uu.waitApply
  let s := { s with uu := { s.uu with failed := some (stopStatus st), waitApply := none } }
  let s := s.updateFault (waiting.map (·.cmd))
  match waiting with
  | some w => s.finish w.cmd (Done.fail (stopStatus st))
  | none => s

/-- Step 1: the ITEMS header. `cursor` is what `PC_CURSOR` takes. -/
def State.commitHeader (s : State) (n cursor : Nat) : State :=
  let s := { s with uu := { s.uu with
    openCommit := some n, cursor := cursor, spoilt := []
    draws := s.momentDraws s.seed (s.get F.ZF_LOGICAL_LOGICAL) s.pd.guarded } }
  let s := s.startBlocks (fun _ => 0)
  if s.ledgerLive then
    let lr := ((s.boundApply n).map BitVec.toNat).getD 0
    match s.headerGroup [targetField n 1, (0x20, leBytes 8 cursor ++ leBytes 4 lr),
        (0x30, leBytes 8 ((s.qOf n).getD 0) ++ leBytes 8 s.rulesDigest)] none with
    | (s, .ok _) => s
    | (s, .fail st) => s.commitFault st
  else s

/-- Step 6: the header closed, and the two registers. -/
def State.closeCommit (s : State) (n : Nat) (c : Option CmdRef) : Act Unit :=
  (if s.ledgerLive then s.headerGroup [(0x10, leBytes 6 n), targetField n 0] c else (s, .ok ())).bind (fun s _ =>
    let s := (s.put F.PC_COMMITTED_COMMITTED n).put F.PC_CURSOR_CURSOR s.uu.cursor
    ({ s with uu := { s.uu with openCommit := none } }, .ok ()))

/-- Steps 3 to 6 with an APPLY: its work, and the close; whether R253 applied. -/
def State.applySteps (s : State) (w : ApplyWait) (n q : Nat) : Act Bool :=
  let c := w.cmd
  (s.readState false c).bind (fun s _ =>
  (s.updCtxs n (v64 q) (v32 w.lrScale) c).bind (fun s xs =>
  (s.headerGroup [targetField n 2, (0x28, leBytes 4 w.lrScale), (0x30, leBytes 8 q)] (some c)).bind (fun s _ =>
  (s.vectorGroups xs (fun _ _ => true) c).bind (fun s _ =>
    let skip := xs.any (·.skip)
    let s := if skip then s.skipNote c else s
    (s.applyUnits (allWork xs) c).bind (fun s _ => ((s.forgetSpoilt xs).closeCommit n (some c)).bind (fun s _ => (s, .ok skip)))))))

/-- An APPLY that has the grant and Q. -/
def State.applyNow (s : State) (w : ApplyWait) (n q : Nat) : Body :=
  match s.applySteps w n q with
  | (s, .fail st) => s.failUpdate st w.cmd
  | (s, .ok skip) => (s, some ⟨ST_OK, 2 * flag skip, s.ledDigest⟩)

/-- APPLY's checks when it is dispatched (R273, R274); then it waits for the grant and for Q, or goes on at once. -/
def State.applyBody (s : State) (lr : Nat) (c : CmdRef) : Body :=
  let n := s.currentPeriod
  if !nonNegative (v32 lr) || s.uu.applied == some n then s.fail ST_BAD_PARAM
  else
    let s := { s with uu := { s.uu with applied := some n } }
    if !s.ledgerLive then s.fail ST_NOT_READY
    else match s.uu.failed with
    | some st => s.fail st
    | none => match s.uu.openCommit, s.qOf n with
      | some m, some q => if m = n then s.applyNow ⟨c, lr⟩ n q else s.fail ST_NOT_READY
      | _, _ => ({ s with uu := { s.uu with waitApply := some ⟨c, lr⟩ } }, none)

/-- The commit goes on as far as it can: a waiting APPLY once the grant and Q are there; or, when no APPLY was bound, the close. That
none was bound is known once the UPDATE instance is complete. -/
def State.pumpCommit (s : State) : State :=
  match s.uu.openCommit with
  | none => s
  | some n =>
    match s.uu.waitApply, s.qOf n with
    | some w, some q =>
      let s := { s with uu := { s.uu with waitApply := none } }
      (match s.applyNow w n q with
        | (s, some d) => s.finish w.cmd d
        | (s, none) => s)
    | some _, none => s
    | none, _ =>
      if (s.boundApply n).isNone && (s.runningClauses [6]).all (s.instanceSpent n) then
        match s.closeCommit n none with
        | (s, .ok _) => s
        | (s, .fail st) => s.commitFault st
      else s

/-- A halt before the grant: PREPARE and APPLY that wait are given up with their commands. -/
def State.dropUpdate (s : State) : State :=
  ({ s with uu := { s.uu with waitPrepare := none, waitApply := none } }).waitingNorm false

/-- The update units at a tick (R253, R260, R274). -/
def State.tickUpdate (s : State) : State :=
  { s with uu := { s.uu with prepared := none, applied := none, skipNoted := false, rootNoted := false, failed := none,
                             closedAtTick := !s.tableAttached || decide (s.ledPhase = 0) } }

/-! ## RECOVER (R269, R270) -/

/-- What RECOVER does with a block: nothing, the weight step, all of it, or nothing it can (R269). -/
def State.blockState (s : State) (n : Nat) (w : BlockWork) : Option (Option BlockWork) :=
  let m := s.word (s.blockAt w.index) 6
  let k := s.word (s.blockAt w.index + 8) 6
  if m = n ∧ k = n then some none
  else if m = n ∧ periodBelow k n then some (some { w with full := false })
  else if periodBelow m n ∧ k = m then some (some w)
  else none

/-- `PC_COMMITTED` and `PC_CURSOR` from the header. -/
def State.adoptHeader (s : State) : State :=
  (s.put F.PC_COMMITTED_COMMITTED s.ledCommitted).put F.PC_CURSOR_CURSOR s.ledCursor

/-- The work that R269 leaves for the blocks of the table; none where one is inconsistent. -/
def State.rollWork (s : State) (n : Nat) (xs : List UpdCtx) : Option (List BlockWork) :=
  let states := (allWork xs).map (s.blockState n)
  if states.any Option.isNone then none else some (states.filterMap (fun o => o.bind id))

/-- The blocks that are complete count as done before RECOVER treats the rest (R277). -/
def State.countDone (s : State) (xs : List UpdCtx) (ws : List BlockWork) : State :=
  let todo := ws.map BlockWork.index
  let all_ := (allWork xs).map BlockWork.index
  s.startBlocks (fun q => (all_.filter (fun b => decide (b % 4 = q) && !todo.contains b)).length)

/-- RECOVER of a ledger in phase BLOCKS: the vector groups still due, the blocks, and the close; none where a block is inconsistent. -/
def State.rollForward (s : State) (c : CmdRef) : Act Bool :=
  let n := s.ledTarget
  (s.readState true c).bind (fun s _ => (s.updCtxs n (v64 s.ledQ) (v32 s.ledScale) c).bind (fun s xs =>
    match s.rollWork n xs with
    | none => (s.raise ⟨0x0504, 4, 5, 0, 0, false, some c⟩, .ok false)
    | some ws =>
      ((s.countDone xs ws).vectorGroups xs (fun s t => periodBelow (s.vstep t) n) c).bind (fun s _ =>
        (s.applyUnits ws c).bind (fun s _ =>
          (s.headerGroup [(0x10, leBytes 6 n), targetField n 0] (some c)).bind (fun s _ => (s, .ok true))))))

/-- RECOVER. -/
def State.recoverBody (s : State) (c : CmdRef) : Body :=
  s.guard [(!s.idle || !s.tableAttached, ST_NOT_READY)] (fun s =>
    match s.readTable s.shardLedger 0x48 6 c with
    | (s, .error st) => s.failUpdate st c
    | (s, .bytes _) =>
      let lost := s.ledSealed && decide (s.ledPhase = 1)
      let s := if lost then s.raise ⟨0x0505, 4, 5, 0, 0, false, some c⟩ else s
      s.guard [(!s.ledSealed || decide (s.ledPhase = 1 ∨ s.ledPhase = 3) || decide (s.ledRules ≠ s.rulesDigest), ST_DIGEST)] (fun s =>
        match (if s.ledPhase = 0 then (s, .ok true) else s.rollForward c) with
        | (s, .fail st) => s.failUpdate st c
        | (s, .ok false) => s.fail ST_DIGEST
        | (s, .ok true) =>
          let s := s.adoptHeader.noteOverride c
          s.ok s.ledDigest))

end Sys2Proof.Machine
end

