-- ==== Sys2Proof/Machine/Gloss.lean ====
section
/-!
DEFINITION. Machine/Gloss.lean: the parts of a shard and of its shadow (R386), the records of a Gloss table (R387 to R389), and the view of
the state in which the update units work on the shadow in place of the home shard (R373, R378).
-/
namespace Sys2Proof.Machine

/-! ## The descriptor (R372) -/

/-- The descriptor of the held shadow. -/
abbrev State.desc (s : State) : Nat := s.get F.SH_DESC_BASE

/-- A shadow is held. -/
abbrev State.holds (s : State) : Bool := s.on F.SH_HOME_VALID

/-- Fields of the descriptor. -/
abbrev State.descW (s : State) : Nat := bits (s.word s.desc 4) 16 4
abbrev State.descTensors (s : State) : Nat := s.word (s.desc + 4) 4
abbrev State.descTable (s : State) : Nat := s.word (s.desc + 0x08) 6
abbrev State.descLedger (s : State) : Nat := s.word (s.desc + 0x10) 6
abbrev State.descRoots (s : State) : Nat := s.word (s.desc + 0x18) 6
abbrev State.descRootCount (s : State) : Nat := s.word (s.desc + 0x20) 2
abbrev State.descScale (s : State) : Nat := s.word (s.desc + 0x28) 6
abbrev State.descScaleBytes (s : State) : Nat := s.word (s.desc + 0x30) 8
abbrev State.descGloss (s : State) : Nat := s.word (s.desc + 0x48) 6
abbrev State.descSeed (s : State) : Nat := s.word (s.desc + 0x58) 8
abbrev State.descCursor (s : State) : Nat := s.word (s.desc + 0x60) 8
abbrev State.descState (s : State) : Nat := s.word (s.desc + 0x68) 1 % 8

/-- The shadow's Period. -/
abbrev State.shadowPeriod (s : State) : Nat := s.get F.SH_SHADOW_PERIOD_PERIOD

/-- The log slot that serves Period `p` (R374). -/
def State.slotOf (s : State) (p : Nat) : Nat := s.word (s.desc + 0x38) 6 + p % s.descW * s.word (s.desc + 0x40) 8

/-- The bytes of the descriptor's state fields, and its DIGEST again. -/
def State.putDesc (s : State) (period seed cursor state : Nat) : State :=
  let d := s.desc
  let s := s.own (d + 0x50) (leBytes 8 period ++ leBytes 8 seed ++ leBytes 8 cursor ++ leBytes 4 state)
  let s := s.ownWord (d + 0xF8) 8 (crc64 (s.hbm.read d 0xF8))
  let s := s.put F.SH_SHADOW_PERIOD_PERIOD period
  if s.get F.SH_STATUS_HOLD_STATE ≤ 1 then s else s.put F.SH_STATUS_HOLD_STATE (state + 2)

/-- The descriptor's STATE changed. -/
def State.putDescState (s : State) (state : Nat) : State := s.putDesc s.shadowPeriod s.descSeed s.descCursor state

/-! ## Working on the shadow -/

/-- The state as the update units see it while they work on the shadow for log slot `slot`: its table, ledger and root table, the home's
position and the home's seed in every draw (R378). -/
def State.shadowView (s : State) (slot : Nat) : State :=
  let table := s.descTable
  let ledger := s.descLedger
  let seed := s.descSeed
  let v := (List.range 4).foldl (fun (v : State) q => (v.put (F.UU_TABLE_BASE q) table).put (F.UU_LEDGER_BASE q) ledger) s
  let v := ((v.put F.CJ_ROOT_BASE_BASE s.descRoots).put F.CJ_ROOT_COUNT_COUNT s.descRootCount).put F.ZF_LOGICAL_LOGICAL (s.get F.SH_HOME_HOME)
  { v with uu := { v.uu with tensors := s.descTensors, slotBase := slot }
           pd := { v.pd with arm := none, run := some ⟨0, seed, false, false, false⟩ } }

/-- The draws that Period `n` of the shadow takes (R375, R378): the home's seed and position, and its mode and classes by the copy of its Scale
Ledger, where one has landed; by the holder's own ledger otherwise (log entry 127). In replay mode the mode is the recorded one. -/
def State.shadowDraws (s : State) (n : Nat) : MomentDraws :=
  let v := s.shadowView 0
  let h := v.hbm.read s.descScale 4
  let u : State := if leAt h 0 2 = 1 then { v with num := { v.num with attach := some ⟨s.descScale, leAt h 2 2, true⟩ } } else v
  u.momentDraws s.descSeed (s.get F.SH_HOME_HOME) (if s.replaying then s.pd.guarded else u.ledgerGuarded n)

/-- The view with the draws that a Period of the shadow takes. -/
def State.withDraws (v : State) (d : MomentDraws) : State := { v with uu := { v.uu with draws := d } }

/-- Back from the view: what it changed stands as in `s` again. -/
def State.leaveView (v s : State) : State :=
  let same (v : State) (f : Field) : State := v.put f (s.get f)
  let v := (List.range 4).foldl (fun (v : State) q =>
    [F.UU_TABLE_BASE q, F.UU_LEDGER_BASE q, F.UU_BLOCKS_DONE q, F.UU_STATUS_INFLIGHT q].foldl same v) v
  let v := [F.CJ_ROOT_BASE_BASE, F.CJ_ROOT_COUNT_COUNT, F.ZF_LOGICAL_LOGICAL].foldl same v
  { v with uu := { s.uu with rules := v.uu.rules, skipNoted := v.uu.skipNoted, rootNoted := v.uu.rootNoted }
           pd := { v.pd with arm := s.pd.arm, run := s.pd.run } }

/-- A result within the view of the shadow. -/
def State.onShadow {α : Type} (s : State) (slot : Nat) (f : State → α) : α := f (s.shadowView slot)

/-! ## Regions of a root-table entry (R198) -/

/-- The block width, the blocks and the dimension of an entry: by its site, or, for an entry without one, by a loaded Parse table whose
fingerprint the slot bears (log entry 45). -/
def State.rootShape (s : State) (b : List Byte) (slot : Nat) : Nat × Nat × Nat :=
  if rtSite b ≠ 0 then
    match s.site (rtSite b) with
    | some g => (g.w, g.count, g.dim)
    | none => (0, 0, 0)
  else
    let fits (t : ParseRef) : Bool := decide (fingerprint (s.peek t.address 0x60) = rtFprint b slot)
    match s.cj.tables.find? fits with
    | some t => let p := Parse.of (s.peek t.address 0x60); (p.w, p.stored, p.dim)
    | none => (0, 0, 0)

/-- A slot's regions: part number (R386), address and bytes. -/
def State.rootParts (s : State) (b : List Byte) (slot : Nat) : List (Nat × Nat × Nat) :=
  let (w, r, d) := s.rootShape b slot
  let root := match rtKind b with
    | 4 => 0
    | 5 => 4 * d * rtNrhs b
    | _ => 4 * w * w * r
  let aux := if rtAux b slot = 0 then 0 else 4 * (w * w + w) * r
  [(5, rtRoot b slot, root), (6, rtAux b slot, aux), (7, rtAvg b slot, w * w * (rtAvgFormat b).bytes 1 * r)]

/-! ## Records (R388) -/

/-- A run of bytes of a shard: its part and item (R386), the offset within the part, the address and the length. -/
structure Span where
  part : Nat
  item : Nat
  off  : Nat
  addr : Nat
  len  : Nat

/-- A Gloss record: its component, and what it covers. -/
structure GlossRec where
  comp  : Nat
  spans : List Span

/-- The bytes of a moment array's element. -/
abbrev Rule.momentBytes (r : Rule) : Nat := if r.mfmt = 3 then 2 else 4

/-- The pieces of `size` elements of `n` elements: the first and how many. -/
def cuts (n size : Nat) : List (Nat × Nat) := (List.range (cdiv n size)).map (fun i => (size * i, min size (n - size * i)))

/-- The MASTER records of tensor `t`. -/
def masterRecs (t : Nat) (e : Param) : List GlossRec :=
  (cuts e.count 262144).map (fun p => ⟨0, [⟨0, t, 4 * p.1, e.master + 4 * p.1, 4 * p.2⟩, ⟨1, t, p.1, e.plane + p.1, p.2⟩]⟩)

/-- The MOMENT records of tensor `t`. -/
def State.momentRecs (s : State) (t : Nat) (e : Param) (r : Rule) : List GlossRec :=
  (if r.keeps then (cuts (e.count * r.momentBytes) mebi).map (fun p => ⟨1, [⟨2, t, p.1, e.moment + p.1, p.2⟩]⟩) else []) ++
  (if r.vectors then [⟨1, [⟨3, t, 0, s.vectorsNow t e, 4 * (e.rows + e.cols)⟩]⟩] else [])

/-- The records of entry `e` of the root table for some parts, each a component. -/
def State.rootRecs (s : State) (comp : Nat) (parts : List Nat) (e : Nat) : List GlossRec :=
  let b := s.rootBytes e
  let ps := (s.rootParts b (rtCommitted b)).filter (fun p => parts.contains p.1)
  ps.flatMap (fun p => (cuts p.2.2 mebi).map (fun c => ⟨comp, [⟨p.1, e, c.1, p.2.1 + c.1, c.2⟩]⟩))

/-- The records of the four components, in order. -/
def State.glossParts (s : State) : List (List GlossRec) :=
  let ts := s.params.zipIdx
  [ts.flatMap (fun p => masterRecs p.2 p.1), ts.flatMap (fun p => s.momentRecs p.2 p.1 (s.rule p.1.rule)),
    s.rootEntries.flatMap (s.rootRecs 2 [7]), s.rootEntries.flatMap (s.rootRecs 3 [5, 6])]

/-- All records. -/
def State.glossRecs (s : State) : List GlossRec := s.glossParts.flatMap id

/-- The bytes that a record covers, read for a command. -/
def State.readRecord (s : State) (r : GlossRec) (c : CmdRef) : Act (List Byte) :=
  (actAll (fun s (x : Span) => s.readAct x.addr x.len c) s r.spans).bind (fun s bs => (s, .ok (bs.flatMap id)))

/-! ## Gloss tables (R387, R389) -/

/-- The header written, and every VALID bit cleared. Base 0 is no table. -/
def State.initGloss (s : State) (base : Nat) (parts : List (List GlossRec)) : State :=
  if base = 0 then s
  else
    let n (k : Nat) : Nat := sumList ((parts.take k).map List.length)
    let b := leBytes 4 1 ++ leBytes 4 (n 4) ++ leBytes 4 (n 1) ++ leBytes 4 (n 2) ++ leBytes 4 (n 3) ++ List.replicate 36 0
    let s := s.own base (b ++ leBytes 8 (crc64 b))
    (List.range (n 4)).foldl (fun (s : State) g => s.own (base + 0x40 + 16 * g + 14) (leBytes 2 0)) s

/-- Record `g` of a table written. -/
def State.putGloss (s : State) (base g crc period : Nat) : State :=
  s.own (base + 0x40 + 16 * g) (leBytes 8 crc ++ leBytes 6 period ++ leBytes 2 1)

/-- COUNT of a table. -/
abbrev State.glossCount (s : State) (base : Nat) : Nat := if base = 0 then 0 else s.word (base + 4) 4

/-- The records that Period `n` covers. -/
def State.glossDue (s : State) (base n : Nat) : List Nat :=
  let k := s.get F.SH_CTRL_GLOSS_K
  let count := s.glossCount base
  (List.range (min k count)).map (fun i => (n * k + i) % count)

/-- The records `gs` computed now and put into the table of `base` for Period `n`; their indices and CRCs. -/
def State.computeGloss (s : State) (base n : Nat) (gs : List Nat) (c : CmdRef) : Act (List (Nat × Nat)) :=
  let recs := s.glossRecs
  (actAll (fun (s : State) g =>
    (s.readRecord (nth recs g ⟨0, []⟩) c).bind (fun s bs => (s, .ok (g, crc64 bs)))) s gs).bind (fun s out =>
      (out.foldl (fun (s : State) p => s.putGloss base p.1 p.2 n) s, .ok out))

/-- Records as a message carries them: 4 bytes of index and 8 of CRC each (log entry 46). -/
def glossBytes (rs : List (Nat × Nat)) : List Byte := rs.flatMap (fun p => leBytes 4 p.1 ++ leBytes 8 p.2)

/-- The records of a message. -/
def glossOf (bs : List Byte) : List (Nat × Nat) :=
  (List.range (bs.length / 12)).map (fun i => (leAt bs (12 * i) 4, leAt bs (12 * i + 4) 8))

end Sys2Proof.Machine
end

