-- ==== Sys2Proof/Machine/Recorder.lean ====
section
/-!
DEFINITION. Machine/Recorder.lean: the replay recorder's own work (R52 to R56, R62): the record of a Period, the scan of the ring after a
reset, and REPLAY_CONTROL.
-/
namespace Sys2Proof.Machine

/-! ## The bytes of a record (R53, R54) -/

/-- An entry's 32 bytes. -/
def RecEntry.bytes (e : RecEntry) : List Byte :=
  leBytes 1 e.type ++ leBytes 1 e.clause ++ [0, 0] ++ leBytes 4 e.tag ++ leBytes 8 e.time ++ leBytes 8 e.a ++ leBytes 8 e.b

/-- The attached parameter table as the digest covers it: its address, its ledger's, and its entries (R276). -/
def State.tableBytes (s : State) : List Byte :=
  leBytes 8 s.tableBase ++ leBytes 8 s.shardLedger ++ s.hbm.read s.tableBase (64 * s.uu.tensors)

/-- The bytes that CONFIG_DIGEST covers: plan, update rules and parameter table (R276), Gram tap settings, loaded Parse tables, refresh
schedule (bytes 0x00 to 0x57 of every root-table entry, R196) and mode settings. -/
def State.configBytes (s : State) : List Byte :=
  let plan := match s.pd.plan with
    | some p => leBytes 4 p.periodUs.toNat ++ leBytes 1 p.generation.toNat ++ p.clauses.flatMap (fun e =>
        leBytes 4 e.startUs.toNat ++ leBytes 4 e.deadlineUs.toNat ++ leBytes 2 e.kind.toNat ++ leBytes 2 e.every.toNat ++ leBytes 2 e.phase.toNat)
    | none => []
  let tables := s.cj.tables.flatMap (fun t => leBytes 2 t.id ++ s.hbm.read t.address t.length)
  let roots := s.rootEntries.flatMap (fun e => (s.rootBytes e).take 0x58)
  let mode := match s.num.attach with
    | some a => s.hbm.read (a.address + 8) 32
    | none => []
  plan ++ leBytes 8 s.rulesDigest ++ s.tableBytes ++ s.gram.flatMap (fun g => g.fixed false) ++ tables ++ roots ++ mode

/-- MAP_DIGEST: CRC-64 of the remap table (R324); without one, of nothing (log entry 53). -/
def State.mapDigest (s : State) : Nat :=
  let b := s.get F.ZF_REMAP_BASE_BASE
  let d := s.get F.ZF_LDIM_DIM
  if b = 0 then 0 else crc64 (s.hbm.read b (4 * (dimOf d 0 * dimOf d 1 * dimOf d 2)))

/-- STATE_DIGEST: CRC-64 of the home Gloss records, 0 when Period `n` has not committed. -/
def State.stateDigest (s : State) (n : Nat) : Nat :=
  let base := s.get F.SH_GLOSS_BASE
  if s.get F.PC_COMMITTED_COMMITTED ≠ n then 0 else crc64 (s.hbm.read (base + 0x40) (16 * s.glossCount base))

/-- RFLAGS of the current Period's record. -/
def State.recordFlags (s : State) (n : Nat) : Nat :=
  let r := s.pd.run.getD ⟨0, 0, false, false, false⟩
  flag r.retry + 2 * flag r.barrier + 4 * flag s.pd.guarded + 8 * flag s.pd.evaluated + 16 * flag s.pd.fatal +
    32 * flag (s.get F.PC_COMMITTED_COMMITTED = n) + 64 * flag (decide (32764 < s.pd.entryCount)) +
    128 * flag (s.rr.frozen || s.on F.RR_CTRL_FREEZE) + 256 * flag s.replaying

/-- The record of the current Period `n`, closed now. -/
def State.recordImage (s : State) (n : Nat) : List Byte :=
  let r := s.pd.run.getD ⟨0, 0, false, false, false⟩
  let es := s.pd.entries.flatMap RecEntry.bytes
  let h := leBytes 4 1 ++ leBytes 4 (128 + es.length) ++ leBytes 6 n ++ leBytes 2 (s.recordFlags n) ++ leBytes 8 (s.get F.PC_TICK_TICK)
    ++ leBytes 8 s.now ++ leBytes 8 r.cursor ++ leBytes 8 r.seed ++ leBytes 3 (s.get F.ZF_LOGICAL_LOGICAL)
    ++ leBytes 1 (s.get F.PC_PERIOD_GENERATION) ++ leBytes 4 0x0103 ++ leBytes 8 (Config.configDigest s.configBytes).toNat
    ++ leBytes 8 s.mapDigest ++ leBytes 8 (s.stateDigest n) ++ leBytes 4 s.pd.entryCount ++ leBytes 4 s.pd.events
    ++ leBytes 8 (s.pd.grantAt.getD 0) ++ List.replicate 0x18 0
  h ++ leBytes 8 (crc64 (h ++ es)) ++ es

/-! ## The ring (R52, R55) -/

/-- `RR_OLDEST` as the records stand. -/
def State.putOldest (s : State) : State :=
  s.put F.RR_OLDEST_OLDEST (match s.rr.records with | r :: _ => r.period | [] => noPeriod)

/-- Where a header may begin: the places in the ring, at multiples of 32 bytes, whose byte is 1, the low byte of FORMAT. -/
def State.headerPlaces (s : State) : List Nat :=
  let base := s.get F.RR_BASE_BASE
  let held := s.hbm.cells.map (·.1) ++ s.hbm.undef.flatMap (fun u => (List.range (u.hi - u.lo)).map (u.lo + ·))
  let inRing := held.filter (fun a => decide (base ≤ a ∧ a < base + s.ringSize ∧ (a - base) % 32 = 0) && decide (s.hbm.get a = 1))
  (sortBy (fun x y => decide (x ≤ y)) (inRing.map (· - base))).eraseDups

/-- The valid records in the ring, oldest first: by Period, and records of one Period by their place (log entry 53). -/
def State.recordsFound (s : State) : List RingRec :=
  let found := s.headerPlaces.filterMap (fun off =>
    let a := s.get F.RR_BASE_BASE + off
    let n := s.word (a + 4) 4
    if 128 ≤ n ∧ n ≤ 0x100000 ∧ off + n ≤ s.ringSize ∧ recordValid (s.hbm.read a n) then some (⟨s.word (a + 8) 6, off, n⟩ : RingRec) else none)
  sortBy (fun x y => decide (x.period < y.period) || (decide (x.period = y.period) && decide (x.offset ≤ y.offset))) found

/-- The scan of R55, once after a reset, while ENABLE is 1. -/
def State.scanRing (s : State) : State :=
  if s.pd.scanned || !s.on F.RR_CTRL_ENABLE then s
  else
    let rs := s.recordsFound
    let s := { s with pd := { s.pd with scanned := true }, rr := { s.rr with records := rs } }
    let s := match rs.getLast? with
      | some r => s.put F.RR_WPTR_WPTR ((r.offset + r.length) % s.ringSize)
      | none => s
    s.putOldest

/-- A record written into the ring: its entries, its header last, and `RR_WPTR` (R53). Records it overwrites are gone. -/
def State.ringRecord (s : State) (n : Nat) (bs : List Byte) : State :=
  let w := s.get F.RR_WPTR_WPTR
  let off := if s.ringSize < w + bs.length then 0 else w
  let a := s.get F.RR_BASE_BASE + off
  if !inHbm a bs.length then s
  else match s.writeHbm (a + 128) (bs.drop 128) none with
    | (s, some _) => s
    | (s, none) => match s.writeHbm a (bs.take 128) none with
      | (s, some _) => s
      | (s, none) =>
        let kept := s.rr.records.filter (fun r => !overlaps r.offset r.length off bs.length)
        let rr : RecorderState := { s.rr with records := kept ++ [⟨n, off, bs.length⟩], frozen := false }
        (({ s with rr := rr }).put F.RR_WPTR_WPTR ((off + bs.length) % s.ringSize)).putOldest

/-- FREEZE written. -/
def State.freezeRing (s : State) (on : Bool) : State :=
  let s := s.put F.RR_CTRL_FREEZE (flag on)
  if on then { s with rr := { s.rr with frozen := true } } else s

/-- The entries that differ from the recorded ones of the same index, their times apart, and STATE_DIGEST (R56; log entry 53). -/
def State.mismatches (s : State) (n : Nat) : Nat :=
  let same (x y : RecEntry) : Bool := decide ({ x with time := 0 } = { y with time := 0 })
  let old := s.replayEntries
  let differ := (s.pd.entries.zipIdx.filter (fun p => !(match old[p.2]? with | some e => same p.1 e | none => false))).length
  let was := match s.pd.replay with
    | some r => ((s.findRecord r.period).map (fun b => leAt b 0x48 8)).getD 0
    | none => 0
  differ + flag (decide (was ≠ s.stateDigest n))

/-- The differences of a re-run counted and raised. -/
def State.noteMismatches (s : State) (k : Nat) : State :=
  (List.range k).foldl (fun (s : State) _ => (s.bump F.RR_MISMATCH_COUNT 1).raise (Ev.plain 0x0B0A 0 11 0)) s

/-- The record of Period `n` closed: into the ring, to a re-run's DEST, or not at all while the ring is frozen (R52, R56). -/
def State.closeRecord (s : State) (n : Nat) : State :=
  let s := s.scanRing
  if !s.on F.RR_CTRL_ENABLE && !s.replaying then s
  else
    let bs := s.recordImage n
    if s.replaying then
      let k := s.mismatches n
      let s := match s.pd.replay with
        | some r => (s.writeAt r.dest bs none).1
        | none => s
      s.noteMismatches k
    else if s.on F.RR_CTRL_FREEZE then
      ({ s with rr := { s.rr with frozen := true } }).raise (Ev.plain 0x0B0B 0 11 0)
    else s.ringRecord n bs

/-! ## REPLAY_CONTROL (R62) -/

/-- The records of `count` Periods from `p` on; none while one is absent. -/
def State.recordsOf (s : State) : Nat → Nat → Option (List Byte)
  | _, 0 => some []
  | p, n + 1 => match s.findRecord p, State.recordsOf s (nextPeriod p) n with
    | some b, some bs => some (b ++ bs)
    | _, _ => none

/-- COPY_OUT. -/
def State.copyRecords (s : State) (period count dest len : Nat) (c : CmdRef) : Body :=
  let s := s.scanRing
  if count = 0 ∨ dest % 64 ≠ 0 then s.fail ST_BAD_PARAM
  else if s.rr.records.length < count then s.fail ST_BAD_PARAM
  else match s.recordsOf period count with
    | none => s.fail ST_BAD_PARAM
    | some bs =>
      if len < bs.length ∨ ¬ writable dest bs.length then s.fail ST_BAD_PARAM
      else match s.useCritical 8 0 (some c) with
        | (s, true) => s.fail ST_ECC
        | (s, false) => s.writing dest bs c (fun s => s.ok (crc64 bs))

/-- REPLAY: the next PERIOD_ARM with its REPLAY flag re-runs the Period. -/
def State.armReplay (s : State) (period dest len : Nat) : Body :=
  let s := s.scanRing
  s.guard [(decide (dest % 64 ≠ 0), ST_BAD_PARAM), (decide (s.pcState ≠ 4), ST_NOT_READY),
      (decide (period ≠ nextPeriod (s.get F.PC_COMMITTED_COMMITTED)) || (s.findRecord period).isNone || decide (len < 0x100000)
        || !writable dest 0x100000, ST_BAD_PARAM)]
    (fun s => (({ s with pd := { s.pd with replay := some ⟨period, dest⟩ } }).put F.PC_STATUS_REPLAY 1).ok 0)

/-- CLEAR: the ring is empty. The bytes of its records stay in HBM, so that the scan after a later reset finds those that are not written
over (log entry 116). -/
def State.clearRing (s : State) : State :=
  let s := s.scanRing
  (({ s with rr := { s.rr with records := [] } }).put F.RR_WPTR_WPTR 0).putOldest

end Sys2Proof.Machine
end

