-- ==== Sys2Proof/Machine/Collective.lean ====
section
/-!
DEFINITION. Machine/Collective.lean: the collective engine (R343 to R357): groups, the rendezvous, what each sub-operation sends and
receives, the ordered reduction, and the gradient-noise tap.

A transfer is described by what the module sends (`CollRun.outs`) and by the members that send to it (`CollRun.inPeers`), both functions
of the run; `State.pumpColl` sends what has become ready and ends the runs that are complete. The order of partial sums within a
transfer, the parts that a block is gathered in and the OFFSET of each are the model's choice (log entry 41); the order of additions is
R347's.
-/
namespace Sys2Proof.Machine

/-! ## Groups and ranks (R343) -/

/-- The geometry of a group: LDIM, the module's logical position and the selected axes. -/
structure Group where
  ldim : Nat
  me   : Nat
  axes : List Nat

/-- The length of an axis. -/
abbrev Group.len (g : Group) (a : Nat) : Nat := dimOf g.ldim a

/-- The group that AXES selects. -/
def State.groupOf (s : State) (axes : Nat) : Group :=
  ⟨s.get F.ZF_LDIM_DIM, s.get F.ZF_LOGICAL_LOGICAL, (List.range 3).filter (fun a => bit axes a)⟩

/-- G. -/
def Group.size (g : Group) : Nat := g.axes.foldl (fun d a => d * g.len a) 1

/-- The group rank of a position. -/
def Group.rank (g : Group) (p : Nat) : Nat :=
  (g.axes.foldl (fun (acc : Nat × Nat) a => (acc.1 + coord p a * acc.2, acc.2 * g.len a)) (0, 1)).1

/-- The position of the member of a rank. -/
def Group.member (g : Group) (r : Nat) : Nat :=
  (g.axes.foldl (fun (acc : Nat × Nat) a => (setCoord acc.1 a (acc.2 % g.len a), acc.2 / g.len a)) (g.me, r)).1

/-- The members, in rank order. -/
def Group.members (g : Group) : List Nat := (List.range g.size).map g.member

/-- The members other than the module. -/
def Group.others (g : Group) : List Nat := g.members.filter (fun m => decide (m ≠ g.me))

/-- The position one step along an axis from `p`. -/
def Group.next (g : Group) (p a : Nat) (minus : Bool) : Nat :=
  setCoord p a ((coord p a + (if minus then g.len a - 1 else 1)) % g.len a)

/-! ## Parts and courses (R347, R349) -/

/-- The SPLIT weight of an axis. -/
def splitOf (p : CollParams) (a : Nat) : Nat :=
  if a = 0 then p.splitX.toNat else if a = 1 then p.splitY.toNat else p.splitZ.toNat

/-- The parts of a shard of `l` elements: each selected axis with the index after its part. The last axis with a weight takes the
remainder. -/
def partEnds (p : CollParams) (axes : List Nat) (l : Nat) : List (Nat × Nat) :=
  let w := sumList (axes.map (splitOf p))
  let floors := axes.map (fun a => l * splitOf p a / w)
  let last := ((axes.filter (fun a => decide (splitOf p a ≠ 0))).getLast?).getD 0
  let rest := l - sumList floors
  ((axes.zip floors).foldl (fun (acc : List (Nat × Nat) × Nat) x =>
    let e := acc.2 + x.2 + (if x.1 = last then rest else 0)
    (acc.1 ++ [(x.1, e)], e)) ([], 0)).1

/-- The lead axis of element `k` of a shard. -/
def leadAxis (p : CollParams) (axes : List Nat) (l k : Nat) : Nat :=
  (((partEnds p axes l).find? (fun x => decide (k < x.2))).map (·.1)).getD (axes.headD 0)

/-- The selected axes in cyclic order from the lead axis. -/
def cyclicFrom (axes : List Nat) (lead : Nat) : List Nat :=
  axes.filter (fun a => decide (lead ≤ a)) ++ axes.filter (fun a => decide (a < lead))

/-- How an element travels: its direction and its stage axes. -/
structure Course where
  minus  : Bool
  stages : List Nat

/-- The format of the partial sums. -/
def accFmtOf (p : CollParams) : Fmt := (Fmt.ofCode p.accFmt.toNat).getD .fp32

/-- The bytes of a partial sum. -/
abbrev accBytes (p : CollParams) : Nat := (accFmtOf p).bytes 1

/-- The course of element `e` of the full vector: R347's, or the engine's choice for its piece under R349. -/
def courseOf (g : Group) (p : CollParams) (l e : Nat) : Course :=
  let k := e % l
  if p.ordered then ⟨decide (k % 2 = 1), cyclicFrom g.axes (leadAxis p g.axes l k)⟩
  else
    let choice := Config.arrivalChoice p.matchId.toNat (e * accBytes p / 65536)
    ⟨choice.1, cyclicFrom g.axes (nth g.axes (choice.2 % g.axes.length) 0)⟩

/-- The stage axes before `s`. -/
abbrev Course.before (c : Course) (s : Nat) : List Nat := c.stages.takeWhile (fun a => decide (a ≠ s))

/-- Member `m` sends a partial of element `e` on axis `s` in a direction: it holds one, and is not the owner's coordinate. -/
def sendsElement (g : Group) (p : CollParams) (l m s : Nat) (minus : Bool) (e : Nat) : Bool :=
  let o := g.member (e / l)
  let c := courseOf g p l e
  decide (c.minus = minus) && c.stages.contains s && decide (coord m s ≠ coord o s) &&
    (c.before s).all (fun a => decide (coord m a = coord o a))

/-- The elements whose partials member `m` sends on an axis in a direction, in increasing index: the order of that transfer. -/
def streamElems (g : Group) (p : CollParams) (m s : Nat) (minus : Bool) : List Nat :=
  let l := p.count.toNat / g.size
  (List.range p.count.toNat).filter (sendsElement g p l m s minus)

/-! ## Partial sums -/

/-- One addition, or the comparison of MAX or MIN, in ACC_FMT (R347). -/
def accCombine (p : CollParams) (x y : Nat) : Nat :=
  let f := accFmtOf p
  let back (v : Val) : Nat := (f.convert .rne .inf v).1
  match p.op.toNat with
  | 0 => if f = .int32 then (x + y) % 2 ^ 32 else back ((f.decode x).add (f.decode y))
  | 1 => back ((f.decode x).max (f.decode y))
  | _ => back ((f.decode x).min (f.decode y))

/-- The format of SRC. -/
def inFmtOf (p : CollParams) : Fmt := (Fmt.ofCode p.inFmt.toNat).getD .fp32

/-- The format of DST. -/
def outFmtOf (p : CollParams) : Fmt := (Fmt.ofCode p.outFmt.toNat).getD .fp32

/-- The bytes of `n` elements at DST: M40's words and then their extension bytes (log entry 42). -/
def outBytes (f : Fmt) (n : Nat) : Nat := if f = .m40 then 5 * n else f.bytes n

/-- Elements as they stand at DST. -/
def packOut (f : Fmt) (es : List Nat) : List Byte :=
  if f = .m40 then f.pack (es.map (· / 256)) ++ es.map (fun e => BitVec.ofNat 8 (m40Ext e)) else f.pack es

/-- `n` elements read from such bytes. -/
def unpackOut (f : Fmt) (bs : List Byte) (n : Nat) : List Nat :=
  if f = .m40 then ((pieces 4 (bs.take (4 * n))).zip (bs.drop (4 * n))).map (fun x => m40Join (ofLE x.1) x.2.toNat) else f.unpack bs n

/-- The input element `e` in ACC_FMT. -/
def CollRun.input (r : CollRun) (e : Nat) : Nat :=
  let f := inFmtOf r.p
  ((accFmtOf r.p).convert .rne .inf (f.decode (leAt r.src (f.bytes e) (f.bytes 1)))).1

/-- `n` bytes that have arrived from `off` on, from a member on an axis and direction; none while some are missing. -/
def CollRun.arrived (r : CollRun) (src axis : Nat) (minus : Bool) (off n : Nat) : Option (List Byte) :=
  let ps := r.got.filter (fun q => decide (q.src = src) && decide (q.axis = axis) && decide (q.minus = minus))
  (List.range n).mapM (fun i =>
    (ps.find? (fun q => decide (q.offset ≤ off + i) && decide (off + i < q.offset + q.data.length))).map
      (fun q => nth q.data (off + i - q.offset) 0))

/-- The partial of element `e` that came in on an axis. -/
def CollRun.incoming (r : CollRun) (g : Group) (s : Nat) (minus : Bool) (e : Nat) : Option Nat :=
  let src := g.next g.me s (!minus)
  let w := accBytes r.p
  (r.arrived src s minus (w * (streamElems g r.p src s minus).idxOf e) w).map ofLE

/-- The partial of element `e` that the module holds after the given stages (latest first); none while data are missing. -/
def CollRun.held (r : CollRun) (g : Group) (minus : Bool) (e : Nat) : List Nat → Option Nat
  | [] => some (r.input e)
  | s :: earlier =>
    (r.held g minus e earlier).bind (fun x =>
      if g.len s = 1 then some x else (r.incoming g s minus e).map (fun acc => accCombine r.p acc x))

/-- The partial of element `e` that the module sends on axis `s`: the first of the line sends its own (R347). -/
def CollRun.outgoing (r : CollRun) (g : Group) (s : Nat) (e : Nat) : Option Nat :=
  let l := r.p.count.toNat / g.size
  let c := courseOf g r.p l e
  let o := g.member (e / l)
  (r.held g c.minus e (c.before s).reverse).bind (fun x =>
    if coord g.me s = coord (g.next o s c.minus) s then some x
    else (r.incoming g s c.minus e).map (fun acc => accCombine r.p acc x))

/-- The sums of the module's own shard, once every one is known. -/
def CollRun.ownSums (r : CollRun) (g : Group) : Option (List Nat) :=
  let l := r.p.count.toNat / g.size
  (List.range l).mapM (fun k =>
    let e := g.rank g.me * l + k
    let c := courseOf g r.p l e
    r.held g c.minus e c.stages.reverse)

/-! ## What a run sends and receives -/

/-- The group of a run. -/
def State.runGroup (s : State) (r : CollRun) : Group := s.groupOf r.p.axes.toNat

/-- Data that a run sends to a member: on which axis and direction, the OFFSET of its first byte, the bytes known so far, and how
many there are in all. -/
structure OutStream where
  dest  : Nat
  axis  : Nat
  minus : Bool
  base  : Nat
  avail : List Byte
  total : Nat

/-- The elements of a list up to the first that is missing. -/
def knownPrefix : List (Option Nat) → List Nat
  | some x :: t => x :: knownPrefix t
  | _ => []

/-- The ring streams of a reduction. -/
def CollRun.ringStreams (r : CollRun) (g : Group) : List OutStream :=
  (g.axes.flatMap (fun a => [(a, false), (a, true)])).map (fun x =>
    let es := streamElems g r.p g.me x.1 x.2
    let known := knownPrefix (es.map (r.outgoing g x.1))
    ⟨g.next g.me x.1 x.2, x.1, x.2, 0, known.flatMap (leBytes (accBytes r.p)), accBytes r.p * es.length⟩)

/-- Where the gathered blocks of an ALL_REDUCE stand in its transfer: behind the partial sums. -/
def CollRun.gatherBase (r : CollRun) : Nat := if r.subop = 3 then r.p.count.toNat * accBytes r.p else 0

/-- The bytes of a member's block. -/
def CollRun.blockBytes (r : CollRun) (g : Group) : Nat :=
  match r.kind with
  | .fetch _ => r.p.count.toNat / g.size
  | .command =>
    if r.subop = 3 then outBytes (outFmtOf r.p) (r.p.count.toNat / g.size)
    else (inFmtOf r.p).bytes (if r.subop = 4 then r.p.count.toNat else r.p.count.toNat / g.size)

/-- A part of a block that is gathered on the rings: the rank of its owner, its course, where it starts in the block and in the gathered
vector, and its bytes. -/
structure GatherPart where
  owner  : Nat
  course : Course
  start  : Nat
  place  : Nat
  len    : Nat

/-- The parts of a block of `n` bytes: one for each direction of each axis (R23), so that every ring carries some. -/
def Group.partsOf (g : Group) (n owner place : Nat) : List GatherPart :=
  let k := 2 * g.axes.length
  ((List.range k).map (fun i =>
    let a := n * i / k
    (⟨owner, ⟨decide (i % 2 = 1), cyclicFrom g.axes (nth g.axes (i / 2) 0)⟩, a, place + a, n * (i + 1) / k - a⟩ : GatherPart))).filter
      (fun t => decide (t.len ≠ 0))

/-- The parts that a run gathers: the root's vector of a BROADCAST, and otherwise every member's block. -/
def CollRun.gatherParts (r : CollRun) (g : Group) : List GatherPart :=
  let n := r.blockBytes g
  if r.subop = 4 then g.partsOf n (g.rank r.p.peer.toNat) 0 else (List.range g.size).flatMap (fun q => g.partsOf n q (n * q))

/-- The stage axis on which a part reaches member `m`: the first of its course on which the member is not at its owner's coordinate. The
stages run in the opposite order to those of a reduction. -/
def GatherPart.arrivesOn (t : GatherPart) (g : Group) (m : Nat) : Option Nat :=
  t.course.stages.find? (fun a => decide (coord m a ≠ coord (g.member t.owner) a))

/-- Member `m` passes a part on along an axis: the next member of the line has it from nowhere else. -/
def GatherPart.leaves (t : GatherPart) (g : Group) (m s : Nat) (minus : Bool) : Bool :=
  let o := g.member t.owner
  decide (t.course.minus = minus) && (t.course.before s).all (fun a => decide (coord m a = coord o a)) &&
    decide (coord (g.next m s minus) s ≠ coord o s)

/-- A part as the module holds it; none while it does not. -/
def CollRun.part (r : CollRun) (g : Group) (t : GatherPart) : Option (List Byte) :=
  if g.member t.owner = g.me then (if r.formed then some ((r.out.drop t.start).take t.len) else none)
  else (t.arrivesOn g g.me).bind (fun a =>
    r.arrived (g.next g.me a (!t.course.minus)) a t.course.minus (r.gatherBase + t.place) t.len)

/-- What the module sends of a gather: its own parts, and those that it passes on, along the rings in both directions of every axis. -/
def CollRun.gatherStreams (r : CollRun) (g : Group) : List OutStream :=
  (g.axes.flatMap (fun a => [(a, false), (a, true)])).flatMap (fun x =>
    ((r.gatherParts g).filter (fun t => t.leaves g g.me x.1 x.2)).map (fun t =>
      ⟨g.next g.me x.1 x.2, x.1, x.2, r.gatherBase + t.place, (r.part g t).getD [], t.len⟩))

/-- The members that parts of a gather come from. -/
def CollRun.gatherPeers (r : CollRun) (g : Group) : List Nat :=
  (r.gatherParts g).filterMap (fun t =>
    if g.member t.owner = g.me then none else (t.arrivesOn g g.me).map (fun a => g.next g.me a (!t.course.minus)))

/-- The data of the SEND moves to a peer, in order. -/
def sendData (moves : List Move) (src : List Byte) (peer : Nat) : List Byte :=
  ((moves.filter (·.send)).foldl (fun (acc : List Byte × Nat) m =>
    (if m.peer = peer then acc.1 ++ (src.drop acc.2).take m.len else acc.1, acc.2 + m.len)) ([], 0)).1

/-- The peers of the SEND or RECV moves, each once. -/
def movePeers (moves : List Move) (send : Bool) : List Nat :=
  ((moves.filter (fun m => m.send == send)).map (·.peer)).eraseDups

/-- The bytes of the RECV moves from a peer. -/
def recvTotal (moves : List Move) (peer : Nat) : Nat :=
  sumList ((moves.filter (fun m => !m.send && decide (m.peer = peer))).map (·.len))

/-- What a run sends to other members. -/
def CollRun.outs (r : CollRun) (g : Group) : List OutStream :=
  match r.subop with
  | 1 => r.ringStreams g
  | 2 => r.gatherStreams g
  | 3 => r.ringStreams g ++ r.gatherStreams g
  | 4 => r.gatherStreams g
  | 5 => ((movePeers r.moves true).filter (fun m => decide (m ≠ g.me))).map (fun m =>
      let d := sendData r.moves r.src m
      ⟨m, 0, false, 0, d, d.length⟩)
  | 6 => [⟨r.p.peer.toNat, 0, false, 0, r.src, r.src.length⟩]
  | 8 => [⟨g.next g.me (g.axes.headD 0) false, g.axes.headD 0, false, 0, r.src, r.src.length⟩]
  | _ => []

/-- The members that a run sends data to. -/
def CollRun.outPeers (r : CollRun) (g : Group) : List Nat :=
  ((r.outs g).filter (fun o => decide (o.total ≠ 0))).map (·.dest) |>.eraseDups

/-- The members that a run receives data from. -/
def CollRun.inPeers (r : CollRun) (g : Group) : List Nat :=
  let ring := (g.axes.flatMap (fun a => [(a, false), (a, true)])).filterMap (fun x =>
    let m := g.next g.me x.1 (!x.2)
    if (streamElems g r.p m x.1 x.2).isEmpty then none else some m)
  (match r.subop with
    | 1 => ring
    | 2 => r.gatherPeers g
    | 3 => ring ++ r.gatherPeers g
    | 4 => r.gatherPeers g
    | 5 => (movePeers r.moves false).filter (fun m => decide (m ≠ g.me))
    | 7 => [r.p.peer.toNat]
    | 8 => [g.next g.me (g.axes.headD 0) true]
    | _ => []).eraseDups

/-- Bytes of a stream that have been sent. -/
def CollRun.sentOn (r : CollRun) (o : OutStream) : Nat :=
  sumList ((r.sent.filter (fun q => decide (q.src = o.dest) && decide (q.axis = o.axis) && decide (q.minus = o.minus) &&
    decide (o.base ≤ q.offset) && decide (q.offset < o.base + o.total))).map (·.data.length))

/-- Everything that a run sends has been sent. -/
def CollRun.allSent (r : CollRun) (g : Group) : Bool := (r.outs g).all (fun o => decide (o.total ≤ r.sentOn o))

/-- The j-th RECV move's data from a peer starts behind those of the RECV moves before it. -/
def recvOffsets (moves : List Move) : List (Move × Nat) :=
  ((moves.filter (fun m => !m.send)).foldl (fun (acc : List (Move × Nat) × List (Nat × Nat)) m =>
    let off := (alGet acc.2 m.peer).getD 0
    (acc.1 ++ [(m, off)], alSet m.peer (off + m.len) acc.2)) ([], [])).1

/-- What a run writes (R350 to R353): places, and the bytes of each once they are there. Shards in a packed format, and of M40, are joined
element by element. -/
def CollRun.landings (r : CollRun) (g : Group) : List (Nat × Option (List Byte)) :=
  let dst := r.p.dst.toNat
  let n := r.p.count.toNat
  let parts := (r.gatherParts g).map (fun t => (dst + t.place, r.part g t))
  match r.subop with
  | 1 => [(dst, if r.formed then some r.out else none)]
  | 2 => parts
  | 3 =>
    let f := outFmtOf r.p
    if f.packed || f == .m40 then
      [(dst, (parts.mapM (fun (x : Nat × Option (List Byte)) => x.2)).map (fun bs =>
        packOut f ((pieces (r.blockBytes g) (bs.flatMap id)).flatMap (fun b => unpackOut f b (n / g.size)))))]
    else parts
  | 4 => parts
  | 5 => (recvOffsets r.moves).map (fun x =>
      (x.1.addr, if x.1.peer = g.me then some (((sendData r.moves r.src g.me).drop x.2).take x.1.len)
        else r.arrived x.1.peer 0 false x.2 x.1.len))
  | 6 => []
  | 7 => [(dst, r.arrived r.p.peer.toNat 0 false 0 n)]
  | _ => [(dst, r.arrived (g.next g.me (g.axes.headD 0) true) (g.axes.headD 0) false 0 n)]

/-- What a complete run writes, as addresses and bytes; none while data are missing. -/
def CollRun.deliveries (r : CollRun) (g : Group) : Option (List (Nat × List Byte)) :=
  (r.landings g).mapM (fun x => x.2.map (fun b => (x.1, b)))

/-- What an incomplete run could have written so far: of a single stream each message on its own. -/
def CollRun.reached (r : CollRun) (g : Group) : List (Nat × List Byte) :=
  if 7 ≤ r.subop then r.got.map (fun q => (r.p.dst.toNat + q.offset, q.data))
  else (r.landings g).filterMap (fun x => x.2.map (fun b => (x.1, b)))

/-- The ranges that a run writes. -/
def CollRun.targets (r : CollRun) (g : Group) : List (Nat × Nat) :=
  let n := r.p.count.toNat
  let dst := r.p.dst.toNat
  match r.subop with
  | 1 => [(dst, outBytes (outFmtOf r.p) (n / g.size))]
  | 2 => [(dst, r.blockBytes g * g.size)]
  | 3 => [(dst, outBytes (outFmtOf r.p) n)]
  | 4 => [(dst, (inFmtOf r.p).bytes n)]
  | 5 => (r.moves.filter (fun m => !m.send)).map (fun m => (m.addr, m.len))
  | 6 => []
  | _ => [(dst, n)]

/-! ## The noise tap (R356) -/

/-- The square of a value in units of 2^-512, truncated. -/
def squareUnits : Val → Nat
  | .fin _ m e => shiftBy (m * m) (2 * e + 512)
  | _ => 0

/-- Values added to one of the tap's sums: the sum, and whether it overflowed. -/
def tapSum (acc : Int) (vs : List Val) : Int × Bool :=
  vs.foldl (fun (p : Int × Bool) v =>
    let q := squareUnits v
    let t := p.1 + q
    (t, p.2 || decide (2 ^ 639 ≤ q) || decide (2 ^ 639 ≤ t))) (acc, false)

/-- The tap of one NOISE collective: POST_SCALE × x of the whole SRC, and POST_SCALE × sum of the module's shard. -/
def State.tapNoise (s : State) (ys zs : List Val) : State :=
  let t := s.coll.noise
  let (l, o1) := tapSum t.sLocal ys
  let (r, o2) := tapSum t.sRed zs
  let nan := t.nan || !ys.all Val.isFinite || !zs.all Val.isFinite
  { s with coll := { s.coll with noise := ⟨l, r, nan, t.overflow || o1 || o2, true⟩ } }

/-! ## Status -/

/-- A run waits for a READY. -/
def State.waitsReady (s : State) (r : CollRun) : Bool := (r.outPeers (s.runGroup r)).any (fun m => !r.ready.contains m)

/-- `CE_STATUS` brought up to date (R366). -/
def State.collStatus (s : State) : State :=
  let s := s.put F.CE_STATUS_ACTIVE (min s.coll.runs.length 255)
  let s := s.put F.CE_STATUS_WAIT_READY (flag (s.coll.runs.any s.waitsReady))
  s.put F.CE_STATUS_RESHARD (flag s.coll.reshard.isSome)

/-- The same run: the same command. -/
def sameCmd (a b : CmdRef) : Bool := decide (a.ring = b.ring) && decide (a.seq = b.seq)

/-- `s` with a run replaced. -/
def State.setRun (s : State) (r : CollRun) : State :=
  { s with coll := { s.coll with runs := s.coll.runs.map (fun x => if sameCmd x.cmd r.cmd then r else x) } }

/-- The data of pieces in the order of member, axis, direction and offset. -/
def pieceBytes (ps : List CollPiece) : List Byte :=
  let le (a b : CollPiece) : Bool :=
    decide (a.src < b.src) || (decide (a.src = b.src) && (decide (a.axis < b.axis) || (decide (a.axis = b.axis) &&
      ((!a.minus && b.minus) || (decide (a.minus = b.minus) && decide (a.offset ≤ b.offset))))))
  (sortBy le ps).flatMap (·.data)

/-- Destinations that are undefined. -/
def State.forgetAll (s : State) (ts : List (Nat × Nat)) : State := ts.foldl (fun s t => s.forgetAt t.1 t.2) s

/-- A run closed: its entry in the Period's record (R54), and its command ended. -/
def State.closeColl (s : State) (r : CollRun) (d : Done) : State :=
  let s := { s with coll := { s.coll with runs := s.coll.runs.filter (fun x => !sameCmd x.cmd r.cmd) } }
  let s := s.noteEntry ⟨2, r.clause, r.cmd.tag, s.now, crc64 (pieceBytes r.got), crc64 (pieceBytes r.sent)⟩
  (s.collStatus).finishAs (decide (r.kind = .command)) r.cmd d

/-- A run ends (R354): its destination is undefined unless it succeeded. -/
def State.endColl (s : State) (r : CollRun) (d : Done) : State :=
  (if d.status = ST_OK then s else s.forgetAll (r.targets (s.runGroup r))).closeColl r d

/-- What a run that a reset cuts off leaves in its destination: every line as it was, or as the run would have written it (R289). -/
def State.leaveLines (s : State) (r : CollRun) : State :=
  (r.reached (s.runGroup r)).foldl (fun (s : State) w =>
    let head := min w.2.length ((64 - w.1 % 64) % 64)
    let lines := (w.1, w.2.take head) :: ((pieces 64 (w.2.drop head)).zipIdx.map (fun x => (w.1 + head + 64 * x.2, x.1)))
    (lines.filter (fun l => !l.2.isEmpty)).foldl (fun (s : State) l =>
      let s' : State := { s with draws := s.draws + 1 }
      if (Config.freeWord s.draws).toNat % 2 = 1 then (s'.writeAt l.1 l.2 (some r.cmd)).1 else s') s) s

/-- Every run is cut off by a reset of what runs it: ST_ISOLATED. -/
def State.cutColl (s : State) : State :=
  s.coll.runs.foldl (fun (s : State) r => (s.leaveLines r).closeColl r (Done.fail ST_ISOLATED)) s

/-! ## Sending -/

/-- The MATCH that a run's messages carry; SEND and RECV meet by their STREAM_ID. -/
def CollRun.matchKey (r : CollRun) : Nat := if r.subop = 6 ∨ r.subop = 7 then r.p.streamId.toNat else r.p.matchId.toNat

/-- A run meets its peers by STREAM_ID. -/
abbrev CollRun.stream (r : CollRun) : Bool := decide (r.subop = 6) || decide (r.subop = 7)

/-- The header of a run's COLLECTIVE messages (R355). -/
def CollRun.header (r : CollRun) (ready : Bool) (axis : Nat) (minus : Bool) (off : Nat) : CollHdr :=
  ⟨BitVec.ofNat 32 r.matchKey, BitVec.ofNat 8 r.subop, ready, minus, BitVec.ofNat 2 axis, BitVec.ofNat 16 r.pdigest, BitVec.ofNat 48 off⟩

/-- A READY received and not yet used. -/
def State.holdReady (s : State) (e : EarlyReady) : State := { s with coll := { s.coll with early := s.coll.early ++ [e] } }

/-- READY sent to a member that will send to the run (R344, R351). False: unroutable. -/
def State.sendReady (s : State) (r : CollRun) (peer : Nat) : State × Bool :=
  if peer = s.logical then (s.holdReady ⟨peer, r.matchKey, flag r.stream, r.pdigest⟩, true)
  else s.injectMsg peer 1 1 (some r.cmd) (fun q =>
    .collective q ⟨BitVec.ofNat 24 peer, BitVec.ofNat 24 s.logical, 0#3⟩ (r.header true 0 false 0) [])

/-- COLL_MISMATCH (R344): the run ends with ST_FABRIC. A peer that has no READY of the module's has one now, so that both ends raise it. -/
def State.collMismatch (s : State) (r : CollRun) (peer : Nat) : State :=
  let s := if (r.inPeers (s.runGroup r)).contains peer then s else (s.sendReady r peer).1
  let s := s.bump F.CE_COUNTS_MISMATCH 1
  (s.raise ⟨0x0709, 2, 7, 0, 0, false, some r.cmd⟩).endColl r (Done.fail ST_FABRIC)

/-- P2P data for a posted receive. Data of another source for a STREAM_ID that is posted are discarded, and only data for none count in
NOSTREAM (R316). -/
def State.landP2p (s : State) (port : Option Nat) (stream src off : Nat) (bs : List Byte) : State :=
  let posted := s.coll.runs.filter (fun r => decide (r.subop = 7) && decide (r.p.streamId.toNat = stream))
  match posted.find? (fun r => decide (r.p.peer.toNat = src)) with
  | some r => (port.elim s (s.usePort (some r.cmd))).setRun { r with got := r.got ++ [⟨src, 0, false, off, bs⟩] }
  | none => if posted.isEmpty then s.bump F.ZF_ERRS_NOSTREAM 1 else s

/-- One message of a run's data sent (R315, R355). False: unroutable. -/
def State.sendPiece (s : State) (r : CollRun) (o : OutStream) (off : Nat) (bs : List Byte) : State × CollRun × Bool :=
  let rt : Route := ⟨BitVec.ofNat 24 o.dest, BitVec.ofNat 24 s.logical, 0#3⟩
  let r' : CollRun := { r with sent := r.sent ++ [⟨o.dest, o.axis, o.minus, off, bs⟩] }
  let n := flitsOf bs.length
  if r.subop = 6 then
    if o.dest = s.logical then ((s.setRun r').landP2p none r.p.streamId.toNat o.dest off bs, r', true)
    else
      let h : P2pHdr := ⟨r.p.streamId, BitVec.ofNat 48 off⟩
      match s.injectMsg o.dest n 1 (some r.cmd) (fun q => .p2p q rt h bs) with
      | (t, ok) =>
        let last := match s.route o.dest none with
          | .out q _ => some (if t.routeDown q then none else some q, off)
          | _ => none
        (t, { r' with lastFlit := last }, ok)
  else
    match s.injectMsg o.dest n 1 (some r.cmd) (fun q => .collective q rt (r.header false o.axis o.minus off) bs) with
    | (t, ok) => (t, r', ok)

/-- The messages that a stream can send now: what is known and not yet sent, in pieces of a message's limit. -/
def CollRun.ripe (r : CollRun) (o : OutStream) : List (Nat × List Byte) :=
  let done := r.sentOn o
  let limit := if r.subop = 6 then 65535 else 65536
  if r.ready.contains o.dest then
    ((pieces limit (o.avail.drop done)).zipIdx).map (fun x => (o.base + done + limit * x.2, x.1))
  else []

/-- What is ripe of every stream sent, in order; it stops at a message that is unroutable. -/
def State.sendRipe (s : State) (r : CollRun) (g : Group) : State × CollRun × Bool :=
  let work := (r.outs g).flatMap (fun o => (r.ripe o).map (fun m => (o, m)))
  work.foldl (fun (acc : State × CollRun × Bool) w =>
    if acc.2.2 then acc.1.sendPiece acc.2.1 w.1 w.2.1 w.2.2 else acc) (s, r, true)

/-! ## Forming a reduction's result (R347, R356) -/

/-- POST_SCALE. -/
abbrev postScale (p : CollParams) : Val := v32 p.postScale.toNat

/-- Once the module's own sums are known: the noise tap fed, the products with POST_SCALE converted to OUT_FMT under TENSOR_ID, each by
its index within the shard. -/
def State.formShard (s : State) (r : CollRun) (g : Group) : State × CollRun :=
  match (if r.formed ∨ ¬ (r.subop = 1 ∨ r.subop = 3) then none else r.ownSums g) with
  | none => (s, r)
  | some sums =>
    let p := r.p
    let zs := sums.map (fun b => (postScale p).mul ((accFmtOf p).decode b))
    let fin_ := inFmtOf p
    let s := if p.noise then
        s.tapNoise ((fin_.unpack r.src p.count.toNat).map (fun b => (postScale p).mul (fin_.decode b))) zs
      else s
    let f := outFmtOf p
    match s.convertSite r.eval p.tensorId.toNat f p.round.toNat (zs.zipIdx.map (fun z => (z.2, z.1))) with
    | (s, es) => (s, { r with out := packOut f (es.map (·.2)), formed := true })

/-- A SEND's last flit has been sent and acknowledged on its first link (R351): its message waits at the port no more, and has left the
replay buffer. -/
def State.sendAcked (s : State) (r : CollRun) : Bool :=
  match r.lastFlit with
  | some (some q, _) =>
    let v := s.port q
    !(v.queue.map (·.m) ++ v.buffer.map (·.m)).any (r.isTail s.logical)
  | some (none, _) => false
  | none => true

/-- One run brought forward: what is ripe is sent, a result formed, and a complete run ended. -/
def State.pumpRun (s : State) (r : CollRun) : State :=
  let g := s.runGroup r
  match s.sendRipe r g with
  | (s, r, false) => s.endColl r (Done.fail ST_FABRIC)
  | (s, r, true) =>
    match s.formShard r g with
    | (s, r) =>
      match s.sendRipe r g with
      | (s, r, false) => s.endColl r (Done.fail ST_FABRIC)
      | (s, r, true) =>
        let s := s.setRun r
        match (if r.allSent g && s.sendAcked r then r.deliveries g else none) with
        | none => s
        | some ws =>
          match s.writeRuns ws r.cmd with
          | (s, .fail st) => s.endColl r (Done.fail st)
          | (s, .ok _) => s.endColl r (Done.ok (crc64 (ws.flatMap (·.2))))

/-- Every run brought forward; twice, for a SEND whose RECV is the module's own. -/
def State.pumpColl (s : State) : State :=
  if s.coll.runs.isEmpty then s
  else
    let pass (s : State) : State := s.coll.runs.foldl (fun s r =>
      match s.coll.runs.find? (fun x => sameCmd x.cmd r.cmd) with
      | some x => s.pumpRun x
      | none => s) s
    (pass (pass s)).collStatus

/-! ## Starting a run -/

/-- A READY taken for a run (R344): one whose PDIGEST differs ends it. -/
def State.takeReady (s : State) (r : CollRun) (e : EarlyReady) : State :=
  if !r.stream && decide (e.pdigest ≠ r.pdigest) then s.collMismatch r e.peer else s.setRun { r with ready := r.ready ++ [e.peer] }

/-- A READY for a run that waits for it. -/
def State.wantsReady (s : State) (e : EarlyReady) : Option CollRun :=
  s.coll.runs.find? (fun r => decide (r.matchKey = e.matchId) && decide (flag r.stream = e.cls) && decide (r.subop ≠ 7) &&
    (r.outPeers (s.runGroup r)).contains e.peer && !r.ready.contains e.peer)

/-- A run whose MATCH a READY of another member of its group bears with other parameters. -/
def State.contradicted (s : State) (e : EarlyReady) : Option CollRun :=
  s.coll.runs.find? (fun r => !r.stream && decide (r.matchKey = e.matchId) && decide (e.cls = 0) && decide (r.pdigest ≠ e.pdigest) &&
    (s.runGroup r).others.contains e.peer)

/-- A READY received: for a run that waits for it, for one that it contradicts (R344), or held for one still to come. -/
def State.readyReceived (s : State) (e : EarlyReady) : State :=
  match s.wantsReady e, s.contradicted e with
  | some r, _ => s.takeReady r e
  | none, some r => s.collMismatch r e.peer
  | none, none => s.holdReady e

/-- The READYs that came before a run and are for it. -/
def State.claimEarly (s : State) : State :=
  let early := s.coll.early
  early.foldl (fun s e => s.readyReceived e) { s with coll := { s.coll with early := [] } }

/-- A run starts (R344): READY to each member that sends to it, the READYs that came early taken, and what can be sent sent. The
command stays in flight unless it ends here. -/
def State.startColl (s : State) (r : CollRun) : Body :=
  let g := s.runGroup r
  let hops := maxList ((r.outPeers g).filterMap s.routeHops)
  let r : CollRun := { r with hops := hops }
  let s := { s with coll := { s.coll with runs := s.coll.runs ++ [r] } }
  let (s, ok) := (r.inPeers g).foldl (fun (acc : State × Bool) m => if acc.2 then acc.1.sendReady r m else acc) (s, true)
  if ok then ((s.claimEarly).pumpColl, none) else (s.endColl r (Done.fail ST_FABRIC), none)

/-! ## COLLECTIVE (R345, R346) -/

/-- The parameter bytes of a COLLECTIVE, with SRC and DST taken as 0 (R345, R355). -/
def collBytes (subop : Nat) (p : CollParams) : List Byte :=
  leBytes 4 (subop + flag p.ordered * 2 ^ 8 + flag p.noise * 2 ^ 9 + p.axes.toNat * 2 ^ 10 + p.inFmt.toNat * 2 ^ 16 +
      p.accFmt.toNat * 2 ^ 20 + p.outFmt.toNat * 2 ^ 24 + p.round.toNat * 2 ^ 28)
    ++ leBytes 4 (p.op.toNat + p.splitX.toNat * 2 ^ 4 + p.splitY.toNat * 2 ^ 8 + p.splitZ.toNat * 2 ^ 12 + p.tensorId.toNat * 2 ^ 16)
    ++ leBytes 4 p.matchId.toNat ++ leBytes 4 p.postScale.toNat ++ List.replicate 16 0 ++ leBytes 8 p.count.toNat
    ++ leBytes 4 (p.peer.toNat + p.step.toNat * 2 ^ 24) ++ leBytes 4 p.streamId.toNat

/-- PDIGEST. -/
abbrev pdigestOf (subop : Nat) (p : CollParams) : Nat := crc64 (collBytes subop p) % 2 ^ 16

/-- A format whose elements are floating point. -/
abbrev Fmt.isFloat (f : Fmt) : Bool := f.float.isSome

/-- The input formats of R346. -/
def reduceInputs : List Fmt := [.fp32, .bf16, .fp16, .e4m3, .e5m2, .int32]

/-- The formats of a COLLECTIVE (R346), and the POST_SCALE of a reduction of INT32 (R347). -/
def collFormatsOk (subop : Nat) (p : CollParams) : Bool :=
  match Fmt.ofCode p.inFmt.toNat, Fmt.ofCode p.accFmt.toNat, Fmt.ofCode p.outFmt.toNat with
  | some i, some a, some o =>
    reduceInputs.contains i &&
      (if i = .int32 then decide (a = .int32) && !o.isFloat && (!(decide (subop = 1) || decide (subop = 3)) || decide (p.postScale.toNat = 0x3F800000))
       else (decide (a = .fp32) || decide (a = .bf16)) && decide (o ≠ .int32))
  | _, _, _ => false

/-- The axes and weights of a COLLECTIVE (R346). -/
def collAxesOk (subop : Nat) (p : CollParams) (g : Group) : Bool :=
  !g.axes.isEmpty && (decide (subop ≠ 8) || decide (g.axes.length = 1)) &&
    [0, 1, 2].all (fun a => g.axes.contains a || decide (splitOf p a = 0)) &&
    g.axes.any (fun a => decide (splitOf p a ≠ 0))

/-- NOISE (R346). -/
def State.collNoiseOk (s : State) (h : Hdr) (subop : Nat) (p : CollParams) : Bool :=
  !p.noise || ((decide (subop = 1) || decide (subop = 3)) && decide (p.op = 0) && decide (p.inFmt.toNat ≠ Fmt.int32.code) &&
    h.bound && decide (s.clauseKind h.clause.val = some kindExchange))

/-- What a COLLECTIVE must meet before its ranges are looked at (R14, R346, R350, R352). -/
def State.collParamsOk (s : State) (h : Hdr) (subop : Nat) (p : CollParams) : Bool :=
  let g := s.groupOf p.axes.toNat
  decide (p.op.toNat ≠ 3) && decide (p.round.toNat ≤ 4) && (postScale p).isFinite && s.collNoiseOk h subop p &&
  (if subop = 6 ∨ subop = 7 then decide (p.streamId.toNat < 2 ^ 31)
   else
    collFormatsOk subop p && collAxesOk subop p g &&
    (!(decide (subop ≤ 3)) || decide (p.count.toNat % g.size = 0)) &&
    (decide (subop ≠ 2) || decide (p.inFmt = p.outFmt)) &&
    (decide (subop ≠ 8) || (decide (1 ≤ p.step.toNat) && decide (p.step.toNat < g.len (g.axes.headD 0)))))

/-- The bytes that a COLLECTIVE reads at SRC. -/
def collSource (subop : Nat) (p : CollParams) (g : Group) : Nat :=
  let n := p.count.toNat
  match subop with
  | 1 => (inFmtOf p).bytes n
  | 2 => (inFmtOf p).bytes (n / g.size)
  | 3 => (inFmtOf p).bytes n
  | 4 => if p.peer.toNat = g.me then (inFmtOf p).bytes n else 0
  | 5 => 32 * n
  | 7 => 0
  | _ => n

/-- A move record from its 32 bytes; none where DIR is reserved (R361). -/
def Move.parse (bs : List Byte) : Option Move :=
  let d := leAt bs 0 1
  if d = 1 ∨ d = 2 then some ⟨decide (d = 1), leAt bs 4 3, leAt bs 8 6, leAt bs 0x10 8, leAt bs 0x18 8⟩ else none

/-- The destinations of a PERMUTE's moves. -/
def recvTargets (moves : List Move) : List (Nat × Nat) := (moves.filter (fun m => !m.send)).map (fun m => (m.addr, m.len))

/-- The checks of a PERMUTE's moves (R168, R280, R298, R353, R361): the status that ends it. -/
def State.movesFault (s : State) (h : Hdr) (moves : List Move) : Option Nat :=
  let writes := recvTargets moves
  if !moves.all (fun m => decide (m.len % 64 = 0)) || s.fenceHit h writes then some ST_BAD_PARAM
  else firstFault (moves.map (fun m => s.spanFault m.addr m.len (!m.send)))

/-- The data of the SEND moves, in order. -/
def State.readMoves (s : State) (moves : List Move) (c : CmdRef) : Act (List Byte) :=
  (actAll (fun s m => s.readAct m.addr m.len c) s (moves.filter (·.send))).bind (fun s bs => (s, .ok (bs.flatMap id)))

/-- A run as it is set up at dispatch. -/
def newRun (h : Hdr) (c : CmdRef) (eval : Bool) (kind : CollKind) (subop : Nat) (p : CollParams) (src : List Byte) (moves : List Move) : CollRun :=
  { cmd := c, kind := kind, clause := if h.bound then h.clause.val else 0, eval := eval, subop := subop, p := p, src := src,
    moves := moves, pdigest := pdigestOf subop p, ready := [], got := [], sent := [],
    out := if subop = 2 ∨ subop = 4 then src else [], formed := decide (subop = 2 ∨ subop = 4), lastFlit := none, extended := false, hops := 0 }

/-- A PERMUTE from its move list: one that ends before it starts leaves its destinations undefined (R354), unless the fence kept it from
writing (R168). -/
def State.permute (s : State) (h : Hdr) (moves : List Move) (c : CmdRef) (start : State → List Byte → Body) : Body :=
  let ws := recvTargets moves
  match s.movesFault h moves with
  | some st => (if s.fenceHit h ws then s else s.forgetAll ws).fail st
  | none => match s.readMoves moves c with
    | (s, .fail st) => (s.forgetAll ws).fail st
    | (s, .ok data) => start s data

/-- The move records of a PERMUTE's list. -/
def parseMoves (n : Nat) (bs : List Byte) : Option (List Move) := (List.range n).mapM (fun i => Move.parse ((bs.drop (32 * i)).take 32))

/-- COLLECTIVE's body. After any status but ST_OK its destination is undefined (R354); one that its parameters or the fence turn away has
written nothing (R14, R168; log entry 42). -/
def State.collective (s : State) (h : Hdr) (subop : Nat) (p : CollParams) (c : CmdRef) : Body :=
  let g := s.groupOf p.axes.toNat
  let shape := newRun h c (s.evalBound h) .command subop p [] []
  if !s.collParamsOk h subop p then s.fail ST_BAD_PARAM
  else
    let ws := if subop = 5 then [] else shape.targets g
    let n := collSource subop p g
    if s.fenceHit h ws then s.fail ST_BAD_PARAM
    else match firstFault (s.spanFault p.src.toNat n false :: ws.map (fun w => s.spanFault w.1 w.2 true)) with
      | some st => (s.forgetAll ws).fail st
      | none =>
        let count (s : State) : State := if p.ordered then s else s.bump F.CE_COUNTS_ARRIVAL 1
        match s.readAct p.src.toNat n c with
        | (t, .fail st) =>
          let listed := if subop = 5 then (parseMoves p.count.toNat (s.peek p.src.toNat n)).getD [] else []
          (t.forgetAll (ws ++ recvTargets listed)).fail st
        | (s, .ok bs) =>
          if subop = 5 then
            match parseMoves p.count.toNat bs with
            | none => s.fail ST_BAD_PARAM
            | some moves => s.permute h moves c (fun s data => (count s).startColl (newRun h c (s.evalBound h) .command subop p data moves))
          else (count s).startColl (newRun h c (s.evalBound h) .command subop p bs [])

/-! ## GATHER_WINDOW FETCH (R295) -/

/-- The all-gather of a FETCH: COUNT in bytes, its MATCH the layer's (log entry 41). -/
def fetchParams (e : LayerEntry) (layer slot : Nat) : CollParams :=
  { ordered := true, noise := false, axes := BitVec.ofNat 3 (2 ^ e.axis), inFmt := 0, accFmt := 0, outFmt := 0, round := 0, op := 0,
    splitX := 0, splitY := 0, splitZ := 0, tensorId := 0, matchId := BitVec.ofNat 32 (2 ^ 31 + layer), postScale := 0,
    src := BitVec.ofNat 48 e.src, dst := BitVec.ofNat 48 slot, count := BitVec.ofNat 64 (e.ring * e.piece), peer := 0, step := 0,
    streamId := 0 }

/-- GATHER_WINDOW FETCH's body. RING_LEN must be the axis's length. -/
def State.gatherFetch (s : State) (h : Hdr) (slot layer : Nat) (c : CmdRef) : Body :=
  match s.dm.gather with
  | none => s.fail ST_BAD_PARAM
  | some gs =>
    if gs.count ≤ layer || s.slotHeld slot then s.fail ST_BAD_PARAM
    else
      let at_ := gs.base + slot * gs.slotBytes
      match s.spanFault (gs.table + 32 * layer) 32 false with
      | some st => s.fail st
      | none => s.reading (gs.table + 32 * layer) 32 c (fun s bs =>
        let e := LayerEntry.parse bs
        if !layerOk bs gs.slotBytes || decide (e.ring ≠ dimOf (s.get F.ZF_LDIM_DIM) e.axis) || s.fenceHit h [(at_, e.ring * e.piece)] then
          s.fail ST_BAD_PARAM
        else match s.spanFault e.src e.piece false with
          | some st => s.fail st
          | none => (((s.holdSlot slot true).readAct e.src e.piece c)).body (fun s piece =>
            s.startColl (newRun h c (s.evalBound h) (.fetch slot) 2 (fetchParams e layer at_) piece [])))

/-! ## Messages -/

/-- A COLLECTIVE message for this module: a READY, or data of a run. Data for no run are discarded. -/
def State.collMessage (s : State) (port src : Nat) (m : CollHdr) (bs : List Byte) : State :=
  if m.ready then s.readyReceived ⟨src, m.matchId.toNat, flag (decide (m.subop.toNat = 7)), m.pdigest.toNat⟩
  else match s.coll.runs.find? (fun r => !r.stream && decide (r.p.matchId = m.matchId) && decide (r.subop = m.subop.toNat) &&
      (r.inPeers (s.runGroup r)).contains src) with
    | some r => (s.usePort (some r.cmd) port).setRun { r with got := r.got ++ [⟨src, m.axis.toNat, m.dir, m.offset.toNat, bs⟩] }
    | none => s

/-- A P2P message for this module (R316, R351). In the LOAD_SHARD range one that does not come from port A or B, or leaves the load's range,
is discarded, and one that matches no running load counts in NOSTREAM. -/
def State.p2pMessage (s : State) (port src : Nat) (m : P2pHdr) (bs : List Byte) : State :=
  let id := m.streamId.toNat
  if id < 2 ^ 31 then s.landP2p (some port) id src m.offset.toNat bs
  else match s.dm.load with
    | some r =>
      if r.stream ≠ id then s.bump F.ZF_ERRS_NOSTREAM 1
      else if 6 ≤ port ∧ m.offset.toNat + bs.length ≤ r.length then s.loadData r m.offset.toNat bs
      else s
    | none => s.bump F.ZF_ERRS_NOSTREAM 1

/-! ## Ends from outside -/

/-- Every run of the commands that `pick` chooses ends with a status (R46, R295). -/
def State.stopColl (s : State) (st : Nat) (pick : CmdRef → Bool) : State :=
  (s.coll.runs.filter (fun r => pick r.cmd)).foldl (fun s r => s.endColl r (Done.fail st)) s

/-! ## Noise records (R358) -/

/-- The 32 bytes of a noise record. -/
def NoiseRec.bytes (r : NoiseRec) : List Byte :=
  leBytes 8 (r.period + flag r.nan * 2 ^ 48 + flag r.overflow * 2 ^ 49 + flag r.empty * 2 ^ 50) ++ leBytes 8 r.sLocal ++ leBytes 8 r.sRed
    ++ leBytes 4 r.degree ++ leBytes 4 r.bLocal

/-- NOISE_REPORT's body. -/
def State.noiseReport (s : State) (period count dest : Nat) (c : CmdRef) : Body :=
  if count = 0 ∨ 16 < count ∨ dest % 64 ≠ 0 then s.fail ST_BAD_PARAM
  else match (List.range count).mapM (fun i => s.coll.records.find? (fun r => decide (r.period = (period + i) % 2 ^ 48))) with
    | none => s.fail ST_BAD_PARAM
    | some rs => match s.spanFault dest (32 * count) true with
      | some st => s.fail st
      | none =>
        let bs := rs.flatMap NoiseRec.bytes
        s.writing dest bs c (fun s => s.ok 0)

end Sys2Proof.Machine
end

