-- ==== Sys2Proof/Machine/Tree.lean ====
section
/-!
DEFINITION. Machine/Tree.lean: the tree of parent ports and its reductions (R336, R357, R363): reports collected from the children and
the module itself, combined, and sent to the parent, or granted by the tick master.
-/
namespace Sys2Proof.Machine

/-- The module is tick master. -/
abbrev State.isMaster (s : State) : Bool := s.on F.PC_CTRL_MASTER

/-- The module is a spare (R330). -/
abbrev State.isSpare (s : State) : Bool := s.on F.ZF_LOGICAL_SPARE

/-- The parent and the children that a reduction uses: those of the tick while a Period runs, on a spare those of the last TICK, so that
a change takes effect at the next tick (R336), and otherwise those of now. -/
def State.treeNow (s : State) (kind : Nat) : Option Nat × List Nat :=
  if (s.pcState = 2 ∨ s.pcState = 3 ∨ (s.isSpare ∧ s.pd.upPort.isSome)) ∧ kind ≠ 4 then (s.pd.upPort, s.pd.downPorts) else (s.parent, s.children)

/-- The reports of one reduction. -/
def State.reports (s : State) (kind period round : Nat) : List ReduceIn :=
  s.pd.reduceIn.filter (fun r => decide (r.p.kind.toNat = kind) && decide (r.p.period.toNat = period) && decide (r.p.round.toNat = round))

/-- Two reports combined: sums exact, OVERFLOW when one leaves the accumulator, the flags joined (R356, R357). -/
def combineReports (a b : ReducePayload) : ReducePayload :=
  let l := a.sLocal.toInt + b.sLocal.toInt
  let r := a.sRed.toInt + b.sRed.toInt
  { a with
    sLocal := BitVec.ofInt 640 l, sRed := BitVec.ofInt 640 r, nan := a.nan || b.nan,
    overflow := a.overflow || b.overflow || decide (2 ^ 639 ≤ l) || decide (2 ^ 639 ≤ r), empty := a.empty && b.empty }

/-- A total rounded to FP64, +∞ for OVERFLOW and NaN for NAN (R357). -/
def totalWord (p : ReducePayload) (x : BitVec 640) : BitVec 64 :=
  BitVec.ofNat 64 (if p.nan then Fmt.fp64.canonicalNan else if p.overflow then rne64 (.inf false) else rne64 (Val.ofSigned x.toInt (-512)))

/-- The GRANT that the tick master sends when a reduction is complete. -/
def grantOf (p : ReducePayload) : GrantPayload :=
  { period := p.period, kind := p.kind, round := p.round, sLocal := if p.kind = 3 then totalWord p p.sLocal else 0,
    sRed := if p.kind = 3 then totalWord p p.sRed else 0, nan := p.nan, overflow := p.overflow, empty := p.empty }

/-- A GRANT sent down the tree. -/
def State.grantDown (s : State) (g : GrantPayload) : State :=
  s.sendEach ((s.treeNow g.kind.toNat).2.filter s.portUp) (fun p => .grant p g)

/-- A report noted; a later one from the same port for the same reduction replaces the first. -/
def State.noteReport (s : State) (r : ReduceIn) : State :=
  let same (x : ReduceIn) : Bool :=
    decide (x.port = r.port) && decide (x.p.kind = r.p.kind) && decide (x.p.period = r.p.period) && decide (x.p.round = r.p.round)
  { s with pd := { s.pd with reduceIn := s.pd.reduceIn.filter (fun x => !same x) ++ [r] } }

/-- A reduction whose reports are all in, the module's own (port 8) and each child's, is sent to the parent once; the tick master
sends the GRANT instead, which is answered so that it can be applied here. -/
def State.reduceStep (s : State) (kind period round : Nat) : State × Option GrantPayload :=
  let rs := s.reports kind period round
  let tree := s.treeNow kind
  let ready := (8 :: tree.2).all (fun q => rs.any (fun r => decide (r.port = q)))
  let key : ReduceSent := ⟨kind, period, round⟩
  if !ready || s.pd.reduceSent.contains key then (s, none)
  else
    let mine := rs.filter (fun r => decide (r.port = 8) || tree.2.contains r.port)
    match mine.map (·.p) with
    | [] => (s, none)
    | p :: ps =>
      let total := ps.foldl combineReports p
      let s := { s with pd := { s.pd with
        reduceIn := s.pd.reduceIn.filter (fun x => !rs.contains x), reduceSent := key :: s.pd.reduceSent } }
      if s.isMaster then (s.grantDown (grantOf total), some (grantOf total))
      else match tree.1 with
        | some q => (if s.portUp q then s.sendOn q 1 (some 0) (.reduce q total) else s, none)
        | none => (s, none)

/-- A report without sums. -/
def plainReport (kind period round : Nat) : ReducePayload :=
  { period := BitVec.ofNat 48 period, kind := BitVec.ofNat 8 kind, round := BitVec.ofNat 16 round, sLocal := 0, sRed := 0, nan := false,
    overflow := false, empty := true }

end Sys2Proof.Machine
end

