-- ==== Sys2Proof/Machine/Reshard.lean ====
section
/-!
DEFINITION. Machine/Reshard.lean: re-sharding (R361 to R365): the plan, the round ledger, and a round's landing and copy. The messages of
a round are COLLECTIVE messages with SUBOP 0, MATCH the low half of PLAN_ID and the round number in place of PDIGEST (log entry 43).
-/
namespace Sys2Proof.Machine

/-! ## The plan (R361) -/

/-- A round record. -/
structure RoundRec where
  first   : Nat
  count   : Nat
  landing : Nat

/-- A plan. -/
structure ReshardPlan where
  id      : Nat
  crc     : Nat
  landing : Nat
  rounds  : List RoundRec
  moves   : List Move

/-- The bytes of a plan by its header. -/
def planSize (hd : List Byte) : Nat := 0x40 + 16 * leAt hd 4 4 + 32 * leAt hd 8 4

/-- The plan's CRC-64, over the plan with its CRC field taken as 0. -/
def planCrc (b : List Byte) : Nat := crc64 (overlay b 0x38 (List.replicate 8 0))

/-- A plan from its bytes; none where a field fails (R361). -/
def ReshardPlan.parse (b : List Byte) : Option ReshardPlan :=
  let nr := leAt b 4 4
  let nm := leAt b 8 4
  let landing := leAt b 0x18 8
  let rounds := (List.range nr).map (fun k =>
    let a := 0x40 + 16 * k
    (⟨leAt b a 4, leAt b (a + 4) 4, leAt b (a + 8) 8⟩ : RoundRec))
  match (List.range nm).mapM (fun m => Move.parse ((b.drop (0x40 + 16 * nr + 32 * m)).take 32)) with
  | none => none
  | some moves =>
    let moveOk (r : RoundRec) (m : Move) : Bool :=
      decide (m.len % 64 = 0) && inHbm m.addr m.len &&
        (if m.send then decide (m.landing = 0) else decide (m.landing + m.len ≤ r.landing))
    let roundOk (r : RoundRec) : Bool :=
      decide (r.first + r.count ≤ nm) && decide (r.landing ≤ landing) && ((moves.drop r.first).take r.count).all (moveOk r)
    if leAt b 0 2 = 1 ∧ 1 ≤ nr ∧ nr ≤ 4096 ∧ rounds.all roundOk then some ⟨leAt b 0x10 8, leAt b 0x38 8, landing, rounds, moves⟩ else none

/-- The moves of a round. -/
def ReshardPlan.round (p : ReshardPlan) (k : Nat) : List Move :=
  match p.rounds[k]? with
  | some r => (p.moves.drop r.first).take r.count
  | none => []

/-- A RECV destination of a round overlaps the source of a SEND in a later round (R363). -/
def ReshardPlan.clash (p : ReshardPlan) : Bool :=
  (List.range p.rounds.length).any (fun k => (p.round k).any (fun d => !d.send &&
    (List.range p.rounds.length).any (fun j => decide (k < j) && (p.round j).any (fun m => m.send && overlaps d.addr d.len m.addr m.len))))

/-- The moves of an inverse round (R365): every RECV becomes a SEND back to its PEER. What comes back lands in the order of the moves. -/
def inverseMoves (ms : List Move) : List Move :=
  (ms.foldl (fun (acc : List Move × Nat) m =>
    if m.send then (acc.1 ++ [{ m with send := false, landing := acc.2 }], acc.2 + m.len)
    else (acc.1 ++ [{ m with send := true, landing := 0 }], acc.2)) ([], 0)).1

/-! ## The round ledger (R362) -/

/-- The ledger's header. -/
def roundHeader (id crc state dir round : Nat) : List Byte :=
  let b := leBytes 8 1 ++ leBytes 8 id ++ leBytes 8 crc ++ leBytes 4 (state + 4 * dir + round * 2 ^ 16) ++ List.replicate 28 0
  b ++ leBytes 8 (crc64 b)

/-- Its fields as they stand. -/
structure RoundLedger where
  state : Nat
  dir   : Nat
  round : Nat

/-- The ledger as read. -/
def RoundLedger.parse (b : List Byte) : RoundLedger := let w := leAt b 0x18 4; ⟨w % 4, bits w 2 1, w / 2 ^ 16⟩

/-- The header written. -/
def State.putRound (s : State) (ledger : Nat) (p : ReshardPlan) (state dir round : Nat) : State :=
  s.own ledger (roundHeader p.id p.crc state dir round)

/-- Entry `k`'s STATE. -/
def State.roundState (s : State) (ledger k : Nat) : Nat := s.word (ledger + 0x40 + 16 * k) 8 % 8

/-- Entry `k`'s STATE written, LAND_CRC kept. -/
def State.putRoundState (s : State) (ledger k st : Nat) : State := s.ownWord (ledger + 0x40 + 16 * k) 8 st

/-- Entry `k`'s LAND_CRC. -/
abbrev State.landCrc (s : State) (ledger k : Nat) : Nat := s.word (ledger + 0x48 + 16 * k) 8

/-! ## A round -/

/-- The plan of a running re-shard, as it stands in memory. -/
def State.planAt (s : State) (a : Nat) : Option ReshardPlan :=
  ReshardPlan.parse (s.peek a (planSize (s.peek a 64)))

/-- The moves of the round that a re-shard runs. -/
def State.roundMoves (s : State) (r : ReshardRun) : List Move :=
  match s.planAt r.p.plan.toNat with
  | some p => if r.reverse then inverseMoves (p.round r.round) else p.round r.round
  | none => []

/-- The landing bytes that the round uses. -/
def State.roundLanding (s : State) (r : ReshardRun) : Nat :=
  if r.reverse then sumList (((s.roundMoves r).filter (fun m => !m.send)).map (·.len))
  else match s.planAt r.p.plan.toNat with
    | some p => match p.rounds[r.round]? with
      | some x => x.landing
      | none => 0
    | none => 0

/-- `s` with the running re-shard set. -/
def State.setReshard (s : State) (r : Option ReshardRun) : State := ({ s with coll := { s.coll with reshard := r } }).collStatus

/-- The re-shard's command ends. -/
def State.endReshard (s : State) (r : ReshardRun) (d : Done) : State := (s.setReshard none).finish r.cmd d

/-- It ends with ST_OK and the CRC-64 of the ledger's header. -/
def State.doneReshard (s : State) (r : ReshardRun) : State :=
  s.endReshard r (Done.ok (crc64 (s.hbm.read r.p.ledger.toNat 64)))

/-- RESHARD_FAILED (R365). -/
def State.reshardFailed (s : State) (c : CmdRef) : State := s.raise ⟨0x070B, 2, 7, 0, 0, false, some c⟩

/-- The header of a round's messages. -/
def roundHdr (id k : Nat) (ready : Bool) (off : Nat) : CollHdr :=
  ⟨BitVec.ofNat 32 id, 0, ready, false, 0, BitVec.ofNat 16 k, BitVec.ofNat 48 off⟩

/-- The round number as READY names it: an inverse round is told from a forward one. -/
def roundTag (r : ReshardRun) : Nat := (r.round + (if r.reverse then 2 ^ 15 else 0)) % 2 ^ 16

/-- PLAN_ID of the running plan. -/
def State.planId (s : State) (r : ReshardRun) : Nat := s.word (r.p.plan.toNat + 0x10) 8

/-- The READYs held for the round are taken. -/
def State.claimRound (s : State) (r : ReshardRun) : State :=
  let mine (e : EarlyReady) : Bool :=
    decide (e.cls = 2) && decide (e.matchId = s.planId r % 2 ^ 32) && decide (e.pdigest = roundTag r)
  let peers := (s.coll.early.filter mine).map (·.peer)
  let s := { s with coll := { s.coll with early := s.coll.early.filter (fun e => !mine e) } }
  s.setReshard (some { r with ready := r.ready ++ peers })

/-- A round starts: its entry LANDING unless it has landed already, and READY to each peer that sends in it. -/
def State.beginRound (s : State) (r : ReshardRun) : State :=
  let s := if r.landed then s else s.putRoundState r.p.ledger.toNat r.round 1
  let me := s.logical
  let peers := (movePeers (s.roundMoves r) false).filter (fun q => decide (q ≠ me))
  let (s, ok) := peers.foldl (fun (acc : State × Bool) q =>
    if acc.2 then acc.1.injectMsg q 1 1 (some r.cmd) (fun p =>
      .collective p ⟨BitVec.ofNat 24 q, BitVec.ofNat 24 me, 0#3⟩ (roundHdr (acc.1.planId r) (roundTag r) true 0) [])
    else acc) (s, true)
  if ok then s.claimRound r else s.endReshard r (Done.fail ST_FABRIC)

/-- The data of the round's SEND moves to a peer. -/
def State.roundData (s : State) (r : ReshardRun) (peer : Nat) : Act (List Byte) :=
  (actAll (fun s m => s.readAct m.addr m.len r.cmd) s ((s.roundMoves r).filter (fun m => m.send && decide (m.peer = peer)))).bind
    (fun s bs => (s, .ok (bs.flatMap id)))

/-- The data for one peer sent, in pieces of a message's limit. -/
def State.sendRound (s : State) (r : ReshardRun) (peer : Nat) : State :=
  match s.roundData r peer with
  | (s, .fail st) => s.endReshard r (Done.fail st)
  | (s, .ok bs) =>
    let me := s.logical
    let rt : Route := ⟨BitVec.ofNat 24 peer, BitVec.ofNat 24 me, 0#3⟩
    let r' : ReshardRun := { r with sent := r.sent ++ [⟨peer, 0, false, 0, []⟩] }
    let msgs := (pieces 65536 bs).zipIdx
    let (s, ok) := msgs.foldl (fun (acc : State × Bool) x =>
      if acc.2 then acc.1.injectMsg peer (flitsOf x.1.length) 1 (some r.cmd) (fun p =>
        .collective p rt (roundHdr (acc.1.planId r) (roundTag r) false (65536 * x.2)) x.1)
      else acc) (s, true)
    if ok then s.setReshard (some r') else s.endReshard r (Done.fail ST_FABRIC)

/-- A RECV move's data, once they are there: from its peer, or from the module's own SEND moves. -/
def ReshardRun.arrived (r : ReshardRun) (mine : List Byte) (me peer off n : Nat) : Option (List Byte) :=
  if peer = me then some ((mine.drop off).take n)
  else
    let ps := r.got.filter (fun q => decide (q.src = peer))
    (List.range n).mapM (fun i =>
      (ps.find? (fun q => decide (q.offset ≤ off + i) && decide (off + i < q.offset + q.data.length))).map
        (fun q => nth q.data (off + i - q.offset) 0))

/-- Once every RECV of the round has arrived: the data in the landing area, LAND_CRC and LANDED, and the module's own report for the
round (R363). -/
def State.landRound (s : State) (r : ReshardRun) : State :=
  let me := s.logical
  match s.roundData r me with
  | (s, .fail st) => s.endReshard r (Done.fail st)
  | (s, .ok mine) =>
    match (recvOffsets (s.roundMoves r)).mapM (fun x => (r.arrived mine me x.1.peer x.2 x.1.len).map (fun b => (x.1.landing, b))) with
    | none => s
    | some ws =>
      let base := r.p.landing.toNat
      let s := ws.foldl (fun s w => s.own (base + w.1) w.2) s
      let crc := crc64 (s.hbm.read base (s.roundLanding r))
      let s := (s.ownWord (r.p.ledger.toNat + 0x48 + 16 * r.round) 8 crc).putRoundState r.p.ledger.toNat r.round 2
      (s.setReshard (some { r with landed := true, got := [] })).noteReport ⟨8, plainReport 4 noPeriod r.round⟩

/-- A re-shard brought forward: SEND moves to the peers that are ready, and the landing. -/
def State.pumpReshard (s : State) : State :=
  match s.coll.reshard with
  | none => s
  | some r =>
    let me := s.logical
    let peers := ((movePeers (s.roundMoves r) true).filter (fun q => decide (q ≠ me) && r.ready.contains q &&
      !r.sent.any (fun x => decide (x.src = q))))
    let s := peers.foldl (fun s q => match s.coll.reshard with
      | some r => s.sendRound r q
      | none => s) s
    match s.coll.reshard with
    | some r => if r.landed then s else s.landRound r
    | none => s

/-- The copy of a landed round into place, in move order. -/
def State.copyRound (s : State) (r : ReshardRun) : State :=
  ((s.roundMoves r).filter (fun m => !m.send)).foldl (fun s m =>
    s.own m.addr (s.hbm.read (r.p.landing.toNat + m.landing) m.len)) s

/-- A round is over: the ledger's ROUND, and the next round or the end. Forward rounds rise, inverse ones fall; the last inverse
round leaves the ledger REVERSED, which ends the freeze of R403. -/
def State.afterRound (s : State) (r : ReshardRun) (p : ReshardPlan) : State :=
  let l := r.p.ledger.toNat
  let fresh (k : Nat) : ReshardRun := { r with round := k, ready := [], got := [], sent := [], landed := false }
  if r.reverse then
    if r.round = 0 then
      let s := s.putRound l p 2 1 0
      ({ s with coll := { s.coll with frozen := false } }).doneReshard r
    else (s.putRound l p 0 1 r.round).beginRound (fresh (r.round - 1))
  else
    let s := s.putRound l p 0 0 (r.round + 1)
    if r.round + 1 = p.rounds.length then s.doneReshard r else s.beginRound (fresh (r.round + 1))

/-- The GRANT of a round (R363): APPLYING, the copy, and APPLIED, or PENDING again for an inverse round. -/
def State.grantRound (s : State) (k : Nat) : State :=
  match s.coll.reshard with
  | none => s
  | some r => match s.planAt r.p.plan.toNat with
    | none => s
    | some p =>
      if r.landed ∧ r.round = k then
        let l := r.p.ledger.toNat
        let s := (s.putRoundState l k 3).copyRound r
        (s.putRoundState l k (if r.reverse then 0 else 4)).afterRound r p
      else s

/-! ## The sub-operations (R364, R365) -/

/-- The plan read and checked: its status where it fails. -/
def State.readPlan (s : State) (a : Nat) (c : CmdRef) : Act ReshardPlan :=
  match s.spanFault a 64 false with
  | some st => (s, .fail st)
  | none => (s.readAct a 64 c).bind (fun s hd =>
    if leAt hd 0 2 ≠ 1 ∨ leAt hd 4 4 = 0 ∨ 4096 < leAt hd 4 4 then (s, .fail ST_BAD_PARAM)
    else match s.spanFault a (planSize hd) false with
      | some st => (s, .fail st)
      | none => (s.readAct a (planSize hd) c).bind (fun s b =>
        if planCrc b ≠ leAt b 0x38 8 then (s, .fail ST_DIGEST)
        else match ReshardPlan.parse b with
          | some p => (s, .ok p)
          | none => (s, .fail ST_BAD_PARAM)))

/-- The ranges and the state that every sub-operation needs (R364). -/
def State.reshardGuard (s : State) (p : ReshardParams) (k : State → Body) : Body :=
  s.guard [(decide (p.ledger.toNat % 4096 ≠ 0 ∨ p.landing.toNat % 4096 ≠ 0), ST_BAD_PARAM), (!s.idle || s.coll.reshard.isSome, ST_NOT_READY),
    (!inHbm p.plan.toNat 64 || !inHbm p.landing.toNat p.landingLen.toNat, ST_BAD_PARAM)] k

/-- START. -/
def State.reshardStart (s : State) (p : ReshardParams) (c : CmdRef) : Body :=
  s.reshardGuard p (fun s => (s.readPlan p.plan.toNat c).body (fun s plan =>
    if p.landingLen.toNat < plan.landing || plan.clash || !inHbm p.ledger.toNat (64 + 16 * plan.rounds.length) then s.fail ST_BAD_PARAM
    else
      let l := p.ledger.toNat
      let s := (s.putRound l plan 0 0 0).own (l + 0x40) (List.replicate (16 * plan.rounds.length) 0)
      let s := { s with coll := { s.coll with frozen := true } }
      (s.beginRound ⟨c, p, 0, false, [], [], [], false, false⟩, none)))

/-- The ledger of a RESUME, REVERSE or COMMIT read and checked against the plan: an error in it is one in critical state 7 (R513). -/
def State.withRoundLedger (s : State) (p : ReshardParams) (c : CmdRef) (k : State → ReshardPlan → RoundLedger → Body) : Body :=
  s.reshardGuard p (fun s => (s.readPlan p.plan.toNat c).body (fun s plan =>
    if !inHbm p.ledger.toNat (64 + 16 * plan.rounds.length) then s.fail ST_BAD_PARAM
    else match s.readTable p.ledger.toNat (64 + 16 * plan.rounds.length) 7 c with
      | (s, .error st) => (if st = ST_ECC then s.reshardFailed c else s).fail st
      | (s, .bytes b) =>
        if leAt b 0x38 8 ≠ crc64 (b.take 0x38) ∨ leAt b 8 8 ≠ plan.id ∨ leAt b 0x10 8 ≠ plan.crc then s.fail ST_DIGEST
        else k s plan (RoundLedger.parse b)))

/-- The landing area of a round still bears its LAND_CRC. -/
def State.landingOk (s : State) (r : ReshardRun) : Bool :=
  decide (crc64 (s.hbm.read r.p.landing.toNat (s.roundLanding r)) = s.landCrc r.p.ledger.toNat r.round)

/-- LAND_CRC fails (R365). -/
def State.failLanding (s : State) (c : CmdRef) : Body := (s.reshardFailed c).fail ST_DIGEST

/-- The inverse rounds from round `k - 1` down (R365), or REVERSED where none is left. -/
def State.reverseFrom (s : State) (p : ReshardParams) (plan : ReshardPlan) (k : Nat) (c : CmdRef) : Body :=
  let s := { s with coll := { s.coll with frozen := true } }
  if k = 0 then
    let s := s.putRound p.ledger.toNat plan 2 1 0
    let s := { s with coll := { s.coll with frozen := false } }
    s.ok (crc64 (s.hbm.read p.ledger.toNat 64))
  else ((s.putRound p.ledger.toNat plan 0 1 k).beginRound ⟨c, p, k - 1, true, [], [], [], false, false⟩, none)

/-- REVERSE of a forward re-shard: the current round by its entry's state, then the APPLIED rounds in descending order. -/
def State.reverseForward (s : State) (p : ReshardParams) (plan : ReshardPlan) (k : Nat) (c : CmdRef) : Body :=
  let r : ReshardRun := ⟨c, p, k, false, [], [], [], true, false⟩
  if plan.rounds.length ≤ k then s.reverseFrom p plan plan.rounds.length c
  else if s.roundState p.ledger.toNat k = 3 then
    if s.landingOk r then ((s.copyRound r).putRoundState p.ledger.toNat k 4).reverseFrom p plan (k + 1) c
    else s.failLanding c
  else if s.roundState p.ledger.toNat k = 2 ∧ ¬ s.landingOk r then s.failLanding c
  else (s.putRoundState p.ledger.toNat k 0).reverseFrom p plan k c

/-- An interrupted inverse round taken up again: by its entry's state, as a forward one. -/
def State.resumeInverse (s : State) (p : ReshardParams) (plan : ReshardPlan) (k : Nat) (c : CmdRef) : Body :=
  let s := { s with coll := { s.coll with frozen := true } }
  if k = 0 then s.reverseFrom p plan 0 c
  else
    let r : ReshardRun := ⟨c, p, k - 1, true, [], [], [], true, false⟩
    let st := s.roundState p.ledger.toNat (k - 1)
    if (st = 2 ∨ st = 3) ∧ ¬ s.landingOk r then s.failLanding c
    else if st = 3 then ((((s.copyRound r).putRoundState p.ledger.toNat (k - 1) 0).setReshard (some r)).afterRound r plan, none)
    else if st = 2 then ((s.beginRound r).noteReport ⟨8, plainReport 4 noPeriod r.round⟩, none)
    else if st = 0 then s.reverseFrom p plan (k - 1) c
    else s.reverseFrom p plan k c

/-- RESUME (R365). -/
def State.reshardResume (s : State) (p : ReshardParams) (c : CmdRef) : Body :=
  s.withRoundLedger p c (fun s plan led =>
    let k := led.round
    let l := p.ledger.toNat
    let r : ReshardRun := ⟨c, p, k, false, [], [], [], true, false⟩
    if led.state ≠ 0 then s.ok (crc64 (s.hbm.read l 64))
    else if led.dir = 1 then s.resumeInverse p plan k c
    else
      let s := { s with coll := { s.coll with frozen := true } }
      if plan.rounds.length ≤ k then s.ok (crc64 (s.hbm.read l 64))
      else
        let st := s.roundState l k
        if (st = 2 ∨ st = 3) ∧ ¬ s.landingOk r then s.failLanding c
        else if st = 2 then ((s.beginRound r).noteReport ⟨8, plainReport 4 noPeriod k⟩, none)
        else if st = 3 then ((((s.copyRound r).putRoundState l k 4).setReshard (some r)).afterRound r plan, none)
        else (s.beginRound { r with landed := false }, none))

/-- REVERSE (R365). -/
def State.reshardReverse (s : State) (p : ReshardParams) (c : CmdRef) : Body :=
  s.withRoundLedger p c (fun s plan led =>
    if led.state ≠ 0 then s.ok (crc64 (s.hbm.read p.ledger.toNat 64))
    else if led.dir = 1 then s.resumeInverse p plan led.round c
    else s.reverseForward p plan led.round c)

/-- COMMIT (R364): every held shadow is then STALE (R403), which the shadow engine's own check finds. -/
def State.reshardCommit (s : State) (p : ReshardParams) (c : CmdRef) : Body :=
  s.withRoundLedger p c (fun s plan _ =>
    if !allBelow plan.rounds.length (fun k => decide (s.roundState p.ledger.toNat k = 4)) then s.fail ST_NOT_READY
    else
      let s := s.putRound p.ledger.toNat plan 1 0 plan.rounds.length
      let s := { s with coll := { s.coll with frozen := false } }
      s.ok (crc64 (s.hbm.read p.ledger.toNat 64)))

/-! ## Messages -/

/-- A message of a round: a READY for it or for a later one, or data, which a module that has landed discards. -/
def State.roundMessage (s : State) (port src : Nat) (m : CollHdr) (bs : List Byte) : State :=
  match s.coll.reshard with
  | some r =>
    let here := decide (m.matchId.toNat = s.planId r % 2 ^ 32) && decide (m.pdigest.toNat = roundTag r)
    let s := if here then s.usePort (some r.cmd) port else s
    if m.ready then
      if here && !r.ready.contains src then s.setReshard (some { r with ready := r.ready ++ [src] })
      else s.holdReady ⟨src, m.matchId.toNat, 2, m.pdigest.toNat⟩
    else if here && !r.landed then s.setReshard (some { r with got := r.got ++ [⟨src, 0, false, m.offset.toNat, bs⟩] })
    else s
  | none => if m.ready then s.holdReady ⟨src, m.matchId.toNat, 2, m.pdigest.toNat⟩ else s

end Sys2Proof.Machine
end

