-- ==== Sys2Proof/Machine/Shadow.lean ====
section
/-!
DEFINITION. Machine/Shadow.lean: the buddy relation, the SHADOW messages and SHADOW_SYNC (R368 to R386, R389, R390).

The spec gives the header of a SHADOW message (R386) and what each carries; how the data lie in HEADER, GLOSS, ACK and BIND messages, and
which of them are exchanged, is the model's choice (log entry 46).
-/
namespace Sys2Proof.Machine

/-! ## Messages -/

abbrev kData : Nat := 1
abbrev kRoot : Nat := 2
abbrev kHeader : Nat := 3
abbrev kScale : Nat := 4
abbrev kGloss : Nat := 5
abbrev kSeed : Nat := 6
abbrev kRestore : Nat := 7
abbrev kRepair : Nat := 8
abbrev kAck : Nat := 9
abbrev kBind : Nat := 10

/-- What the HEADER messages of the model are, by their ITEM; one of a root entry has PART 5 and its index as ITEM. -/
abbrev hForward : Nat := 0
abbrev hSeedBegin : Nat := 1
abbrev hLedger : Nat := 2
abbrev hSeedEnd : Nat := 3
abbrev hRepairEnd : Nat := 4
abbrev hRecordAsk : Nat := 5
abbrev hRecordEnd : Nat := 6
abbrev hImage : Nat := 7
abbrev hRestoreEnd : Nat := 8
abbrev hHomeEnd : Nat := 9

/-- A message to send: its key, its PERIOD_TAG and its data. -/
structure ShMsg where
  key  : ShKey
  tag  : Nat
  data : List Byte

/-- Every FP32 element has zero bits [15:0] (R377). -/
def packable (bs : List Byte) : Bool := (pieces 4 bs).all (fun w => decide (ofLE (w.take 2) = 0))

/-- Bits [31:16] of each element. -/
def packWords (bs : List Byte) : List Byte := (pieces 4 bs).flatMap (fun w => w.drop 2)

/-- The elements of packed data. -/
def unpackWords (bs : List Byte) : List Byte := (pieces 2 bs).flatMap (fun w => [0, 0] ++ w)

/-- A SHADOW message sent to a logical position. False: it is unroutable. -/
def State.sendShadow (s : State) (peer : Nat) (m : ShMsg) (c : Option CmdRef) : State × Bool :=
  let packed := decide (m.key.kind = kData) && decide (m.key.part = 0 ∨ m.key.part = 3) && packable m.data
  let bs := if packed then packWords m.data else m.data
  let h : ShadowHdr := ⟨BitVec.ofNat 8 m.key.kind, packed, BitVec.ofNat 16 m.key.item, BitVec.ofNat 16 m.tag, BitVec.ofNat 8 m.key.part,
    BitVec.ofNat 48 m.key.offset⟩
  s.injectMsg peer (flitsOf bs.length) 2 c (fun q => .shadow q ⟨BitVec.ofNat 24 peer, BitVec.ofNat 24 s.logical, 0#3⟩ h bs)

/-- The messages that carry `bs` as a part from `off` on, 65,536 bytes each. -/
def partMsgs (kind item part tag off : Nat) (bs : List Byte) : List ShMsg :=
  (pieces 65536 bs).zipIdx.map (fun p => ⟨⟨kind, item, part, off + 65536 * p.2⟩, tag, p.1⟩)

/-- A HEADER message of the model. -/
abbrev headerMsg (item tag off : Nat) (bs : List Byte) : ShMsg := ⟨⟨kHeader, item, 0, off⟩, tag, bs⟩

/-- What a HEADER message says of a root entry's slot: its fingerprint, whether it is valid, and PUB_PERIOD. -/
def rootMsg (e tag fprint : Nat) (valid : Bool) (pub : Nat) : ShMsg :=
  ⟨⟨kHeader, e, 5, 0⟩, tag, leBytes 8 fprint ++ leBytes 8 (flag valid) ++ leBytes 8 pub⟩

/-! ## Transfers -/

/-- `s` with a transfer replaced. -/
def State.setShRun (s : State) (r : ShadowRun) : State :=
  { s with sh := { s.sh with runs := s.sh.runs.map (fun x => if x.cmd = r.cmd then r else x) } }

/-- A transfer ends, and its command with it. -/
def State.endShRun (s : State) (r : ShadowRun) (d : Done) : State :=
  { s with sh := { s.sh with runs := s.sh.runs.filter (fun x => decide (x.cmd ≠ r.cmd)) } }.finish r.cmd d

/-- Messages of a transfer sent in order, each to be acknowledged; it stops at one that is unroutable. -/
def State.sendMsgs (s : State) (r : ShadowRun) (ms : List ShMsg) : State × ShadowRun × Bool :=
  ms.foldl (fun (acc : State × ShadowRun × Bool) m =>
    if acc.2.2 then
      match acc.1.sendShadow r.peer m (some r.cmd) with
      | (s, ok) => (s, { acc.2.1 with unacked := acc.2.1.unacked ++ [m.key] }, ok)
    else acc) (s, r, true)

/-- More messages of a running transfer; it ends with ST_FABRIC when one is unroutable. -/
def State.extendRun (s : State) (r : ShadowRun) (ms : List ShMsg) : State :=
  match s.sendMsgs r ms with
  | (s, r, true) => s.setShRun r
  | (s, r, false) => s.endShRun r (Done.fail ST_FABRIC)

/-- A transfer starts with its first messages; without any it ends at once. -/
def State.startShRun (s : State) (c : CmdRef) (task : ShTask) (peer : Nat) (ms : List ShMsg) : Body :=
  let r : ShadowRun := ⟨c, task, peer, [], [], false, false, (s.routeHops peer).getD 0⟩
  match s.sendMsgs r ms with
  | (s, _, false) => s.fail ST_FABRIC
  | (s, r, true) =>
    if ms.isEmpty then s.ok 0 else ({ s with sh := { s.sh with runs := s.sh.runs ++ [r] } }, none)

/-! ## The relation (R368 to R371) -/

/-- The home's relation is ACTIVE. -/
abbrev State.homeActive (s : State) : Bool := decide (s.get F.SH_STATUS_HOME_STATE = 2)

/-- The holder's relation is ACTIVE. -/
abbrev State.holdActive (s : State) : Bool := decide (2 ≤ s.get F.SH_STATUS_HOLD_STATE)

/-- The other end of each relation. -/
abbrev State.buddy (s : State) : Nat := s.get F.SH_BUDDY_BUDDY
abbrev State.homeOf (s : State) : Nat := s.get F.SH_HOME_HOME

/-- PERIOD_TAG of a message to `peer` (R386): the Period of the state that the message is about, the shadow's at its holder and the
committed one otherwise. -/
def State.tagFor (s : State) (peer : Nat) : Nat :=
  (if s.holds && decide (s.homeOf = peer) then s.shadowPeriod else s.get F.PC_COMMITTED_COMMITTED) % 2 ^ 16

/-- The message that names the module to its peer: `role` 1 from a home with its MODE, 2 from a holder with the shadow's STATE. `answer`: it
asks for none in return. -/
def State.sendBind (s : State) (peer role : Nat) (answer : Bool) : State :=
  let x := if role = 1 then s.get F.SH_STATUS_MODE else s.descState
  (s.sendShadow peer ⟨⟨kBind, role, flag answer, x⟩, s.tagFor peer, []⟩ none).1

/-- The holder reports its shadow's STATE to the home. -/
def State.report (s : State) : State := if s.holds && s.holdActive then s.sendBind s.homeOf 2 true else s

/-- The shadow's STATE changed, and reported. -/
def State.turnShadow (s : State) (state : Nat) : State := (s.putDescState state).report

/-- HOME installed: OVERRIDE in the ledger's header, the relation PENDING, the Gloss header, and BIND. -/
def State.installHome (s : State) (w : IdentWait) : State :=
  let old := s.word (s.shardLedger + 0x2C) 4
  let s := (s.ownWord (s.shardLedger + 0x2C) 4 (old / 2 * 2 + flag w.override)).sealHeader
  let s := ((s.put F.SH_BUDDY_BUDDY w.peer).put F.SH_BUDDY_VALID 1).put F.SH_STATUS_MODE (flag w.direct)
  let s := (s.put F.SH_STATUS_HOME_STATE 1).put F.SH_GLOSS_BASE w.addr
  let s := s.initGloss w.addr s.glossParts
  { s with sh := { s.sh with holderState := 0, forwarded := none, rooted := none } }.sendBind w.peer 1 false

/-- HOLD installed: the descriptor adopted or initialised, the relation PENDING, the shadow's Gloss header, and BIND. -/
def State.installHold (s : State) (w : IdentWait) : State :=
  let s := (s.put F.SH_HOME_HOME w.peer).put F.SH_HOME_VALID 1
  let s := (s.put F.SH_DESC_BASE w.addr).put F.SH_STATUS_HOLD_STATE 1
  let s := if w.attach then s.put F.SH_SHADOW_PERIOD_PERIOD (s.word (w.addr + 0x50) 6) else s.putDesc noPeriod 0 0 0
  let s := s.initGloss s.descGloss (s.onShadow 0 State.glossParts)
  let was := if w.attach && decide (s.descState = 5) then s.sh.frozenFrom else none
  { s with sh := { s.sh with roots := [], homeGloss := none, differing := [], frozenFrom := was, landed := none } }.sendBind w.peer 2 false

/-- A BIND message: the relation at this end becomes ACTIVE when it names the sender; one that is itself no answer is answered, so that an
end that is bound anew becomes ACTIVE too (R370, R398). The holder takes the home's MODE (log entry 47). -/
def State.boundBy (s : State) (src role x : Nat) (answer : Bool) : State :=
  if role = 1 then
    if s.holds ∧ s.homeOf = src then
      let s := s.put F.SH_STATUS_HOLD_STATE (s.descState + 2)
      let s := { s with sh := { s.sh with holdDirect := decide (x = 1) } }
      if answer then s else s.sendBind src 2 true
    else s
  else if s.on F.SH_BUDDY_VALID ∧ s.buddy = src then
    let s := s.put F.SH_STATUS_HOME_STATE 2
    let s := { s with sh := { s.sh with holderState := x } }
    if answer then s else s.sendBind src 1 true
  else s

/-- IDENT_REQ to the peer of a SET_BUDDY (R370). -/
def State.askIdent (s : State) (w : IdentWait) : State × Bool :=
  let s := { s with sh := { s.sh with idents := s.sh.idents ++ [w] } }
  s.injectMsg w.peer 1 0 (some w.cmd) (fun q => .identReq q ⟨BitVec.ofNat 24 w.peer, BitVec.ofNat 24 s.logical, 0#3⟩)

/-- `s` without a waiting SET_BUDDY. -/
def State.dropIdent (s : State) (c : CmdRef) : State :=
  { s with sh := { s.sh with idents := s.sh.idents.filter (fun w => decide (w.cmd ≠ c)) } }

/-- The feeds or the boards are shared, or a feed is unknown (R370). -/
def State.sharesBoard (s : State) (p : DiscoverPayload) : Bool :=
  decide (p.feedTag = s.pwr.straps.feedTag) || decide (p.feedTag = 0) || decide (s.pwr.straps.feedTag = 0) ||
    decide (p.boardId.toNat = s.get F.ZF_BOARD_ID_BOARD_ID)

/-- An IDENT_RSP for the waiting SET_BUDDY of that peer: the relation, or ST_BUDDY_REJECT; a PROMOTE ends with ST_OK either way
(R370, R398). -/
def State.identAnswered (s : State) (src : Nat) (p : DiscoverPayload) : State :=
  match s.sh.idents.find? (fun w => decide (w.peer = src)) with
  | none => s
  | some w =>
    let s := s.dropIdent w.cmd
    if s.sharesBoard p && !w.override then
      match w.promote with
      | some d => s.finish w.cmd ⟨ST_OK, 2, d⟩
      | none => s.finish w.cmd (Done.fail ST_BUDDY_REJECT)
    else
      let s := if w.home then s.installHome w else s.installHold w
      s.finish w.cmd (Done.ok (w.promote.getD 0))

/-- HOME's body. -/
def State.buddyHome (s : State) (override direct : Bool) (peer gloss : Nat) (c : CmdRef) : Body :=
  s.guard [(decide (gloss % 4096 ≠ 0) || decide (hbmEnd ≤ gloss), ST_BAD_PARAM), (!s.idle, ST_NOT_READY),
    (decide (peer = s.logical), ST_BAD_PARAM), (!s.tableAttached, ST_NOT_READY)] (fun s =>
      match s.askIdent ⟨c, true, override, direct, false, peer, gloss, none, false⟩ with
      | (s, true) => (s, none)
      | (s, false) => (s.dropIdent c).fail ST_FABRIC)

/-- The descriptor's fields are in range (R372, R373). -/
def State.descOk (s : State) (b table : List Byte) (attach : Bool) : Bool :=
  let imgs := pieces 128 table
  let es := imgs.map Param.of
  decide (leAt b 0 2 = 1 ∧ leAt b 2 2 / 16 = 0) && decide (2 ≤ leAt b 2 1 % 16 ∧ leAt b 2 1 % 16 ≤ 8) &&
    decide (leAt b 0x38 6 % 4096 = 0 ∧ leAt b 0x40 8 % 4096 = 0) && (!attach || decide (leAt b 0x68 4 ≤ 5)) &&
    decide (leAt b 0x38 6 + leAt b 2 1 % 16 * leAt b 0x40 8 ≤ hbmEnd) &&
    imgs.all s.shadowParamOk && firstsOk es &&
    decide (leAt b 0x10 6 + 0x80 + 16 * (es.length + sumList (es.map Param.blocks)) ≤ hbmEnd)

/-- HOLD's body. -/
def State.buddyHold (s : State) (override attach : Bool) (peer desc : Nat) (c : CmdRef) : Body :=
  s.guard [(decide (desc % 4096 ≠ 0) || !inHbm desc 256, ST_BAD_PARAM), (!s.idle, ST_NOT_READY),
    (decide (peer = s.logical), ST_BAD_PARAM)] (fun s =>
      s.readingTable desc 256 8 c (fun s b =>
        let n := leAt b 4 4
        let table := leAt b 8 6
        if attach && decide (crc64 (b.take 0xF8) ≠ leAt b 0xF8 8) then s.fail ST_DIGEST
        else if n = 0 ∨ 65535 < n ∨ ¬ inHbm table (128 * n) then s.fail ST_BAD_PARAM
        else s.readingTable table (128 * n) 8 c (fun s t =>
          if !s.descOk b t attach then s.fail ST_BAD_PARAM
          else match s.askIdent ⟨c, false, override, false, attach, peer, desc, none, false⟩ with
            | (s, true) => (s, none)
            | (s, false) => (s.dropIdent c).fail ST_FABRIC)))

/-- RELEASE_HOME. -/
def State.releaseHome (s : State) : State :=
  let s := ((s.put F.SH_STATUS_HOME_STATE 0).put F.SH_BUDDY_VALID 0).put F.SH_BUDDY_BUDDY 0
  { s with sh := { s.sh with holderState := 0 } }

/-- RELEASE_HOLD. -/
def State.releaseHold (s : State) : State :=
  let s := ((s.put F.SH_STATUS_HOLD_STATE 0).put F.SH_HOME_VALID 0).put F.SH_HOME_HOME 0
  { s with sh := { s.sh with roots := [], homeGloss := none, differing := [] } }

/-! ## FORWARD, ROOTS, CLOSE, SEED at the home (R375 to R377, R380, R384) -/

/-- The command stands at the wrong end: the module holds a shadow and has no buddy (R383). -/
abbrev State.notHome (s : State) : Bool := !s.on F.SH_BUDDY_VALID && s.holds

/-- The holder takes the Period's data. -/
abbrev State.holderTakes (s : State) : Bool := s.homeActive && decide (s.sh.holderState = 2)

/-- The job seed of the last PERIOD_ARM, or `SH_SEED` where none has come since a reset. -/
def State.jobSeed (s : State) : Nat := if s.pd.arm.isNone && s.pd.run.isNone then s.get F.SH_SEED_SEED else s.seed

/-- The cursor that the commit of the running Period sets (R163). -/
def State.nextCursor (s : State) : Nat :=
  match s.pd.run with
  | some r => (r.cursor + s.get F.SO_BATCH_GLOBAL) % 2 ^ 64
  | none => s.get F.PC_CURSOR_CURSOR

/-- The row list and count of a tensor: the count's 4 bytes, then the list. -/
def State.rowData (s : State) (e : Param) (c : CmdRef) : Act (List Byte) :=
  (s.readAct e.rowcount 4 c).bind (fun s nb =>
    let n := (max 0 (min (Int.ofNat e.rows) (toSigned 32 (ofLE nb)))).toNat
    (s.readAct e.rowlist (4 * n) c).bind (fun s bs => (s, .ok (nb ++ bs))))

/-- What FORWARD sends for one tensor. -/
def State.forwardTensor (s : State) (tag : Nat) (direct : Bool) (c : CmdRef) (t : Nat) (e : Param) (r : Rule) : Act (List ShMsg) :=
  (s.readAct e.grad (4 * e.count) c).bind (fun s g =>
  (s.maybe (if direct && r.vectors then some () else none) [] (fun s _ => s.readAct (s.vectorsNext t e) (4 * (e.rows + e.cols)) c)).bind (fun s v =>
  (s.maybe (if e.sparse then some () else none) [] (fun s _ => s.rowData e c)).bind (fun s l =>
    (s, .ok (partMsgs kData t 0 tag 0 g ++ partMsgs kData t 3 tag 0 v ++ partMsgs kData t 4 tag 0 l)))))

/-- FORWARD's header: Period, cursor after the commit, seed, RULES_DIGEST, LR_SCALE and BUDDY_OVERRIDE. -/
def State.forwardHeader (s : State) (n lr : Nat) : List Byte :=
  leBytes 8 n ++ leBytes 8 s.nextCursor ++ leBytes 8 s.jobSeed ++ leBytes 8 s.rulesDigest ++ leBytes 4 lr ++ leBytes 4 (flag s.ledOverride)

/-- FORWARD. -/
def State.forward (s : State) (lr : Nat) (c : CmdRef) : Body :=
  let n := s.currentPeriod
  s.guard [(s.notHome, ST_BAD_PARAM), (s.coll.frozen, ST_NOT_READY), (decide (s.sh.forwarded = some n), ST_BAD_PARAM)] (fun s =>
    let s := { s with sh := { s.sh with forwarded := some n } }
    if !s.holderTakes then (s, some ⟨ST_OK, 2, 0⟩)
    else
      let tag := n % 2 ^ 16
      let direct := s.on F.SH_STATUS_MODE
      (actAll (fun (s : State) (p : Param × Nat) => s.forwardTensor tag direct c p.2 p.1 (s.rule p.1.rule)) s s.params.zipIdx).body
        (fun s ms => s.startShRun c .forward s.buddy (ms.flatMap id ++ [headerMsg hForward tag 0 (s.forwardHeader n lr)])))

/-- What is sent of a slot of a root entry: its regions as messages of a kind, and its HEADER. -/
def State.rootMsgs (s : State) (kind tag e slot : Nat) (c : CmdRef) : Act (List ShMsg) :=
  let b := s.rootBytes e
  (actAll (fun (s : State) (p : Nat × Nat × Nat) => (s.readAct p.2.1 p.2.2 c).bind (fun s bs => (s, .ok (partMsgs kind e p.1 tag 0 bs))))
    s (s.rootParts b slot)).bind (fun s ms =>
      (s, .ok (ms.flatMap id ++ [rootMsg e tag (rtFprint b slot) (rtValid b slot) (leAt b 0x70 6)])))

/-- ROOTS. -/
def State.forwardRoots (s : State) (c : CmdRef) : Body :=
  let n := s.currentPeriod
  s.guard [(s.notHome, ST_BAD_PARAM), (s.coll.frozen, ST_NOT_READY), (decide (s.sh.rooted = some n), ST_BAD_PARAM)] (fun s =>
    let s := { s with sh := { s.sh with rooted := some n } }
    if !s.holderTakes then (s, some ⟨ST_OK, 2, 0⟩)
    else
      let es := s.rootEntries.filter (fun e => rtPublished (s.rootBytes e))
      (actAll (fun (s : State) e => s.rootMsgs kRoot (n % 2 ^ 16) e (rtCurrent (s.rootBytes e)) c) s es).body (fun s ms =>
        s.startShRun c .roots s.buddy (ms.flatMap id)))

/-- The Scale Ledger as messages; none without one. -/
def State.scaleMsgs (s : State) (tag : Nat) (c : CmdRef) : Act (List ShMsg) :=
  s.maybe s.ledger [] (fun s a => (s.readAct a.address (ledgerSize a.count) c).bind (fun s bs => (s, .ok (partMsgs kScale 0 0 tag 0 bs))))

/-- CLOSE goes on once the commit of its Period has closed: the home's records due, and the Scale Ledger. Where no holder is bound the
records are computed all the same, and the command carries DEGRADED (log entry 48). -/
def State.closeNow (s : State) (r : ShadowRun) (n : Nat) : State :=
  let base := s.get F.SH_GLOSS_BASE
  match s.computeGloss base n (s.glossDue base n) r.cmd with
  | (s, .fail st) => s.endShRun r (Done.fail st)
  | (s, .ok rs) =>
    if !s.homeActive then s.endShRun r ⟨ST_OK, 2, 0⟩
    else match s.scaleMsgs (n % 2 ^ 16) r.cmd with
      | (s, .fail st) => s.endShRun r (Done.fail st)
      | (s, .ok ms) =>
        s.extendRun { r with task := .close n true, peer := s.buddy } (ms ++ [⟨⟨kGloss, 0, 0, 0⟩, n % 2 ^ 16, glossBytes rs⟩])

/-- CLOSE. -/
def State.closeShadow (s : State) (c : CmdRef) : Body :=
  s.guard [(s.notHome, ST_BAD_PARAM), (s.coll.frozen, ST_NOT_READY)] (fun s =>
    let r : ShadowRun := ⟨c, .close s.currentPeriod false, s.buddy, [], [], false, false, (s.routeHops s.buddy).getD 0⟩
    ({ s with sh := { s.sh with runs := s.sh.runs ++ [r] } }, none))

/-- A waiting CLOSE whose Period has committed goes on. -/
def State.pumpClose (s : State) : State :=
  s.sh.runs.foldl (fun (s : State) r => match r.task with
    | .close n false => if s.get F.PC_COMMITTED_COMMITTED = n && s.uu.openCommit.isNone then s.closeNow r n else s
    | _ => s) s

/-- SEED: the holder is asked first; it refuses unless it is IDLE or HALTED. -/
def State.seedShadow (s : State) (c : CmdRef) : Body :=
  s.guard [(s.notHome, ST_BAD_PARAM), (!s.idle || s.coll.frozen || !s.homeActive || !s.tableAttached, ST_NOT_READY),
    (decide (s.ledPhase ≠ 0), ST_NOT_READY)] (fun s =>
      s.startShRun c (.seed false) s.buddy
        [headerMsg hSeedBegin (s.ledCommitted % 2 ^ 16) 0 (leBytes 8 s.ledCommitted ++ leBytes 8 (s.get F.PC_CURSOR_CURSOR) ++ leBytes 8 s.jobSeed)])

/-- The committed state of one tensor as messages of a kind. -/
def State.tensorMsgs (s : State) (kind tag : Nat) (c : CmdRef) (t : Nat) (e : Param) (r : Rule) : Act (List ShMsg) :=
  let rd (s : State) (part a n : Nat) : Act (List ShMsg) := (s.readAct a n c).bind (fun s bs => (s, .ok (partMsgs kind t part tag 0 bs)))
  (rd s 0 e.master (4 * e.count)).bind (fun s w => (rd s 1 e.plane e.count).bind (fun s x =>
  (s.maybe (if r.keeps then some () else none) [] (fun s _ => rd s 2 e.moment (r.momentBytes * e.count))).bind (fun s m =>
  (s.maybe (if r.vectors then some () else none) [] (fun s _ => rd s 3 (s.vectorsNow t e) (4 * (e.rows + e.cols)))).bind (fun s v =>
    (s, .ok (w ++ x ++ m ++ v))))))

/-- The whole committed state as messages of a kind: tensors, then root entries. -/
def State.stateMsgs (s : State) (kind : Nat) (c : CmdRef) : Act (List ShMsg) :=
  let tag := s.ledCommitted % 2 ^ 16
  (actAll (fun (s : State) (p : Param × Nat) => s.tensorMsgs kind tag c p.2 p.1 (s.rule p.1.rule)) s s.params.zipIdx).bind (fun s ts =>
    (actAll (fun (s : State) e => s.rootMsgs kind tag e (rtCommitted (s.rootBytes e)) c) s s.rootEntries).bind (fun s rs =>
      (s, .ok (ts.flatMap id ++ rs.flatMap id))))

/-- The ledger's header and tensor records as messages. -/
def State.ledgerMsgs (s : State) (c : CmdRef) : Act (List ShMsg) :=
  (s.readAct s.shardLedger (0x80 + 16 * s.uu.tensors) c).bind (fun s bs =>
    (s, .ok ((pieces 65536 bs).zipIdx.map (fun p => headerMsg hLedger (s.ledCommitted % 2 ^ 16) (65536 * p.2) p.1))))

/-- The holder has agreed: everything is sent, the ledger first, whose VCUR says which vector copy is in force (R384), and then the end. -/
def State.seedAll (s : State) (r : ShadowRun) : State :=
  let tag := s.ledCommitted % 2 ^ 16
  match (s.ledgerMsgs r.cmd).bind (fun s a => (s.stateMsgs kSeed r.cmd).bind (fun s b => (s.scaleMsgs tag r.cmd).bind (fun s d =>
      (s, .ok (a ++ b ++ d))))) with
  | (s, .fail st) => s.endShRun r (Done.fail st)
  | (s, .ok ms) => s.extendRun { r with task := .seed true } (ms ++ [headerMsg hSeedEnd tag 0 []])

/-! ## Landing at the holder (R374, R377, R384) -/

/-- A message acknowledged: its key, and a byte each of its KIND, the shadow's STATE and the status that refuses it (0: none), with what
the answer carries beyond. -/
def State.ack (s : State) (peer : Nat) (k : ShKey) (status : Nat) (extra : List Byte) : State :=
  (s.sendShadow peer ⟨⟨kAck, k.item, k.part, k.offset⟩, s.tagFor peer, leBytes 1 k.kind ++ leBytes 1 s.descState ++ leBytes 1 status ++ extra⟩ none).1

/-- Data written where they land; only then are they acknowledged. -/
def State.land (s : State) (peer : Nat) (k : ShKey) (addr : Nat) (bs : List Byte) : State :=
  match s.writeHbm addr bs none with
  | (s, none) => s.ack peer k 0 []
  | (s, some _) => s

/-- An entry of the shadow table. -/
def State.shadowParam (s : State) (t : Nat) : Param := Param.of (s.hbm.read (s.descTable + 128 * t) 128)

/-- A region of a slot of entry `e` of the shadow root table. -/
def State.shadowRegion (s : State) (e part : Nat) : Nat :=
  let b := s.onShadow 0 (fun v => v.rootBytes e)
  let slot := rtScratch b
  if part = 5 then rtRoot b slot else if part = 6 then rtAux b slot else rtAvg b slot

/-- Where a part of the shadow lies: for PART 0 to 3 the arrays of tensor `item`, for PART 5 to 7 the slot of root entry `item` that is not
committed; PART 3 is the vector copy in force, or the other for `next`. -/
def State.shadowPart (s : State) (item part : Nat) (next : Bool) : Option Nat :=
  if part ≤ 4 then
    let e := s.shadowParam item
    if s.descTensors ≤ item then none
    else match part with
      | 0 => some e.master
      | 1 => some e.plane
      | 2 => some e.moment
      | 3 => some (s.onShadow 0 (fun v => if next then v.vectorsNext item e else v.vectorsNow item e))
      | _ => none
  else if item < s.descRootCount ∧ part ≤ 7 then some (s.shadowRegion item part) else none

/-- DATA of the next Period (R374): the gradient and the row list go into its log slot, the vectors into the copy not in force. -/
def State.landData (s : State) (src : Nat) (k : ShKey) (bs : List Byte) : State :=
  let e := s.shadowParam k.item
  let slot := s.slotOf (nextPeriod s.shadowPeriod)
  if s.descTensors ≤ k.item then s
  else match k.part with
    | 0 => s.land src k (slot + e.grad + k.offset) bs
    | 3 => (match s.shadowPart k.item 3 true with | some a => s.land src k (a + k.offset) bs | none => s)
    | 4 =>
      if k.offset = 0 then (s.own (slot + e.rowcount) (bs.take 4)).land src k (slot + e.rowlist) (bs.drop 4)
      else s.land src k (slot + e.rowlist + k.offset - 4) bs
    | _ => s

/-- FORWARD's header: the slot's header, not VALID, with the cursor, the seed and BUDDY_OVERRIDE behind it (log entry 46). -/
def State.landHeader (s : State) (src : Nat) (k : ShKey) (bs : List Byte) : State :=
  let n := leAt bs 0 6
  let slot := s.slotOf n
  let s := { s with sh := { s.sh with landed := some n } }
  s.land src k slot (leBytes 8 n ++ leBytes 8 0 ++ leBytes 8 (leAt bs 0x20 4) ++ leBytes 8 (leAt bs 0x18 8) ++ leBytes 8 (leAt bs 8 8)
    ++ leBytes 8 (leAt bs 0x10 8) ++ leBytes 16 (leAt bs 0x24 4))

/-- The shadow root entry's fields for the slot that has landed: fingerprint, VALID cleared or set when the slot switches. -/
def State.landRootFields (s : State) (src : Nat) (k : ShKey) (bs : List Byte) : State :=
  let addr := s.descRoots + 128 * k.item
  let b := s.hbm.read addr 128
  let slot := rtScratch b
  let b := rtSetValid (overlay b (0x58 + 8 * slot) (bs.take 8)) slot (decide (s.descState = 1) && bit (leAt bs 8 8) 0)
  let b := if s.descState = 1 then rtSetPeriod b (leAt bs 16 6) else b
  let p := nextPeriod s.shadowPeriod
  let s := { s with sh := { s.sh with roots := s.sh.roots.filter (fun x => decide (x ≠ (p, k.item))) ++ [(p, k.item)] } }
  s.land src k addr (rtSeal b)

/-- A message of the next Period's FORWARD or ROOTS is taken while the shadow is CURRENT; otherwise it is refused. -/
def State.takesPeriod (s : State) (tag : Nat) : Bool := decide (s.descState = 2) && decide (nextPeriod s.shadowPeriod % 2 ^ 16 = tag)

/-- SEED's first message: the shadow is SEEDING, or the holder refuses (R384). -/
def State.seedBegin (s : State) (src : Nat) (k : ShKey) (bs : List Byte) : State :=
  if !s.idle || s.coll.frozen then s.ack src k ST_NOT_READY []
  else
    let s := s.putDesc (leAt bs 0 6) (leAt bs 16 8) (leAt bs 8 8) 1
    { s with sh := { s.sh with roots := [], homeGloss := none, landed := none } }.ack src k 0 []

/-- Every root entry's landed slot made COMMITTED and CURRENT. -/
def State.switchRoot (s : State) (e : Nat) (f : List Byte → List Byte) : State :=
  let addr := s.descRoots + 128 * e
  let b := s.hbm.read addr 128
  let k := rtScratch b
  s.own addr (rtSeal (f (rtSetFlags b k k (rtValid b 0) (rtValid b 1) false)))

/-- SEED's last message: the tags at the home's COMMITTED, the log slots and Gloss records invalid, and the shadow CURRENT. -/
def State.seedEnd (s : State) (src : Nat) (k : ShKey) : State :=
  let n := s.shadowPeriod
  let led := s.descLedger
  let tensors := s.descTensors
  let blocks := s.word (led + 8) 4
  let s := (List.range blocks).foldl (fun (s : State) b =>
    s.own (led + 0x80 + 16 * tensors + 16 * b) (leBytes 8 n ++ leBytes 8 n)) s
  let s := (List.range s.descW).foldl (fun (s : State) i => s.own (s.slotOf i + 6) (leBytes 2 0)) s
  let s := s.initGloss s.descGloss (s.onShadow 0 State.glossParts)
  let s := (s.sh.roots.map (·.2)).foldl (fun (s : State) e => s.switchRoot e id) s
  let s := { s with sh := { s.sh with roots := [], differing := [] } }
  (s.turnShadow 2).ack src k 0 []

/-! ## Gloss comparison at the holder (R389, R390) -/

/-- The component of a record, by the header of a table. -/
def State.glossComp (s : State) (base g : Nat) : Nat :=
  if g < s.word (base + 8) 4 then 0 else if g < s.word (base + 12) 4 then 1 else if g < s.word (base + 16) 4 then 2 else 3

/-- GLOSS_MISMATCH at an end: counted and raised. -/
def State.glossEvent (s : State) (g : Nat) (c : Option CmdRef) : State :=
  (s.bump F.SH_COUNTS_MISMATCH 1).raise ⟨0x0902, 2, 9, 0, g, false, c⟩

/-- Records that differ, in order: the shadow SUSPECT, the first one noted, the event, and the result to the home. -/
def State.glossDiffer (s : State) (gs : List Nat) (c : Option CmdRef) : State :=
  match gs with
  | [] => s
  | g :: _ =>
    let s := (s.put F.SH_MISMATCH_RECORD g).put F.SH_MISMATCH_COMPONENT (s.glossComp s.descGloss g)
    let s := { s with sh := { s.sh with differing := s.sh.differing ++ gs.filter (fun x => !s.sh.differing.contains x) } }
    let s := (s.turnShadow 4).glossEvent g c
    if s.holdActive then (s.sendShadow s.homeOf ⟨⟨kGloss, 2, 0, g⟩, s.tagFor s.homeOf, []⟩ none).1 else s

/-- Those of the home's records that the shadow's table has for the Period with another CRC. -/
def State.glossWrong (s : State) (n : Nat) (rs : List (Nat × Nat)) : List Nat :=
  let base := s.descGloss
  (rs.filter (fun p =>
    let a := base + 0x40 + 16 * p.1
    decide (s.word (a + 8) 6 = n) && bit (s.word (a + 14) 1) 0 && decide (s.word a 8 ≠ p.2))).map (·.1)

/-- Once both the home's records of a Period and the shadow's are there, they are compared. -/
def State.compareGloss (s : State) (c : Option CmdRef) : State :=
  match s.sh.homeGloss with
  | some (n, rs) =>
    if s.shadowPeriod = n ∧ s.descState ≠ 3 ∧ s.get F.SH_CTRL_GLOSS_K ≠ 0 then
      let s := { s with sh := { s.sh with homeGloss := none } }
      s.glossDiffer (s.glossWrong n rs) c
    else s
  | none => s

/-- What a halt before the grant leaves of Period `n` at the holder: its slot is not used, and the roots landed for it do not switch (R381). -/
def State.dropLanded (s : State) (n : Nat) : State :=
  { s with sh := { s.sh with
    roots := s.sh.roots.filter (fun x => decide (x.1 ≠ n)), landed := if s.sh.landed = some n then none else s.sh.landed } }

/-- What it leaves at the home: the Period's FORWARD and ROOTS may be given again (R376, R425). -/
def State.dropForwarded (s : State) (n : Nat) : State :=
  { s with sh := { s.sh with
    forwarded := if s.sh.forwarded = some n then none else s.sh.forwarded, rooted := if s.sh.rooted = some n then none else s.sh.rooted } }

/-- CLOSE's GLOSS message. A STALE shadow takes nothing of it. -/
def State.landGloss (s : State) (src : Nat) (k : ShKey) (tag : Nat) (bs : List Byte) : State :=
  let p := s.shadowPeriod
  let n := if p % 2 ^ 16 = tag then p else nextPeriod p
  let s := if s.descState = 3 then s else { s with sh := { s.sh with homeGloss := some (n, glossOf bs) } }
  (s.compareGloss none).ack src k 0 []

/-! ## REPLAY and RECOVER (R378, R379, R385) -/

/-- Step 6: the ledger closed, the slot VALID, PERIOD and CURSOR, and the Gloss records; within the view of slot `slot`. -/
def State.closeShadowLedger (s : State) (n : Nat) : State :=
  s.onShadow 0 (fun v => (((v.ownWord (v.shardLedger + 0x10) 6 n).ledPut n 0).sealHeader).leaveView s)

/-- The rest of step 6 and the end of the command: its result is the CRC-64 of the closed header. -/
def State.endReplay (s : State) (n : Nat) (c : CmdRef) : Body :=
  let s := s.closeShadowLedger n
  let slot := s.slotOf n
  let led := s.descLedger
  let s := s.own slot (leBytes 6 n ++ leBytes 2 1)
  let s := (s.putDesc n (s.descSeed) (s.word (led + 0x20) 8) s.descState)
  let base := s.descGloss
  let v := s.shadowView slot
  match v.computeGloss base n (v.glossDue base n) c with
  | (v, .fail st) => (v.leaveView s).fail st
  | (v, .ok _) =>
    let s := (v.leaveView s).compareGloss (some c)
    s.ok (crc64 (s.hbm.read led 0x40))

/-- Step 5: the vector groups and the blocks, within the view. -/
def State.replayBlocks (v : State) (n q lr : Nat) (c : CmdRef) : Act Unit :=
  (v.updCtxs n (v64 q) (v32 lr) c).bind (fun v xs => (v.headerGroup [targetField n 2] (some c)).bind (fun v _ =>
    (v.vectorGroups xs (fun _ _ => true) c).bind (fun v _ => v.applyUnits (allWork xs) c)))

/-- REPLAY of Period `n` begins with Q: it is kept in the slot, and the slot's SEED in the descriptor. -/
def State.beginReplay (s : State) (n q : Nat) (hd : List Byte) : State :=
  let s := s.ownWord (s.slotOf n + 8) 8 q
  s.putDesc s.shadowPeriod (leAt hd 0x28 8) s.descCursor s.descState

/-- Steps 2 to 6 of REPLAY for Period `n`, with Q and the slot's header. -/
def State.replaySteps (s : State) (w : ReplayWait) (n q : Nat) (hd : List Byte) : Body :=
  let c := w.cmd
  let slot := s.slotOf n
  let lr := leAt hd 0x10 4
  -- step 2
  let mine := (s.sh.roots.filter (fun x => decide (x.1 = n))).map (·.2)
  let s := mine.foldl (fun (s : State) e => s.switchRoot e (fun b => rtSetPeriod (rtSetValid b (rtCommitted b) true) n)) s
  let s := { s with sh := { s.sh with roots := s.sh.roots.filter (fun x => decide (x.1 ≠ n)) } }
  let draws := s.shadowDraws n
  let s := { s with sh := { s.sh with draws := draws } }
  let v := (s.shadowView slot).withDraws draws
  -- step 3
  match (v.readState false c).bind (fun v _ => v.headerGroup [targetField n 1, (0x20, leBytes 8 (leAt hd 0x20 8) ++ leBytes 4 lr ++
      leBytes 4 (leAt hd 0x30 4) ++ leBytes 8 q ++ leBytes 8 v.rulesDigest)] (some c)) with
  | (v, .fail st) => (v.leaveView s).failUpdate st c
  | (v, .ok _) =>
    -- step 4
    let pp : PrepareParams := ⟨w.p.scratch, w.p.scratchLen, w.p.clusterFirst, w.p.clusterCount⟩
    let (v, prep) : State × Option Done :=
      if s.sh.holdDirect then (v, some (Done.ok 0))
      else if !v.prepareOk pp then (v, some (Done.fail ST_BAD_PARAM))
      else v.prepare w.hdr pp c q
    match prep with
    | none => (v.leaveView s, none)
    | some d =>
      if d.status ≠ ST_OK then (v.leaveView s).fail d.status
      else
        -- step 5
        match v.replayBlocks n q lr c with
        | (v, .fail st) => (v.leaveView s).failUpdate st c
        | (v, .ok _) => (v.leaveView s).endReplay n c

/-- REPLAY of Period `n`, with Q. -/
def State.replayNow (s : State) (w : ReplayWait) (n q : Nat) : Body :=
  let hd := s.hbm.read (s.slotOf n) 64
  (s.beginReplay n q hd).replaySteps w n q hd

/-- The SCRATCH and clusters of a REPLAY in replay mode (R261). -/
def State.replayParamsOk (s : State) (p : ReplayParams) : Bool :=
  s.sh.holdDirect || (decide (p.scratch.toNat % 4096 = 0) && writable p.scratch.toNat p.scratchLen.toNat &&
    decide (1 ≤ p.clusterCount.toNat ∧ p.clusterFirst.toNat + p.clusterCount.toNat ≤ 256))

/-- REPLAY. Step 1 here; without Q it waits. -/
def State.replayShadow (s : State) (h : Hdr) (p : ReplayParams) (c : CmdRef) : Body :=
  let n := s.currentPeriod
  let slot := s.slotOf n
  s.guard [(!s.holds || !s.replayParamsOk p, ST_BAD_PARAM), (s.coll.frozen || decide (s.descState ≠ 2), ST_NOT_READY),
    (decide (nextPeriod s.shadowPeriod ≠ n) || decide (s.word slot 6 ≠ n) || decide (s.sh.landed ≠ some n), ST_NOT_READY)] (fun s =>
      match s.qOf n with
      | some q => s.replayNow ⟨c, h, p⟩ n q
      | none => ({ s with sh := { s.sh with replay := some ⟨c, h, p⟩ } }, none))

/-- A REPLAY that waited for Q goes on. -/
def State.pumpReplay (s : State) : State :=
  match s.sh.replay, s.qOf s.currentPeriod with
  | some w, some q =>
    match ({ s with sh := { s.sh with replay := none } }).replayNow w s.currentPeriod q with
    | (s, some d) => s.finish w.cmd d
    | (s, none) => s
  | _, _ => s

/-- RECOVER: the table of R269 on the shadow ledger, and step 6, of which a ledger found CLOSED still lacks what follows the close: it is
finished where the slot is that of the ledger's Period. -/
def State.recoverShadow (s : State) (p : ReplayParams) (c : CmdRef) : Body :=
  s.guard [(!s.holds || !s.replayParamsOk p, ST_BAD_PARAM), (!s.idle || s.coll.frozen || decide (s.descState = 3), ST_NOT_READY)] (fun s =>
    match s.readTable s.descLedger 0x48 6 c with
    | (s, .error st) => s.fail st
    | (s, .bytes _) =>
      let v := s.shadowView 0
      let n := v.ledTarget
      if v.ledPhase = 1 ∨ ¬ v.ledSealed ∨ v.ledRules ≠ v.rulesDigest then
        (if v.ledPhase = 1 then s.turnShadow 3 else s).fail ST_DIGEST
      else if v.ledPhase = 0 then
        if s.word (s.slotOf n) 6 = n then s.endReplay n c else s.ok (crc64 (s.hbm.read s.descLedger 0x40))
      else
        match ((s.shadowView (s.slotOf n)).withDraws s.sh.draws).rollForward c with
        | (v, .fail st) => (v.leaveView s).failUpdate st c
        | (v, .ok false) => (v.leaveView s).fail ST_DIGEST
        | (v, .ok true) => (v.leaveView s).endReplay n c)

/-! ## DONE (R382), and the freeze of R403 -/

/-- A holder that reports DONE for Period `n` with its shadow behind: STALE. -/
def State.staleAtDone (s : State) (n : Nat) : State :=
  if s.holds && periodBelow s.shadowPeriod n then
    (s.turnShadow 3).raise (Ev.plain 0x0901 2 9 0)
  else s

/-- The held shadow FROZEN while a re-shard is open, and as it was once it has been reversed (log entry 49). -/
def State.pumpFreeze (s : State) : State :=
  if !s.holds then s
  else if s.coll.frozen && decide (s.descState ≠ 5) then
    ({ s with sh := { s.sh with frozenFrom := some s.descState } }).turnShadow 5
  else if !s.coll.frozen && decide (s.descState = 5) then
    let st := s.sh.frozenFrom.getD 3
    ({ s with sh := { s.sh with frozenFrom := none } }).turnShadow st
  else s

/-- The re-shard has committed: a held shadow is STALE (R403). -/
def State.staleByReshard (s : State) : State := if s.holds then s.turnShadow 3 else s

end Sys2Proof.Machine
end

