-- ==== Sys2Proof/Machine/Arbitrate.lean ====
section
/-!
DEFINITION. Machine/Arbitrate.lean: DIGEST_COMPARE (R391 to R394): RANGE, RECOPY and ARBITRATE, at both ends.
-/
namespace Sys2Proof.Machine

/-! ## RANGE and RECOPY at the home (R391) -/

/-- The records that a RANGE or RECOPY names are records of the home's table. -/
def State.recordsOk (s : State) (record count : Nat) : Bool :=
  decide (count ≠ 0) && decide (record + count ≤ s.glossCount (s.get F.SH_GLOSS_BASE))

/-- What both check before they start. -/
def State.compareGuard (s : State) (record count : Nat) (k : State → Body) : Body :=
  s.guard [(s.notHome, ST_BAD_PARAM), (!s.idle || s.coll.frozen || !s.homeActive, ST_NOT_READY),
    (!s.recordsOk record count, ST_BAD_PARAM)] k

/-- The numbers of `count` records from `record` on. -/
abbrev recordList (record count : Nat) : List Nat := (List.range count).map (fun i => record + i)

/-- RANGE: the home's records computed and sent; the holder compares. -/
def State.digestRange (s : State) (record count : Nat) (c : CmdRef) : Body :=
  s.compareGuard record count (fun s =>
    (s.computeGloss (s.get F.SH_GLOSS_BASE) (s.get F.PC_COMMITTED_COMMITTED) (recordList record count) c).body (fun s rs =>
      s.startShRun c (.range record count) s.buddy
        ((pieces 5461 rs).zipIdx.map (fun p => ⟨⟨kGloss, 1, 0, 5461 * p.2⟩, s.tagFor s.buddy, glossBytes p.1⟩))))

/-- The bytes of a span as messages from one end: REPAIR from the home (`role` 1), RESTORE from the holder (2). -/
def repairMsgs (x : Span) (role tag : Nat) (bs : List Byte) : List ShMsg :=
  partMsgs (if role = 1 then kRepair else kRestore) x.item x.part tag x.off bs

/-- The records' bytes as REPAIR messages. -/
def State.recordMsgs (s : State) (gs : List Nat) (c : CmdRef) : Act (List ShMsg) :=
  let tag := s.get F.PC_COMMITTED_COMMITTED % 2 ^ 16
  let recs := s.glossRecs
  let spans := gs.flatMap (fun g => (nth recs g ⟨0, []⟩).spans)
  (actAll (fun (s : State) (x : Span) => (s.readAct x.addr x.len c).bind (fun s bs => (s, .ok (repairMsgs x 1 tag bs)))) s spans).bind
    (fun s ms => (s, .ok (ms.flatMap id)))

/-- RECOPY: the home's data for the records, and the end. -/
def State.digestRecopy (s : State) (record count : Nat) (c : CmdRef) : Body :=
  s.compareGuard record count (fun s =>
    (s.recordMsgs (recordList record count) c).body (fun s ms =>
      s.startShRun c .recopy s.buddy (ms ++ [headerMsg hRepairEnd (s.tagFor s.buddy) 0 (leBytes 4 record ++ leBytes 4 count)])))

/-- RANGE's records reach the holder: they are compared with the shadow's, computed now; the answer carries the number that differ and
the first. -/
def State.rangeAtHolder (s : State) (src : Nat) (k : ShKey) (bs : List Byte) : State :=
  if !s.idle || s.coll.frozen || decide (s.descState = 3) then s.ack src k ST_NOT_READY []
  else
    let rs := glossOf bs
    let v := s.shadowView 0
    match v.computeGloss s.descGloss s.shadowPeriod (rs.map (·.1)) noCmd with
    | (v, .fail st) => (v.leaveView s).ack src k st []
    | (v, .ok _) =>
      let s := v.leaveView s
      let wrong := s.glossWrong s.shadowPeriod rs
      (s.glossDiffer wrong none).ack src k 0 (leBytes 4 wrong.length ++ leBytes 4 (wrong.headD 0xFFFFFFFF))

/-- The result digest of a RANGE, from the answers kept: the number that differ, and the lowest record. -/
def rangeResult (got : List ShPiece) : Nat :=
  let n := sumList (got.map (fun p => leAt p.data 0 4))
  let first := got.foldl (fun m p => min m (leAt p.data 4 4)) 0xFFFFFFFF
  n % 2 ^ 32 + first * 2 ^ 32

/-! ## Repairs landing -/

/-- Where a part of the shadow's committed state lies. -/
def State.shadowHome (s : State) (item part : Nat) : Option Nat :=
  if part ≤ 4 then s.shadowPart item part false
  else if item < s.descRootCount ∧ part ≤ 7 then
    let b := s.hbm.read (s.descRoots + 128 * item) 128
    let slot := rtCommitted b
    some (if part = 5 then rtRoot b slot else if part = 6 then rtAux b slot else rtAvg b slot)
  else none

/-- Records of the shadow recomputed after a repair; STATE returns to CURRENT when no other record is known to differ. -/
def State.repaired (s : State) (gs : List Nat) : State :=
  let v := s.shadowView 0
  match v.computeGloss s.descGloss s.shadowPeriod gs noCmd with
  | (v, _) =>
    let s := v.leaveView s
    let s := { s with sh := { s.sh with differing := s.sh.differing.filter (fun g => !gs.contains g) } }
    if s.descState = 4 ∧ s.sh.differing.isEmpty then s.turnShadow 2 else s

/-- A running ARBITRATE whose home is `src`. -/
def State.arbitrating (s : State) (src : Nat) : Option ShadowRun :=
  s.sh.runs.find? (fun r => decide (r.peer = src) && (match r.task with | .arbitrate _ _ _ _ => true | _ => false))

/-- Data of a repair: at the holder (`role` 1) they are kept for an ARBITRATE or written to the shadow, which refuses them when it is STALE
(R382); at the home they are written to the shard. -/
def State.landRepair (s : State) (src : Nat) (k : ShKey) (role : Nat) (bs : List Byte) : State :=
  if role = 1 then
    match s.arbitrating src with
    | some r => s.setShRun { r with got := r.got ++ [⟨k, bs⟩] }
    | none =>
      if !s.idle || s.coll.frozen || decide (s.descState = 3) then s.ack src k ST_NOT_READY []
      else match s.shadowHome k.item k.part with
        | some a => s.land src k (a + k.offset) bs
        | none => s
  else if !s.idle then s.ack src k ST_NOT_READY []
  else if k.item < s.uu.tensors ∧ k.part ≤ 2 then
    let e := nth s.params k.item (Param.of [])
    s.land src k ((if k.part = 0 then e.master else if k.part = 1 then e.plane else e.moment) + k.offset) bs
  else s

/-- The working copy of elements `lo` to `lo + n - 1` of a tensor formed from its master (R254). -/
def State.workFrom (s : State) (e : Param) (lo n : Nat) : State :=
  if e.work = 0 then s
  else
    let ws := (pieces 4 (s.hbm.read (e.master + 4 * lo) (4 * n))).map ofLE
    let xs := s.hbm.read (e.plane + lo) n
    let out := (ws.zip xs).flatMap (fun p => leBytes 2 (Fmt.bf16.convert .rne .inf (Fmt.m40.decode (m40Join p.1 p.2.toNat))).1)
    s.own (e.work + 2 * lo) out

/-- The elements that a MASTER or MOMENT record covers: tensor, first and how many; none for another record (R392, R394). -/
def State.recordElems (s : State) (g : Nat) : Option (Nat × Nat × Nat) :=
  match (nth s.glossRecs g ⟨4, []⟩).spans with
  | x :: _ =>
    if x.part = 0 then some (x.item, x.off / 4, x.len / 4)
    else if x.part = 2 then
      let e := nth s.params x.item (Param.of [])
      let b := (s.rule e.rule).momentBytes
      some (x.item, x.off / b, x.len / b)
    else none
  | [] => none

/-- The home's own records computed anew, where it has a Gloss table (R392). -/
def State.homeGlossNow (s : State) (gs : List Nat) : State :=
  let base := s.get F.SH_GLOSS_BASE
  (s.computeGloss base (s.get F.PC_COMMITTED_COMMITTED) (gs.filter (fun g => decide (g < s.glossCount base))) noCmd).1

/-- The end of a repair: at the holder the records are recomputed; at the home WORK follows the master and the record is recomputed. -/
def State.repairEnd (s : State) (src : Nat) (k : ShKey) (role : Nat) (bs : List Byte) : State :=
  let gs := recordList (leAt bs 0 4) (leAt bs 4 4)
  if !s.idle || (decide (role = 1) && decide (s.descState = 3)) then s.ack src k ST_NOT_READY []
  else if role = 1 then (s.repaired gs).ack src k 0 []
  else
    let s := gs.foldl (fun (s : State) g => match s.recordElems g with
      | some (t, lo, n) => s.workFrom (nth s.params t (Param.of [])) lo n
      | none => s) s
    (s.homeGlossNow gs).ack src k 0 []

/-- The home is asked for its data of a record (R392): it computes its record, which an ARBITRATE is to leave current at both ends, and
answers with the data, or refuses unless it is IDLE or HALTED. -/
def State.recordAsked (s : State) (src : Nat) (k : ShKey) (bs : List Byte) : State :=
  if !s.idle then s.ack src k ST_NOT_READY []
  else
    let g := leAt bs 0 4
    match s.recordMsgs [g] noCmd with
    | (s, .fail st) => s.ack src k st []
    | (s, .ok ms) =>
      let s := s.homeGlossNow [g]
      let s := ms.foldl (fun (s : State) m => (s.sendShadow src m none).1) s
      let s := (s.sendShadow src (headerMsg hRecordEnd (s.tagFor src) 0 []) none).1
      s.ack src k 0 []

/-! ## ARBITRATE (R392, R393) -/

/-- The words, plane bytes and moment of a record's elements. -/
structure ArbData where
  words  : List Byte
  plane  : List Byte
  moment : List Byte

/-- The anchor (R391, R401): its Period, and the data of elements `lo` to `lo + n - 1` of tensor `t`; a status where it fails. -/
def State.anchorData (s : State) (anchorCopy : Bool) (a record t lo n : Nat) (e : Param) (r : Rule) (c : CmdRef) : Act (Nat × ArbData) :=
  let mb := if r.keeps then r.momentBytes else 0
  if anchorCopy then
    (s.readAct a (64 + (5 + mb) * n) c).bind (fun s b =>
      let d := b.drop 64
      if leAt b 8 4 ≠ record then (s, .fail ST_BAD_PARAM)
      else if leAt b 0x38 8 ≠ crc64 d then (s, .fail ST_DIVERGED)
      else (s, .ok (leAt b 0 6, ⟨d.take (4 * n), (d.drop (4 * n)).take n, d.drop (5 * n)⟩)))
  else
    (s.readAct a 128 c).bind (fun s h =>
      let dirs := leAt h 4 4
      (s.readAct (a + 128) (32 * dirs) c).bind (fun s dir =>
        let entries := (List.range dirs).map (fun i => (dir.drop (32 * i)).take 32)
        if leAt h 0x78 8 ≠ crc64 (h.take 0x78 ++ dir) then (s, .fail ST_DIVERGED)
        else match entries.find? (fun d => decide (leAt d 0 1 = 2 ∧ leAt d 2 2 = t)) with
          | none => (s, .fail ST_BAD_PARAM)
          | some d =>
            let len := leAt d 0x10 8
            if bit (leAt h 0x30 8) 1 || decide (len < 128 + (5 + mb) * e.count) then (s, .fail ST_BAD_PARAM)
            else
              (s.readAct (a + leAt d 8 8) len c).bind (fun s b =>
                (s.readAct (a + leAt d 0x18 8) (8 * cdiv len mebi) c).bind (fun s crcs =>
                  if (pieces mebi b).map crc64 ≠ (pieces 8 crcs).map ofLE then (s, .fail ST_DIVERGED)
                  else
                    let at_ (o m : Nat) : List Byte := (b.drop (128 + o)).take m
                    (s, .ok (leAt h 0x10 6, ⟨at_ (4 * lo) (4 * n), at_ (4 * e.count + lo) n, at_ (5 * e.count + mb * lo) (mb * n)⟩))))))

/-- One Period of the recomputation (R392), from its log slot, within the view of that slot. -/
def State.arbPeriod (v : State) (p t lo n : Nat) (x : ArbData) (c : CmdRef) : Act ArbData :=
  let e := nth v.params t (Param.of [])
  let r := v.rule e.rule
  let hd := v.hbm.read v.uu.slotBase 64
  let q := v64 (leAt hd 8 8)
  let lr := v32 (leAt hd 0x10 4)
  let skip := !q.isFinite
  (v.maybe (if skip then none else some ()) (fun _ => false) (fun v _ => v.updatedRows e c)).bind (fun v rows =>
    let u : UpdCtx := ⟨p, e, r, clipScale r q, round32 ((Val.ofInt 1).sub r.beta1), round32 (r.lr.mul lr), rows, skip⟩
    (v.readSpan .fp32 e.grad lo n c).bind (fun v g =>
      let f := r.fmt
      let ms := f.unpack x.moment n
      let ws := (pieces 4 x.words).map ofLE
      let one (i : Nat) : Nat × Byte × Nat :=
        let w := nth ws i 0
        let px := nth x.plane i 0
        let m := nth ms i 0
        if skip || r.code == 0 || !rows ((lo + i) / e.cols) then (w, px, m)
        else
          let d := u.d (v32 (nth g i 0))
          let m' := if r.keeps then v.storeMoment u (lo + i) (u.moment (f.decode m) d) else m
          let new := u.weight (v32 w) (Fmt.m40.decode (m40Join w px.toNat)) (u.step (f.decode m') d)
          (new / 256, BitVec.ofNat 8 (m40Ext new), m')
      let out := (List.range n).map one
      (v, .ok ⟨out.flatMap (fun o => leBytes 4 o.1), out.map (·.2.1), if r.keeps then f.pack (out.map (·.2.2)) else []⟩)))

/-- The recomputation over Periods `p` to `p + k - 1`. -/
def State.arbRun (s : State) (t lo n : Nat) (c : CmdRef) : Nat → Nat → ArbData → Act ArbData
  | 0, _, x => (s, .ok x)
  | k + 1, p, x =>
    let v := s.shadowView (s.slotOf p)
    match (v.withDraws (s.shadowDraws p)).arbPeriod p t lo n x c with
    | (v, .fail st) => (v.leaveView s, .fail st)
    | (v, .ok x) => (v.leaveView s).arbRun t lo n c k (p + 1) x

/-- A log slot holds Period `p`, VALID, under the rules now defined. -/
def State.slotGood (s : State) (p : Nat) : Bool :=
  let b := s.hbm.read (s.slotOf p) 64
  decide (leAt b 0 6 = p) && bit (leAt b 6 1) 0 && decide (leAt b 0x18 8 = s.rulesDigest)

/-- The recomputed data of a record's elements, or the status that ends the command. -/
def State.recompute (s : State) (record : Nat) (anchorCopy : Bool) (anchor : Nat) (c : CmdRef) : Act ArbData :=
  match s.onShadow 0 (fun v => v.recordElems record) with
  | none => (s, .fail ST_BAD_PARAM)
  | some (t, lo, n) =>
    let e := s.shadowParam t
    (s.anchorData anchorCopy anchor record t lo n e (s.rule e.rule) c).bind (fun s a =>
      let now := s.shadowPeriod
      if now < a.1 ∨ now = noPeriod ∨ s.descW < now - a.1 then (s, .fail ST_DIVERGED)
      else if !(List.range (now - a.1)).all (fun i => s.slotGood (a.1 + 1 + i)) then (s, .fail ST_DIVERGED)
      else s.arbRun t lo n c (now - a.1) (a.1 + 1) a.2)

/-- The bytes of a record within the data of its elements. -/
def ArbData.record (x : ArbData) (comp : Nat) : List Byte := if comp = 0 then x.words ++ x.plane else x.moment

/-- SHADOW_DIVERGED, and ST_DIVERGED. -/
def State.diverged (s : State) (c : CmdRef) : State := s.raise ⟨0x0904, 3, 9, 0, 0, false, some c⟩

/-- ARBITRATE starts: what can be told without the home first, then the home is asked for its data. -/
def State.arbitrate (s : State) (anchorCopy : Bool) (record anchor : Nat) (c : CmdRef) : Body :=
  s.guard [(!s.holds, ST_BAD_PARAM), (!s.idle || s.coll.frozen || !s.holdActive || decide (s.descState = 3), ST_NOT_READY)] (fun s =>
    match s.recompute record anchorCopy anchor c with
    | (s, .fail st) => (if st = ST_DIVERGED then s.diverged c else s).fail st
    | (s, .ok _) => s.startShRun c (.arbitrate record anchorCopy anchor 0) s.homeOf [headerMsg hRecordAsk (s.tagFor s.homeOf) 0 (leBytes 4 record)])

/-- The end of a repair by ARBITRATE: counted and raised. -/
def State.arbitrated (s : State) (record : Nat) (c : CmdRef) : State :=
  (s.bump F.SH_COUNTS_ARBITRATED 1).raise ⟨0x0903, 1, 9, 0, record, false, some c⟩

/-- A span's part of the recomputed data. -/
def ArbData.part (x : ArbData) (part : Nat) : List Byte := if part = 0 then x.words else if part = 1 then x.plane else x.moment

/-- All of the home's data are there: the outcome of R392. -/
def State.arbDecide (s : State) (r : ShadowRun) (record : Nat) (anchorCopy : Bool) (anchor : Nat) : State :=
  let c := r.cmd
  match s.recompute record anchorCopy anchor c with
  | (s, .fail st) => (if st = ST_DIVERGED then s.diverged c else s).endShRun r (Done.fail st)
  | (s, .ok x) =>
    let rec_ := s.onShadow 0 (fun v => nth v.glossRecs record ⟨0, []⟩)
    let h := crc64 (x.record rec_.comp)
    let home := crc64 (r.got.flatMap (·.data))
    match s.readRecord rec_ c with
    | (s, .fail st) => s.endShRun r (Done.fail st)
    | (s, .ok bs) =>
      let v := crc64 bs
      if h = home ∧ h = v then s.endShRun r (Done.ok 0)
      else if h = home then
        let s := r.got.foldl (fun (s : State) p => match s.shadowHome p.key.item p.key.part with
          | some a => s.own (a + p.key.offset) p.data
          | none => s) s
        ((s.repaired [record]).arbitrated record c).endShRun r (Done.ok 2)
      else
        match s.onShadow 0 (fun v => v.recordElems record) with
        | none => s.endShRun r (Done.fail ST_BAD_PARAM)
        | some (t, lo, _) =>
          let e := s.shadowParam t
          let rule := s.rule e.rule
          let prepared := decide (4 ≤ rule.code) && !s.sh.holdDirect
          if h = v ∧ !prepared then
            let mb := rule.momentBytes
            let spans : List (Span × List Byte) := [(⟨0, t, 4 * lo, 0, 0⟩, x.words), (⟨1, t, lo, 0, 0⟩, x.plane), (⟨2, t, mb * lo, 0, 0⟩, x.moment)]
            let ms := spans.flatMap (fun p => repairMsgs p.1 2 (s.tagFor s.homeOf) p.2)
            s.extendRun { r with task := .arbitrate record anchorCopy anchor 1 }
              (ms ++ [headerMsg hHomeEnd (s.tagFor s.homeOf) 0 (leBytes 4 record ++ leBytes 4 1)])
          else (s.diverged c).endShRun r (Done.fail ST_DIVERGED)

/-- The home's data for an ARBITRATE are complete. -/
def State.recordEnded (s : State) (src : Nat) : State :=
  match s.arbitrating src with
  | some r => (match r.task with
    | .arbitrate record k anchor _ => s.arbDecide r record k anchor
    | _ => s)
  | none => s

end Sys2Proof.Machine
end

