-- ==== Sys2Proof/Machine/Restore.lean ====
section
/-!
DEFINITION. Machine/Restore.lean: RESTORE_FROM_SHADOW and PROMOTE (R395 to R398), and what the module does with each SHADOW message. How a
holder serves a restore is the model's choice (log entry 50).
-/
namespace Sys2Proof.Machine

/-! ## At the holder -/

/-- What the holder tells of its shadow first: the length of this image, PERIOD, CURSOR, SEED, BUDDY_OVERRIDE and MODE, ROOT_COUNT and
TENSORS, then for each tensor its table entry and its rule record. -/
def State.restoreImage (s : State) : List Byte :=
  let n := s.descTensors
  let isOver := s.word (s.descLedger + 0x2C) 4 % 2
  let head := leBytes 8 (48 + 192 * n) ++ leBytes 8 s.shadowPeriod ++ leBytes 8 s.descCursor ++ leBytes 8 s.descSeed
    ++ leBytes 8 (isOver + 2 * flag s.sh.holdDirect) ++ leBytes 4 s.descRootCount ++ leBytes 4 n
  head ++ (List.range n).flatMap (fun t =>
    let b := s.hbm.read (s.descTable + 128 * t) 128
    b ++ s.ruleBytes (leAt b 0 1))

/-- The copy of the Scale Ledger that the holder keeps. -/
def State.shadowScale (s : State) : List Byte := s.hbm.read s.descScale s.descScaleBytes

/-- A request to restore: served, or refused (R395). -/
def State.serveRestore (s : State) (src : Nat) (k : ShKey) (force : Bool) : State :=
  let good := s.holds && decide (s.homeOf = src) && s.idle && !s.coll.frozen && (decide (s.descState = 2) || (force && decide (s.descState = 4)))
  if !good then s.ack src k ST_NOT_READY []
  else
    let v := s.shadowView 0
    match (v.stateMsgs kRestore noCmd).bind (fun v a => (v.ledgerMsgs noCmd).bind (fun v b => (v, .ok (a ++ b)))) with
    | (v, .fail st) => (v.leaveView s).ack src k st []
    | (v, .ok ms) =>
      let s := (v.leaveView s).ack src k 0 []
      let tag := s.shadowPeriod % 2 ^ 16
      let image := (pieces 65536 s.restoreImage).zipIdx.map (fun p => headerMsg hImage tag (65536 * p.2) p.1)
      let all := image ++ ms ++ partMsgs kScale 0 0 tag 0 s.shadowScale ++ [headerMsg hRestoreEnd tag 0 []]
      all.foldl (fun (s : State) m => (s.sendShadow src m none).1) s

/-! ## At the restoring module -/

/-- The preconditions of R395 on the module, but for the size of its root table. -/
def State.mayRestore (s : State) : Bool :=
  s.idle && !s.coll.frozen && !s.uu.rules.isEmpty && s.tableAttached && decide (s.get F.CJ_ROOT_COUNT_COUNT ≠ 0) && s.num.attach.isSome

/-- The restore that runs from a holder. -/
def State.restoring (s : State) (src : Nat) : Option ShadowRun :=
  s.sh.runs.find? (fun r => decide (r.peer = src) && (match r.task with | .restore _ _ _ => true | _ => false))

/-- The geometry of two table entries with their rules agrees (R395). -/
def geometryOk (own other : Param) (r q : Rule) : Bool :=
  decide (own.rows = other.rows ∧ own.cols = other.cols ∧ own.first = other.first ∧ r.code = q.code ∧ r.mfmt = q.mfmt)

/-- The ledger written with TARGET and PHASE ITEMS (R396). -/
def State.openRestore (s : State) (period : Nat) : State := (s.ledPut period 1).sealHeader

/-- The module returns to SPARE after a PROMOTE whose restore failed. -/
def State.unpromote (s : State) (ldim : Nat) : State :=
  s.setPosition ⟨BitVec.ofNat 24 s.here, BitVec.ofNat 24 (s.get F.ZF_PDIM_DIM), 0, true, BitVec.ofNat 24 ldim⟩

/-- A restore ends without success. -/
def State.failRestore (s : State) (r : ShadowRun) (st : Nat) : State :=
  let s := match r.task with
    | .restore _ _ (some (ldim, _)) => s.unpromote ldim
    | _ => s
  s.endShRun r (Done.fail st)

/-- The image of what the holder tells first, once it is complete. -/
def imageOf (got : List ShPiece) : Option (List Byte) :=
  let b := (got.filter (fun p => decide (p.key.kind = kHeader ∧ p.key.item = hImage ∧ p.key.part = 0))).flatMap (·.data)
  if 48 ≤ b.length ∧ leAt b 0 8 ≤ b.length then some b else none

/-- The image is complete: the checks of R395, and the ledger opened. -/
def State.beginRestore (s : State) (r : ShadowRun) (force : Bool) (promote : Option (Nat × Nat)) (b : List Byte) : State :=
  let n := leAt b 0x2C 4
  let entry (t : Nat) : List Byte := (b.drop (48 + 192 * t)).take 192
  let fits (t : Nat) : Bool :=
    let own := nth s.params t (Param.of [])
    geometryOk own (Param.of ((entry t).take 128)) (s.rule own.rule) (Rule.of ((entry t).drop 128))
  if s.get F.CJ_ROOT_COUNT_COUNT < leAt b 0x28 4 then s.failRestore r ST_NOT_READY
  else if n ≠ s.uu.tensors ∨ ¬ allBelow n fits then s.failRestore r ST_BAD_PARAM
  else (s.openRestore (leAt b 8 6)).setShRun { r with task := .restore force true promote }

/-- Data of a restore written as they come: PART 0 to 3 the arrays of a tensor, PART 5 to 7 slot 0 of a root entry. -/
def State.restoreData (s : State) (k : ShKey) (bs : List Byte) : State :=
  let put (a : Nat) : State := s.own (a + k.offset) bs
  if k.part ≤ 3 then
    let e := nth s.params k.item (Param.of [])
    if s.uu.tensors ≤ k.item then s
    else match k.part with
      | 0 => put e.master
      | 1 => put e.plane
      | 2 => put e.moment
      | _ => put (s.vectorsNow k.item e)
  else if s.get F.CJ_ROOT_COUNT_COUNT ≤ k.item then s
  else
    let b := s.rootBytes k.item
    put (if k.part = 5 then rtRoot b 0 else if k.part = 6 then rtAux b 0 else rtAvg b 0)

/-- A restored root entry (R396): slot 0 in force. -/
def State.restoreRoot (s : State) (e fprint : Nat) (valid : Bool) (pub : Nat) : State :=
  let b := overlay (s.rootBytes e) 0x58 (leBytes 8 fprint)
  s.putRoot e (rtSetPeriod (rtSetMiss (rtSetFlags b 0 0 valid false false) 0) pub)

/-- The working copies of every tensor formed from the masters. -/
def State.formWork (s : State) : State := s.params.foldl (fun (s : State) e => s.workFrom e 0 e.count) s

/-- The ledger after a restore (R396): every tag at the Period, and closed. `vstep t`: VSTEP of tensor `t`. -/
def State.closeRestore (s : State) (period cursor : Nat) (override : Bool) (vstep : Nat → Nat) : State :=
  let s := (List.range s.allBlocks).foldl (fun (s : State) b => s.own (s.blockAt b) (leBytes 8 period ++ leBytes 8 period)) s
  let s := (List.range s.uu.tensors).foldl (fun (s : State) t => s.ownWord (s.tensorAt t) 6 (vstep t)) s
  let s := s.ownWord (s.shardLedger + 0x10) 6 period
  let s := (s.ownWord (s.shardLedger + 0x20) 8 cursor).ownWord (s.shardLedger + 0x2C) 4 (flag override)
  ((s.ledPut period 0).sealHeader)

/-- `PC_COMMITTED`, `PC_CURSOR` and `SH_SEED`, and the numerics origin due at the next PERIOD_ARM (R95, R396). -/
def State.adoptRestored (s : State) (period cursor seed : Nat) : State :=
  let s := ((s.put F.PC_COMMITTED_COMMITTED period).put F.PC_CURSOR_CURSOR cursor).put F.SH_SEED_SEED seed
  { s with num := { s.num with originDue := true } }

/-- The Scale Ledger after a restore (R397). -/
def State.restoreScale (s : State) (period : Nat) (b : List Byte) : State :=
  match s.num.attach with
  | none => s
  | some a =>
    let n := leAt b 2 2
    let good := decide (128 ≤ b.length ∧ leAt b 8 6 = period ∧ leAt b 0 2 = 1 ∧ n = a.count ∧ ledgerSize n ≤ b.length) &&
      decide (crc64 (b.take 0x28 ++ (b.take (ledgerSize n)).drop 0x80) = leAt b 0x28 8)
    if good then s.own a.address (b.take (ledgerSize n))
    else
      let w := s.word (a.address + 0x24) 4
      (s.ownWord (a.address + 0x24) 4 (w ||| 4)).sealLedger a

/-- A part of a restore kept until the end, as one byte string. -/
def gathered (got : List ShPiece) (kind item : Nat) : List Byte :=
  let ps := sortBy (fun a b => decide (a.key.offset ≤ b.key.offset))
    (got.filter (fun p => decide (p.key.kind = kind ∧ p.key.item = item ∧ p.key.part = 0)))
  ps.flatMap (·.data)

/-- PROMOTE's last part: a HOME relation toward the holder (R398). -/
def State.promoteHome (s : State) (r : ShadowRun) (b : List Byte) (gloss result : Nat) : State :=
  let s := { s with sh := { s.sh with runs := s.sh.runs.filter (fun x => decide (x.cmd ≠ r.cmd)) } }
  let flags := leAt b 0x20 8
  match s.askIdent ⟨r.cmd, true, bit flags 0, bit flags 1, false, r.peer, gloss, some result, false⟩ with
  | (s, true) => s
  | (s, false) => (s.dropIdent r.cmd).finish r.cmd ⟨ST_OK, 2, result⟩

/-- The holder has sent everything: the rest of R396, and the end. -/
def State.endRestore (s : State) (r : ShadowRun) (promote : Option (Nat × Nat)) : State :=
  match imageOf r.got with
  | none => s.failRestore r ST_FABRIC
  | some b =>
    let period := leAt b 8 6
    let led := gathered r.got kHeader hLedger
    let s := (r.got.filter (fun p => decide (p.key.part = 5))).foldl (fun (s : State) p =>
      s.restoreRoot p.key.item (leAt p.data 0 8) (bit (leAt p.data 8 8) 0) (leAt p.data 16 6)) s
    let s := s.formWork.restoreScale period (gathered r.got kScale 0)
    let s := s.closeRestore period (leAt b 0x10 8) (bit (leAt b 0x20 8) 0) (fun t => leAt led (0x80 + 16 * t) 6)
    let s := (s.adoptRestored period (leAt b 0x10 8) (leAt b 0x18 8)).noteOverride r.cmd
    match promote with
    | none => s.endShRun r (Done.ok s.ledDigest)
    | some (_, gloss) => s.promoteHome r b gloss s.ledDigest

/-- A message of a restore: kept, written, or its end. -/
def State.restoreMessage (s : State) (r : ShadowRun) (k : ShKey) (bs : List Byte) : State :=
  match r.task with
  | .restore force begun promote =>
    let r : ShadowRun := { r with moved := true }
    let keep : ShadowRun := { r with got := r.got ++ [⟨k, bs⟩] }
    if k.kind = kHeader ∧ k.part = 0 ∧ k.item = hImage then
      let s := s.setShRun keep
      match (if begun then none else imageOf keep.got) with
      | some b => s.beginRestore keep force promote b
      | none => s
    else if !begun then s.setShRun r
    else if k.kind = kHeader ∧ k.part = 0 ∧ k.item = hRestoreEnd then s.endRestore r promote
    else if k.kind = kRestore then (s.setShRun r).restoreData k bs
    else s.setShRun keep
  | _ => s

/-- RESTORE_FROM_SHADOW: the holder is asked. -/
def State.restoreShadow (s : State) (holder : Nat) (force : Bool) (c : CmdRef) : Body :=
  s.guard [(!s.mayRestore, ST_NOT_READY)] (fun s =>
    s.startShRun c (.restore force false none) holder [⟨⟨kRestore, flag force, 0, 0⟩, s.tagFor holder, []⟩])

/-- PROMOTE (R398). -/
def State.promote (s : State) (logical ldim holder gloss : Nat) (c : CmdRef) : Body :=
  let p : PositionParams :=
    ⟨BitVec.ofNat 24 s.here, BitVec.ofNat 24 (s.get F.ZF_PDIM_DIM), BitVec.ofNat 24 logical, false, BitVec.ofNat 24 ldim⟩
  s.guard [(decide (gloss % 4096 ≠ 0) || decide (hbmEnd ≤ gloss), ST_BAD_PARAM), (!s.on F.ZF_LOGICAL_SPARE || !s.mayRestore, ST_NOT_READY),
    (!s.positionOk p, ST_BAD_PARAM)] (fun s =>
      let old := s.get F.ZF_LDIM_DIM
      match (s.setPosition p).startShRun c (.restore false false (some (old, gloss))) holder [⟨⟨kRestore, 0, 0, 0⟩, s.tagFor holder, []⟩] with
      | (s, some d) => ((if d.status = ST_OK then s else s.unpromote old), some d)
      | r => r)

/-! ## Messages -/

/-- A transfer all of whose messages are acknowledged ends, unless it waits for more than that. -/
def State.allAcked (s : State) (r : ShadowRun) : State :=
  match r.task with
  | .range _ _ => s.endShRun r (Done.ok (rangeResult r.got))
  | .seed false => s.seedAll r
  | .arbitrate _ _ _ 0 => s.setShRun r
  | .arbitrate record _ _ _ => ((s.repaired [record]).arbitrated record r.cmd).endShRun r (Done.ok 1)
  | .restore _ _ _ => s.setShRun r
  | .close _ false => s.setShRun r
  | _ => s.endShRun r (Done.ok 0)

/-- A transfer from the home to its holder: its answers report the shadow's STATE. -/
def ShTask.fromHome : ShTask → Bool
  | .arbitrate _ _ _ _ => false
  | .restore _ _ _ => false
  | _ => true

/-- An ACK (R376): progress, or the refusal of what it answers. A FORWARD or ROOTS that is refused ends degraded. -/
def State.acknowledged (s : State) (src : Nat) (m : ShKey) (bs : List Byte) : State :=
  let k : ShKey := { m with kind := leAt bs 0 1 }
  let status := leAt bs 2 1
  match s.sh.runs.find? (fun r => decide (r.peer = src) && r.unacked.contains k) with
  | none => s
  | some r =>
    let s := if r.task.fromHome then { s with sh := { s.sh with holderState := leAt bs 1 1 } } else s
    let extra := bs.drop 3
    let got := if extra.isEmpty then r.got else r.got ++ [⟨k, extra⟩]
    let r : ShadowRun := { r with unacked := r.unacked.erase k, moved := true, got := got }
    if status ≠ 0 then
      match r.task with
      | .forward => s.endShRun r ⟨ST_OK, 2, 0⟩
      | .roots => s.endShRun r ⟨ST_OK, 2, 0⟩
      | .restore _ _ _ => s.failRestore r status
      | _ => s.endShRun r (Done.fail status)
    else if r.unacked.isEmpty then s.allAcked r
    else s.setShRun r

/-- HEADER messages. -/
def State.headerMessage (s : State) (src : Nat) (k : ShKey) (tag : Nat) (bs : List Byte) : State :=
  let held := s.holds && s.holdActive && decide (s.homeOf = src)
  if k.part = 5 then
    if !held then s
    else if s.descState = 1 ∨ s.takesPeriod tag then s.landRootFields src k bs else s.ack src k ST_NOT_READY []
  else if k.item = hForward then
    if !held then s else if s.takesPeriod tag then s.landHeader src k bs else s.ack src k ST_NOT_READY []
  else if k.item = hSeedBegin then (if held then s.seedBegin src k bs else s)
  else if k.item = hLedger then
    if held && decide (s.descState = 1) then s.land src k (s.descLedger + k.offset) bs else s
  else if k.item = hSeedEnd then (if held && decide (s.descState = 1) then s.seedEnd src k else s)
  else if k.item = hRepairEnd then
    if held then s.repairEnd src k 1 bs else s
  else if k.item = hHomeEnd then
    if s.on F.SH_BUDDY_VALID ∧ s.buddy = src then s.repairEnd src k 2 bs else s
  else if k.item = hRecordAsk then (if s.on F.SH_BUDDY_VALID ∧ s.buddy = src then s.recordAsked src k bs else s)
  else if k.item = hRecordEnd then s.recordEnded src
  else s

/-- Data that land in the shadow: of a Period while it is CURRENT, of a SEED while it is SEEDING. A STALE shadow takes nothing of a CLOSE
(R382), which is acknowledged all the same (log entry 46). -/
def State.dataMessage (s : State) (src : Nat) (k : ShKey) (tag : Nat) (bs : List Byte) : State :=
  if !(s.holds && s.holdActive && decide (s.homeOf = src)) then s
  else if k.kind = kScale ∧ s.descState = 3 then s.ack src k 0 []
  else if k.kind = kScale then
    let n := min bs.length (s.descScaleBytes - k.offset)
    s.land src k (s.descScale + k.offset) (bs.take n)
  else if k.kind = kSeed then
    if s.descState ≠ 1 then s
    else match s.shadowPart k.item k.part false with
      | some a => s.land src k (a + k.offset) bs
      | none => s
  else if !s.takesPeriod tag then s.ack src k ST_NOT_READY []
  else if k.kind = kRoot then
    match s.shadowPart k.item k.part false with
    | some a => s.land src k (a + k.offset) bs
    | none => s
  else s.landData src k bs

/-- GLOSS messages: the home's records of a Period, a RANGE, or the result that the holder sends to the home (R390). -/
def State.glossMessage (s : State) (src : Nat) (k : ShKey) (tag : Nat) (bs : List Byte) : State :=
  if k.item = 2 then
    if s.on F.SH_BUDDY_VALID ∧ s.buddy = src then (s.put F.SH_STATUS_DIVERGENT 1).glossEvent k.offset none else s
  else if !(s.holds && s.holdActive && decide (s.homeOf = src)) then s
  else if k.item = 0 then s.landGloss src k tag bs
  else s.rangeAtHolder src k bs

/-- A SHADOW message for this module (R386). A KIND that is reserved, or a message that no relation or transfer expects, is discarded. -/
def State.shadowMessage (s : State) (port src : Nat) (m : ShadowHdr) (data : List Byte) : State :=
  let s := (s.sh.runs.filter (fun r => decide (r.peer = src))).foldl (fun (s : State) r => s.usePort (some r.cmd) port) s
  let k : ShKey := ⟨m.kind.toNat, m.item.toNat, m.part.toNat, m.offset.toNat⟩
  let tag := m.periodTag.toNat
  let bs := if m.packed then unpackWords data else data
  match s.restoring src with
  | some r =>
    if k.kind = kAck then s.acknowledged src k bs
    else if k.kind = kHeader ∨ k.kind = kRestore ∨ k.kind = kScale then s.restoreMessage r k bs
    else s
  | none =>
    match k.kind with
    | 3 => s.headerMessage src k tag bs
    | 5 => s.glossMessage src k tag bs
    | 7 =>
      if bs.isEmpty then s.serveRestore src k (decide (k.item = 1))
      else if s.on F.SH_BUDDY_VALID ∧ s.buddy = src then s.landRepair src k 2 bs
      else s
    | 8 =>
      if s.holds ∧ s.homeOf = src then s.landRepair src k 1 bs
      else if s.on F.SH_BUDDY_VALID ∧ s.buddy = src then s.landRepair src k 2 bs
      else s
    | 9 => s.acknowledged src k bs
    | 10 => s.boundBy src k.item k.offset (decide (k.part = 1))
    | 1 => s.dataMessage src k tag bs
    | 2 => s.dataMessage src k tag bs
    | 4 => s.dataMessage src k tag bs
    | 6 => s.dataMessage src k tag bs
    | _ => s

end Sys2Proof.Machine
end

