-- ==== Sys2Proof/Machine/Halt.lean ====
section
/-!
DEFINITION. Machine/Halt.lean: the halt token, what a module does when it receives one (R45, R46, R399, R425, R508), and the end of a
Clause (R41).
-/
namespace Sys2Proof.Machine

/-! ## The token -/

/-- The Period that a halt concerns: the running one, or the one that would come next. -/
abbrev State.haltPeriod (s : State) : Nat :=
  if s.pcState = 2 ∨ s.pcState = 3 then s.get F.PC_PERIOD_PERIOD else s.currentPeriod

/-- The hub is ready: the fabric core operates. -/
abbrev State.hubReady (s : State) : Bool := s.get F.RS_HELD_HUB = 0

/-- The token for a Period forwarded on every UP port, once per Period (R45, R508). -/
def State.passToken (s : State) (p : HaltPayload) : State :=
  if s.pd.tokenSent = some p.period.toNat then s
  else { (s.sendEach s.upPorts (fun q => .halt q p)) with pd := { s.pd with tokenSent := some p.period.toNat } }

/-- The module's own token, for an event of class PERIOD_FATAL or MODULE_FATAL. -/
def State.sendToken (s : State) (code : Nat) : State :=
  s.passToken { period := BitVec.ofNat 48 s.haltPeriod, origin := BitVec.ofNat 24 s.logical, code := BitVec.ofNat 16 code }

/-! ## Commands of a halted Period (R425) -/

/-- The command is attached to an instance of Period `n` that the halt does not carry on. -/
def State.haltEnds (s : State) (n : Nat) (carry : Nat → Bool) (c : CmdRef) : Bool :=
  s.cp.flights.any (fun f => sameCmd f.ref c && (match f.attach with | some a => decide (a.1 = n) && !carry a.2 | none => false))

/-- The commands of Period `n` that the halt does not carry on end: ABORTED once dispatched or deferred, HALTED while they wait. What has
been delivered of their instances, and the use sites that have entered the deferred queue, no longer count: a retried Period has its
commands submitted again (R48, R425). -/
def State.haltFlights (s : State) (n : Nat) (carry : Nat → Bool) : State :=
  let s := { s with cp := { s.cp with
    closes := s.cp.closes.filter (fun x => !(decide (x.period = n) && !carry x.clause))
    tieEntered := s.cp.tieEntered.filter (fun x => decide (x.1 ≠ n)) } }
  (s.cp.flights.filter (fun f => s.haltEnds n carry f.ref)).foldl (fun (s : State) f =>
    s.endFlight f (if f.phase = .waiting then ST_HALTED else ST_ABORTED)) s

/-- What the engines hold for those commands is dropped; the commands themselves end after it. -/
def State.haltEngines (s : State) (n : Nat) (carry : Nat → Bool) : State :=
  let ends := s.haltEnds n carry
  let s := s.stopColl ST_ABORTED ends
  let w := match s.sh.replay with
    | some w => if ends w.cmd then none else some w
    | none => none
  { s with sh := { s.sh with runs := s.sh.runs.filter (fun r => !ends r.cmd), replay := w } }

/-! ## HALTED -/

/-- HALTED: the Period's record closed, and the commands that waited for it completed (R46, R61). -/
def State.enterHalted (s : State) : State :=
  let n := s.get F.PC_PERIOD_PERIOD
  let s := if (s.pcState = 2 ∨ s.pcState = 3) ∧ s.get F.PC_STATUS_DONE = 0 then s.closeRecord n else s
  let s := ((s.put F.PC_STATUS_STATE 4).put F.PC_STATUS_ACTIVE 0).put F.PC_STATUS_REPLAY 0
  let s := s.setModule 9
  let ws := s.pd.waiters
  let keep := s.pd.reduceIn.filter (fun r => decide (r.p.kind.toNat = 4))
  let s := { s with pd := { s.pd with
    waiters := [], replay := none, sched := none, haltAtEnd := false, endToken := false, reduceIn := keep } }
  ws.foldl (fun (s : State) c => s.finish c (Done.ok 0)) s

/-- A halt before the grant: everything that the Period has done is discarded. -/
def State.haltBefore (s : State) : State :=
  let n := s.haltPeriod
  let running := decide (s.pcState = 2)
  let s := if running then s.stopJobs ST_ABORTED else s
  let s := ((s.haltEngines n (fun _ => false)).dropUpdate).haltFlights n (fun _ => false)
  let s := if running then ((s.discardRoots n).discardGram) else s
  let s := (s.dropForwarded n).dropLanded n
  let s := { s with
    coll := { s.coll with noise := ⟨0, 0, false, false, false⟩, totals := none }
    num := { s.num with pending := [], eval := [] } }
  s.enterHalted

/-- The Clauses that a halt after the grant carries on: UPDATE and SHADOW. -/
abbrev State.carried (s : State) (c : Nat) : Bool := decide (s.kindOf c = kindUpdate) || decide (s.kindOf c = kindShadow)

/-- A Clause is given up: it counts as abandoned. -/
def State.abandonClause (s : State) (c : Nat) : State :=
  let v := s.clause c
  let s := (s.setClause c { v with passed := true, missed := true }).setActive c false
  let s := if v.started then s.clauseEnd c false else s
  s.lateSlack c

/-- A halt after the grant: UPDATE and SHADOW go on, other work is abandoned, the solver's jobs among it (R220). -/
def State.haltAfter (s : State) : State :=
  let n := s.haltPeriod
  let s := s.stopJobs ST_ABORTED
  let s := (s.haltEngines n s.carried).haltFlights n s.carried
  let open_ := (List.range 16).filter (fun c => (s.clause c).runs && (s.clause c).complete.isNone && !(s.clause c).passed && !s.carried c)
  (open_.foldl State.abandonClause s).put F.PC_STATUS_STATE 3

/-- The token is received (R46). A module that is HALTED or HALTING already does nothing more. -/
def State.takeHalt (s : State) : State :=
  if 3 ≤ s.pcState then s
  else
    let s := { s with pd := { s.pd with haltHeld := true } }
    if s.pcState = 2 ∧ s.on F.PC_STATUS_GRANT then s.haltAfter else s.haltBefore

/-- The module acts on a token: a spare, or a module whose Period controller is off and idle, only forwards it (R330). -/
def State.haltReceived (s : State) : State :=
  if s.isSpare || (decide (s.pcState = 0) && !s.on F.PC_CTRL_ENABLE) then s else s.takeHalt

/-- A HALTING module whose UPDATE and SHADOW Clauses are complete is HALTED. One past its deadline counts once its attached commands
have ended, though a ring owes it a CLOSE (log entry 56). -/
def State.finishHalting (s : State) : State :=
  let n := s.get F.PC_PERIOD_PERIOD
  if s.pcState = 3 ∧ (s.runningClauses [kindUpdate, kindShadow]).all (fun c => (s.clause c).complete.isSome || s.instanceSpent n c)
      ∧ (s.get F.PC_COMMITTED_COMMITTED = s.get F.PC_PERIOD_PERIOD ∨ s.get F.PW_STATUS_STATE = 11) then s.enterHalted
  else s

/-! ## Fatal events (R45, R399, R506) -/

/-- A fatal event marks the running Period's record. -/
def State.markFatal (s : State) : State :=
  if s.pcState = 2 ∨ s.pcState = 3 then { s with pd := { s.pd with fatal := true } } else s

/-- The action of a PERIOD_FATAL event. -/
def State.periodFatal (s : State) (code : Nat) : State := ((s.markFatal).sendToken code).haltReceived

/-- The action of a MODULE_FATAL event: the token while ARMED or RUNNING, FAILED, and every port DOWN. -/
def State.moduleFatal (s : State) (code : Nat) : State :=
  let s := s.markFatal
  let s := if 1 ≤ s.pcState ∧ s.pcState ≤ 3 ∧ s.hubReady then (s.sendToken code).haltReceived else s
  (s.put F.PW_STATUS_STATE 11).allPortsDown

end Sys2Proof.Machine
end

