-- ==== Sys2Proof/Machine/Reset.lean ====
section
/-!
DEFINITION. Machine/Reset.lean: reset domains, what each reset does to the state, and their release (R468 to R475, R288, R474, R496). A
domain not in `pwr.held` is ready.
-/
namespace Sys2Proof.Machine

/-! ## Domains (R468) -/

/-- The bit of `RS_HELD` or `RS_CLHELD` that a domain has; the frame has none. -/
def heldBit : Domain → Option (Field × Nat)
  | .frame => none
  | .hub => some (F.RS_HELD_HUB, 0)
  | .quarter q => some (F.RS_HELD_QUARTER, q.val)
  | .commandProcessor => some (F.RS_HELD_CP, 0)
  | .conjugator => some (F.RS_HELD_CONJUGATOR, 0)
  | .port p => some (F.RS_HELD_PORT, p.val)
  | .hbm k => some (F.RS_HELD_HBM, k.val)
  | .cluster c => some (F.RS_CLHELD_CLUSTER (c.val / 64), c.val % 64)

/-- A bit of a register's field set or cleared. -/
def State.putBit (s : State) (f : Field) (i : Nat) (b : Bool) : State :=
  let w := s.get f
  if bit w i = b then s else s.put f (if b then w + 2 ^ i else w - 2 ^ i)

/-- The domain that a domain waits for. -/
def parentOf : Domain → Option Domain
  | .frame => none
  | .hub => some .frame
  | .quarter _ => some .frame
  | .commandProcessor => some .hub
  | .conjugator => some .hub
  | .port _ => some .hub
  | .hbm k => some (.quarter (Fin.ofNat 4 (k.val / 4)))
  | .cluster c => some (.quarter (Fin.ofNat 4 (c.val / 66)))

/-- The domains that a reset of a domain resets. -/
def domainsUnder : Domain → List Domain
  | .hub => [.hub, .commandProcessor, .conjugator] ++ (List.range 8).map (fun p => .port (Fin.ofNat 8 p))
  | .quarter q => .quarter q :: (List.range 4).map (fun i => .hbm (Fin.ofNat 16 (4 * q.val + i)))
      ++ (List.range 66).map (fun i => .cluster (Fin.ofNat 264 (66 * q.val + i)))
  | d => [d]

/-- Every domain. -/
def allDomains : List Domain :=
  .frame :: domainsUnder .hub ++ (List.range 4).flatMap (fun q => domainsUnder (.quarter (Fin.ofNat 4 q)))

/-- A domain is ready. -/
def State.ready (s : State) (d : Domain) : Bool := !s.pwr.held.any (fun h => decide (h.dom = d))

/-- A domain is in reset or being released, with its bit; `debug` keeps a debug source that already holds it. -/
def State.holdDomain (s : State) (debug : Bool) (d : Domain) : State :=
  let was := s.pwr.held.any (fun h => decide (h.dom = d) && h.debug)
  let held := s.pwr.held.filter (fun h => decide (h.dom ≠ d)) ++ [(⟨d, .reset, debug || was⟩ : DomHeld)]
  let s := { s with pwr := { s.pwr with held := held } }
  match heldBit d with
  | some (f, i) => s.putBit f i true
  | none => s

/-- The debug port holds no reset source any more. -/
def State.dropDebug (s : State) : State :=
  { s with pwr := { s.pwr with held := s.pwr.held.map (fun h => { h with debug := false }) } }

/-- A domain is ready again. -/
def State.freeDomain (s : State) (d : Domain) : State :=
  let s := { s with pwr := { s.pwr with held := s.pwr.held.filter (fun h => decide (h.dom ≠ d)) } }
  match heldBit d with
  | some (f, i) => s.putBit f i false
  | none => s

/-! ## Registers (R10, R11, R456, R474, R477, R525) -/

/-- The reset domain of a register (R525). -/
def domainOf (d : BlockDomain) (i : Nat) : Domain :=
  match d with
  | .hub => .hub
  | .cp => .commandProcessor
  | .quarter => .quarter (Fin.ofNat 4 i)
  | .conj => .conjugator
  | .port => .port (Fin.ofNat 8 i)
  | .hbm => .hbm (Fin.ofNat 16 i)
  | .frame => .frame

/-- A CONTROL access to an offset is turned away: the module is not READY yet, or FAILED without having booted (R456, R477, R490). -/
def State.busy (s : State) (a : Nat) : Bool :=
  let st := s.get F.PW_STATUS_STATE
  !((decide (a < 0x20000) && decide (3 ≤ st)) || (decide (0x40000 ≤ a ∧ a < 0x50000) && s.pwr.bootDone) ||
    (decide (5 ≤ st) && (decide (st ≠ 11) || s.pwr.bootDone)))

/-- Whether the register that starts at an offset can be reached: the module answers there, and its domain is ready. -/
def State.regOpen (s : State) (a : Nat) : Bool :=
  match regAt a with
  | some (r, i, _) => !s.busy a && s.ready (domainOf r.domain i)
  | none => false

/-- The keys of every field of the rows that `pick` chooses, at the indices that `at_` chooses. -/
def fieldKeys (pick : RegRow → Bool) (at_ : Nat → Bool) : List Nat :=
  (Reg.rows.filter pick).flatMap (fun r => (List.range r.n1).flatMap (fun i =>
    if at_ i then (List.range r.n2).flatMap (fun j => r.fields.map (fun f => (r.base + r.stride1 * i + r.stride2 * j) * 64 + f.lo)) else []))

/-- The row of a field of the register file, by its key. -/
def rowOfKey (k : Nat) : Option (RegRow × Nat × Nat) := regAt (k / 64)

/-- The register file after a reset: the fields of the registers that `hit` chooses, by row and first index, at their reset values. -/
def State.resetRegs (s : State) (hit : RegRow → Nat → Bool) : State :=
  { s with regs := s.regs.filter (fun p => match rowOfKey p.1 with
    | some (r, i, _) => !hit r i
    | none => true) }

/-! ## What a domain in reset loses (R473, R474) -/

/-- Every command that has been read and has no record yet ends with ST_ISOLATED, and what the engines hold for it is dropped. -/
def State.isolateCommands (s : State) : State :=
  let s := (s.stopJobs ST_ISOLATED).cutColl
  let s := match s.dm.load with
    | some r => s.putBankState r.bank 3
    | none => s
  let s := s.dropUpdate
  let s := s.sh.runs.foldl (fun (s : State) r => match r.task with
    | .restore _ _ (some (ldim, _)) => s.unpromote ldim
    | _ => s) s
  let s := { s with
    dm := { s.dm with load := none }, coll := { s.coll with reshard := none }
    sh := { s.sh with idents := [], runs := [], replay := none }, pwr := { s.pwr with waits := [] }, pd := { s.pd with waiters := [] } }
  let s := s.cp.flights.foldl (fun (s : State) f => (s.spoilFlight f ST_ISOLATED).finish f.ref (Done.fail ST_ISOLATED)) s
  { s with cp := { s.cp with ended := s.cp.ended.map (fun e => { e with done := Done.fail ST_ISOLATED }) } }

/-- Both Orrex Link ports DOWN: what was outstanding or owed on them is lost. -/
def State.oxlReset (s : State) : State :=
  let s := (((s.oxlAbandon).put F.OXL_STATUS_LINK0 0).put F.OXL_STATUS_LINK1 0).put F.OXL_STATUS_SINGLE 0
  { s with oxl := OxlState.reset }

/-- A module that was ARMED, RUNNING or HALTED is HALTED when the hub is ready; what the Period had not committed is discarded. -/
def State.hubHalt (s : State) : State :=
  let n := s.get F.PC_PERIOD_PERIOD
  let lost := decide (s.pcState = 2) && !s.on F.PC_STATUS_GRANT
  let s := if lost then (((s.discardRoots n).discardGram).dropForwarded n).dropLanded n else s
  let s := if 1 ≤ s.pcState then
      (((s.put F.PC_STATUS_STATE 4).put F.PC_STATUS_ACTIVE 0).put F.PC_STATUS_REPLAY 0).setModule 9
    else s
  { s with
    pd := { s.pd with sched := none, replay := none, haltAtEnd := false, endToken := false, reduceIn := [] }, uu := { s.uu with openCommit := none }
    coll := { s.coll with noise := ⟨0, 0, false, false, false⟩, totals := none, early := [] }, num := { s.num with pending := [], eval := [] } }

/-- The hub in reset: its children's losses are theirs; its own are the Orrex Link ports, the management endpoint (R516), the key slots
(R496), the firmware's keys and the Period. -/
def State.hubReset (s : State) : State :=
  let s := (s.oxlReset).hubHalt
  let s := { s with
    mgmt := { s.mgmt with eid := 0, receiver := none }, pwr := { s.pwr with bootDone := false }
    sec := { s.sec with slots := [], keys := false, mailbox := 0, mctp := 0 } }
  s.put F.SC_KEYS_OCCUPIED 0

/-- The PHY holds the training values of a stack, so that it can leave self-refresh (R288). -/
abbrev State.trained (s : State) (k : Nat) : Bool := s.pwr.trained.contains k

/-- What a domain loses as it enters reset. A stack that was never trained has nothing to keep in self-refresh. -/
def State.loseDomain (s : State) : Domain → State
  | .frame => s
  | .hub => s.hubReset
  | .quarter _ => s
  | .commandProcessor => s.isolateCommands
  | .conjugator => s.stopJobs ST_ISOLATED
  | .port p => (s.takeDown p.val none).resetRegs (fun r i => decide (r.reach = .b ∧ r.domain = .port) && decide (i = p.val))
  | .hbm k => if s.trained k.val then s.put (F.HM_STATUS_STATE k.val) 4 else s
  | .cluster _ => s

/-- A reset of reach D or B: every domain within it is held, and loses what it loses. -/
def State.resetDomain (s : State) (debug : Bool) (d : Domain) : State :=
  let ds := domainsUnder d
  ds.foldl State.loseDomain (ds.foldl (fun (s : State) x => s.holdDomain (debug && decide (x = d)) x) s)

/-! ## Reach M and P -/

/-- A stored HBM error stays armed across a reset: it stands in the array. -/
def hbmKind (i : Injection) : Bool := decide (i.kind = 4) || decide (i.kind = 5)

/-- The fuse-loaded fields of `SC_STATUS` and of the Security capability, from the fuses as loaded and the bits blown since (R503, R504). -/
def State.fuseStatus (s : State) : State :=
  match s.sec.fuses with
  | some f =>
    let n := (List.range 64).countP (fun i => f.svnBits.getLsbD i)
    let revoked := flag (decide (f.revoke ≠ 0) || s.pwr.blown.revoke)
    ((s.put F.SC_STATUS_SVN (max n s.pwr.blown.svn)).put F.SC_STATUS_REVOKED revoked).put F.CAP_SECURITY_REVOKED revoked
  | none => s

/-- MRST_N driven low (R471). -/
def State.driveMrst (s : State) : State := { (s.put F.RS_MRST_LEVEL 0) with pwr := { s.pwr with mrstDriven := true } }

/-- A reset of reach M (R288, R299, R429, R473, R478, R519): registers of reach P, HBM, the fuses as loaded, marks and withdrawn
cores stay; everything else starts again. -/
def State.resetM (s : State) : State :=
  let bank (s : State) (k : Nat) : State := if s.bankState k = 1 then s.putBankState k 3 else s
  let s := s.coll.runs.foldl State.leaveLines s
  let s := ((bank (bank s.oxlAbandon 0) 1).put F.TB_STATE_ARMED 0).resetRegs (fun r _ => decide (r.reach ≠ .p))
  let s := { s with
    latches := [], inject := s.inject.filter hbmKind, cp := CpState.reset, pd := PdState.reset, mgmt := MgmtState.reset
    pwr := { s.pwr with held := [], waits := [], escalations := [], trimTries := 0, fuseLoaded := false, bootDone := false, resetDue := [] }
    oxl := OxlState.reset, dm := DmState.reset, fab := FabState.reset
    coll := { CollState.reset with frozen := s.coll.frozen }, num := NumState.reset, gram := []
    rr := RecorderState.reset, cj := { CjState.reset with withdrawn := s.cj.withdrawn }, uu := { UuState.reset with draws := s.uu.draws }
    sh := { ShState.reset with draws := s.sh.draws, frozenFrom := s.sh.frozenFrom }
    sec := { SecState.reset with fuses := s.sec.fuses } }
  let s := (allDomains.foldl (fun (s : State) d => s.holdDomain false d) s).put F.PW_STATUS_STATE (if s.pwr.lidFailed then 11 else 2)
  let s := ((List.range 16).filter s.trained).foldl (fun (s : State) k => s.put (F.HM_STATUS_STATE k) 4) s
  s.fuseStatus.driveMrst

/-- A reset of reach M from the module's own sources: its cause bit and OWN_DRIVE (R470, R472). -/
def State.resetOwnM (s : State) (cause : Field) : State :=
  ((s.resetM).put cause 1).put F.RS_CAUSE_OWN_DRIVE 1

/-- A reset of reach P (R464): nothing survives but fuses and flash; the module is OFF. -/
def State.resetP (s : State) : State :=
  let s := s.oxlAbandon
  let z := State.reset
  let s := { z with
    hbm := s.hbm.forget 0 hbmEnd s.draws, draws := s.draws + 1, comp := s.comp, out := s.out, pending := s.pending
    pwr := { PwrState.reset with blown := s.pwr.blown, above10 := s.pwr.above10, thermLatch := s.pwr.thermLatch, stopped := true } }
  let s := allDomains.foldl (fun (s : State) d => s.holdDomain false d) s
  ((s.put F.PW_STATUS_STATE 0).put F.PW_STATUS_PGOOD 0).driveMrst

/-! ## Escalation (R470) and critical state (R513) -/

/-- One more event of a source counted. -/
def State.escalate (s : State) (key : Nat) : State :=
  let n := s.escalations key
  let first := match s.pwr.escalations.find? (fun e => decide (e.key = key)) with
    | some e => if n = 0 then s.now else e.first
    | none => s.now
  let es := s.pwr.escalations.filter (fun e => decide (e.key ≠ key)) ++ [(⟨key, first, n + 1⟩ : Escalation)]
  { s with pwr := { s.pwr with escalations := es } }

/-- The domain that the first reset for a critical structure resets, and the die it escalates to. -/
def criticalDomain (structure_ inst : Nat) : Domain × Domain :=
  if structure_ = 1 then (.commandProcessor, .hub)
  else if structure_ = 2 then (.port (Fin.ofNat 8 inst), .hub)
  else if structure_ = 5 then (.quarter (Fin.ofNat 4 inst), .quarter (Fin.ofNat 4 inst))
  else (.hub, .hub)

/-- The reset for an uncorrectable error in an on-die critical structure: the block, its die on the second within 1 s, the module on the
third. -/
def State.criticalReset (s : State) (structure_ inst : Nat) : State :=
  let key := criticalKey structure_ inst
  let s := (s.escalate key).bump F.RS_ESCALATE_CRITICAL 1
  let d := criticalDomain structure_ inst
  if s.escalations key = 1 then s.resetDomain false d.1
  else if s.escalations key = 2 then s.resetDomain false d.2
  else s.resetOwnM F.RS_CAUSE_CRITICAL_ESCALATION

/-- A command-processor lock-up (R469): its domain, or the module when repeated within 1 s. -/
def State.lockUp (s : State) : State :=
  let s := (s.escalate 1).bump F.RS_ESCALATE_CP_LOCKUPS 1
  if s.escalations 1 = 1 then (s.raise (Ev.plain 0x0D06 2 13 0)).resetDomain false .commandProcessor
  else s.resetOwnM F.RS_CAUSE_CP_ESCALATION

/-! ## Release (R475) -/

/-- The module samples its straps (R541). -/
def State.sampleStraps (s : State) : State :=
  let p := Config.strapPins s.draws
  { s with draws := s.draws + 1,
           pwr := { s.pwr with straps := ⟨p.extractLsb' 0 6, p.extractLsb' 6 8, p.extractLsb' 14 4⟩ } }

/-- A domain's release starts: it is in reset with no source left, and its parent is ready. Once the frame's stretch has expired the
module stops driving MRST_N after a reset of reach M (R471), and samples its straps. The frame of a module whose stage is stopped has no
parent. -/
def State.releaseDomain (s : State) (d : Domain) : State :=
  let held := s.pwr.held.any (fun h => decide (h.dom = d) && decide (h.phase = .reset) && !h.debug)
  let parent := match parentOf d with
    | some p => s.ready p
    | none => !s.pwr.stopped
  if !(held && parent) then s
  else
    let step (h : DomHeld) : DomHeld := if h.dom = d then { h with phase := .releasing } else h
    let s := { s with pwr := { s.pwr with held := s.pwr.held.map step } }
    match d with
    | .frame =>
      let s := s.sampleStraps
      if s.sec.fuses.isSome then { (s.put F.RS_MRST_LEVEL 1) with pwr := { s.pwr with mrstDriven := false } } else s
    | .port p => s.startTraining p.val
    | .hub => if s.get F.OXL_STATUS_LINK0 = 0 ∧ s.get F.OXL_STATUS_LINK1 = 0 then (s.put F.OXL_STATUS_LINK0 1).put F.OXL_STATUS_LINK1 1 else s
    | _ => s

/-- The stores that a release zeroes lose the errors armed in them. -/
def State.zeroStores (s : State) (d : Domain) : State :=
  let hit (i : Injection) : Bool := (decide (i.kind = 2) || decide (i.kind = 3)) && (match d with
    | .cluster c => decide (i.store = 0 ∧ i.index = c.val)
    | .quarter q => decide (i.store = 1 ∧ i.index = q.val)
    | .conjugator => decide (i.store = 2)
    | .hub => decide (i.store = 3)
    | _ => false)
  { s with inject := s.inject.filter (fun i => !hit i) }

/-- A RESET_BLOCK whose target is ready completes, with BLOCK_RESET (R482, R485). -/
def State.endBlockResets (s : State) (d : Domain) : State :=
  let ws := s.pwr.waits.filter (fun w => decide (w.dom = d))
  let s := { s with pwr := { s.pwr with waits := s.pwr.waits.filter (fun w => decide (w.dom ≠ d)) } }
  ws.foldl (fun (s : State) w => (s.raise ⟨0x0D07, 0, 13, 0, 0, false, some w.cmd⟩).finish w.cmd (Done.ok 0)) s

/-- A domain's release sequence has completed. -/
def State.domainReady (s : State) (d : Domain) : State :=
  if !s.pwr.held.any (fun h => decide (h.dom = d) && decide (h.phase = .releasing)) then s
  else
    let s := (s.freeDomain d).zeroStores d
    let s := match d with
      | .hbm k => if s.get (F.HM_STATUS_STATE k.val) = 4 then s.put (F.HM_STATUS_STATE k.val) 3 else s
      | _ => s
    s.endBlockResets d

end Sys2Proof.Machine
end

