-- ==== Sys2Proof/Machine/Spoil.lean ====
section
/-!
DEFINITION. Machine/Spoil.lean: what a write by software where the spec forbids it leaves undefined (R157, R186, R196, R237, R271), and the
writes of EVALUATE Clauses (R41). The writes of a step are looked at when it ends.
-/
namespace Sys2Proof.Machine

/-- Ranges whose contents become undefined. -/
abbrev State.forgetRanges (s : State) (rs : List (Nat × Nat)) : State := rs.foldl (fun (s : State) r => s.forgetAt r.1 r.2) s

/-- A write by a command of an EVALUATE Clause is one of the Clause's outputs (R41). -/
def State.noteEvaluation (s : State) (w : WriteNote) : State :=
  match w.clause with
  | some c =>
    if (s.pcState = 2 ∨ s.pcState = 3) ∧ s.kindOf c = kindEvaluate then
      { s with pd := { s.pd with evalOuts := s.pd.evalOuts ++ [⟨c, w.addr, w.len⟩] } }
    else s
  | none => s

/-- A write of a mask or of the mask table between the tick and DONE leaves the governed tensors undefined, those written already and those
still to be written (R157). -/
def State.spoilMasks (s : State) (w : WriteNote) : State :=
  if (s.pcState = 2 ∨ s.pcState = 3) ∧ ¬ s.on F.PC_STATUS_DONE ∧ (s.get F.BW_MASK_COUNT ≠ 0 ∨ s.pd.maskIds ≠ []) then
    let r := (w.addr, w.len)
    let s := (s.pd.maskedOuts.filter (fun o => s.touchesMask r o.id o.mask o.len)).foldl (fun (s : State) o => s.forgetRanges o.ranges) s
    { s with pd := { s.pd with maskWrites := s.pd.maskWrites ++ [r] } }
  else s

/-- A write of S, of P or of the header while RUNNING leaves the statistics of the site undefined: the entries and the counts (R186). -/
def State.spoilSites (s : State) (w : WriteNote) : State :=
  if s.pcState = 2 then
    (s.gram.filter (fun g => overlaps w.addr w.len g.base g.size)).foldl (fun (s : State) g =>
      s.forgetRanges [(g.sAddr, 2 * g.count * g.blockBytes), (g.base + 0x28, 8), (g.base + 0x40, 8)]) s
  else s

/-- A loaded table that takes an entry, if there is one: it gives the lengths of the entry's regions. -/
def State.entryTable (s : State) (b : List Byte) : Option Parse :=
  (s.cj.tables.map (fun t => Parse.of (s.hbm.read t.address 0x60))).find? (s.solveAgrees b)

/-- The slot regions of an entry, both slots. -/
def State.entryRegions (s : State) (b : List Byte) : List (Nat × Nat) :=
  match s.entryTable b with
  | some p => slotRegions b p 0 ++ slotRegions b p 1
  | none => []

/-- A write of a root-table entry or of one of its slot regions while RUNNING leaves the entry's outputs undefined: what its slots hold,
and what a job that works on it will write (R196). -/
def State.spoilRoots (s : State) (w : WriteNote) : State :=
  if s.pcState = 2 then
    (s.rootEntries.filter (fun e => overlaps w.addr w.len (s.rootAddr e) 128 ||
        (s.entryRegions (s.rootBytes e)).any (fun r => overlaps w.addr w.len r.1 r.2))).foldl (fun (s : State) e =>
      let s := s.forgetRanges (s.entryRegions (s.rootBytes e))
      { s with cj := { s.cj with jobs := s.cj.jobs.map (fun j => if j.entry = e then { j with spoiled := true } else j) } }) s
  else s

/-- A write of a loaded image leaves every job that uses it undefined (R237). -/
def State.spoilTables (s : State) (w : WriteNote) : State :=
  let hit (t : ParseRef) : Bool := overlaps w.addr w.len t.address t.length
  { s with cj := { s.cj with
    tables := s.cj.tables.map (fun t => if hit t then { t with spoiled := true } else t)
    jobs := s.cj.jobs.map (fun j => if hit j.table then { j with spoiled := true } else j) } }

/-- The ledger indices of the blocks that a write to an owned tensor's inputs affects (R271): those whose gradients it overlaps, or all of
the tensor's for its vectors, its row list and count, or its mask. -/
def Param.spoiltBy (e : Param) (w : WriteNote) : List Nat :=
  let hit (a n : Nat) : Bool := decide (a ≠ 0) && overlaps w.addr w.len a n
  let vec := 4 * (e.rows + e.cols)
  let all_ := hit e.vec0 vec || hit e.vec1 vec || hit e.rowlist (4 * e.rows) || hit e.rowcount 4 || hit e.fmask (cdiv e.rows 8)
  ((List.range e.blocks).filter (fun b => all_ || hit (e.grad + 4 * (e.span b).1) (4 * (e.span b).2))).map (e.first + ·)

/-- A write between the commit grant and the close that R271 forbids leaves the blocks that it affects undefined: those of a tensor whose
inputs it changes, or, in the parameter table or the ledger, all of them. -/
def State.spoilCommit (s : State) (w : WriteNote) : State :=
  if s.uu.openCommit.isSome && s.ledgerLive then
    let whole := overlaps w.addr w.len s.tableBase (128 * s.uu.tensors) ||
      overlaps w.addr w.len s.shardLedger (0x80 + 16 * (s.uu.tensors + s.allBlocks))
    let bs := if whole then List.range s.allBlocks else s.params.flatMap (fun e => e.spoiltBy w)
    { s with uu := { s.uu with spoilt := s.uu.spoilt ++ bs.filter (fun b => !s.uu.spoilt.contains b) } }
  else s

/-- One write looked at. -/
def State.spoilBy (s : State) (w : WriteNote) : State :=
  (((((s.noteEvaluation w).spoilMasks w).spoilSites w).spoilRoots w).spoilTables w).spoilCommit w

/-- The writes of the step looked at, in their order; none is left. -/
def State.spoil (s : State) : State :=
  match s.wrote with
  | [] => s
  | ws => ws.foldl State.spoilBy { s with wrote := [] }

end Sys2Proof.Machine
end

