-- ==== Sys2Proof/Machine/Settle.lean ====
section
/-!
DEFINITION. Machine/Settle.lean: what happens at the end of every step. The steps of the table are whole (95): what an event, a report
or an acknowledgement makes possible at once happens within the step that brought it about.
-/
namespace Sys2Proof.Machine

/-! ## The actions of fatal events (R45, R399, R506, R508, R513) -/

/-- The actions due: that of the highest class raised, and the resets for errors in critical state. Afterwards none is due. -/
def State.act (s : State) : State :=
  let s := match s.pd.failDue, s.pd.haltDue with
    | some code, _ => s.moduleFatal code
    | none, some code => s.periodFatal code
    | none, none => s
  let s := s.pwr.resetDue.foldl (fun (s : State) d => s.criticalReset d.1 d.2) s
  { s with pd := { s.pd with haltDue := none, failDue := none }, pwr := { s.pwr with resetDue := [] } }

/-! ## GRANTs (R43, R46, R357, R363) -/

/-- The record of the noise tap for Period `n`, once its totals are there; the last 16 are kept (R358). -/
def State.noteNoise (s : State) (n : Nat) : State :=
  match s.coll.totals with
  | some t =>
    if t.period = n then
      let r : NoiseRec := ⟨n, t.nan, t.overflow, t.empty, t.sLocal, t.sRed, s.dpDegree, s.localBatch⟩
      let rs := s.coll.records.filter (fun x => decide (x.period ≠ n)) ++ [r]
      let s : State := { s with coll := { s.coll with records := rs.drop (rs.length - 16) } }
      ((s.put F.CE_NOISE_PERIOD_PERIOD n).put F.CE_NOISE_LOCAL_S_LOCAL t.sLocal).put F.CE_NOISE_RED_S_RED t.sRed
    else s
  | none => s

/-- The noise totals of a Period have come: NOISE_NONFINITE, and a PREPARE that waited for Q goes on (R256, R367). -/
def State.noiseGranted (s : State) (g : GrantPayload) : State :=
  let t : NoiseTotals := ⟨g.period.toNat, g.sLocal.toNat, g.sRed.toNat, g.nan, g.overflow, g.empty⟩
  let s := { s with coll := { s.coll with totals := some t } }
  let s := if g.nan || g.overflow then s.raise (Ev.plain 0x070A 0 7 0) else s
  let begun := decide (s.uu.openCommit = some t.period) || decide (s.get F.PC_COMMITTED_COMMITTED = t.period)
  (if begun then s.noteNoise t.period else s).resumePrepare

/-- A GRANT takes effect in the module: the commit grant and DONE complete of the Period that runs, the noise totals of it, or a round of
a re-shard. A spare only passes it on (R330). -/
def State.granted (s : State) (g : GrantPayload) : State :=
  let own := decide (g.period.toNat = s.get F.PC_PERIOD_PERIOD) && !s.isSpare
  let here := decide (s.pcState = 2) && own
  match g.kind.toNat with
  | 1 => if here && !s.on F.PC_STATUS_GRANT then
      { (s.put F.PC_STATUS_GRANT 1) with pd := { s.pd with grantAt := some s.now } }
    else s
  | 2 => if s.isMaster && here then { s with pd := { s.pd with doneAll := some s.now } } else s
  | 3 => if (here || (decide (s.pcState = 3) && own)) && s.coll.totals.isNone then s.noiseGranted g else s
  | 4 => if s.isSpare then s else s.grantRound g.round.toNat
  | _ => s

/-- A reduction brought forward; on the tick master its GRANT takes effect at once. -/
def State.reduce (s : State) (kind period round : Nat) : State :=
  match s.reduceStep kind period round with
  | (s, some g) => s.granted g
  | (s, none) => s

/-! ## Requests of the Orrex Link that failed (R412, R447) -/

/-- A command whose write of companion memory failed, or that was lost with one, completes with the status: one in flight ends, and one that
has ended with ST_OK has not after all. -/
def State.failCommand (s : State) (ring seq st : Nat) : State :=
  let here (r : CmdRef) : Bool := decide (r.ring = ring ∧ r.seq = seq)
  match s.coll.runs.find? (fun r => here r.cmd), s.flightOf ring seq with
  | some r, _ => s.endColl r (Done.fail st)
  | none, some f => s.endFlight f st
  | none, none => match s.cp.ended.find? (fun e => here e.ref && decide (e.done.status = ST_OK)) with
    | some e =>
      let fail (x : Ended) : Ended := if x = e then { e with done := Done.fail st } else x
      ({ s with cp := { s.cp with ended := s.cp.ended.map fail } } : State).forgetCommand e.cmd st
    | none => s

/-- The agent of a request that failed meets the failure: a ring faults with code 3. -/
def State.meetFailure (s : State) (f : OxlOwner × Nat) : State :=
  match f.1 with
  | .ring k => if s.on (F.CP_RING_STATUS_FAULT k) then s else s.faultRing k 3
  | .command ring seq => s.failCommand ring seq f.2

/-- Every failure of a request met. -/
def State.meetFailures (s : State) : State :=
  s.oxl.failed.foldl State.meetFailure { s with oxl := { s.oxl with failed := [], missing := none } }

/-! ## What goes on by itself -/

/-- A Clause of the current Period found complete; an EVALUATE Clause then gives its results (R170). -/
def State.endClause (s : State) (c : Nat) : State :=
  let s := s.completeClause c
  if s.kindOf c = kindEvaluate then
    let s := s.writeEvaluation (s.get F.PC_PERIOD_PERIOD)
    { s with pd := { s.pd with evaluated := true } }
  else s

/-- Every Clause of the running Period that has become complete. -/
def State.pumpClauses (s : State) : State :=
  if s.pcState = 2 ∨ s.pcState = 3 then ((List.range 16).filter s.clauseReady).foldl State.endClause s else s

/-- The re-shard brought forward, with the reduction of a round that it has landed (R363). -/
def State.pumpRounds (s : State) : State :=
  let s := s.pumpReshard
  match s.coll.reshard with
  | some r => if r.landed then s.reduce 4 (2 ^ 48 - 1) r.round else s
  | none => s

/-- Everything that waits and can go on: collectives, a re-shard, the commit, the shadow engine's transfers, and a halt's end. Nothing
does while the hub is held in reset (R474). -/
def State.pump (s : State) : State :=
  let s := s.pumpClauses
  if !s.hubReady then s
  else
    let s := (s.pumpColl).pumpRounds
    let s := (((s.pumpCommit).pumpClauses).pumpClose).pumpReplay
    (s.pumpFreeze).finishHalting

/-- The command processor's queues: deferred commands enter theirs, and WAITING follows (R145, R440). -/
def State.pumpQueues (s : State) : State := if s.get F.RS_HELD_CP = 0 then ((s.fetchImages).pumpDeferred).putWaiting else s

/-- The end of a step. -/
def State.settle (s : State) : State := ((((((((s.meetFailures).spoil).act).pump).act).pump).act).pumpQueues).act

end Sys2Proof.Machine
end

