-- ==== Sys2Proof/Machine/ClusterRows.lean ====
section
/-!
DEFINITION. Machine/ClusterRows.lean: the meanings of RUN_PROGRAM, SCALE_LEDGER, SET_GRAM_TAP, CONFORMANCE_RUN and of the cluster
retirement rows (chapters 03, 04, 06).
-/
namespace Sys2Proof.Machine

/-! ## RUN_PROGRAM (R110, R112, R118) -/

/-- The encodings of RUN_PROGRAM's parameters (R110). -/
def runParamsOk (p : RunParams) : Bool :=
  decide (p.image.toNat % 64 = 0 ∧ p.stats.toNat % 64 = 0 ∧ 64 ≤ p.imageLen.toNat) &&
    decide (1 ≤ p.clusterCount.toNat ∧ p.clusterFirst.toNat + p.clusterCount.toNat ≤ 256) && decide (p.relocs.length ≤ 32)

/-- The stages in their order (R116), with the counts of the statistics record. -/
def State.runStages (s : State) (ctx : RunCtx) (ts : List Tensor) (sts : List Stage) : Act Stats :=
  (actAll (fun s st => s.runStage ctx ts st) s sts).bind (fun s xs => (s, .ok (xs.foldl Stats.add Stats.zero)))

/-- A program that has passed its checks runs (R118). -/
def State.runChecked (s : State) (h : Hdr) (p : RunParams) (g : Program) (c : CmdRef) : Body :=
  let ctx : RunCtx := ⟨c, h, p.clusterFirst.toNat, p.clusterCount.toNat⟩
  let fail (s : State) (st : Nat) : Body := (s.forgetOutputs g st).fail st
  match s.enterClusters ctx.first ctx.count c with
  | (s, some st) => fail s st
  | (s, none) => match s.runStages ctx g.tensors g.stages with
    | (s, .fail st) => fail s st
    | (s, .ok stats) =>
      let digest := (actAll (fun s t => s.digestBytes t c) s (g.tensors.filter (·.digest))).bind (fun s bs =>
        (s.maybe (if p.stats = 0 then none else some p.stats.toNat) () (fun s a => s.writeAct a stats.bytes c)).bind (fun s _ =>
          (s, .ok (crc64 (bs.flatMap id)))))
      match digest with
      | (s, .fail st) => fail s st
      | (s, .ok d) => s.ok d

/-- RUN_PROGRAM's body. -/
def State.runProgram (s : State) (h : Hdr) (p : RunParams) (c : CmdRef) : Body :=
  if !runParamsOk p then s.fail ST_BAD_PARAM
  else match s.spanFault p.image.toNat p.imageLen.toNat false with
    | some st => s.fail st
    | none => match s.readAt p.image.toNat p.imageLen.toNat (some c) with
      | (s, .error st) => (s.forgetProgram p st).fail st
      | (s, .bytes img) => match s.programOf img p.relocs with
        | none => s.fail ST_BAD_PARAM
        | some g => match s.programFault h p g with
          | some st => s.fail st
          | none => match s.claimSites h g with
            | none => s.fail ST_BAD_PARAM
            | some s => s.runChecked h p g c

/-- A deferred command at a tied use site has completed (R150). -/
def State.tieRan (s : State) (h : Hdr) (p : RunParams) (deferred : Bool) : State :=
  if deferred && (s.flightOf h.ring.val h.seq.toNat).isNone then
    let uses := (s.imageOutputs p.image.toNat p.imageLen.toNat).flatMap s.tiesOf
    { s with cp := { s.cp with tieDone := (uses ++ s.cp.tieDone).eraseDups } }
  else s

/-- RUN_PROGRAM. -/
def execRunProgram (h : Hdr) (p : RunParams) (s : State) : Host.Outcome State Fault Refusal :=
  done ((s.run h 0x20 .any (fun c s => s.runProgram h p c)).tieRan h p (s.deferred h)).settle

/-! ## SCALE_LEDGER (R102, R550) -/

/-- SCALE_LEDGER SETUP. -/
def execScaleLedgerSetup (h : Hdr) (attach : Bool) (address : BitVec 64) (count : BitVec 16) (s : State) :
    Host.Outcome State Fault Refusal :=
  let a := address.toNat
  let n := count.toNat
  done (s.run h 0x22 .notBound (fun _ s =>
    s.guard [(decide (a % 4096 ≠ 0 ∨ n = 0 ∨ 4096 < n ∨ hbmEnd < a + ledgerSize n), ST_BAD_PARAM), (!s.idle, ST_NOT_READY)]
      (fun s => (s.ledgerSetup attach a n).ok 0))).settle

/-- SCALE_LEDGER SET_MODE. -/
def execScaleLedgerSetMode (h : Hdr) (force : Bool) (guard warm : BitVec 16) (s : State) : Host.Outcome State Fault Refusal :=
  done (s.run h 0x22 .notBound (fun c s =>
    s.guard [(decide (warm = 0), ST_BAD_PARAM), (!s.idle, ST_NOT_READY)]
      (fun s => s.withLedger c (fun a s => (s.ledgerSetMode a force guard.toNat warm.toNat).ok 0)))).settle

/-- MARGIN's values: -16 to +16 (R91). -/
def marginOk (m : BitVec 8) : Bool := decide (-16 ≤ marginOf m.toNat ∧ marginOf m.toNat ≤ 16)

/-- SCALE_LEDGER DEFINE. -/
def execScaleLedgerDefine (h : Hdr) (entry count : BitVec 16) (target : BitVec 4) (cls : BitVec 2) (margin : BitVec 8)
    (s : State) : Host.Outcome State Fault Refusal :=
  done (s.run h 0x22 .notBound (fun c s =>
    s.guard [(decide (0xB < target.toNat) || !marginOk margin, ST_BAD_PARAM), (!s.idle, ST_NOT_READY)]
      (fun s => s.withLedger c (fun a s =>
        if a.count < entry.toNat + count.toNat then s.fail ST_BAD_PARAM
        else (s.ledgerDefine a ⟨entry.toNat, count.toNat, target.toNat, cls.toNat, margin.toNat⟩).ok 0)))).settle

/-- SCALE_LEDGER READ. -/
def execScaleLedgerRead (h : Hdr) (address : BitVec 64) (entry count : BitVec 16) (s : State) :
    Host.Outcome State Fault Refusal :=
  let n := ledgerSize count.toNat
  done (s.run h 0x22 .notBound (fun c s =>
    s.guard [(decide (address.toNat % 64 ≠ 0) || !writable address.toNat n, ST_BAD_PARAM)]
      (fun s => s.withLedger c (fun a s =>
        if a.count < entry.toNat + count.toNat then s.fail ST_BAD_PARAM
        else s.readingTable a.address 128 8 c (fun s hd =>
          s.readingTable (a.entry entry.toNat) (128 * count.toNat) 8 c (fun s es =>
            s.writing address.toNat (hd ++ es) c (fun s => s.ok 0))))))).settle

/-- SCALE_LEDGER WARMUP. -/
def execScaleLedgerWarmup (h : Hdr) (s : State) : Host.Outcome State Fault Refusal :=
  done (s.run h 0x22 .notBound (fun c s =>
    s.guard [(!s.idle, ST_NOT_READY)] (fun s => s.withLedger c (fun a s => (s.ledgerWarmup a).ok 0)))).settle

/-! ## SET_GRAM_TAP (R187, R188) -/

/-- SET_GRAM_TAP DEFINE. -/
def execSetGramTapDefine (h : Hdr) (p : GramDef) (s : State) : Host.Outcome State Fault Refusal :=
  done (s.run h 0x21 .notBound (fun c s =>
    s.guard [(!gramDefOk p, ST_BAD_PARAM), (!s.idle, ST_NOT_READY)] (fun s => s.defineSite p c))).settle

/-- SET_GRAM_TAP CLEAR. -/
def execSetGramTapClear (h : Hdr) (site : BitVec 12) (s : State) : Host.Outcome State Fault Refusal :=
  done (s.run h 0x21 .notBound (fun _ s =>
    s.guard [(decide (site = 0), ST_BAD_PARAM), (!s.idle, ST_NOT_READY)] (fun s => s.clearSite site.toNat))).settle

/-- SET_GRAM_TAP RELEASE. -/
def execSetGramTapRelease (h : Hdr) (site : BitVec 12) (s : State) : Host.Outcome State Fault Refusal :=
  done (s.run h 0x21 .notBound (fun _ s =>
    s.guard [(decide (site = 0), ST_BAD_PARAM), (!s.idle, ST_NOT_READY)] (fun s => s.releaseSite site.toNat))).settle

/-! ## CONFORMANCE_RUN (R105, R106) -/

/-- One record of a Conformance Set image (R105). `record` holds its first 40 bytes: what it asks for, with B and C. -/
structure Vector105 where
  record : List Byte
  family : Nat
  op     : Nat
  src    : Nat
  dst    : Nat
  round  : Nat
  id     : Nat
  a      : Nat
  b      : Nat
  c      : Nat
  rand   : Nat
  expect : Nat
  flags  : Nat

/-- A record from its 64 bytes. -/
def Vector105.parse (bs : List Byte) : Vector105 :=
  let w := leAt bs 0 4
  ⟨bs.take 0x28, w % 256, bits w 8 8, bits w 16 4, bits w 20 4, bits w 24 3, leAt bs 4 4, leAt bs 8 8, leAt bs 0x10 8, leAt bs 0x18 8,
    leAt bs 0x20 2, leAt bs 0x28 8, leAt bs 0x30 4⟩

/-- The record holds no reserved rounding or family, and its reserved bytes 0x22 to 0x27 and bits are 0. -/
def Vector105.plain (v : Vector105) : Bool := decide (v.round ≤ 4 ∧ bits (leAt v.record 0 4) 27 5 = 0 ∧ leAt v.record 0x22 6 = 0)

/-- The rounding of a code with the record's RAND (R80, R95, R105). -/
def codeRounding (f : Fmt) (code rand : Nat) : Rnd × Col :=
  match code with
  | 0 => if f = .e4m3 then (.rne, .sat) else (.rne, .inf)
  | 2 => (.rtz, .rtz)
  | 3 => (.sr rand, .inf)
  | 4 => (.rne, .sat)
  | _ => (.rne, .inf)

/-- The result bits and flags of a vector. A CONV vector with OP 0 converts A from SRC to DST; the operations, the roles of B and C and the
operand layouts of the others are in the Set's own documentation, so their results are free, by record and image (log entry 7). -/
def Vector105.result (v : Vector105) (img : List Byte) : Nat × Nat :=
  match v.family, v.op, v.plain, Fmt.ofCode v.src, Fmt.ofCode v.dst with
  | 1, 0, true, some x, some y =>
    let (rnd, col) := codeRounding y v.round v.rand
    let (b, f) := y.convert rnd col (x.decode v.a)
    (b, flag f.overflow + 2 * flag f.saturation + 4 * flag f.underflow + 8 * flag f.nan)
  | _, _, _, _, _ => Config.conformanceResult v.record img

/-- The records of an image: COUNT of them, as far as they lie before the signature. R106 names no status for an image that is otherwise
ill-formed (log entry 124). -/
def conformanceRecords (img : List Byte) : List Vector105 :=
  (List.range (min (leAt img 4 4) ((img.length - 160) / 64))).map (fun i => Vector105.parse ((img.drop (64 * (i + 1))).take 64))

/-- The signature at the image's end (R105): ECDSA P-384 by the conformance key, r and then s, each a big-endian number of 48 bytes (log
entry 125). An image shorter than it has none. -/
def conformanceSigned (img : List Byte) : Bool :=
  let body := img.take (img.length - 96)
  let sig := img.drop (img.length - 96)
  decide (96 ≤ img.length) &&
    ecdsaVerify Config.conformanceKey.1.toNat Config.conformanceKey.2.toNat (ofBE (sig.take 48)) (ofBE (sig.drop 48)) (sha384 body)

/-- The failure record of a vector on an engine (R106). -/
def failureRecord (img : List Byte) (v : Vector105) (engine : Nat) : List Byte :=
  padTo 32 (leBytes 4 v.id ++ leBytes 4 engine ++ leBytes 8 (v.result img).1 ++ leBytes 4 (v.result img).2)

/-- The runs of some vectors, each with the word that names its engine: vector by vector on each cluster in turn, and those of SOLVER on
each Conjugator core instead, of which one stands in for a single cluster. The spec has no cluster ID for a core: its word is free (log
entry 126). -/
def State.conformanceRuns (s : State) (cluster : Nat) (vs : List Vector105) : List (Vector105 × Nat) :=
  let one := decide (cluster < 256)
  let solver (v : Vector105) : Bool := decide (v.family = 4)
  let clusters := if one then [s.physOf cluster] else s.physSet 0 256
  let cores := List.range (if one then 1 else 32)
  clusters.flatMap (fun k => (vs.filter (fun v => !solver v)).map (fun v => (v, k))) ++
    cores.flatMap (fun k => (vs.filter solver).map (fun v => (v, (Config.freeWord (s.draws + k)).toNat % 2 ^ 32)))

/-- The vectors of the chosen families. -/
def conformanceChosen (p : ConformanceParams) (img : List Byte) : List Vector105 :=
  (conformanceRecords img).filter (fun v => decide (p.families = 0) || (decide (1 ≤ v.family) && bit p.families.toNat (v.family - 1)))

/-- The runs whose result or flags are not those that the image expects. -/
def conformanceFailing (img : List Byte) (runs : List (Vector105 × Nat)) : List (Vector105 × Nat) :=
  runs.filter (fun r => decide (r.1.result img ≠ (r.1.expect, r.1.flags)))

/-- CONFORMANCE_RUN's body: the vectors of the chosen families run on the chosen engines, and the runs that fail are listed. -/
def State.conformance (s : State) (p : ConformanceParams) (c : CmdRef) : Body :=
  s.reading p.image.toNat p.imageLen.toNat c (fun s img =>
    if leAt img 2 2 ≠ numRev then s.fail ST_BAD_PARAM
    else if !conformanceSigned img then s.fail ST_SECURITY
    else
      let runs := s.conformanceRuns p.cluster.toNat (conformanceChosen p img)
      let bad := conformanceFailing img runs
      let bytes := (bad.take (p.resultLen.toNat / 32)).flatMap (fun r => failureRecord img r.1 r.2)
      let s : State := { s with draws := s.draws + 32 }
      s.writing p.result.toNat bytes c (fun s => s.ok (bad.length % 2 ^ 32 + runs.length % 2 ^ 32 * 2 ^ 32)))

/-- CONFORMANCE_RUN. -/
def execConformanceRun (h : Hdr) (p : ConformanceParams) (s : State) : Host.Outcome State Fault Refusal :=
  let bad := decide (p.image.toNat % 64 ≠ 0 ∨ p.result.toNat % 64 ≠ 0 ∨ hbmEnd < p.image.toNat + p.imageLen.toNat) ||
    decide (256 ≤ p.cluster.toNat ∧ p.cluster.toNat ≠ 0xFFFF) || !writable p.result.toNat p.resultLen.toNat
  done (s.run h 0x91 .notBound (fun c s =>
    s.guard [(bad, ST_BAD_PARAM), (!s.idle, ST_NOT_READY)] (fun s => s.conformance p c))).settle

/-! ## Cluster retirement (R139 to R143) -/

/-- QC_RETIRE_REQ_WRITE: a write of `QC_RETIRE_REQ`. -/
def execQcRetireReqWrite (quarter : Fin 4) (index : BitVec 7) (persist : Bool) (s : State) : Host.Outcome State Fault Refusal :=
  done (if s.regOpen (Reg.QC_RETIRE_REQ quarter.val) then s.requestRetirement quarter.val index.toNat persist else s)

/-- CLUSTER_RETIREMENT_EFFECT: once no command uses a marked cluster, its retirement takes effect. -/
def execClusterRetirementEffect (cluster : Fin 264) (s : State) : Host.Outcome State Fault Refusal :=
  done (match s.marks.find? (fun m => decide (m.cluster = cluster.val)) with
    | some m =>
      let ls := (s.served (cluster.val / 66) (cluster.val % 66)).map (fun l => 64 * (cluster.val / 66) + l)
      if ls.any s.clusterBusy then s else (s.retireCluster m).settle
    | none => s)

end Sys2Proof.Machine
end

