-- ==== Sys2Proof/Machine/CollectiveRows.lean ====
section
/-!
DEFINITION. Machine/CollectiveRows.lean: the meanings of the collective rows, of NOISE_REPORT, RESHARD and GATHER_WINDOW FETCH, and of the
routed messages of VC 1 and VC 3 (chapters 11, 12).
-/
namespace Sys2Proof.Machine

/-- REDUCE_SCATTER. -/
def execReduceScatter (h : Hdr) (p : CollParams) (s : State) : Host.Outcome State Fault Refusal :=
  done (s.run h 0x30 .any (fun c s => s.collective h 1 p c)).settle

/-- ALL_GATHER. -/
def execAllGather (h : Hdr) (p : CollParams) (s : State) : Host.Outcome State Fault Refusal :=
  done (s.run h 0x30 .any (fun c s => s.collective h 2 p c)).settle

/-- ALL_REDUCE. -/
def execAllReduce (h : Hdr) (p : CollParams) (s : State) : Host.Outcome State Fault Refusal :=
  done (s.run h 0x30 .any (fun c s => s.collective h 3 p c)).settle

/-- BROADCAST. -/
def execBroadcast (h : Hdr) (p : CollParams) (s : State) : Host.Outcome State Fault Refusal :=
  done (s.run h 0x30 .any (fun c s => s.collective h 4 p c)).settle

/-- PERMUTE. -/
def execPermute (h : Hdr) (p : CollParams) (s : State) : Host.Outcome State Fault Refusal :=
  done (s.run h 0x30 .any (fun c s => s.collective h 5 p c)).settle

/-- SEND. -/
def execSend (h : Hdr) (p : CollParams) (s : State) : Host.Outcome State Fault Refusal :=
  done (s.run h 0x30 .any (fun c s => s.collective h 6 p c)).settle

/-- RECV. -/
def execRecv (h : Hdr) (p : CollParams) (s : State) : Host.Outcome State Fault Refusal :=
  done (s.run h 0x30 .any (fun c s => s.collective h 7 p c)).settle

/-- RING_EXCHANGE. -/
def execRingExchange (h : Hdr) (p : CollParams) (s : State) : Host.Outcome State Fault Refusal :=
  done (s.run h 0x30 .any (fun c s => s.collective h 8 p c)).settle

/-- GATHER_WINDOW FETCH. -/
def execGatherFetch (h : Hdr) (slot : Fin 3) (layer : BitVec 16) (s : State) : Host.Outcome State Fault Refusal :=
  done (s.run h 0x14 (.kinds [kindForward, kindBackward, kindEvaluate]) (fun c s => s.gatherFetch h slot.val layer.toNat c)).settle

/-- NOISE_REPORT. -/
def execNoiseReport (h : Hdr) (period : BitVec 48) (count : BitVec 8) (dest : BitVec 48) (s : State) :
    Host.Outcome State Fault Refusal :=
  done (s.run h 0x33 .notBound (fun c s => s.noiseReport period.toNat count.toNat dest.toNat c)).settle

/-- RESHARD START. -/
def execReshardStart (h : Hdr) (p : ReshardParams) (s : State) : Host.Outcome State Fault Refusal :=
  done (s.run h 0x65 .notBound (fun c s => s.reshardStart p c)).settle

/-- RESHARD RESUME. -/
def execReshardResume (h : Hdr) (p : ReshardParams) (s : State) : Host.Outcome State Fault Refusal :=
  done (s.run h 0x65 .notBound (fun c s => s.reshardResume p c)).settle

/-- RESHARD REVERSE. -/
def execReshardReverse (h : Hdr) (p : ReshardParams) (s : State) : Host.Outcome State Fault Refusal :=
  done (s.run h 0x65 .notBound (fun c s => s.reshardReverse p c)).settle

/-- COLLECTIVE_MESSAGE: routed, or consumed by its collective or its re-shard round. -/
def execCollectiveMessage (port : Fin 8) (r : Route) (m : CollHdr) (data : List (BitVec 8)) (s : State) :
    Host.Outcome State Fault Refusal :=
  done (if s.portRuns port.val then
      (match s.routed port.val r.dest.toNat (flitsOf data.length) (subOf 1 r) (fun p => .collective p r m data) with
        | (s, true) => if m.subop = 0 then s.roundMessage port.val r.src.toNat m data else s.collMessage port.val r.src.toNat m data
        | (s, false) => s).settle
    else s)

/-- P2P_MESSAGE: routed, or landed in a posted receive or a LOAD_SHARD stream. -/
def execP2pMessage (port : Fin 8) (r : Route) (m : P2pHdr) (data : List (BitVec 8)) (s : State) : Host.Outcome State Fault Refusal :=
  done (if s.portRuns port.val then
      (match s.routed port.val r.dest.toNat (flitsOf data.length) (subOf (if r.sub.toNat / 2 = 3 then 3 else 1) r) (fun p => .p2p p r m data) with
        | (s, true) => s.p2pMessage port.val r.src.toNat m data
        | (s, false) => s).settle
    else s)

/-- BULK_MESSAGE: routed. No command of the spec sends or takes one, so one delivered here has no further effect (log entry 44). -/
def execBulkMessage (port : Fin 8) (r : Route) (data : List (BitVec 8)) (s : State) : Host.Outcome State Fault Refusal :=
  done (if s.portRuns port.val then
      (match s.routed port.val r.dest.toNat (flitsOf data.length) (subOf 3 r) (fun p => .bulk p r data) with
        | (s, _) => s).settle
    else s)

end Sys2Proof.Machine
end

