-- ==== Sys2Proof/Machine/Period.lean ====
section
/-!
DEFINITION. Machine/Period.lean: the timebase, the plan, the tick, the Clause boundaries, the reports and the commit (R26 to R48,
R57 to R61).
-/
namespace Sys2Proof.Machine

/-- The Period controller operates: enabled, with the hub ready. -/
abbrev State.pcOn (s : State) : Bool := s.on F.PC_CTRL_ENABLE && s.hubReady

/-- Barrier mode. -/
abbrev State.barrier (s : State) : Bool := s.on F.PC_CTRL_MODE

/-! ## TICKREF (R33, R545) -/

/-- The master disciplines its fabric time to TICKREF. -/
abbrev State.tickref (s : State) : Bool := s.isMaster && s.on F.PC_CTRL_TSRC

/-- I in ns. -/
abbrev State.edgeNs (s : State) : Nat := s.get F.PC_TREF_INTERVAL_MS * 1000000

/-- The first edge at or after an instant. -/
def State.firstEdge (s : State) (t : Nat) : Nat := if s.edgeNs = 0 then t else cdiv t s.edgeNs * s.edgeNs

/-- A scheduled start at the earliest at `t`: on an edge where TICKREF is in force. -/
def State.startAt (s : State) (t : Nat) : Nat := if s.tickref then s.firstEdge t else t

/-- PC_TREF and the discipline's own state changed. -/
abbrev State.setTref (s : State) (t : TickRef) : State := { s with pd := { s.pd with tref := t } }

/-- The correction applied to fabric time, signed, in 32 bits (`PC_OFFSET`). -/
def State.putOffset (s : State) (d : Int) : State := s.put F.PC_OFFSET_OFFSET (d % 2 ^ 32).toNat

/-- The first synchronisation: a step of fabric time (R26). -/
def State.synchronise (s : State) (t : Nat) : State :=
  if s.on F.PC_STATUS_SYNCED then s.advance t
  else ((s.putOffset ((t : Int) - s.now)).put F.PC_STATUS_SYNCED 1).put F.PC_FTIME_FTIME t

/-- An edge of TICKREF that the module's clock reads as `t` (R33). An interval that is no whole number of ms from 1 to 1,000 starts the
measurement again. -/
def State.edge (s : State) (t : Nat) : State :=
  let s := s.advance t
  let r := s.pd.tref
  if !s.on F.PC_TREF_LOCKED then
    match r.edge with
    | none => s.setTref { r with edge := some t }
    | some e =>
      let i := (t - e + 500000) / 1000000
      if 1 ≤ i ∧ i ≤ 1000 then ((s.put F.PC_TREF_INTERVAL_MS i).put F.PC_TREF_LOCKED 1).setTref ⟨none, none, 0⟩
      else s.setTref { r with edge := some t }
  else match r.mark with
    | none =>
      let m := s.firstEdge s.now
      (s.synchronise m).setTref ⟨none, some (m + s.edgeNs), 0⟩
    | some m =>
      if t ≤ m + 10000 ∧ m ≤ t + 10000 then
        ((s.putOffset ((m : Int) - t)).put F.PC_STATUS_HOLDOVER 0).setTref ⟨none, some (m + s.edgeNs), 0⟩
      else s

/-- The edge that should have marked an instant has not come (R33). -/
def State.edgeMissing (s : State) : State :=
  match s.pd.tref.mark with
  | none => s
  | some m =>
    let k := s.pd.tref.missing + 1
    let s := ((s.advance (m + 10000)).put F.PC_STATUS_HOLDOVER 1).setTref ⟨none, some (m + s.edgeNs), k⟩
    let s := s.raise (Ev.plain 0x0B02 0 11 0)
    if k = 2 then s.raise (Ev.plain 0x0B03 3 11 0) else s

/-! ## TIME (R26 to R32, R335) -/

/-- MASTER_CONFLICT (R27). -/
abbrev State.masterConflict (s : State) : State := s.raise (Ev.plain 0x0B04 3 11 0)

/-- The tick master sends TIME on every UP port (R28). Its own clock is the machine's: it counts as synchronised from the first one
on (log entry 57). -/
def State.sendTime (s : State) : State :=
  let s := if s.on F.PC_CTRL_TSRC then s else s.put F.PC_STATUS_SYNCED 1
  let s := s.advance (s.pd.lastTime + 100000)
  let p : TimePayload :=
    { masterId := BitVec.ofNat 64 (s.get F.ZF_UNIT_ID_UNIT_ID), origin := BitVec.ofNat 64 s.now, correction := 0, hops := 0,
      sequence := BitVec.ofNat 32 s.pd.nextTimeSeq }
  let s := s.sendEach s.upPorts (fun q => .time q p)
  { s with pd := { s.pd with lastTime := s.now, nextTimeSeq := (s.pd.nextTimeSeq + 1) % 2 ^ 32 } }

/-- The SEQUENCE numbers seen, with one more. Those that the 32-bit count has left half its range behind are dropped, so that a number
counts anew when it comes round again (log entry 57). -/
def seenSequence (l : List Nat) (q : Nat) : List Nat := q :: l.filter (fun x => decide ((q + 2 ^ 32 - x) % 2 ^ 32 < 2 ^ 31))

/-- A first copy goes on to every other UP port, with the link's latency and the residence time added, and one more hop. -/
def State.forwardTime (s : State) (port : Nat) (p : TimePayload) (residence : Nat) : State :=
  if s.pd.timeSeen.contains p.sequence.toNat then s
  else
    let more := p.correction.toNat + s.get (F.ZP_LATENCY_LATENCY port) + residence
    let out : TimePayload := { p with correction := BitVec.ofNat 64 more, hops := p.hops + 1 }
    let s := s.sendEach (s.upPorts.filter (· ≠ port)) (fun q => .time q out)
    { s with pd := { s.pd with timeSeen := seenSequence s.pd.timeSeen p.sequence.toNat } }

/-- The HOPS of a TIME noted at its port. A module without a parent takes the UP port whose first TIME had the fewest, the lower one on a
tie; the choice then stands until that port leaves UP (R335; log entry 57). -/
def State.hopsSeen (s : State) (port hops : Nat) : State :=
  let v := s.port port
  let s := s.setPort port { v with firstHops := if v.firstHops.isNone then some hops else v.firstHops, lastHops := some hops }
  let first (q : Nat) : Nat := (s.port q).firstHops.getD 256
  let best := s.upPorts.foldl (fun b q => if first q < first b then q else b) (s.upPorts.headD port)
  let s := if s.parent.isNone then (s.setParent (some best)).announce else s
  if s.parent = some port then s.put F.ZF_TREE_HOPS (min 255 (hops + 1)) else s

/-- The TIME on the parent port disciplines fabric time while the port's latency is known (R28, R335). After the first synchronisation
the correction is the module's local error, which no rule gives (log entry 57). -/
def State.discipline (s : State) (port : Nat) (p : TimePayload) : State :=
  if !(decide (s.parent = some port) && s.on (F.ZP_STATUS_LAT_OK port)) then s
  else
    let t := (p.origin.toNat + (p.correction.toNat + s.get (F.ZP_LATENCY_LATENCY port)) / 16) % 2 ^ 64
    let was := s.on F.PC_STATUS_SYNCED
    let s := s.synchronise t
    if was then (s.put F.PC_OFFSET_OFFSET ((Config.freeWord s.draws).toNat % 2 ^ 32)).draw.2 else s

/-- A TIME that has arrived. -/
def State.timeArrived (s : State) (port : Nat) (p : TimePayload) (residence : Nat) : State :=
  let (s, kept) := s.takeControl port
  let own := decide (p.masterId.toNat = s.get F.ZF_UNIT_ID_UNIT_ID)
  if !kept then s
  else if s.isMaster then (if own then s else s.masterConflict)
  else if s.pd.masterId.isSome ∧ s.pd.masterId ≠ some p.masterId.toNat then s.masterConflict
  else
    let s := { s with pd := { s.pd with masterId := some p.masterId.toNat } }
    let s := s.hopsSeen port p.hops.toNat
    let s := if s.on F.PC_CTRL_ENABLE then s.discipline port p else s
    let s := (s.put F.PC_STATUS_HOLDOVER 0).forwardTime port p residence
    { s with pd := { s.pd with lastTime := s.now } }

/-! ## Plans (R36, R39, R58, R59) -/

/-- A plan becomes active. -/
def State.activate (s : State) (p : Plan) : State :=
  ({ s with pd := { s.pd with plan := some p, pendingPlan := none } }).put F.PC_PERIOD_GENERATION p.generation.toNat

/-- PERIOD_PLAN's body. Its encodings come first (R14), then TICKREF's state, then R59 and R36. -/
def State.takePlan (s : State) (p : Plan) : Body :=
  let whole := decide (p.periodUs.toNat % (s.get F.PC_TREF_INTERVAL_MS * 1000) = 0)
  s.guard [(!p.clauses.all entryEncoded, ST_BAD_PARAM), (s.tickref && !s.on F.PC_TREF_LOCKED, ST_NOT_READY),
      (s.tickref && !whole, ST_BAD_PARAM)] (fun s =>
    if s.pd.plan = some p then ({ s with pd := { s.pd with pendingPlan := none } }).ok 0
    else if (match s.pd.plan with | some q => decide (q.generation = p.generation) | none => false) then s.fail ST_BAD_PARAM
    else if !planOk p (s.get F.PC_GUARD_GUARD_US) then s.fail ST_BAD_PARAM
    else if s.pcState = 2 ∨ s.pcState = 3 then (({ s with pd := { s.pd with pendingPlan := some p } }).attachWaiting).ok 0
    else ((s.activate p).attachWaiting).ok 0)

/-! ## PERIOD_ARM and PERIOD_HALT (R60, R61) -/

/-- The cursor, the seed and, where it is set, the numerics mode of an armed Period: PERIOD_ARM's, or with REPLAY those of the recorded
Period, whose RFLAGS.GUARDED sets the mode (R56, R95). -/
def State.armInputs (s : State) (p : ArmParams) : Nat × Nat × Option Bool :=
  let record := if p.replay then (match s.pd.replay with | some r => s.findRecord r.period | none => none) else none
  match record with
  | some b => (leAt b 0x20 8, leAt b 0x28 8, some (bit (leAt b 0x0E 2) 2))
  | none => (p.cursor.toNat, p.seed.toNat, none)

/-- The module is ARMED. What an earlier attempt at the Period left is forgotten (R47, R48), the Scale Ledger is made ready (R94 to
R96), and the sample list of the first Period is written (R166). -/
def State.arm (s : State) (p : ArmParams) : State :=
  let first := p.firstPeriod.toNat
  let inputs := s.armInputs p
  let start := if p.startTime = 0 then s.startAt (s.now + 200000) else p.startTime.toNat
  let a : ArmInfo := ⟨first, start, inputs.1, inputs.2.1, p.retry, p.replay, inputs.2.2⟩
  let s : State := { s with pd := { s.pd with
    arm := some a, run := none, sched := none, doneAll := none, tokenSent := none, haltHeld := false, haltAtEnd := false, endToken := false,
    reduceSent := s.pd.reduceSent.filter (fun r => decide (r.kind = 4)) } }
  let s := (s.put F.PC_STATUS_STATE 1).put F.SO_RANK_RANK s.dpRank
  (s.armLedger first).writeSampleList first inputs.1

/-- PERIOD_ARM's body. -/
def State.armPeriod (s : State) (p : ArmParams) : Body :=
  let offEdge := s.tickref && decide (p.startTime ≠ 0) && decide (p.startTime.toNat % (max s.edgeNs 1) ≠ 0)
  s.guard [(decide (p.firstPeriod.toNat ≠ nextPeriod (s.get F.PC_COMMITTED_COMMITTED)), ST_BAD_PARAM),
      ((s.pd.plan.isNone && s.pd.pendingPlan.isNone) || !s.idle, ST_NOT_READY), (offEdge, ST_BAD_PARAM)]
    (fun s => (s.arm p).ok 0)

/-- A halt that PERIOD_HALT asks for now: with the token, or alone. A module that is not armed is HALTED all the same (log entry 58). -/
def State.haltNow (s : State) (machine : Bool) : State :=
  let s := if machine && s.hubReady then s.sendToken 0 else s
  s.takeHalt

/-- PERIOD_HALT's body: the command ends when the module is HALTED. -/
def State.haltPeriodBody (s : State) (machine atEnd : Bool) (c : CmdRef) : Body :=
  if s.pcState = 4 then s.ok 0
  else
    let s := { s with pd := { s.pd with waiters := s.pd.waiters ++ [c] } }
    if s.pcState = 3 then (s, none)
    else if atEnd ∧ s.pcState = 2 ∧ s.get F.PC_STATUS_DONE = 0 then
      ({ s with pd := { s.pd with haltAtEnd := true, endToken := s.pd.endToken || machine } }, none)
    else (s.haltNow machine, none)

/-! ## The tick (R30, R31, R39, R47, R164, R295, R304) -/

/-- The master's next tick: the Period, its start and its run flags; none while it is not to be sent (R30, R33, R39). -/
def State.nextTick (s : State) : Option TickSched :=
  let generation := match s.pd.pendingPlan, s.pd.plan with
    | some q, _ => q.generation.toNat
    | none, some p => p.generation.toNat
    | none, none => 0
  if s.pd.sched.isSome || s.pd.haltHeld || s.pd.haltAtEnd then none
  else if s.pcState = 1 then
    s.pd.arm.map (fun a => ⟨a.first, a.startTime, generation, a.retry, a.replay, s.barrier⟩)
  else if s.pcState = 2 ∧ (s.pd.run.all (fun r => !r.replay)) then
    let next (t : Nat) : TickSched := ⟨nextPeriod (s.get F.PC_PERIOD_PERIOD), t, generation, false, false, s.barrier⟩
    if s.barrier then s.pd.doneAll.map (fun t => next (s.startAt (t + 200000)))
    else s.pd.plan.map (fun p => next (s.get F.PC_TICK_TICK + p.periodUs.toNat * 1000))
  else none

/-- A scheduled tick as TICK carries it. -/
def tickPayload (t : TickSched) : TickPayload :=
  { period := BitVec.ofNat 48 t.period, start := BitVec.ofNat 64 t.start, generation := BitVec.ofNat 8 t.generation, retry := t.retry,
    replay := t.replay, barrier := t.barrier }

/-- TICK sent down the tree. -/
def State.tickDown (s : State) (p : TickPayload) : State := s.sendEach (s.children.filter s.portUp) (fun q => .tick q p)

/-- The tick of Period `n` cannot be taken: an event and no start. -/
def State.refuseTick (s : State) (e : Ev) : State := ({ s with pd := { s.pd with sched := none } }).raise e

/-- The inputs of the Period that starts. -/
def State.runInfo (s : State) (t : TickSched) : RunInfo :=
  let armed := match s.pd.arm with
    | some a => if s.pcState = 1 then some a else none
    | none => none
  let seed := match s.pd.arm with
    | some a => a.seed
    | none => 0
  match armed with
  | some a => ⟨a.cursor, seed, a.retry || t.retry, a.replay, t.barrier⟩
  | none => ⟨s.get F.PC_CURSOR_CURSOR, seed, t.retry, false, t.barrier⟩

/-- The numerics mode of the Period that starts (R95): the Scale Ledger's, or in replay mode the recorded one. -/
def State.modeOf (s : State) (n : Nat) : Bool :=
  match s.pd.arm with
  | some a => if s.pcState = 1 then a.guarded.getD (s.ledgerGuarded n) else s.ledgerGuarded n
  | none => s.ledgerGuarded n

/-- The Period's own state as it begins. -/
def State.beginPeriod (s : State) (t : TickSched) : State :=
  let n := t.period
  let run := s.runInfo t
  let runs (c : Nat) : Bool := match planEntry s.pd.plan c with
    | some e => entryRuns e n
    | none => false
  let reports := s.pd.reduceIn.filter (fun r => decide (r.p.kind.toNat = 4) || decide (r.p.period.toNat = n))
  let pd : PdState := { s.pd with
    run := some run, sched := none, clauses := (List.range 16).map (fun c => ⟨runs c, false, false, none, false⟩), readySent := false,
    grantAt := none, reduceIn := reports, reduceSent := s.pd.reduceSent.filter (fun r => decide (r.kind = 4)), upPort := s.parent,
    downPorts := s.children, doneAll := none, entries := [], entryCount := 0, events := 0, evaluated := false, evalOuts := [],
    maskIds := s.maskTableIds, maskWrites := [], maskedOuts := [],
    fatal := false, guarded := s.modeOf n }
  let cp : CpState := { s.cp with
    closes := s.cp.closes.filter (fun x => decide (n ≤ x.period)), deferFullNoted := false, tieDone := [],
    tieEntered := s.cp.tieEntered.filter (fun x => decide (n ≤ x.1)) }
  let s : State := { s with
    pd := pd, cp := cp, num := { s.num with pending := [], eval := [] }
    coll := { s.coll with noise := ⟨0, 0, false, false, false⟩, totals := none } }
  let s := (((s.put F.PC_PERIOD_PERIOD n).put F.PC_TICK_TICK t.start).put F.PC_STATUS_STATE 2).put F.PC_STATUS_GRANT 0
  ((s.put F.PC_STATUS_DONE 0).put F.PC_STATUS_ACTIVE 0).setModule 7

/-- The tick of Period `n` throughout the module: update units, Gram taps, an armed swap, the gather windows, and the commands bound to
the Period. -/
def State.tick (s : State) (t : TickSched) : State :=
  let s := match s.pd.pendingPlan with
    | some q => if q.generation.toNat = t.generation then s.activate q else s
    | none => s
  let s := (s.beginPeriod t).tickUpdate.tickGram
  let s := (s.tickSwap t.period).dropWindows
  (s.attachWaiting).checkAttached t.period

/-- The scheduled start has come: the tick, or the event that prevents it. -/
def State.startPeriod (s : State) (t : TickSched) (late : Bool) : State :=
  let s := (s.advance t.start).touchCritical 4 0
  let isOver := decide (s.pcState = 2) && decide (s.get F.PC_STATUS_DONE = 0)
  if isOver && s.barrier then s
  else if isOver then (s.bump F.PC_OVERRUNS_COUNT 1).refuseTick (Ev.plain 0x0B09 3 11 0)
  else if (s.planOf t.generation).isNone then s.refuseTick (Ev.plain 0x0B05 3 11 0)
  else if s.pcState = 1 ∧ s.on F.SO_CTRL_ENABLE ∧ s.sampleOrderBad then
    (s.put F.SO_STATUS_ERROR 1).refuseTick (Ev.plain 0x0B0D 3 11 0)
  else
    let s := s.tick t
    if late then s.raise (Ev.plain 0x0B01 0 11 0) else s

/-- A module that takes part in the Period takes the tick of a Period that it waits for: FIRST_PERIOD while ARMED, the next one while
RUNNING, and none while it holds a halt token (R47, R60). -/
def State.takesTick (s : State) (p : TickPayload) : Bool :=
  s.pcOn && !s.isSpare && !s.pd.haltHeld && s.pd.sched.isNone &&
    (if s.pcState = 1 then (match s.pd.arm with | some a => decide (a.first = p.period.toNat) | none => false)
     else decide (s.pcState = 2) && decide (p.period.toNat = nextPeriod (s.get F.PC_PERIOD_PERIOD)))

/-- A spare's tree for the reductions of Period `n`, as of its TICK (R336). What an earlier attempt at the Period has left is forgotten,
so that its reductions and its halt token run again (R48). -/
def State.spareTick (s : State) (n : Nat) : State :=
  { s with pd := { s.pd with
    upPort := s.parent, downPorts := s.children
    tokenSent := if s.pd.tokenSent = some n then none else s.pd.tokenSent
    reduceIn := s.pd.reduceIn.filter (fun r => decide (r.p.kind.toNat = 4))
    reduceSent := s.pd.reduceSent.filter (fun r => decide (r.kind = 4)) } }

/-- The reports of a spare for a Period: true, and no sums, once its children have reported (R330). -/
def State.spareReports (s : State) (n : Nat) : State :=
  [1, 2, 3].foldl (fun (s : State) k => (s.noteReport ⟨8, plainReport k n 0⟩).reduce k n 0) s

/-- A TICK that has arrived from the parent: passed on, and scheduled, or begun at once when its start has passed (R31). -/
def State.tickArrived (s : State) (port : Nat) (p : TickPayload) : State :=
  let (s, kept) := s.takeControl port
  if !kept then s
  else if s.isMaster then s.masterConflict
  else if s.parent ≠ some port then s
  else
    let s := s.tickDown p
    if s.isSpare then (s.spareTick p.period.toNat).spareReports p.period.toNat
    else if !s.takesTick p then s
    else
      let t : TickSched := ⟨p.period.toNat, p.start.toNat, p.generation.toNat, p.retry, p.replay, p.barrier⟩
      let s := { s with pd := { s.pd with sched := some t } }
      if t.start < s.now then s.startPeriod t true else s

/-! ## Clause boundaries (R37, R41, R215, R219, R221, R423) -/

/-- A Clause that has its deadline now or had it before, in µs after the tick. -/
def State.deadlineFalls (s : State) (us c : Nat) : Bool :=
  (s.clause c).runs && !(s.clause c).passed &&
    (match planEntry s.pd.plan c with | some e => decide (e.deadlineUs.toNat ≤ us) | none => false)

/-- A Clause that has its start now or had it before. -/
def State.startFalls (s : State) (us c : Nat) : Bool :=
  (s.clause c).runs && !(s.clause c).started && !(s.clause c).missed &&
    (match planEntry s.pd.plan c with | some e => decide (e.startUs.toNat ≤ us) | none => false)

/-- The work of a soft Clause is abandoned: its jobs, its transfers, and its commands, but for the jobs that a replayed record marks. -/
def State.abandonWork (s : State) (c : Nat) : State :=
  let n := s.get F.PC_PERIOD_PERIOD
  let s := s.jobDeadline c
  let kept (r : CmdRef) : Bool := s.cj.jobs.any (fun j => sameCmd j.cmd r)
  let mine (f : Flight) : Bool := decide (f.attach = some (n, c)) && !kept f.ref
  let refs := (s.cp.flights.filter mine).map (·.ref)
  let s := s.stopColl ST_DEADLINE (fun r => refs.any (sameCmd r))
  (s.cp.flights.filter mine).foldl (fun (s : State) f => s.endFlight f ST_DEADLINE) s

/-- The outputs of an abandoned EVALUATE Clause are discarded (R41): its counters, and what its commands have written, which becomes
undefined (log entry 100). -/
def State.discardEvaluation (s : State) (c : Nat) : State :=
  let outs := s.pd.evalOuts.filter (fun o => decide (o.clause = c))
  let s := outs.foldl (fun (s : State) o => s.forgetAt o.addr o.len) s
  { s with num := { s.num with eval := [] } }

/-- What is left of a Clause at its deadline is only jobs that a replayed record marks as published: the module waits for them (R56,
R221). -/
def State.waitsForMarked (s : State) (c : Nat) : Bool :=
  let marked (r : CmdRef) : Bool := s.cj.jobs.any (fun j => j.marked && decide (j.clause = c) && sameCmd j.cmd r)
  let open_ := s.cp.flights.filter (fun f => decide (f.attach = some (s.get F.PC_PERIOD_PERIOD, c)))
  !open_.isEmpty && open_.all (fun f => marked f.ref)

/-- The deadline of a Clause (R40, R41). A hard one that is missed in Barrier mode with BDL = 0 raises CLAUSE_LATE and sets no bit of
`PC_MISS` (log entry 115). -/
def State.clauseDeadline (s : State) (c : Nat) : State :=
  let v := s.clause c
  let s := (s.setClause c { v with passed := true }).setActive c false
  if v.complete.isSome then s
  else if softKind (s.kindOf c) && s.waitsForMarked c then s
  else if softKind (s.kindOf c) then
    let s := (s.abandonWork c).setClause c { v with passed := true, missed := true }
    let s := ((s.putBit F.PC_MISS_SOFT c true).clauseEnd c false).lateSlack c
    if s.kindOf c = kindEvaluate then (s.discardEvaluation c).raise ⟨0x0B08, 2, 11, 0, c, false, none⟩ else s
  else if s.barrier && !s.on F.PC_CTRL_BDL then s.raise ⟨0x0B07, 0, 11, 0, c, false, none⟩
  else (s.putBit F.PC_MISS_HARD c true).raise ⟨0x0B06, 3, 11, 0, c, false, none⟩

/-- A Clause starts; in replay mode a PRECONDITION Clause waits for the recorded publications (R221). -/
def State.startClause (s : State) (c : Nat) : State :=
  let held := s.replaying && decide (s.kindOf c = kindPrecondition) && !s.replayPublished
  if held then s
  else
    let v := s.clause c
    (s.setClause c { v with started := true }).setActive c (!v.passed)

/-- One boundary, at an instant after the tick: deadlines, publications, starts (R215), and what is complete then. After a fatal event
or a halt nothing more happens. -/
def State.boundary (s : State) (us : Nat) : State :=
  if s.pd.haltDue.isSome || s.pd.failDue.isSome then s
  else
    let s := s.advance (s.instant us)
    let s := ((List.range 16).filter (s.deadlineFalls us)).foldl State.clauseDeadline s
    let s := s.publish
    let s := ((List.range 16).filter (s.startFalls us)).foldl State.startClause s
    s.pumpClauses

/-- The boundaries of the Period up to an instant, in order (R37). -/
def State.boundaryTimes (s : State) (us : Nat) : List Nat :=
  let es : List ClauseEntry := (((List.range 16).filter (fun c => (s.clause c).runs)).map (planEntry s.pd.plan)).filterMap id
  let ts := es.flatMap (fun e => [e.startUs.toNat, e.deadlineUs.toNat])
  (sortBy (fun a b => decide (a ≤ b)) (ts.filter (fun t => decide (t ≤ us)))).eraseDups

/-- Fabric time has reached a boundary. -/
def State.reachBoundary (s : State) (us : Nat) : State := (s.boundaryTimes us).foldl State.boundary (s.touchCritical 4 0)

/-- A Period runs, or is being finished after a halt. -/
abbrev State.inPeriod (s : State) : Bool := (decide (s.pcState = 2) || decide (s.pcState = 3)) && s.hubReady

/-! ## Reports (R42, R336, R357) -/

/-- The module's own report of a kind for the running Period, sent once. -/
def State.report_ (s : State) (p : ReducePayload) : State :=
  (s.noteReport ⟨8, p⟩).reduce p.kind.toNat p.period.toNat p.round.toNat

/-- READY_TO_COMMIT. -/
def State.reportReady (s : State) : State :=
  let s := { s with pd := { s.pd with readySent := true } }
  s.report_ (plainReport 1 (s.get F.PC_PERIOD_PERIOD) 0)

/-- DONE (R42): a lagging shadow is STALE (R382), the record is closed, the report goes out, and a halt at the end of the Period is taken
(R56, R61). -/
def State.reportDone (s : State) : State :=
  let n := s.get F.PC_PERIOD_PERIOD
  let s := (s.staleAtDone n).closeRecord n
  let s := (s.put F.PC_STATUS_DONE 1).report_ (plainReport 2 n 0)
  if s.pd.haltAtEnd || (s.pd.run.any (·.replay)) then s.haltNow s.pd.endToken else s

/-- The noise tap's sums as REDUCE carries them. -/
def State.noiseReportOf (s : State) : ReducePayload :=
  let t := s.coll.noise
  { plainReport 3 (s.get F.PC_PERIOD_PERIOD) 0 with
    sLocal := BitVec.ofInt 640 t.sLocal, sRed := BitVec.ofInt 640 t.sRed, nan := t.nan, overflow := t.overflow, empty := !t.fed }

/-- The noise tap has been reported for the running Period. -/
def State.noiseReported (s : State) : Bool :=
  let n := s.get F.PC_PERIOD_PERIOD
  s.pd.reduceSent.contains ⟨3, n, 0⟩ ||
    s.pd.reduceIn.any (fun r => decide (r.port = 8) && decide (r.p.kind.toNat = 3) && decide (r.p.period.toNat = n))

/-- A REDUCE that has arrived: kept until every child and the module have reported. A spare adds nothing of its own (R330). -/
def State.reduceArrived (s : State) (port : Nat) (p : ReducePayload) : State :=
  let (s, kept) := s.takeControl port
  if !kept then s
  else
    let s := s.noteReport ⟨port, p⟩
    let s := if s.isSpare then s.noteReport ⟨8, plainReport p.kind.toNat p.period.toNat p.round.toNat⟩ else s
    s.reduce p.kind.toNat p.period.toNat p.round.toNat

/-- A GRANT that has arrived from the parent: passed down, and applied. -/
def State.grantArrived (s : State) (port : Nat) (p : GrantPayload) : State :=
  let (s, kept) := s.takeControl port
  if kept && decide ((s.treeNow p.kind.toNat).1 = some port) then (s.grantDown p).granted p else s

/-! ## The commit (R44, R94, R166, R185, R217, R268, R358, R515) -/

/-- The commit of the running Period: every part of its training state. An APPLY, and the close of the ledger, follow as soon as they can
(`State.pumpCommit`). -/
def State.commitPeriod (s : State) : State :=
  let n := s.get F.PC_PERIOD_PERIOD
  let consumed := s.consumedSites
  let cursor := s.nextCursor
  let s := ((s.commitHeader n cursor).commitLedger n).commitGram n consumed
  let s := (s.commitRoots n).noteNoise n
  let ended := (List.range 16).filter (fun c => (s.clause c).runs && ((s.clause c).complete.isSome || (s.clause c).missed))
  let s := ended.foldl State.sampleSlack s
  s.writeSampleList (nextPeriod n) cursor

/-- The commit can begin: granted, at the UPDATE start or later, and not yet begun. -/
def State.mayCommit (s : State) : Bool :=
  let n := s.get F.PC_PERIOD_PERIOD
  s.inPeriod && s.on F.PC_STATUS_GRANT && s.uu.openCommit.isNone && decide (s.get F.PC_COMMITTED_COMMITTED ≠ n) &&
    decide (s.get F.PW_STATUS_STATE ≠ 11) && (s.runningClauses [kindUpdate]).all (fun c => (s.clause c).started)

/-! ## The halt token (R45, R46) -/

/-- A HALT that has arrived: the first one for its Period is passed on and acted on. -/
def State.haltArrived (s : State) (port : Nat) (p : HaltPayload) : State :=
  let (s, kept) := s.takeControl port
  if !kept || decide (s.pd.tokenSent = some p.period.toNat) then s else (s.passToken p).haltReceived

end Sys2Proof.Machine
end

