-- ==== Sys2Proof/Machine/Checkpoint.lean ====
section
/-!
DEFINITION. Machine/Checkpoint.lean: CHECKPOINT_OUT and CHECKPOINT_IN (R400 to R402, R498). The image holds the header, the directory, and
then for each section its stored chunks followed by its list of CRCs, in the order of the directory (log entry 52).
-/
namespace Sys2Proof.Machine

/-- A key slot that holds a key. -/
def State.keySlot (s : State) (h : Nat) : Option KeySlot := s.sec.slots.find? (fun k => decide (k.handle = h))

/-- The security block refuses keys: revoked, or the keys zeroised (R501, R502). -/
abbrev State.revoked (s : State) : Bool := s.on F.SC_STATUS_REVOKED

/-- The key of a checkpoint (R498): none for KEY 0; refused when the slot is empty, lacks the USAGE bit, or the module is revoked. -/
def State.checkpointKey (s : State) (handle use : Nat) : Option (Option (List Byte)) :=
  if handle = 0 then some none
  else if s.revoked then none
  else match s.keySlot handle with
    | some k => if bit k.usage use then some (some k.key) else none
    | none => none

/-! ## Sections (R401) -/

/-- A section: KIND, ITEM and its bytes. -/
structure Section where
  kind : Nat
  item : Nat
  data : List Byte

/-- What is read for each section, in order: the ranges whose bytes follow one another. -/
def State.sectionRanges (s : State) : List (Nat × Nat × List (Nat × Nat)) :=
  let ledger := [(1, 0, [(s.shardLedger, 0x80 + 16 * s.uu.tensors)])]
  let tensors := s.params.zipIdx.map (fun p =>
    let e := p.1
    let t := p.2
    let r := s.rule e.rule
    (2, t, [(s.tableBase + 128 * t, 128), (e.master, 4 * e.count), (e.plane, e.count)]
      ++ (if r.keeps then [(e.moment, r.momentBytes * e.count)] else [])
      ++ (if r.vectors then [(s.vectorsNow t e, 4 * (e.rows + e.cols))] else [])))
  let roots := s.rootEntries.map (fun e =>
    let b := s.rootBytes e
    (3, e, (s.rootAddr e, 128) :: (s.rootParts b (rtCommitted b)).map (fun p => (p.2.1, p.2.2))))
  let scale := match s.ledger with
    | some a => [(4, 0, [(a.address, ledgerSize a.count)])]
    | none => []
  let sites := s.gram.map (fun g => (5, g.id, [(g.base, 0x40), (g.sAddr, g.count * g.blockBytes)]))
  ledger ++ tensors ++ roots ++ scale ++ sites

/-- The sections of the module's state, with the rules last. -/
def State.sections (s : State) (c : CmdRef) : Act (List Section) :=
  (actAll (fun (s : State) (x : Nat × Nat × List (Nat × Nat)) =>
    (actAll (fun (s : State) (r : Nat × Nat) => s.readAct r.1 r.2 c) s x.2.2).bind (fun s bs =>
      (s, .ok (⟨x.1, x.2.1, bs.flatMap id⟩ : Section)))) s s.sectionRanges).bind (fun s xs =>
        (s, .ok (xs ++ [⟨6, 0, (List.range 256).flatMap s.ruleBytes⟩])))

/-- The image key (R498). -/
def imageKey (key : List Byte) (head : List Byte) : List Byte := hkdf384 key [] head

/-- The IV of chunk `i` of section `s`. -/
def chunkIv (s i : Nat) : List Byte := leBytes 4 s ++ leBytes 4 i ++ leBytes 4 0

/-- The stored chunks of a section's data. -/
def storedChunks (key : Option (List Byte)) (idx : Nat) (entry data : List Byte) : List (List Byte) :=
  (pieces mebi data).zipIdx.map (fun p => match key with
    | none => p.1
    | some k => let r := gcmEncrypt k (chunkIv idx p.2) entry p.1; r.1 ++ r.2)

/-- The bytes that a section of `n` data bytes occupies. -/
def storedSize (encrypted : Bool) (n : Nat) : Nat := n + (if encrypted then 16 * cdiv n mebi else 0)

/-- The directory: each section's entry, laid out from `at_` on. -/
def directory (encrypted : Bool) : List Section → Nat → List (List Byte)
  | [], _ => []
  | x :: xs, at_ =>
    let n := x.data.length
    let list := at_ + storedSize encrypted n
    (leBytes 2 x.kind ++ leBytes 2 x.item ++ leBytes 4 0 ++ leBytes 8 at_ ++ leBytes 8 n ++ leBytes 8 list)
      :: directory encrypted xs (list + 8 * cdiv n mebi)

/-- The bytes of an image with these sections. -/
def imageSize (encrypted : Bool) (xs : List Section) : Nat :=
  128 + 32 * xs.length + sumList (xs.map (fun x => storedSize encrypted x.data.length + 8 * cdiv x.data.length mebi))

/-- The header's bytes 0x00 to 0x77. -/
def State.imageHead (s : State) (encrypted : Bool) (sections length : Nat) : List Byte :=
  leBytes 2 1 ++ leBytes 2 numRev ++ leBytes 4 sections ++ leBytes 8 length ++ leBytes 8 (s.get F.PC_COMMITTED_COMMITTED)
    ++ leBytes 8 s.jobSeed ++ leBytes 8 (s.get F.PC_CURSOR_CURSOR)
    ++ leBytes 8 (s.get F.ZF_LOGICAL_LOGICAL + 2 ^ 24 * s.get F.ZF_LDIM_DIM)
    ++ leBytes 8 (flag s.ledOverride + 2 * flag encrypted) ++ List.replicate 64 0

/-- The image. -/
def State.image (s : State) (key : Option (List Byte)) (xs : List Section) : List Byte :=
  let enc := key.isSome
  let dir := directory enc xs (128 + 32 * xs.length)
  let head := s.imageHead enc xs.length (imageSize enc xs)
  let head := head ++ leBytes 8 (crc64 (head ++ dir.flatMap id))
  let k := key.map (fun k => imageKey k head)
  let bodies := (xs.zip dir).zipIdx.flatMap (fun p =>
    let cs := storedChunks k p.2 p.1.2 p.1.1.data
    cs.flatMap id ++ cs.flatMap (fun c => leBytes 8 (crc64 c)))
  head ++ dir.flatMap id ++ bodies

/-- CHECKPOINT_OUT. -/
def State.checkpointOut (s : State) (dest len handle : Nat) (c : CmdRef) : Body :=
  s.guard [(decide (64 < handle), ST_BAD_PARAM), (!s.idle || !s.tableAttached || decide (s.ledPhase ≠ 0), ST_NOT_READY)] (fun s =>
    match s.checkpointKey handle 0 with
    | none => s.fail ST_SECURITY
    | some key =>
      (s.sections c).body (fun s xs =>
        let n := imageSize key.isSome xs
        if len < n then s.fail ST_BAD_PARAM
        else match s.spanFault dest n true with
          | some st => s.fail st
          | none =>
            let img := s.image key xs
            s.writing dest img c (fun s => s.ok (leAt img 0x78 8))))

/-! ## CHECKPOINT_IN (R402) -/

/-- A section as read back: its entry, and its data, or the status that its first bad chunk gives. -/
structure ReadSection where
  kind : Nat
  item : Nat
  data : List Byte
  bad  : Option Nat

/-- A section's stored chunks checked against its list, and decrypted. -/
def openSection (key : Option (List Byte)) (idx : Nat) (entry stored : List Byte) (crcs : List Nat) : List Byte × Option Nat :=
  let size := if key.isSome then mebi + 16 else mebi
  let chunks := pieces size stored
  ((chunks.zip crcs).zipIdx).foldl (fun (acc : List Byte × Option Nat) p =>
    let c := p.1.1
    if acc.2.isSome then acc
    else if crc64 c ≠ p.1.2 then (acc.1, some ST_DIGEST)
    else match key with
      | none => (acc.1 ++ c, none)
      | some k =>
        let m := c.length - 16
        match gcmDecrypt k (chunkIv idx p.2) entry (c.take m) (c.drop m) with
        | some d => (acc.1 ++ d, none)
        | none => (acc.1, some ST_SECURITY)) ([], none)

/-- Every section of an image at `src`, by its directory. -/
def State.readSections (s : State) (src : Nat) (key : Option (List Byte)) (dir : List (List Byte)) (c : CmdRef) : Act (List ReadSection) :=
  actAll (fun (s : State) (p : List Byte × Nat) =>
    let d := p.1
    let n := leAt d 0x10 8
    (s.readAct (src + leAt d 8 8) (storedSize key.isSome n) c).bind (fun s bs =>
      (s.readAct (src + leAt d 0x18 8) (8 * cdiv n mebi) c).bind (fun s cs =>
        let r := openSection key p.2 d bs ((pieces 8 cs).map ofLE)
        (s, .ok (⟨leAt d 0 1, leAt d 2 2, r.1, r.2⟩ : ReadSection))))) s dir.zipIdx

/-- A section that can be read agrees with the module (R402): its rules, or the geometry of its tensor. -/
def State.sectionFits (s : State) (x : ReadSection) : Bool :=
  x.bad.isSome ||
  (if x.kind = 6 then decide (x.data = (List.range 256).flatMap s.ruleBytes)
   else if x.kind = 2 then
    let own := nth s.params x.item (Param.of [])
    let other := Param.of (x.data.take 128)
    decide (x.item < s.uu.tensors) && geometryOk own other (s.rule own.rule) (s.rule other.rule)
   else true)

/-- Consecutive parts of some bytes written to their places. -/
def State.scatter (s : State) (bs : List Byte) : List (Nat × Nat) → State
  | [] => s
  | (a, n) :: rest => State.scatter (s.own a (bs.take n)) (bs.drop n) rest

/-- One section written as R396 and R402 say; the ledger's own section gives VSTEP at the close. -/
def State.writeSection (s : State) (x : ReadSection) : State :=
  match x.kind with
  | 2 =>
    let e := nth s.params x.item (Param.of [])
    let r := s.rule e.rule
    s.scatter (x.data.drop 128) ([(e.master, 4 * e.count), (e.plane, e.count)]
      ++ (if r.keeps then [(e.moment, r.momentBytes * e.count)] else [])
      ++ (if r.vectors then [(s.vectorsNow x.item e, 4 * (e.rows + e.cols))] else []))
  | 3 =>
    if s.get F.CJ_ROOT_COUNT_COUNT ≤ x.item then s
    else
      let b := x.data.take 128
      let slot := rtCommitted b
      let own := s.rootBytes x.item
      let sizes := (s.rootParts b slot).map (·.2.2)
      let s := s.scatter (x.data.drop 128) ([rtRoot own 0, rtAux own 0, rtAvg own 0].zip sizes)
      s.restoreRoot x.item (rtFprint b slot) (rtValid b slot) (leAt b 0x70 6)
  | 4 => (match s.num.attach with
    | some a => s.own a.address (x.data.take (ledgerSize a.count))
    | none => s)
  | 5 => (match s.site x.item with
    | some g => (s.scatter x.data [(g.base, 0x40), (g.sAddr, g.count * g.blockBytes)]).clearPending g
    | none => s)
  | _ => s

/-- The sections written in order, up to one that is bad: its status. -/
def State.writeSections (s : State) : List ReadSection → State × Option Nat
  | [] => (s, none)
  | x :: xs => match x.bad with
    | some st => (s, some st)
    | none => State.writeSections (s.writeSection x) xs

/-- The image's sections taken in, once its header is good. -/
def State.takeImage (s : State) (h : List Byte) (xs : List ReadSection) (c : CmdRef) : Body :=
  let period := leAt h 0x10 6
  let tensors := (xs.filter (fun x => decide (x.kind = 2))).map (·.item)
  let roots := (xs.filter (fun x => decide (x.kind = 3))).length
  if leAt h 2 2 ≠ numRev ∨ ¬ xs.all s.sectionFits ∨ ¬ allBelow s.uu.tensors tensors.contains then s.fail ST_BAD_PARAM
  else if s.get F.CJ_ROOT_COUNT_COUNT < roots then s.fail ST_NOT_READY
  else match (s.openRestore period).writeSections xs with
    | (s, some st) => s.fail st
    | (s, none) =>
      let led := ((xs.find? (fun x => decide (x.kind = 1))).map (·.data)).getD []
      let s := s.formWork.closeRestore period (leAt h 0x20 8) (bit (leAt h 0x30 8) 0) (fun t => leAt led (0x80 + 16 * t) 6)
      let s := (s.adoptRestored period (leAt h 0x20 8) (leAt h 0x18 8)).noteOverride c
      s.ok s.ledDigest

/-- CHECKPOINT_IN. -/
def State.checkpointIn (s : State) (src len handle : Nat) (c : CmdRef) : Body :=
  s.guard [(decide (64 < handle), ST_BAD_PARAM), (!s.mayRestore, ST_NOT_READY)] (fun s =>
    match s.checkpointKey handle 1 with
    | none => s.fail ST_SECURITY
    | some key =>
      if len < 128 then s.fail ST_BAD_PARAM
      else match s.spanFault src len false with
        | some st => s.fail st
        | none => (s.readAct src 128 c).body (fun s h =>
          let n := leAt h 4 4
          if len < 128 + 32 * n then s.fail ST_DIGEST
          else (s.readAct (src + 128) (32 * n) c).body (fun s dirBytes =>
            if leAt h 0 2 ≠ 1 ∨ crc64 (h.take 0x78 ++ dirBytes) ≠ leAt h 0x78 8 then s.fail ST_DIGEST
            else if bit (leAt h 0x30 8) 1 ≠ key.isSome then s.fail ST_SECURITY
            else
              let dir := pieces 32 dirBytes
              let inside (d : List Byte) : Bool :=
                decide (leAt d 8 8 + storedSize key.isSome (leAt d 0x10 8) ≤ len ∧ leAt d 0x18 8 + 8 * cdiv (leAt d 0x10 8) mebi ≤ len)
              if !dir.all inside then s.fail ST_BAD_PARAM
              else (s.readSections src (key.map (fun k => imageKey k h)) dir c).body (fun s xs => s.takeImage h xs c))))

end Sys2Proof.Machine
end

