-- ==== Sys2Proof/Machine/Packet.lean ====
section
/-!
DEFINITION. Machine/Packet.lean: from the bytes of a packet to the command it carries (R13 to R17, R415 to R417, R437), by the header of R415
and the parameter tables of the opcodes' owning chapters.
-/
namespace Sys2Proof.Machine

/-! ## Parameter areas -/

/-- A parameter field: the byte offset of its word, its lowest bit there, and its width. -/
structure PField where
  off : Nat
  lo  : Nat
  len : Nat

/-- An opcode's defined parameter area (R416): its bytes, and the fields in it. Every other bit is reserved. -/
structure Area where
  bytes  : Nat
  fields : List PField

/-- The value of a field, the parameters read as one little-endian number. -/
abbrev pfield (v off lo len : Nat) : Nat := v / 2 ^ (8 * off + lo) % 2 ^ len

/-- The bits that the fields take. -/
def Area.mask (a : Area) : Nat := a.fields.foldl (fun m f => m ||| ((2 ^ f.len - 1) * 2 ^ (8 * f.off + f.lo))) 0

/-- `count` elements of `stride` bytes from `off` on, each with the given fields. -/
def Area.withList (a : Area) (off stride count : Nat) (fs : List PField) : Area :=
  { bytes := max a.bytes (off + stride * count)
    fields := a.fields ++ (List.range count).flatMap (fun i => fs.map (fun f => { f with off := off + stride * i + f.off })) }

/-- Parameters of `n` bytes fill an area and leave its reserved bits and the bytes beyond it 0 (R14, R416). -/
def Area.ok (a : Area) (n v : Nat) : Bool := decide (a.bytes ≤ n) && decide (v &&& a.mask = v)

/-- The defined area of an opcode, with the elements that its count names; none: the opcode is not listed (R437). -/
def areaOf (op v : Nat) : Option Area :=
  match op with
  | 0x01 => some ⟨0, []⟩
  | 0x02 => some ⟨8, [⟨0, 0, 48⟩]⟩
  | 0x03 => some (Area.withList ⟨8, [⟨0, 0, 8⟩]⟩ 8 16 (pfield v 0 0 8) [⟨0, 0, 16⟩, ⟨8, 0, 64⟩])
  | 0x04 => some (Area.withList ⟨8, [⟨0, 0, 4⟩]⟩ 8 8 (pfield v 0 0 4) [⟨0, 0, 54⟩])
  | 0x05 => some ⟨8, [⟨0, 0, 48⟩]⟩
  | 0x10 => some ⟨0x28, [⟨0, 0, 48⟩, ⟨8, 0, 48⟩, ⟨0x10, 0, 64⟩, ⟨0x18, 0, 1⟩, ⟨0x20, 0, 48⟩]⟩
  | 0x11 => some ⟨0x28, [⟨0, 0, 8⟩, ⟨4, 0, 32⟩, ⟨8, 0, 48⟩, ⟨0x10, 0, 48⟩, ⟨0x18, 0, 64⟩, ⟨0x20, 0, 48⟩]⟩
  | 0x12 => some ⟨0x10, [⟨0, 0, 48⟩, ⟨8, 0, 1⟩]⟩
  | 0x13 => some ⟨0x20, [⟨0, 0, 2⟩, ⟨8, 0, 48⟩, ⟨0x10, 0, 64⟩, ⟨0x18, 0, 48⟩]⟩
  | 0x14 => some ⟨0x20, [⟨0, 0, 10⟩, ⟨4, 0, 32⟩, ⟨8, 0, 48⟩, ⟨0x10, 0, 64⟩, ⟨0x18, 0, 48⟩]⟩
  | 0x15 => some ⟨0x20, [⟨0, 0, 48⟩, ⟨8, 0, 64⟩, ⟨0x10, 0, 2⟩, ⟨0x18, 0, 64⟩]⟩
  | 0x20 => some (Area.withList ⟨0x20, [⟨0, 0, 64⟩, ⟨8, 0, 32⟩, ⟨0x10, 0, 64⟩, ⟨0x18, 0, 40⟩]⟩ 0x20 16 (pfield v 0x1C 0 8) [⟨0, 0, 8⟩, ⟨8, 0, 64⟩])
  | 0x21 => some ⟨0x20, [⟨0, 0, 10⟩, ⟨0, 16, 12⟩, ⟨4, 0, 4⟩, ⟨4, 16, 16⟩, ⟨8, 0, 48⟩, ⟨0x10, 0, 32⟩, ⟨0x18, 0, 64⟩]⟩
  | 0x22 => some ⟨0x18, [⟨0, 0, 10⟩, ⟨4, 0, 32⟩, ⟨8, 0, 64⟩, ⟨0x10, 0, 32⟩, ⟨0x14, 0, 6⟩, ⟨0x14, 8, 8⟩]⟩
  | 0x30 => some ⟨0x30, [⟨0, 0, 13⟩, ⟨0, 16, 15⟩, ⟨4, 0, 2⟩, ⟨4, 4, 28⟩, ⟨8, 0, 64⟩, ⟨0x10, 0, 48⟩, ⟨0x18, 0, 48⟩, ⟨0x20, 0, 128⟩]⟩
  | 0x31 => some ⟨0x10, [⟨0, 0, 24⟩, ⟨4, 0, 24⟩, ⟨8, 0, 25⟩, ⟨0xC, 0, 24⟩]⟩
  | 0x32 => some ⟨0x20, [⟨0, 0, 8⟩, ⟨8, 0, 48⟩, ⟨0x10, 0, 64⟩, ⟨0x18, 0, 24⟩, ⟨0x1C, 0, 3⟩, ⟨0x1C, 8, 1⟩]⟩
  | 0x33 => some ⟨0x18, [⟨0, 0, 48⟩, ⟨8, 0, 8⟩, ⟨0x10, 0, 48⟩]⟩
  | 0x40 => some ⟨0x18, [⟨0, 0, 20⟩, ⟨8, 0, 48⟩, ⟨0x10, 0, 32⟩]⟩
  | 0x41 => some ⟨8, [⟨0, 0, 28⟩]⟩
  | 0x42 => some ⟨0x18, [⟨0, 0, 10⟩, ⟨4, 0, 16⟩, ⟨8, 0, 32⟩, ⟨0x10, 0, 48⟩]⟩
  | 0x50 => some ⟨0x20, [⟨0, 0, 8⟩, ⟨4, 0, 32⟩, ⟨8, 0, 48⟩, ⟨0x10, 0, 64⟩, ⟨0x18, 0, 32⟩]⟩
  | 0x51 => some ⟨0x60, [⟨0, 0, 9⟩, ⟨0, 16, 8⟩, ⟨4, 0, 32⟩, ⟨8, 0, 48⟩, ⟨0x10, 0, 48⟩, ⟨0x20, 0, 512⟩]⟩
  | 0x60 => some ⟨0x18, [⟨0, 0, 11⟩, ⟨4, 0, 24⟩, ⟨8, 0, 48⟩, ⟨0x10, 0, 48⟩]⟩
  | 0x61 => some ⟨0x20, [⟨0, 0, 8⟩, ⟨4, 0, 32⟩, ⟨8, 0, 48⟩, ⟨0x10, 0, 64⟩, ⟨0x18, 0, 32⟩]⟩
  | 0x62 => some ⟨0x18, [⟨0, 0, 9⟩, ⟨4, 0, 64⟩, ⟨0x10, 0, 48⟩]⟩
  | 0x63 => some ⟨0x18, [⟨0, 0, 24⟩, ⟨4, 0, 24⟩, ⟨8, 0, 24⟩, ⟨0x10, 0, 48⟩]⟩
  | 0x64 => some ⟨8, [⟨0, 0, 25⟩]⟩
  | 0x65 => some ⟨0x28, [⟨0, 0, 8⟩, ⟨8, 0, 48⟩, ⟨0x10, 0, 48⟩, ⟨0x18, 0, 48⟩, ⟨0x20, 0, 64⟩]⟩
  | 0x66 => some ⟨0x18, [⟨0, 0, 48⟩, ⟨8, 0, 64⟩, ⟨0x10, 0, 16⟩]⟩
  | 0x67 => some ⟨0x18, [⟨0, 0, 48⟩, ⟨8, 0, 64⟩, ⟨0x10, 0, 16⟩]⟩
  | 0x70 => some (Area.withList ⟨0x10, [⟨0, 0, 48⟩]⟩ 0x10 16 (pfield v 4 0 8) [⟨0, 0, 112⟩])
  | 0x71 => some ⟨0x28, [⟨0, 0, 48⟩, ⟨8, 0, 192⟩, ⟨0x20, 0, 2⟩]⟩
  | 0x72 => some ⟨8, [⟨0, 0, 2⟩]⟩
  | 0x73 => some ⟨0x28, [⟨0, 0, 8⟩, ⟨8, 0, 48⟩, ⟨0x10, 0, 32⟩, ⟨0x18, 0, 128⟩]⟩
  | 0x80 => some (if pfield v 0 0 8 = 2 then ⟨0x38, [⟨0, 0, 8⟩, ⟨8, 0, 48⟩, ⟨0x10, 0, 32⟩, ⟨0x18, 0, 256⟩]⟩
      else ⟨0x18, [⟨0, 0, 8⟩, ⟨8, 0, 48⟩, ⟨0x10, 0, 32⟩]⟩)
  | 0x81 => some ⟨0x10, [⟨0, 0, 9⟩, ⟨4, 0, 16⟩, ⟨8, 0, 48⟩]⟩
  | 0x82 => some ⟨0x10, [⟨0, 0, 8⟩, ⟨8, 0, 48⟩]⟩
  | 0x90 => some ⟨0x10, [⟨0, 0, 6⟩, ⟨8, 0, 48⟩]⟩
  | 0x91 => some ⟨0x28, [⟨0, 0, 192⟩, ⟨0x18, 0, 38⟩, ⟨0x20, 0, 16⟩]⟩
  | 0x92 => some ⟨0x10, [⟨0, 0, 12⟩, ⟨0, 16, 16⟩, ⟨8, 0, 48⟩]⟩
  | 0x93 => some ⟨8, [⟨0, 0, 2⟩, ⟨0, 4, 4⟩, ⟨0, 16, 48⟩]⟩
  | _ => none

/-! ## Commands -/

/-- A field as a bit vector. -/
abbrev pbits {w : Nat} (v off lo : Nat) : BitVec w := BitVec.ofNat w (pfield v off lo w)

/-- A field of one bit. -/
abbrev pflag (v off lo : Nat) : Bool := decide (pfield v off lo 1 = 1)

/-- A Clause entry of a PERIOD_PLAN packet (R34). -/
def clauseEntryAt (v off : Nat) : ClauseEntry :=
  ⟨pbits v off 0, pbits v (off + 4) 0, pbits v (off + 8) 0, pbits v (off + 8) 8, pbits v (off + 8) 16, pbits v (off + 12) 0⟩

/-- The common parameters of a COLLECTIVE (R345). -/
def collParamsOf (v : Nat) : CollParams :=
  { ordered := pflag v 0 8, noise := pflag v 0 9, axes := pbits v 0 10, inFmt := pbits v 0 16, accFmt := pbits v 0 20, outFmt := pbits v 0 24
    round := pbits v 0 28, op := pbits v 4 0, splitX := pbits v 4 4, splitY := pbits v 4 8, splitZ := pbits v 4 12, tensorId := pbits v 4 16
    matchId := pbits v 8 0, postScale := pbits v 0xC 0, src := pbits v 0x10 0, dst := pbits v 0x18 0, count := pbits v 0x20 0
    peer := pbits v 0x28 0, step := pbits v 0x28 24, streamId := pbits v 0x2C 0 }

/-- The parameters of a RESHARD (R364). -/
def reshardParamsOf (v : Nat) : ReshardParams := ⟨pbits v 8 0, pbits v 0x10 0, pbits v 0x18 0, pbits v 0x20 0⟩

/-- The parameters of SHADOW_SYNC REPLAY and RECOVER (R383). -/
def replayParamsOf (v : Nat) : ReplayParams := ⟨pbits v 8 0, pbits v 0x10 0, pbits v 0x18 0, pbits v 0x18 16⟩

/-- A gather slot: 3 is reserved. -/
def slotOf (v : Nat) : Option (Fin 3) := if h : pfield v 0 8 2 < 3 then some ⟨pfield v 0 8 2, h⟩ else none

/-- The commands of chapters 10 and 14: the system commands and memory. -/
def memoryInstr (h : Hdr) (op v : Nat) : Option Instr :=
  match op, pfield v 0 0 8 with
  | 0x01, _ => some (.nop h)
  | 0x02, _ => some (.query h (pbits v 0 0))
  | 0x03, n => some (.setConfig h ((List.range n).map (fun i => ⟨pbits v (8 + 16 * i) 0, pbits v (16 + 16 * i) 0⟩)))
  | 0x04, _ => some (.fence h ((List.range (pfield v 0 0 4)).map (fun i => ⟨pbits v (8 + 8 * i) 0, Fin.ofNat 64 (pfield v (8 + 8 * i) 48 6)⟩)))
  | 0x05, _ => some (.eventAck h (pbits v 0 0))
  | 0x10, _ => some (.dmaCopy h ⟨pbits v 0 0, pbits v 8 0, pbits v 0x10 0, pflag v 0x18 0, pbits v 0x20 0⟩)
  | 0x11, 0 => some (.loadShard h ⟨.memory (pbits v 8 0), pbits v 0x10 0, pbits v 0x18 0, pbits v 0x20 0⟩)
  | 0x11, 1 => some (.loadShard h ⟨.stream (pbits v 4 0), pbits v 0x10 0, pbits v 0x18 0, pbits v 0x20 0⟩)
  | 0x12, _ => some (.swapTense h (pbits v 0 0) (pflag v 8 0))
  | 0x13, 0 => some (.verifyShard h .present)
  | 0x13, 1 => some (.verifyShard h .future)
  | 0x13, 2 => some (.verifyShard h (.region (pbits v 8 0) (pbits v 0x10 0) (pbits v 0x18 0)))
  | 0x14, 1 => (slotOf v).map (fun _ => .gatherSetup h (pbits v 4 16) (pbits v 8 0) (pbits v 0x10 0) (pbits v 0x18 0))
  | 0x14, 2 => (slotOf v).map (fun k => .gatherFetch h k (pbits v 4 0))
  | 0x14, 3 => (slotOf v).map (fun k => .gatherRelease h k)
  | 0x15, _ =>
    let w : FillWidth := match pfield v 0x10 0 2 with | 0 => .one | 1 => .two | 2 => .four | _ => .eight
    some (.fill h (pbits v 0 0) (pbits v 8 0) w (pbits v 0x18 0))
  | _, _ => none

/-- The commands of chapters 03 to 06 and 08 to 09: clusters, the Conjugator and the update unit. -/
def computeInstr (h : Hdr) (op v : Nat) : Option Instr :=
  match op, pfield v 0 0 8 with
  | 0x20, _ => some (.runProgram h ⟨pbits v 0 0, pbits v 8 0, pbits v 0x10 0, pbits v 0x18 0, pbits v 0x18 16,
      (List.range (pfield v 0x1C 0 8)).map (fun i => ⟨pbits v (0x20 + 16 * i) 0, pbits v (0x28 + 16 * i) 0⟩)⟩)
  | 0x21, 1 => some (.setGramTapDefine h ⟨pflag v 0 8, if pflag v 0 9 then .gradient else .activation, pbits v 0 16, pbits v 4 0, pbits v 4 16,
      pbits v 8 0, pbits v 0x10 0, pbits v 0x18 0, pbits v 0x1C 0⟩)
  | 0x21, 2 => some (.setGramTapClear h (pbits v 0 16))
  | 0x21, 3 => some (.setGramTapRelease h (pbits v 0 16))
  | 0x22, 1 => some (.scaleLedgerSetup h (pflag v 0 9) (pbits v 8 0) (pbits v 0x10 16))
  | 0x22, 2 => some (.scaleLedgerSetMode h (pflag v 0 8) (pbits v 4 0) (pbits v 4 16))
  | 0x22, 3 => some (.scaleLedgerDefine h (pbits v 0x10 0) (pbits v 0x10 16) (pbits v 0x14 0) (pbits v 0x14 4) (pbits v 0x14 8))
  | 0x22, 4 => some (.scaleLedgerRead h (pbits v 8 0) (pbits v 0x10 0) (pbits v 0x10 16))
  | 0x22, 5 => some (.scaleLedgerWarmup h)
  | 0x40, 1 => some (.loadParseLoad h (pbits v 0 8) (pbits v 8 0) (pbits v 0x10 0))
  | 0x40, 2 => some (.loadParseUnload h (pbits v 0 8))
  | 0x41, _ => some (.solve h (pbits v 0 0) (pbits v 0 16))
  | 0x42, 1 => some (.rootTableSetup h (pflag v 0 8) (pbits v 8 0) (pbits v 0x10 0))
  | 0x42, 2 => some (.rootTableWrite h (pflag v 0 9) (pbits v 4 0) (pbits v 8 0) (pbits v 0x10 0))
  | 0x42, 3 => some (.rootTableRead h (pbits v 4 0) (pbits v 8 0) (pbits v 0x10 0))
  | 0x42, 4 => some (.rootTableInvalidate h (pbits v 4 0) (pbits v 8 0))
  | 0x50, 1 => some (.updatePrepare h ⟨pbits v 8 0, pbits v 0x10 0, pbits v 0x18 0, pbits v 0x18 16⟩)
  | 0x50, 2 => some (.updateApply h (pbits v 4 0))
  | 0x50, 3 => some (.updateRecover h)
  | 0x51, 1 => some (.setRuleRule h (pbits v 0 16) (pbits v 0x20 0))
  | 0x51, 2 => some (.setRuleTable h (pflag v 0 8) (pbits v 4 0) (pbits v 8 0) (pbits v 0x10 0))
  | 0x51, 3 => some (.setRuleRead h (pbits v 0 16) (pbits v 4 0) (pbits v 8 0))
  | _, _ => none

/-- The commands of chapters 11 to 13: collectives, the fabric and surviving failure. -/
def fabricInstr (h : Hdr) (op v : Nat) : Option Instr :=
  match op, pfield v 0 0 8 with
  | 0x30, 1 => some (.reduceScatter h (collParamsOf v))
  | 0x30, 2 => some (.allGather h (collParamsOf v))
  | 0x30, 3 => some (.allReduce h (collParamsOf v))
  | 0x30, 4 => some (.broadcast h (collParamsOf v))
  | 0x30, 5 => some (.permute h (collParamsOf v))
  | 0x30, 6 => some (.send h (collParamsOf v))
  | 0x30, 7 => some (.recv h (collParamsOf v))
  | 0x30, 8 => some (.ringExchange h (collParamsOf v))
  | 0x31, _ => some (.setPosition h ⟨pbits v 0 0, pbits v 4 0, pbits v 8 0, pflag v 8 24, pbits v 0xC 0⟩)
  | 0x32, 1 => some (.setRoutesMap h (pbits v 8 0) (pbits v 0x10 0))
  | 0x32, 2 => some (.setRoutesDirmap h (pbits v 0x18 0))
  | 0x32, 3 => some (.setRoutesBreaks h (pbits v 8 0))
  | 0x32, 4 => some (.setRoutesPort h (Fin.ofNat 8 (pfield v 0x1C 0 3)) (pflag v 0x1C 8))
  | 0x33, _ => some (.noiseReport h (pbits v 0 0) (pbits v 8 0) (pbits v 0x10 0))
  | 0x60, 1 => some (.setBuddyHome h (pflag v 0 8) (pflag v 0 9) (pbits v 4 0) (pbits v 8 0))
  | 0x60, 2 => some (.setBuddyHold h (pflag v 0 8) (pflag v 0 10) (pbits v 4 0) (pbits v 0x10 0))
  | 0x60, 3 => some (.setBuddyReleaseHome h)
  | 0x60, 4 => some (.setBuddyReleaseHold h)
  | 0x61, 1 => some (.shadowForward h (pbits v 4 0))
  | 0x61, 2 => some (.shadowRoots h)
  | 0x61, 3 => some (.shadowReplay h (replayParamsOf v))
  | 0x61, 4 => some (.shadowClose h)
  | 0x61, 5 => some (.shadowSeed h)
  | 0x61, 6 => some (.shadowRecover h (replayParamsOf v))
  | 0x62, 1 => some (.digestRange h (pbits v 4 0) (pbits v 8 0))
  | 0x62, 2 => some (.digestArbitrate h (pflag v 0 8) (pbits v 4 0) (pbits v 0x10 0))
  | 0x62, 3 => some (.digestRecopy h (pbits v 4 0) (pbits v 8 0))
  | 0x63, _ => some (.promote h (pbits v 0 0) (pbits v 4 0) (pbits v 8 0) (pbits v 0x10 0))
  | 0x64, _ => some (.restoreFromShadow h (pbits v 0 0) (pflag v 0 24))
  | 0x65, 1 => some (.reshardStart h (reshardParamsOf v))
  | 0x65, 2 => some (.reshardResume h (reshardParamsOf v))
  | 0x65, 3 => some (.reshardReverse h (reshardParamsOf v))
  | 0x65, 4 => some (.reshardCommit h (reshardParamsOf v))
  | 0x66, _ => some (.checkpointOut h (pbits v 0 0) (pbits v 8 0) (pbits v 0x10 0))
  | 0x67, _ => some (.checkpointIn h (pbits v 0 0) (pbits v 8 0) (pbits v 0x10 0))
  | _, _ => none

/-- The target kinds of RESET_BLOCK (R481); 8 to 15 are reserved. -/
def blockKindOf : Nat → Option BlockKind
  | 0 => some .module
  | 1 => some .quarter
  | 2 => some .hub
  | 3 => some .cluster
  | 4 => some .port
  | 5 => some .conjugator
  | 6 => some .hbm
  | 7 => some .commandProcessor
  | _ => none

/-- The reaches of RESET_BLOCK (R481); 3 is reserved. -/
def reachOf : Nat → Option Reach
  | 0 => some .m
  | 1 => some .d
  | 2 => some .b
  | _ => none

/-- The commands of chapters 02, 16, 17 and 18: the Period, security, diagnostics and reset. -/
def controlInstr (h : Hdr) (op v : Nat) : Option Instr :=
  match op, pfield v 0 0 8 with
  | 0x70, _ => some (.periodPlan h ⟨pbits v 0 0, pbits v 4 8, (List.range (pfield v 4 0 8)).map (fun i => clauseEntryAt v (0x10 + 16 * i))⟩)
  | 0x71, _ => some (.periodArm h ⟨pbits v 0 0, pbits v 8 0, pbits v 0x10 0, pbits v 0x18 0, pflag v 0x20 0, pflag v 0x20 1⟩)
  | 0x72, _ => some (.periodHalt h (pflag v 0 0) (pflag v 0 1))
  | 0x73, 1 => some (.replayFreeze h)
  | 0x73, 2 => some (.replayThaw h)
  | 0x73, 3 => some (.replayCopyOut h (pbits v 8 0) (pbits v 0x10 0) (pbits v 0x18 0) (pbits v 0x20 0))
  | 0x73, 4 => some (.replayReplay h (pbits v 8 0) (pbits v 0x18 0) (pbits v 0x20 0))
  | 0x73, 5 => some (.replayClear h)
  | 0x80, 1 => some (.attestChain h (pbits v 8 0) (pbits v 0x10 0))
  | 0x80, 2 => some (.attestQuote h (pbits v 8 0) (pbits v 0x10 0) (pbits v 0x18 0))
  | 0x81, 1 => some (.keyImport h (pbits v 4 0) (pbits v 8 0))
  | 0x81, 2 => some (.keyDestroy h (pbits v 4 0))
  | 0x81, 3 => some (.keyKexCert h (pbits v 8 0))
  | 0x81, 4 => some (.keyAdvanceSvn h (pflag v 0 8))
  | 0x82, 1 => some (.debugChallenge h (pbits v 8 0))
  | 0x82, 2 => some (.debugUnlock h (pbits v 8 0))
  | 0x90, _ => some (.selfTest h (pbits v 0 0) (pbits v 8 0))
  | 0x91, _ => some (.conformanceRun h ⟨pbits v 0 0, pbits v 8 0, pbits v 0x10 0, pbits v 0x18 0, pbits v 0x18 32, pbits v 0x20 0⟩)
  | 0x92, _ => some (.injectError h (pbits v 0 0) (pbits v 0 8) (pbits v 0 16) (pbits v 8 0))
  | 0x93, _ => match reachOf (pfield v 0 0 2), blockKindOf (pfield v 0 4 4) with
    | some r, some k => some (.resetBlock h r k (pbits v 0 16) (pbits v 4 0))
    | _, _ => none
  | _, _ => none

/-- The command that an opcode and its parameters spell. None: a sub-operation or another field holds a reserved encoding (R14). -/
def packetInstr (h : Hdr) (op v : Nat) : Option Instr :=
  if op < 0x20 then memoryInstr h op v
  else if op < 0x30 ∨ (0x40 ≤ op ∧ op < 0x60) then computeInstr h op v
  else if op < 0x70 then fabricInstr h op v
  else controlInstr h op v

/-! ## Packets -/

/-- A packet header (R415). -/
structure PacketHead where
  opcode   : Nat
  order    : Bool
  close    : Bool
  interrupt : Bool
  length   : Nat
  tag      : Nat
  clause   : Nat
  bound    : Bool
  nbValid  : Bool
  notBefore : Nat
  reserved : Bool

/-- The header in a packet's first 16 bytes; `reserved`: a reserved bit is set. -/
def PacketHead.parse (bs : List Byte) : PacketHead :=
  let w := leAt bs 0 8
  let x := leAt bs 8 8
  { opcode := bits w 0 8, order := bit w 8, close := bit w 9, interrupt := bit w 10, length := bits w 16 16, tag := bits w 32 32
    clause := bits x 0 4, bound := bit x 4, nbValid := bit x 5, notBefore := bits x 16 48
    reserved := decide (bits w 11 5 ≠ 0 ∨ bits x 6 10 ≠ 0) }

/-- The header as the rows carry it, of the command that is number `seq` of its ring. -/
def PacketHead.hdr (p : PacketHead) (ring seq : Nat) : Hdr :=
  { ring := Fin.ofNat 64 ring, seq := BitVec.ofNat 48 seq, tag := BitVec.ofNat 32 p.tag, order := p.order, close := p.close
    interrupt := p.interrupt, bound := p.bound, clause := Fin.ofNat 16 p.clause, nbValid := p.nbValid, notBefore := BitVec.ofNat 48 p.notBefore }

/-- The command of a packet, or the status that its dispatch completes it with: ST_BAD_OPCODE for an opcode that is not listed, ST_BAD_PARAM
for a reserved bit or encoding, or a packet that is too short (R14, R416, R417). -/
def packetCommand (p : PacketHead) (h : Hdr) (params : List Byte) : Option Instr × Nat :=
  let v := ofLE params
  match areaOf p.opcode v with
  | none => (none, ST_BAD_OPCODE)
  | some a =>
    if p.reserved || !a.ok params.length v then (none, ST_BAD_PARAM)
    else (packetInstr h p.opcode v, ST_BAD_PARAM)

end Sys2Proof.Machine
end

