-- ==== Sys2Proof/Machine/Rings.lean ====
section
/-!
DEFINITION. Machine/Rings.lean: the command rings and the event ring (R410 to R414, R418, R426, R427, R429, R430): doorbells, ring
faults, reading, dispatching and completion records; and the system commands (R432 to R436).
-/
namespace Sys2Proof.Machine

/-! ## Faults and doorbells (R411, R412) -/

/-- The size of a ring in bytes (R410). -/
abbrev State.ringBytes (s : State) (k : Nat) : Nat := 4096 * 2 ^ s.get (F.CP_RING_CTRL_SIZE k)

/-- A doorbell: TAIL takes the value. One that is no multiple of 64, lies beyond the ring or moves TAIL backward faults the ring (log entry
59). -/
def State.doorbell (s : State) (k tail : Nat) : State :=
  let n := s.ringBytes k
  let head := s.get (F.CP_RING_HEAD_HEAD k)
  let old := s.get (F.CP_RING_TAIL_TAIL k)
  let bad := decide (tail % 64 ≠ 0 ∨ n ≤ tail ∨ (tail + n - head) % n < (old + n - head) % n)
  let s := s.put (F.CP_RING_TAIL_TAIL k) tail
  if bad then s.faultRing k 4 else s

/-! ## Enabling (R413, R429) -/

/-- SIZE and CLAUSES written: not while the ring is ACTIVE, and no reserved SIZE (R15, R413). -/
def State.shapeRing (s : State) (k size clauses : Nat) : State :=
  if s.on (F.CP_RING_STATUS_ACTIVE k) then s
  else (if 12 < size then s else s.put (F.CP_RING_CTRL_SIZE k) size).put (F.CP_RING_CTRL_CLAUSES k) clauses

/-- What the commands of a ring and its reading had read of companion memory is forgotten, and what they still ask for serves no one. -/
def State.disownRing (s : State) (k : Nat) : State :=
  let mine (o : OxlOwner) : Bool := match o with
    | .command r _ => decide (r = k)
    | .ring r => decide (r = k)
  let free (r : OxlReq) : OxlReq := if r.owner.any mine then { r with owner := none } else r
  let s := s.disown (.ring k)
  { s with oxl := { s.oxl with
    pending := s.oxl.pending.map free, waiting := s.oxl.waiting.map free, seen := s.oxl.seen.filter (fun x => !mine x.owner) } }

/-- A ring starts again from its base. -/
def State.freshRing (s : State) (k : Nat) : State :=
  let s := (((s.disownRing k).put (F.CP_RING_HEAD_HEAD k) 0).put (F.CP_RING_TAIL_TAIL k) 0).put (F.CP_RING_SEQ_SEQ k) 0
  let s := ((s.put (F.CP_CQ_HEAD_HEAD k) 0).put (F.CP_CQ_TAIL_TAIL k) 0).put (F.CP_CQ_TAIL_PHASE k) 1
  let s := (s.put (F.CP_RING_STATUS_FAULT k) 0).put (F.CP_RING_STATUS_FAULT_CODE k) 0
  s.putBit F.CP_FAULTS_FAULT k false

/-- A write of `CP_RING_CTRL`. -/
def State.controlRing (s : State) (k : Nat) (enable : Bool) (size clauses : Nat) : State :=
  let fresh := enable && !s.on (F.CP_RING_STATUS_ACTIVE k)
  let s := s.shapeRing k size clauses
  let s := if fresh then s.freshRing k else s
  (s.put (F.CP_RING_CTRL_ENABLE k) (flag enable)).countRing k

/-- `CP_EVT_ACKED` advances, which allows the next vector-64 interrupt (R431). -/
def State.ackTo (s : State) (a : Nat) : State :=
  if s.get F.CP_EVT_ACKED_ACKED < a then { (s.put F.CP_EVT_ACKED_ACKED a) with cp := { s.cp with irqArmed := true } } else s

/-- A write of `CP_EVT_ACK`: a value above `CP_EVT_SEQ` is ignored (R430). -/
def State.ackWrite (s : State) (a : Nat) : State := if s.get F.CP_EVT_SEQ_SEQ < a then s else s.ackTo a

/-- A write of `CP_EVT_CTRL`: ENTRIES_LOG2 while ENABLE is 0 and not a reserved value; setting ENABLE sets ACKED to SEQ. A
BOOT_SLOT_FAIL that waited for the event ring is raised (R490). -/
def State.controlEvents (s : State) (enable : Bool) (log2 : Nat) : State :=
  if s.on F.CP_EVT_CTRL_ENABLE then s.put F.CP_EVT_CTRL_ENABLE (flag enable)
  else
    let s := if 6 ≤ log2 ∧ log2 ≤ 16 then s.put F.CP_EVT_CTRL_ENTRIES_LOG2 log2 else s
    if !enable then s
    else
      let s := (s.ackTo (s.get F.CP_EVT_SEQ_SEQ)).put F.CP_EVT_CTRL_ENABLE 1
      if s.sec.slotFail then ({ s with sec := { s.sec with slotFail := false } }).raise (Ev.plain 0x0C01 0 12 0) else s

/-! ## Reading (R411, R414) -/

/-- A command of the ring waits for a plan: nothing behind it is read (R422; log entry 60). -/
def State.planBlocked (s : State) (k : Nat) : Bool := (s.ringFlights k).any (fun f => f.bound && f.attach.isNone)

/-- R414's limits, and the full deferred queue of a deferred ring (R145). -/
def State.mayRead (s : State) (k : Nat) : Bool :=
  let n := 2 ^ s.get (F.CP_CQ_CTRL_ENTRIES_LOG2 k)
  let waiting := (s.get (F.CP_CQ_TAIL_TAIL k) + n - s.get (F.CP_CQ_HEAD_HEAD k) % n) % n
  let inflight := (s.ringFlights k).length + s.cp.ended.countP (fun e => decide (e.ref.ring = k))
  decide (inflight + waiting < n - 1 ∧ inflight < 256 ∧ s.cp.flights.length + s.cp.ended.length < 4096) &&
    !(bit (s.get F.BW_DEFER_RINGS) k && decide (1024 ≤ s.deferQueue.length))

/-- Bytes that belong to the module wait on the ring, and it is being read. -/
def State.readable (s : State) (k : Nat) : Bool :=
  decide (s.get F.RS_HELD_CP = 0) && s.on (F.CP_RING_CTRL_ENABLE k) && !s.on (F.CP_RING_STATUS_FAULT k) &&
    decide (s.get (F.CP_RING_HEAD_HEAD k) ≠ s.get (F.CP_RING_TAIL_TAIL k)) && s.mayRead k && !s.planBlocked k

/-- The command of a packet that has been read. -/
def PacketHead.flight (p : PacketHead) (ring seq : Nat) (params : List Byte) : Flight :=
  let c := packetCommand p (p.hdr ring seq) params
  { ref := ⟨ring, seq, p.tag, p.opcode, p.interrupt, 0⟩, order := p.order, close := p.close, bound := p.bound, clause := p.clause
    notBefore := if p.nbValid then some p.notBefore else none, attach := none, phase := .waiting, cmd := c.1, status := c.2, fromDefer := false,
    ports := [] }

/-- A whole packet copied: HEAD at the next 64-byte boundary, its number taken, and a bound command attached (R411, R422, R435). -/
def State.takePacket (s : State) (k head : Nat) (p : PacketHead) (params : List Byte) : State :=
  let seq := s.get (F.CP_RING_SEQ_SEQ k)
  let f := { p.flight k seq params with fromDefer := bit (s.get F.BW_DEFER_RINGS) k }
  let s := (s.put (F.CP_RING_HEAD_HEAD k) ((head + cdiv (8 * p.length) 64 * 64) % s.ringBytes k)).put (F.CP_RING_SEQ_SEQ k) (seq + 1)
  let s : State := { s with cp := { s.cp with flights := s.cp.flights ++ [f] } }
  (if p.bound then s.attachFlight f else s).countRing k

/-- What a read of a ring comes to: bytes, a fault, or lines of companion memory that must come first. -/
inductive RingRead where
  | bytes (bs : List Byte)
  | fault
  | wait

/-- A read of a ring: of HBM at once; of companion memory line by line with READ_SHARED, whose DATA must have come (R446). -/
def State.readRing (s : State) (k a n : Nat) : State × RingRead :=
  match s.readAt a n none with
  | (s, .error _) => (s, .fault)
  | (s, .bytes bs) =>
    if spaceOf a = some .companion ∧ ¬ s.known (.ring k) (a - companionBase) n then (s.fetch (.ring k) (a - companionBase) n, .wait)
    else (s, .bytes bs)

/-- The next packet of a ring read, or the fault that it meets. A packet that is not yet wholly below TAIL is left (log entry 59), and one in
companion memory is read when its lines have come. -/
def State.readPacket (s : State) (k : Nat) : State :=
  let head := s.get (F.CP_RING_HEAD_HEAD k)
  let size := s.ringBytes k
  let base := s.get (F.CP_RING_BASE_BASE k)
  match s.readRing k (base + head) 16 with
  | (s, .fault) => s.faultRing k 3
  | (s, .wait) => s
  | (s, .bytes bs) =>
    let p := PacketHead.parse bs
    if p.length < 2 ∨ 512 < p.length then s.faultRing k 1
    else if size < head + 8 * p.length then s.faultRing k 2
    else if (s.get (F.CP_RING_TAIL_TAIL k) + size - head) % size < 8 * p.length then s
    else if p.length = 2 then (s.disown (.ring k)).takePacket k head p []
    else match s.readRing k (base + head + 16) (8 * p.length - 16) with
      | (s, .fault) => s.faultRing k 3
      | (s, .wait) => s
      | (s, .bytes params) => (s.disown (.ring k)).takePacket k head p params

/-! ## Dispatch (R146, R418) -/

/-- A command dispatched now. One that carries no command ends at once with its status (R416, R417), and one that gathers on another ring's
site fails (R179). -/
def State.dispatch (s : State) (f : Flight) : State :=
  let f : Flight := { f with phase := .dispatched, ref := { f.ref with start := s.now } }
  let s := s.setFlight f
  if f.cmd.isNone then s.endFlight f f.status
  else match s.claimFlight f with
    | some s => s
    | none => s.endFlight f ST_BAD_PARAM

/-- The next command of a ring dispatched, when the ring is the one that is served next. -/
def State.dispatchRing (s : State) (k : Nat) : State :=
  if s.get F.RS_HELD_CP ≠ 0 ∨ s.nextRing ≠ some k then s
  else match s.useCritical 1 0 none, s.dispatchable k with
    | (s, false), some f => ({ s with cp := { s.cp with lastServed := k } }).dispatch f
    | (s, _), _ => s

/-- The next command of the deferred queue dispatched. -/
def State.dispatchDeferred (s : State) : State :=
  if s.get F.RS_HELD_CP ≠ 0 then s
  else match s.nextDeferred with
    | some f => match s.useCritical 1 0 none with
      | (s, true) => s
      | (s, false) => (s.dispatch f).countDeferred
    | none => s

/-! ## Completion records (R426, R427) -/

/-- The 32 bytes of a completion record written now. -/
def State.completionBytes (s : State) (e : Ended) : List Byte :=
  let w := e.done.status % 256 + e.done.flags % 256 * 2 ^ 8 + e.ref.ring % 64 * 2 ^ 16 + e.ref.opcode % 256 * 2 ^ 22 +
    s.get (F.CP_CQ_TAIL_PHASE e.ref.ring) * 2 ^ 31
  leBytes 4 w ++ leBytes 4 e.ref.tag ++ leBytes 8 e.ref.start ++ leBytes 8 s.now ++ leBytes 8 e.done.result

/-- A record written to its place in HBM, or sent to the companion as a merge into a line that the module takes ownership of; the
interrupt follows the record (R427, R451). A record that cannot be written is lost (log entry 61). -/
def State.storeCompletion (s : State) (a : Nat) (bs : List Byte) (irq : Option Nat) : State :=
  match spaceOf a with
  | some .hbm => match s.writeHbm a bs none with
    | (s, none) => match irq with
      | some v => s.interrupt v
      | none => s
    | (s, some _) => s
  | some .companion =>
    if s.companionMapped a 32 && (s.oxlPort 0).isSome then s.writePart none (a, 32) irq none (a - companionBase) bs else s
  | _ => s

/-- `CP_CQ_TAIL` advanced by one record. -/
def State.advanceQueue (s : State) (k : Nat) : State :=
  let t := s.get (F.CP_CQ_TAIL_TAIL k) + 1
  if t = 2 ^ s.get (F.CP_CQ_CTRL_ENTRIES_LOG2 k) then
    (s.put (F.CP_CQ_TAIL_TAIL k) 0).put (F.CP_CQ_TAIL_PHASE k) (1 - s.get (F.CP_CQ_TAIL_PHASE k))
  else s.put (F.CP_CQ_TAIL_TAIL k) t

/-- An entry COMMAND of the Period's record (R54), for a command attached to it that has no entry of its own kind (log entry 54): a
COLLECTIVE that ends before it starts has none. -/
def State.noteCommand (s : State) (e : Ended) : State :=
  match e.attach with
  | some a =>
    if a.1 = s.get F.PC_PERIOD_PERIOD ∧ ¬ e.noted then
      s.noteEntry ⟨5, a.2, e.ref.tag, s.now, e.done.result, e.ref.opcode + 256 * e.done.status⟩
    else s
  | none => s

/-- The completion record of a command that has ended. -/
def State.completeOne (s : State) (e : Ended) : State :=
  let k := e.ref.ring
  let a := s.get (F.CP_CQ_BASE_BASE k) + 32 * s.get (F.CP_CQ_TAIL_TAIL k)
  let bs := s.completionBytes e
  let s : State := State.disown { s with cp := { s.cp with ended := s.cp.ended.erase e } } e.ref.owner
  let s := (s.storeCompletion a bs (if e.ref.interrupt then some k else none)).advanceQueue k
  (s.noteCommand e).countRing k

/-- A command waits for the ACKs of its writes of companion memory: it completes when the last has been performed (R549, R447). -/
def State.awaitsAcks (s : State) (c : CmdRef) : Bool :=
  (s.oxl.pending ++ s.oxl.waiting).any (fun r => decide (r.owner = some c.owner) && (!r.kind.reads || r.merge.isSome))

/-- The next completion record of a ring, in the order in which its commands ended (R420). -/
def State.completeNext (s : State) (k : Nat) : State :=
  if s.get F.RS_HELD_CP ≠ 0 then s
  else match s.cp.ended.find? (fun e => decide (e.ref.ring = k) && !s.awaitsAcks e.ref) with
    | some e => match s.useCritical 1 0 (some e.ref) with
      | (s, true) => s
      | (s, false) => s.completeOne e
    | none => s

/-! ## System commands (R433 to R436) -/

/-- QUERY's record (R433). -/
def State.queryBytes (s : State) : List Byte :=
  let enabled := sumList ((List.range 64).map (fun k => s.get (F.CP_RING_CTRL_ENABLE k) * 2 ^ k))
  padTo 64 (leBytes 4 (s.get F.PW_STATUS_STATE + 16 * s.pcState) ++ leBytes 4 (0x0103 + 0xA0 * 2 ^ 16)
    ++ leBytes 8 (s.get F.PC_COMMITTED_COMMITTED) ++ leBytes 8 s.now ++ leBytes 8 (s.get F.CP_EVT_SEQ_SEQ)
    ++ leBytes 8 (s.get F.CP_FAULTS_FAULT) ++ leBytes 8 enabled)

/-- A SET_CONFIG item is known and its value in range (R405, R434). -/
def State.itemOk (s : State) (i : ConfigItem) : Bool :=
  let v := i.value.toNat
  match i.item.toNat with
  | 1 => decide (100 ≤ v ∧ v ≤ 1000000 ∧ watchdogFloor s.minHops ≤ v)
  | 2 => decide (1 ≤ v ∧ v ≤ 50)
  | _ => false

/-- An item applied. -/
def State.applyItem (s : State) (i : ConfigItem) : State :=
  if i.item = 1 then (s.put F.SH_WATCHDOG_CONFIGURED_US i.value.toNat).remeasure else s.put F.PW_CFG_RAMP_MS i.value.toNat

/-- The bytes of an item. -/
def itemBytes (i : ConfigItem) : List Byte := leBytes 8 i.item.toNat ++ leBytes 8 i.value.toNat

/-- A FENCE names its own ring with a number above its own. -/
def fenceBad (c : CmdRef) (es : List FenceEntry) : Bool := es.any (fun e => decide (e.ring.val = c.ring ∧ c.seq < e.seq.toNat))

end Sys2Proof.Machine
end

