-- ==== Sys2Proof/Machine/Security.lean ====
section
/-!
DEFINITION. Machine/Security.lean: secure boot, attestation, key slots, debug unlock, SPDM and the lid seal (R487 to R502).
-/
namespace Sys2Proof.Machine

/-! ## Identity and measurements (R487, R490, R494) -/

/-- A 384-bit value as the 48 bytes of its big-endian form, as signatures and digests are written. -/
abbrev bytes48 (v : BitVec 384) : List Byte := beBytes 48 v.toNat

/-- `ZF_UNIT_ID`'s bytes. -/
abbrev State.unitBytes (s : State) : List Byte := leBytes 8 (s.get F.ZF_UNIT_ID_UNIT_ID)

/-- What measurement block `i` covers. -/
def State.measured (s : State) (i : Nat) : List Byte :=
  match i with
  | 2 => bytes48 s.sec.digest ++ leBytes 4 s.sec.svn
  | 3 => (List.range 4).flatMap (fun q => leBytes 8 (s.get (F.QC_RETIRED_RETIRED q)) ++ leBytes 1 (s.get (F.QC_RETIRED_HI_RETIRED q))) ++ s.unitBytes
  | 4 => [BitVec.ofNat 8 0xA0] ++ leBytes 2 0x0103
  | 5 => leBytes 1 (s.get F.SC_STATUS_SVN) ++ leBytes 1 (s.get F.SC_STATUS_REVOKED + 2 * s.get F.SC_STATUS_DEBUG_LEVEL)
  | _ => []

/-- Measurement block `i`. -/
def State.measurement (s : State) (i : Nat) : BitVec 384 := Config.measurement i (s.measured i)

/-- The firmware measurement that the identity is derived from. -/
abbrev State.firmware (s : State) : BitVec 384 := s.measurement 2

/-- The Alias and KEX keys cannot be used: revoked, zeroised, or not derived yet (R501, R502; log entry 64). -/
abbrev State.keyless (s : State) : Bool := s.revoked || !s.sec.keys

/-! ## Secure boot (R489, R490) -/

/-- The bytes 0x00 to 0x3F of a slot's header, which its signature covers. -/
def slotHead (f : FlashSlot) : List Byte :=
  leBytes 4 f.format.toNat ++ leBytes 4 f.svn.toNat ++ leBytes 8 f.length.toNat ++ bytes48 f.digest

/-- The uncompressed point of a key. -/
def uncompressed (x y : Nat) : List Byte := [BitVec.ofNat 8 4] ++ beBytes 48 x ++ beBytes 48 y

/-- The ROM accepts a slot. -/
def slotAccepted (f : FlashSlot) (keyHash : BitVec 384) (counter : Nat) : Bool :=
  decide (f.format = 1 ∧ f.body.length = f.length.toNat ∧ counter ≤ f.svn.toNat ∧ f.svn.toNat ≤ 64) &&
    decide (sha384 (uncompressed f.keyX.toNat f.keyY.toNat) = bytes48 keyHash) && decide (sha384 f.body = bytes48 f.digest) &&
    ecdsaVerify f.keyX.toNat f.keyY.toNat f.sigR.toNat f.sigS.toNat (sha384 (slotHead f))

/-- Firmware runs from slot `k`: MEM_INIT, in which the ports start to train (R330, R480), its measurement, and the identity unless the UDS is never released (R487, R501). -/
def State.booted (s : State) (k : Nat) (f : FlashSlot) (slots : List BootSlot) (failed : Bool) : State :=
  let s := s.put F.SC_STATUS_SLOT k
  let s := if s.get F.PW_STATUS_STATE = 3 then (List.range 8).foldl State.startTraining (s.put F.PW_STATUS_STATE 4) else s
  { s with
    pwr := { s.pwr with bootDone := true }
    sec := { s.sec with keys := !s.revoked, digest := f.digest, svn := f.svn.toNat, flash := slots, slotFail := failed } }

/-- BOOT_SLOT_FAIL, once the event ring exists. -/
def State.noteSlotFail (s : State) : State :=
  if s.sec.slotFail && s.on F.CP_EVT_CTRL_ENABLE then ({ s with sec := { s.sec with slotFail := false } }).raise (Ev.plain 0x0C01 0 12 0) else s

/-- Secure boot: the slot with the higher SVN is tried first, slot 0 on a tie, then the other; with neither the module has FAILED. -/
def State.secureBoot (s : State) (fuses : FuseImage) (a b : FlashSlot) : State :=
  let counter := s.get F.SC_STATUS_SVN
  let oka := slotAccepted a fuses.fwKeyHash counter
  let okb := slotAccepted b fuses.fwKeyHash counter
  let slots : List BootSlot := [⟨oka, a.svn.toNat⟩, ⟨okb, b.svn.toNat⟩]
  let bFirst := decide (a.svn.toNat < b.svn.toNat)
  if oka && !(bFirst && okb) then (s.booted 0 a slots bFirst).noteSlotFail
  else if okb then (s.booted 1 b slots (!bFirst)).noteSlotFail
  else (s.put F.PW_STATUS_STATE 11).allPortsDown

/-! ## Key slots (R496, R497) -/

/-- `SC_KEYS` as the slots stand. -/
def State.putKeys (s : State) (slots : List KeySlot) : State :=
  { (s.put F.SC_KEYS_OCCUPIED (sumList (slots.map (fun k => 2 ^ (k.handle - 1))))) with sec := { s.sec with slots := slots } }

/-- The key in a wrapped blob, and its USAGE; none when the tag fails. A point that is not an uncompressed point of the curve wraps no
key (log entry 64). -/
def State.unwrap (s : State) (blob : List Byte) : Option (List Byte × Nat) :=
  let x := ofBE ((blob.drop 1).take 48)
  let y := ofBE ((blob.drop 49).take 48)
  if leAt blob 0 1 ≠ 4 || !onCurve x y then none
  else
    let secret := bytes48 (Config.kexSecret s.firmware (BitVec.ofNat 384 x) (BitVec.ofNat 384 y))
    let key := hkdf384 secret s.unitBytes []
    (gcmDecrypt key ((blob.drop 0x68).take 12) (blob.take 0x68) ((blob.drop 0x74).take 32) ((blob.drop 0x94).take 16)).map
      (fun k => (k, leAt blob 0x64 1 % 4))

/-- IMPORT. -/
def State.keyImport (s : State) (handle address : Nat) (c : CmdRef) : Body :=
  s.guard [(decide (handle = 0 ∨ 64 < handle), ST_BAD_PARAM), (s.keyless || decide (s.get F.SC_STATUS_DEBUG_LEVEL = 2), ST_SECURITY),
      ((s.keySlot handle).isSome, ST_BAD_PARAM)]
    (fun s => match s.aliasCheck address 176 with
      | some st => s.fail st
      | none => s.reading address 176 c (fun s blob => match s.unwrap blob with
        | none => s.fail ST_SECURITY
        | some (k, usage) => (s.putKeys (s.sec.slots ++ [⟨handle, k, usage⟩])).ok 0))

/-- DESTROY. -/
def State.keyDestroy (s : State) (handle : Nat) : Body :=
  s.guard [(decide (handle = 0 ∨ 64 < handle), ST_BAD_PARAM), (s.revoked, ST_SECURITY)]
    (fun s => (s.putKeys (s.sec.slots.filter (fun k => decide (k.handle ≠ handle)))).ok 0)

/-- KEX_CERT. -/
def State.keyCert (s : State) (address : Nat) (c : CmdRef) : Body :=
  let cert := Config.kexCertificate s.firmware
  s.guard [(s.keyless, ST_SECURITY), (!writable address cert.length, ST_BAD_PARAM)] (fun s => s.writing address cert c (fun s => s.ok 0))

/-- ADVANCE_SVN (R491): the bits up to the running image's SVN blown. -/
def State.advanceSvn (s : State) (force : Bool) (c : CmdRef) : Body :=
  let counter := s.get F.SC_STATUS_SVN
  let other := nth s.sec.flash (1 - s.get F.SC_STATUS_SLOT) ⟨false, 0⟩
  s.guard [(s.revoked, ST_SECURITY), (!s.pwr.bootDone || (!force && !(other.ok && decide (s.sec.svn ≤ other.svn))), ST_NOT_READY)]
    (fun s =>
      if s.sec.svn ≤ counter then s.ok 0
      else
        let s : State := { s with pwr := { s.pwr with blown := { s.pwr.blown with svn := s.sec.svn } } }
        (((s.put F.SC_STATUS_SVN s.sec.svn).send (.fuse 1 s.sec.svn)).raise ⟨0x0C02, 0, 12, 0, 0, false, some c⟩).ok 0)

/-! ## Attestation (R495) -/

/-- Bytes written for ATTEST, with their CRC-64. -/
def State.attestTo (s : State) (dest len : Nat) (bs : List Byte) (c : CmdRef) : Body :=
  if len < bs.length || !writable dest bs.length then s.fail ST_BAD_PARAM
  else s.writing dest bs c (fun s => s.ok (crc64 bs))

/-- CHAIN. -/
def State.attestChain (s : State) (dest len : Nat) (c : CmdRef) : Body :=
  let chain := Config.certificateChain s.firmware
  s.guard [(decide (dest % 64 ≠ 0), ST_BAD_PARAM), (s.keyless, ST_SECURITY)] (fun s => s.attestTo dest len (leBytes 4 chain.length ++ chain) c)

/-- The 224 bytes of a quote. -/
def State.quoteBytes (s : State) (nonce : BitVec 256) : List Byte :=
  let blocks := (List.range 5).flatMap (fun i => bytes48 (s.measurement (i + 1)))
  let head := padTo 128 (leBytes 8 1 ++ s.unitBytes ++ leBytes 32 nonce.toNat ++ sha384 blocks ++ leBytes 8 (s.get F.PC_COMMITTED_COMMITTED))
  let sig := Config.aliasSign s.firmware (BitVec.ofNat 384 (ofBE (sha384 head)))
  head ++ beBytes 96 sig.toNat

/-- QUOTE. -/
def State.attestQuote (s : State) (dest len : Nat) (nonce : BitVec 256) (c : CmdRef) : Body :=
  s.guard [(decide (dest % 64 ≠ 0), ST_BAD_PARAM), (s.keyless || decide (s.get F.SC_STATUS_DEBUG_LEVEL = 2), ST_SECURITY)]
    (fun s => s.attestTo dest len (s.quoteBytes nonce) c)

/-! ## Debug unlock (R499, R500) -/

/-- CHALLENGE: a fresh nonce, and UNIT_ID after it. -/
def State.challenge (s : State) (address : Nat) (c : CmdRef) : Body :=
  if !writable address 40 then s.fail ST_BAD_PARAM
  else
    let n := Config.nonce s.draws
    let s : State := { s with draws := s.draws + 1 }
    s.writing address (leBytes 32 n.toNat ++ s.unitBytes) c (fun s => ({ s with sec := { s.sec with nonce := some n } } : State).ok 0)

/-- A square root in the field of the curve, where there is one: the prime is 3 modulo 4. -/
def rootMod (a : Nat) : Nat := powModAux p384 384 a ((p384 + 1) / 4) 1

/-- The keys that a signature over a digest verifies under: for each point whose x is r modulo the order, one. -/
def signerKeys (r s : Nat) (digest : List Byte) : List (Nat × Nat) :=
  if r = 0 ∨ n384 ≤ r ∨ s = 0 ∨ n384 ≤ s then []
  else
    let z := ofBE digest % n384
    let inv := invMod n384 r
    let xs := [r, r + n384].filter (fun x => decide (x < p384))
    let pts := xs.flatMap (fun x =>
      let y := rootMod ((x * x * x + (p384 - 3) * x + b384) % p384)
      [(x, y), (x, (p384 - y) % p384)].filter (fun q => onCurve q.1 q.2))
    pts.filterMap (fun q => ecAdd (ecMulAux 384 (inv * s % n384) (some q) none) (ecNeg (ecMulAux 384 (inv * z % n384) (some g384) none)))

/-- A signature by the debug key: of a key whose hash is fused (R499). The token names no key, so it is the one the signature gives. -/
def debugSigned (keyHash : BitVec 384) (r s : Nat) (digest : List Byte) : Bool :=
  (signerKeys r s digest).any (fun q => decide (sha384 (uncompressed q.1 q.2) = bytes48 keyHash) && ecdsaVerify q.1 q.2 r s digest)

/-- A token is good: its unit, its nonce, and its signature over its first 0x30 bytes (log entry 65). -/
def State.tokenOk (s : State) (t : List Byte) : Bool :=
  match s.sec.fuses, s.sec.nonce with
  | some f, some n => decide (t.take 8 = s.unitBytes) && decide ((t.drop 8).take 32 = leBytes 32 n.toNat) &&
      debugSigned f.debugKeyHash (ofBE ((t.drop 0x30).take 48)) (ofBE ((t.drop 0x60).take 48)) (sha384 (t.take 0x30))
  | _, _ => false

/-- UNLOCK: the nonce is used up whatever the token holds. -/
def State.unlock (s : State) (address : Nat) (c : CmdRef) : Body :=
  match s.aliasCheck address 0x90 with
  | some st => s.fail st
  | none => s.reading address 0x90 c (fun s t =>
    let good := s.tokenOk t
    let level := leAt t 0x28 1 % 4
    let s : State := { s with sec := { s.sec with nonce := none } }
    if !good then s.fail ST_SECURITY
    else if level = 0 ∨ level = 3 then s.fail ST_BAD_PARAM
    else
      let s := if level = 2 then s.putKeys [] else s
      ((s.put F.SC_STATUS_DEBUG_LEVEL level).raise ⟨0x0C03, 0, 12, 0, 0, false, some c⟩).ok 0)

/-! ## SPDM (R492, R493, R501) -/

/-- How far a connection must have come for a request, and how far it has come after it: 1 the version, 2 the capabilities, 3 the
algorithms. None: not supported (log entry 6). -/
def spdmNeeds : SpdmReq → Option (Nat × Nat)
  | .getVersion => some (0, 1)
  | .getCapabilities => some (1, 2)
  | .negotiateAlgorithms => some (2, 3)
  | .getDigests => some (3, 3)
  | .getCertificate _ _ _ => some (3, 3)
  | .challenge _ _ => some (3, 3)
  | .getMeasurements _ => some (3, 3)
  | .other _ => none

/-- The requests that a revoked module, or one without keys, refuses with Unspecified. -/
def spdmNeedsKeys : SpdmReq → Bool
  | .getCertificate _ _ _ => true
  | .challenge _ _ => true
  | .getMeasurements _ => true
  | _ => false

/-- The code byte of a request. -/
def spdmCode : SpdmReq → Nat
  | .getVersion => 0x84
  | .getCapabilities => 0xE1
  | .negotiateAlgorithms => 0xE3
  | .getDigests => 0x81
  | .getCertificate _ _ _ => 0x82
  | .challenge _ _ => 0x83
  | .getMeasurements _ => 0xE0
  | .other c => c.toNat

/-- An ERROR response of SPDM 1.2. -/
def spdmError (code data : Nat) : List Byte := leBytes 1 0x12 ++ leBytes 1 0x7F ++ leBytes 1 code ++ leBytes 1 data

/-- How far a transport's connection has come. -/
abbrev State.spdmStage (s : State) (mailbox : Bool) : Nat := if mailbox then s.sec.mailbox else s.sec.mctp

/-- A request answered: the response, and the transport's connection after it. -/
def State.spdmAnswer (s : State) (mailbox : Bool) (r : SpdmReq) : State × List Byte :=
  match spdmNeeds r with
  | none => (s, spdmError 7 (spdmCode r))
  | some (need, next) =>
    if s.spdmStage mailbox < need then (s, spdmError 4 0)
    else if spdmNeedsKeys r && s.keyless then (s, spdmError 5 0)
    else
      let sec := if mailbox then { s.sec with mailbox := if next = 1 then 1 else max next s.sec.mailbox }
        else { s.sec with mctp := if next = 1 then 1 else max next s.sec.mctp }
      ({ s with sec := sec, draws := s.draws + 1 }, Config.spdmResponse mailbox r s.draws)

/-- The word of the mailbox at place `i`. -/
abbrev mailboxWord (i : Nat) : Field := ⟨0x41000 + 4 * i, 0, 32, 0⟩

/-- The mailbox's bytes. -/
def State.mailboxBytes (s : State) (n : Nat) : List Byte := ((List.range (cdiv n 4)).flatMap (fun i => leBytes 4 (s.get (mailboxWord i)))).take n

/-- A response in the mailbox, with its length; GO clears. -/
def State.fillMailbox (s : State) (bs : List Byte) : State :=
  let bs := bs.take 4096
  let s := (List.range (cdiv bs.length 4)).foldl (fun (s : State) i => s.put (mailboxWord i) (leAt bs (4 * i) 4)) s
  (s.put F.SC_SPDM_CTRL_LEN bs.length).put F.SC_SPDM_CTRL_GO 0

/-- The mailbox is open: secure boot has completed, and the hub is ready (R456, R493). -/
abbrev State.mailboxOpen (s : State) : Bool := s.pwr.bootDone && s.hubReady

/-- The management endpoint runs: from BOOT onward, unless the hub is in reset; while the hub is being released it already does (R493,
R516). -/
def State.endpointUp (s : State) : Bool :=
  decide (3 ≤ s.get F.PW_STATUS_STATE) && !s.pwr.held.any (fun h => decide (h.dom = .hub) && decide (h.phase = .reset))

/-- GO set. -/
def State.mailboxGo (s : State) (r : SpdmReq) : State :=
  match s.spdmAnswer true r with
  | (s, bs) => s.fillMailbox bs

/-- The request in the mailbox (log entry 6). -/
def spdmDecode (bs : List Byte) : SpdmReq :=
  match leAt bs 1 1 with
  | 0x84 => .getVersion
  | 0xE1 => .getCapabilities
  | 0xE3 => .negotiateAlgorithms
  | 0x81 => .getDigests
  | 0x82 => .getCertificate (BitVec.ofNat 8 (leAt bs 2 1)) (BitVec.ofNat 16 (leAt bs 4 2)) (BitVec.ofNat 16 (leAt bs 6 2))
  | 0x83 => .challenge (BitVec.ofNat 8 (leAt bs 2 1)) (BitVec.ofNat 256 (leAt bs 4 32))
  | 0xE0 => .getMeasurements (BitVec.ofNat 8 (leAt bs 3 1))
  | c => .other (BitVec.ofNat 8 c)

/-! ## The lid seal (R502) -/

/-- A break of the lid trace while the module is powered. -/
def State.breachLid (s : State) : State :=
  let s := s.putKeys []
  let s : State := { s with
    sec := { s.sec with keys := false, nonce := none }
    pwr := { s.pwr with blown := { s.pwr.blown with revoke := true }, lidFailed := true } }
  let s := ((s.put F.SC_STATUS_DEBUG_LEVEL 0).dropDebug).send (.fuse 2 7)
  ((s.put F.SC_STATUS_REVOKED 1).put F.CAP_SECURITY_REVOKED 1).raise (Ev.plain 0x0C04 4 12 0)

end Sys2Proof.Machine
end

