-- ==== Sys2Proof/Machine/RegAccess.lean ====
section
/-!
DEFINITION. Machine/RegAccess.lean: accesses to the control window (R7 to R15, R340, R449, R456, R525): which register they reach, the
status that they meet, what they read and what they write.
-/
namespace Sys2Proof.Machine

/-! ## Which register (R12, R449, R525) -/

/-- The part of a register that an access names. -/
inductive Part where
  | whole | low | high
deriving DecidableEq, Repr

/-- A register named by an access: its row, its first index, its address, and the part. -/
structure Target where
  row  : RegRow
  i    : Nat
  addr : Nat
  part : Part

/-- What an access of 4 or 8 bytes at an offset comes to. -/
inductive Aim where
  | at_ (t : Target)
  | unmapped
  | malformed

/-- The aim of an access: a 4-byte access to a 32-bit register or to half of a 64-bit one, or an 8-byte access to a 64-bit one, each
naturally aligned; any other that touches a register is malformed. -/
def aimOf (a n : Nat) : Aim :=
  let at8 (b : Nat) (p : Part) : Option Aim := match regAt b with
    | some (r, i, _) => if r.bytes = 8 then some (.at_ ⟨r, i, b, p⟩) else none
    | none => none
  if (n ≠ 4 ∧ n ≠ 8) ∨ a % n ≠ 0 then .malformed
  else if n = 8 then (at8 a .whole).getD (if (regAt a).isSome ∨ (regAt (a + 4)).isSome then .malformed else .unmapped)
  else match regAt a with
    | some (r, i, _) => if r.bytes = 4 then .at_ ⟨r, i, a, .whole⟩ else .at_ ⟨r, i, a, .low⟩
    | none => if a % 8 = 4 then (at8 (a - 4) .high).getD .unmapped else .unmapped

/-! ## Status (R447) -/


/-- The register that a CONTROL access reaches, or the status it is answered with: BUSY, UNMAPPED, ACCESS or ISOLATED. -/
def State.reach (s : State) (a n : Nat) : Except Nat Target :=
  if s.busy a then .error OXL_BUSY
  else match aimOf a n with
    | .unmapped => .error OXL_UNMAPPED
    | .malformed => .error OXL_ACCESS
    | .at_ t => if s.ready (domainOf t.row.domain t.i) then .ok t else .error OXL_ISOLATED

/-- A malformed access is counted and raises OXL_BAD_ACCESS (R449, R460). -/
def State.noteAccess (s : State) (status : Nat) : State :=
  if status = OXL_ACCESS then (s.bump F.OXL_ERRS_BAD_ACCESS 1).raise (Ev.plain 0x0E05 0 14 0) else s

/-! ## Reading (R7, R9, R12, R340, R515) -/

/-- The value of a register: its fields, write-only ones and reserved bits as 0 (R7, R13). -/
def State.regValue (s : State) (r : RegRow) (a : Nat) : Nat :=
  sumList (r.fields.map (fun f => if f.access = .wo then 0 else s.get (f.at a) * 2 ^ f.lo))

/-- The value that an RC field takes after a read: 0, or the no-sample value of `TM_SLACK` (R7, R515). -/
abbrev clearedTo (r : RegRow) : Nat := if r.base = Reg.TM_SLACK 0 then 0xFFFFFFFF else 0

/-- The RC fields of a register that reach above a bit, after a read of them. -/
def State.clearRead (s : State) (r : RegRow) (a from_ : Nat) : State :=
  (r.fields.filter (fun f => decide (f.access = .rc) && decide (from_ < f.lo + f.len))).foldl (fun (s : State) f => s.put (f.at a) (clearedTo r)) s

/-- The keys of what is latched for the register at an address: the high word left by a read of the low one, the low word that awaits its
high one, and the value latched by a read of word 0 of a break map. -/
abbrev highKey (a : Nat) : Nat := 4 * a
abbrev lowKey (a : Nat) : Nat := 4 * a + 1
abbrev breakKey (a : Nat) : Nat := 4 * a + 2

/-- A latch filled. -/
abbrev State.latch (s : State) (k v : Nat) : State := { s with latches := alSet k v s.latches }

/-- A latch emptied. -/
abbrev State.unlatch (s : State) (k : Nat) : State := { s with latches := alErase k s.latches }

/-- The value a read of a register sees: what a break map's word 0 latched, or what the register holds. -/
def State.seen (s : State) (t : Target) : Nat := (alGet s.latches (breakKey t.addr)).getD (s.regValue t.row t.addr)

/-- A read of word 0 of a break map latches words 1 to 3 of the axis. -/
def State.latchBreaks (s : State) (t : Target) : State :=
  if t.row.base = Reg.ZF_BREAK 0 0 ∧ t.addr = Reg.ZF_BREAK t.i 0 then
    [1, 2, 3].foldl (fun (s : State) w => s.latch (breakKey (Reg.ZF_BREAK t.i w)) (s.get (F.ZF_BREAK_BREAKS t.i w))) s
  else s

/-- A read of a register. The low word of a 64-bit one latches the high word, and clears the RC fields of both. -/
def State.readReg (s : State) (t : Target) : State × Nat :=
  let v := s.seen t
  let read (s : State) : State := ((s.unlatch (breakKey t.addr)).clearRead t.row t.addr 0).latchBreaks t
  match t.part with
  | .whole => (read s, v)
  | .low => ((read s).latch (highKey t.addr) (v / 2 ^ 32), v % 2 ^ 32)
  | .high => match alGet s.latches (highKey t.addr) with
    | some h => (s.unlatch (highKey t.addr), h)
    | none => ((s.unlatch (breakKey t.addr)).clearRead t.row t.addr 32, v / 2 ^ 32)

/-- A CONTROL read: its status, and the value; a read that fails returns ones (R447). -/
def State.controlRead (s : State) (a n : Nat) : State × Nat × Nat :=
  match s.reach a n with
  | .ok t => match s.readReg t with
    | (s, v) => (s, OXL_OK, v)
  | .error st => (s.noteAccess st, st, 2 ^ (8 * n) - 1)

/-! ## Writing (R7, R10, R12, R13, R15) -/

/-- Encodings that a register table lists as reserved, by the register's base and the field's lowest bit. `SC_SPDM_CTRL.LEN` above 4,096
(0x900000) stands here by the model's choice: the table of R503 gives 0–4,096 and does not call the other values reserved (log entry
133). -/
def reserved (base lo w : Nat) : Bool :=
  match base, lo with
  | 0x20030, _ => decide (w < 100)
  | 0x20048, 2 => decide (w = 7)
  | 0x20218, _ => decide (1024 < w)
  | 0x800060, 1 => decide (8 < w)
  | 0x800060, 16 => decide (w = 0)
  | 0x600000, 8 => decide (w < 8)
  | 0x900000, _ => decide (4096 < w)
  | 0x30000, _ => decide (5 ≤ w)
  | 0x31028, _ => decide (w < 6 ∨ 16 < w)
  | 0x60000, _ => decide (w < 100 ∨ 60000 < w)
  | 0x10014, 0 => decide (w < 1000 ∨ 2000 < w)
  | 0x50000, 0 => decide (5 ≤ w)
  | 0x50000, 3 => decide (5 ≤ w)
  | 0x40010, 0 => decide (4096 < w)
  | _, _ => false

/-- A field takes writes now: its lock is not set, and the condition that its table or rule names holds (R10, R171, R413, R429). -/
def State.takes (s : State) (base i lo : Nat) : Bool :=
  if base = Reg.RR_BASE ∨ (base = Reg.RR_CTRL ∧ lo = 2) then !s.on F.RR_CTRL_LOCK
  else if base = Reg.ER_CTRL ∧ lo = 6 then !s.on F.ER_CTRL_LOCK
  else if base = Reg.ZF_BOARD_ID then !s.on F.ZF_CTRL_LOCK
  else if base = Reg.CP_EVT_BASE then !s.on F.CP_EVT_CTRL_ENABLE
  else if base = Reg.CP_RING_BASE 0 ∨ base = Reg.CP_CQ_BASE 0 ∨ base = Reg.CP_CQ_CTRL 0 then !s.on (F.CP_RING_STATUS_ACTIVE i)
  else if base = Reg.PC_CTRL ∧ 1 ≤ lo ∧ lo ≤ 3 then s.idle
  else if 0x20200 ≤ base ∧ base < 0x30000 then s.idle
  else true

/-- A field written with `w` by its access code. -/
def State.writeField (s : State) (t : Target) (f : FieldRow) (w : Nat) : State :=
  let g := f.at t.addr
  let old := s.get g
  match f.access with
  | .rw => if s.takes t.row.base t.i f.lo && !reserved t.row.base f.lo w then s.put g w else s
  | .rwl => if s.takes t.row.base t.i f.lo && !reserved t.row.base f.lo w then s.put g w else s
  | .w1c => s.put g (old - (old &&& w))
  | .w1s => s.put g (old ||| w)
  | .ro => s
  | .rc => s
  | .wo => s

/-- Every field of a register written from one value, lowest first: a lock bit stands above the fields of its register that it locks. -/
def State.writeFields (s : State) (t : Target) (v : Nat) : State :=
  t.row.fields.foldl (fun (s : State) f => s.writeField t f (bits v f.lo f.len)) s

/-- What a write of `ZP_CTRL` starts: a change of ENABLE or FORCE_DOWN, and RETRAIN. -/
def State.portControlled (s : State) (old : State) (p v : Nat) : State :=
  let changed := decide (old.get (F.ZP_CTRL_ENABLE p) ≠ s.get (F.ZP_CTRL_ENABLE p) ∨ old.get (F.ZP_CTRL_FORCE_DOWN p) ≠ s.get (F.ZP_CTRL_FORCE_DOWN p))
  let s := if !changed then s
    else if s.on (F.ZP_CTRL_ENABLE p) && !s.on (F.ZP_CTRL_FORCE_DOWN p) then s.startTraining p
    else s.takeDown p none
  if bit v 2 then s.retrainPort p else s

/-- `PC_TREF` after a write of `PC_CTRL` (R33): setting ENABLE starts the measurement, and on a module that is no tick master with TSRC it
reads 0 (log entry 57). -/
def State.measureAgain (s old : State) : State :=
  if (s.on F.PC_CTRL_ENABLE && !old.on F.PC_CTRL_ENABLE) || !s.tickref then
    ((s.put F.PC_TREF_INTERVAL_MS 0).put F.PC_TREF_LOCKED 0).setTref ⟨none, none, 0⟩
  else s

/-- What a register's new value brings about at once. -/
def State.written (s : State) (old : State) (t : Target) (v : Nat) : State :=
  let b := t.row.base
  if b = Reg.PC_CTRL then
    let s := s.measureAgain old
    if s.on F.PC_CTRL_MASTER && !old.on F.PC_CTRL_MASTER && s.pd.masterId.isSome then s.masterConflict else s
  else if b = Reg.RR_CTRL then
    (if s.on F.RR_CTRL_FREEZE then ({ s with rr := { s.rr with frozen := true } } : State) else s).scanRing
  else if b = Reg.BW_TIE 0 then
    s.put F.BW_TIE_STATUS_INCONSISTENT (sumList ((List.range 16).map (fun g => if s.tieConsistent g then 0 else 2 ^ g)))
  else if b = Reg.ZP_CTRL 0 then s.portControlled old t.i v
  else if b = Reg.ZF_BOARD_ID then
    if s.get F.ZF_BOARD_ID_BOARD_ID = old.get F.ZF_BOARD_ID_BOARD_ID then s else s.announce
  else if b = Reg.SC_SPDM_CTRL then
    if bit v 13 then s.mailboxGo (spdmDecode (s.mailboxBytes (s.get F.SC_SPDM_CTRL_LEN))) else s
  else s

/-- A whole register written. Some registers act on the value as their own rows say. -/
def State.putReg (s : State) (t : Target) (v : Nat) : State :=
  let b := t.row.base
  if b = Reg.CP_RING_CTRL 0 then s.controlRing t.i (bit v 0) (bits v 1 4) (bits v 16 16)
  else if b = Reg.CP_RING_TAIL 0 then s.doorbell t.i (bits v 0 24)
  else if b = Reg.CP_EVT_CTRL then s.controlEvents (bit v 0) (bits v 1 5)
  else if b = Reg.CP_EVT_ACK then s.ackWrite (bits v 0 48)
  else if b = Reg.DM_MAP then s.writeMap (bits v 0 6) (bit v 6)
  else if b = Reg.QC_RETIRE_REQ 0 then s.requestRetirement t.i (bits v 0 7) (bit v 7)
  else (s.writeFields t v).written s t v

/-- The low word of what a 64-bit register's RW fields hold, for a write of its high word alone. -/
def State.lowKept (s : State) (t : Target) : Nat :=
  sumList (t.row.fields.map (fun f => if f.access = .rw ∨ f.access = .rwl then s.get (f.at t.addr) * 2 ^ f.lo else 0)) % 2 ^ 32

/-- A write of a register. A 64-bit one written in halves takes its value with its high word. -/
def State.writeReg (s : State) (t : Target) (v : Nat) : State :=
  match t.part with
  | .whole => s.putReg t v
  | .low => s.latch (lowKey t.addr) (v % 2 ^ 32)
  | .high =>
    let low := (alGet s.latches (lowKey t.addr)).getD (s.lowKept t)
    (s.unlatch (lowKey t.addr)).putReg t (low + v % 2 ^ 32 * 2 ^ 32)

/-- A CONTROL write, and its status. -/
def State.controlWrite (s : State) (a n v : Nat) : State × Nat :=
  match s.reach a n with
  | .ok t => (s.writeReg t v, OXL_OK)
  | .error st => (s.noteAccess st, st)

end Sys2Proof.Machine
end

