-- ==== Sys2Proof/Machine/SecurityRows.lean ====
section
/-!
DEFINITION. Machine/SecurityRows.lean: the meanings of ATTEST, KEY_OP, DEBUG_UNLOCK, secure boot, the SPDM transports and the lid breach
(chapter 17). A step that cannot occur in a state leaves that state unchanged.
-/
namespace Sys2Proof.Machine

/-! ## Commands -/

/-- ATTEST CHAIN. -/
def execAttestChain (h : Hdr) (dest : BitVec 48) (destLen : BitVec 32) (s : State) : Host.Outcome State Fault Refusal :=
  done (s.run h 0x80 .notBound (fun c s => s.attestChain dest.toNat destLen.toNat c)).settle

/-- ATTEST QUOTE. -/
def execAttestQuote (h : Hdr) (dest : BitVec 48) (destLen : BitVec 32) (nonce : BitVec 256) (s : State) : Host.Outcome State Fault Refusal :=
  done (s.run h 0x80 .notBound (fun c s => s.attestQuote dest.toNat destLen.toNat nonce c)).settle

/-- KEY_OP IMPORT. -/
def execKeyImport (h : Hdr) (handle : BitVec 16) (address : BitVec 48) (s : State) : Host.Outcome State Fault Refusal :=
  done (s.run h 0x81 .notBound (fun c s => s.keyImport handle.toNat address.toNat c)).settle

/-- KEY_OP DESTROY. -/
def execKeyDestroy (h : Hdr) (handle : BitVec 16) (s : State) : Host.Outcome State Fault Refusal :=
  done (s.run h 0x81 .notBound (fun _ s => s.keyDestroy handle.toNat)).settle

/-- KEY_OP KEX_CERT. -/
def execKeyKexCert (h : Hdr) (address : BitVec 48) (s : State) : Host.Outcome State Fault Refusal :=
  done (s.run h 0x81 .notBound (fun c s => s.keyCert address.toNat c)).settle

/-- KEY_OP ADVANCE_SVN. -/
def execKeyAdvanceSvn (h : Hdr) (force : Bool) (s : State) : Host.Outcome State Fault Refusal :=
  done (s.run h 0x81 .notBound (fun c s => s.advanceSvn force c)).settle

/-- DEBUG_UNLOCK CHALLENGE. -/
def execDebugChallenge (h : Hdr) (address : BitVec 48) (s : State) : Host.Outcome State Fault Refusal :=
  done (s.run h 0x82 .notBound (fun c s => s.challenge address.toNat c)).settle

/-- DEBUG_UNLOCK UNLOCK. -/
def execDebugUnlock (h : Hdr) (address : BitVec 48) (s : State) : Host.Outcome State Fault Refusal :=
  done (s.run h 0x82 .notBound (fun c s => s.unlock address.toNat c)).settle

/-! ## Boot, and the lid seal -/

/-- SECURE_BOOT: part of the release of the hub (R468). -/
def execSecureBoot (slot0 slot1 : FlashSlot) (s : State) : Host.Outcome State Fault Refusal :=
  done (match s.sec.fuses with
    | some f =>
      let releasing := s.pwr.held.any (fun h => decide (h.dom = .hub) && decide (h.phase = .releasing))
      if s.on F.PW_STATUS_TRIM_VALID && !s.pwr.bootDone && (releasing || s.hubReady) then (s.secureBoot f slot0 slot1).settle else s
    | none => s)

/-- LID_BREACH: a break for 10 µs while the module is powered (R502). -/
def execLidBreach (s : State) : Host.Outcome State Fault Refusal :=
  done (if s.get F.PW_STATUS_STATE = 0 then s else (s.breachLid).settle)

/-! ## SPDM (R493) -/

/-- SPDM_MAILBOX_GO: a write of `SC_SPDM_CTRL` with the request's length and GO. -/
def execSpdmMailboxGo (len : BitVec 13) (req : SpdmReq) (s : State) : Host.Outcome State Fault Refusal :=
  done (if s.mailboxOpen && s.regOpen Reg.SC_SPDM_CTRL then
      let s := if len.toNat ≤ 4096 then s.put F.SC_SPDM_CTRL_LEN len.toNat else s
      s.mailboxGo req
    else s)

/-- SPDM_MCTP_REQUEST. -/
def execSpdmMctpRequest (req : SpdmReq) (s : State) : Host.Outcome State Fault Refusal :=
  done (if s.endpointUp then
      match s.spdmAnswer false req with
      | (s, bs) => s.send (.spdm false bs)
    else s)

end Sys2Proof.Machine
end

