-- ==== Sys2Proof/Machine/DiagRows.lean ====
section
/-!
DEFINITION. Machine/DiagRows.lean: the meanings of SELF_TEST, INJECT_ERROR, RESET_BLOCK and the JTAG port (R481, R482, R500, R520 to R522,
R543).
-/
namespace Sys2Proof.Machine

/-! ## SELF_TEST (R520, R521) -/

/-- A target is selected. -/
abbrev testOn (targets i : Nat) : Bool := decide (targets = 0) || bit targets i

/-- The physical clusters that are tested: those not retired. -/
def State.testedClusters (s : State) (targets : Nat) : List Nat :=
  if testOn targets 0 || testOn targets 1 then (List.range 264).filter (fun p => !s.retiredBit (p / 66) (p % 66)) else []

/-- The quarters that are tested. -/
def testedQuarters (targets : Nat) : List Nat := if testOn targets 3 || testOn targets 4 then List.range 4 else []

/-- The ports that are tested: those that are DOWN. -/
def State.testedPorts (s : State) (targets : Nat) : List Nat :=
  if testOn targets 5 then (List.range 8).filter (fun p => decide (s.get (F.ZP_STATUS_STATE p) = 0)) else []

/-- A test touches a domain that is in reset (R474). -/
def State.testIsolated (s : State) (targets : Nat) : Bool :=
  (s.testedClusters targets).any s.clusterHeld || (testedQuarters targets).any (fun q => !s.ready (.quarter (Fin.ofNat 4 q))) ||
    (testOn targets 2 && !s.ready .conjugator) || (s.testedPorts targets).any (fun p => !s.ready (.port (Fin.ofNat 8 p)))

/-- The tests leave the stores that they run on zeroed with valid check bits: an error armed there is gone. -/
def State.zeroTested (s : State) (targets : Nat) : State :=
  let gone (i : Injection) : Bool := (decide (i.kind = 2) || decide (i.kind = 3)) &&
    ((decide (i.store = 0) && (s.testedClusters targets).contains i.index) || (decide (i.store = 1) && !(testedQuarters targets).isEmpty) ||
      (decide (i.store = 2) && testOn targets 2))
  { s with inject := s.inject.filter (fun i => !gone i) }

/-- A bit mask of the places in a list. -/
abbrev maskOf (l : List Nat) : Nat := sumList (l.map (2 ^ ·))

/-- What a run of the tests finds failing, by kind: clusters, cores, quarters, ports (log entry 4). -/
structure TestResult where
  clusters : List Nat
  cores    : List Nat
  quarters : List Nat
  ports    : List Nat

/-- The parts that fail. -/
def State.testResult (s : State) (targets : Nat) : TestResult :=
  let d := s.draws
  { clusters := (s.testedClusters targets).filter (fun p => (Config.selfTestClusters d).getLsbD p)
    cores := if testOn targets 2 then (List.range 32).filter (fun k => (Config.selfTestCores d).getLsbD k) else []
    quarters := (testedQuarters targets).filter (fun q => (Config.selfTestQuarters d).getLsbD q)
    ports := (s.testedPorts targets).filter (fun p => (Config.selfTestPorts d).getLsbD p) }

/-- The number of failures. -/
abbrev TestResult.count (r : TestResult) : Nat := r.clusters.length + r.cores.length + r.quarters.length + r.ports.length

/-- The 64-byte record. -/
def TestResult.bytes (r : TestResult) : List Byte :=
  padTo 64 (leBytes 40 (maskOf r.clusters) ++ leBytes 4 (maskOf r.cores) ++ leBytes 4 (maskOf r.ports + 256 * maskOf r.quarters))

/-- The module acts on what fails: clusters are marked, cores withdrawn, a quarter's failure is fatal, and SELF_TEST_FAIL tells of any. -/
def State.actOnTest (s : State) (r : TestResult) (c : CmdRef) : State :=
  let s := r.clusters.foldl (fun (s : State) p => s.markCluster p false none) s
  let s := if r.cores.isEmpty then s
    else ({ s with cj := { s.cj with withdrawn := s.cj.withdrawn ||| maskOf r.cores } } : State).degrade
  let s := r.quarters.foldl (fun (s : State) q => s.raise ⟨0x0503, 4, 5, q, 0, false, some c⟩) s
  if r.count = 0 then s else s.raise ⟨0x0001, 2, 10, 0, r.count, false, some c⟩

/-- SELF_TEST's body. -/
def State.selfTest (s : State) (targets dest : Nat) (c : CmdRef) : Body :=
  s.guard [(decide (dest % 64 ≠ 0) || !writable dest 64, ST_BAD_PARAM), (!s.idle, ST_NOT_READY), (s.testIsolated targets, ST_ISOLATED)]
    (fun s =>
      let r := s.testResult targets
      let s := s.zeroTested targets
      let s : State := { s with draws := s.draws + 1 }
      (s.actOnTest r c).writing dest r.bytes c (fun s => s.ok r.count))

/-- SELF_TEST. -/
def execSelfTest (h : Hdr) (targets : BitVec 6) (dest : BitVec 48) (s : State) : Host.Outcome State Fault Refusal :=
  done (s.run h 0x90 .notBound (fun c s => s.selfTest targets.toNat dest.toNat c)).settle

/-! ## INJECT_ERROR (R522, R555) -/

/-- The bytes of an instance of a store; 0 for one that does not exist. -/
def storeSize (store index : Nat) : Nat :=
  match store with
  | 0 => if index < 264 then 4 * 2 ^ 20 else 0
  | 1 => if index < 4 then 64 * 2 ^ 20 else 0
  | 2 => if index < 32 then 2 * 2 ^ 20 else if index = 32 then 64 * 2 ^ 20 else 0
  | 3 => if index < 6 then 2 ^ 20 else if index < 8 then 4 * 2 ^ 20 else 0
  | _ => 0

/-- An error that INJECT_ERROR can arm: a KIND of the table, at a place that exists. -/
def injectable (kind store index address : Nat) : Bool :=
  match kind with
  | 1 => decide (store < 4 ∧ index < 256)
  | 2 => decide (address < storeSize store index)
  | 3 => decide (address < storeSize store index)
  | 4 => decide (store < 4 ∧ address < hbmEnd)
  | 5 => decide (store < 4 ∧ address < hbmEnd)
  | 6 => decide (store < 4 ∧ index < 8)
  | 7 => decide (store < 4 ∧ 1 ≤ index ∧ index ≤ 8)
  | _ => false

/-- INJECT_ERROR. -/
def execInjectError (h : Hdr) (kind : BitVec 8) (store : BitVec 4) (index : BitVec 16) (address : BitVec 48) (s : State) :
    Host.Outcome State Fault Refusal :=
  let k := kind.toNat
  let st := store.toNat
  let i := index.toNat
  let a := address.toNat
  done (s.run h 0x92 .any (fun c s =>
    s.guard [(!injectable k st i a, ST_BAD_PARAM), (!s.on F.ER_CTRL_INJECT_EN, ST_SECURITY)] (fun s =>
      let s : State := { s with inject := s.inject ++ [⟨k, st, i, a⟩] }
      (s.raise ⟨0x0002, 0, 10, 0, k + 256 * st + 65536 * i, true, some c⟩).ok 0))).settle

/-! ## RESET_BLOCK (R481, R482) -/

/-- The domain that a kind and an index name; none when the index is out of range. -/
def blockDomainOf (kind : BlockKind) (i : Nat) : Option Domain :=
  match kind with
  | .module => if i = 0 then some .frame else none
  | .hub => if i = 0 then some .hub else none
  | .commandProcessor => if i = 0 then some .commandProcessor else none
  | .conjugator => if i = 0 then some .conjugator else none
  | .quarter => if i < 4 then some (.quarter (Fin.ofNat 4 i)) else none
  | .cluster => if i < 264 then some (.cluster (Fin.ofNat 264 i)) else none
  | .port => if i < 8 then some (.port (Fin.ofNat 8 i)) else none
  | .hbm => if i < 16 then some (.hbm (Fin.ofNat 16 i)) else none

/-- The reach that a kind goes with. -/
def blockReach : BlockKind → Reach
  | .module => .m
  | .quarter => .d
  | .hub => .d
  | _ => .b

/-- A RESET_BLOCK of the module, the hub or the command processor: its completion record first, then the source, 10 µs later. -/
def State.endThenReset (s : State) (kind : BlockKind) (d : Domain) (c : CmdRef) : State :=
  let s := if kind = .module then s else s.raise ⟨0x0D07, 0, 13, 0, 0, false, some c⟩
  let s := s.finish c (Done.ok 0)
  let s := match s.cp.ended.find? (fun e => decide (e.ref = c)) with
    | some e => s.completeOne e
    | none => s
  let s := s.advance (s.now + 10000)
  if kind = .module then s.resetOwnM F.RS_CAUSE_SOFTWARE else s.resetDomain false d

/-- RESET_BLOCK's body. It stays in flight until its target is ready. -/
def State.resetBlock (s : State) (reach : Reach) (kind : BlockKind) (index holdUs : Nat) (c : CmdRef) : Body :=
  match blockDomainOf kind index with
  | none => s.fail ST_BAD_PARAM
  | some d =>
    if blockReach kind ≠ reach ∨ 10000 < holdUs then s.fail ST_BAD_PARAM
    else if kind = .module ∨ kind = .hub ∨ kind = .commandProcessor then (s.endThenReset kind d c, none)
    else
      let s := s.resetDomain false d
      ({ s with pwr := { s.pwr with waits := s.pwr.waits ++ [⟨c, d⟩] } }, none)

/-- RESET_BLOCK. -/
def execResetBlock (h : Hdr) (reach : Reach) (kind : BlockKind) (index : BitVec 16) (holdUs : BitVec 32) (s : State) :
    Host.Outcome State Fault Refusal :=
  done (s.run h 0x93 .notBound (fun c s => s.resetBlock reach kind index.toNat holdUs.toNat c)).settle

/-! ## JTAG (R500, R543) -/

/-- IDCODE: version 0xA, part 0x5A09, manufacturer 0x0E7. -/
abbrev idcode : Nat := 0xA5A091CF

/-- Telemetry and status in a register: its RO and RC fields (R500; log entry 67). -/
def State.statusValue (s : State) (r : RegRow) (a : Nat) : Nat :=
  sumList (r.fields.map (fun f => if f.access = .ro ∨ f.access = .rc then s.get (f.at a) * 2 ^ f.lo else 0))

/-- The register at an offset, as a scan sees it: with no side effect, and 0 where there is none. -/
def State.scanned (s : State) (a : Nat) : Nat :=
  match regAt a with
  | some (r, _, _) => s.statusValue r a
  | none => 0

/-- The debug port is open: at OBSERVE or FULL, or at FULL. -/
abbrev State.observing (s : State) : Bool := decide (1 ≤ s.get F.SC_STATUS_DEBUG_LEVEL)
abbrev State.unlocked (s : State) : Bool := decide (s.get F.SC_STATUS_DEBUG_LEVEL = 2)

/-- A byte read by the debug port. One that the memory does not give is free. -/
def State.debugRead (s : State) (a : Nat) : State :=
  match s.readAt a 1 none with
  | (s, .bytes (b :: _)) => s.send (.jtag b.toNat)
  | (s, _) =>
    let b := Config.freeByte s.draws a
    ({ s with draws := s.draws + 1 } : State).send (.jtag b.toNat)

/-- JTAG_ACCESS. An instruction that the port's level does not open acts as BYPASS, which changes nothing, as do the boundary-scan
instructions and HALT, whose effects lie outside the model's state. -/
def execJtagAccess (op : JtagOp) (s : State) : Host.Outcome State Fault Refusal :=
  done (match op with
    | .bypass => s
    | .samplePreload => s
    | .extest => s
    | .idcode => s.send (.jtag idcode)
    | .observe a => if s.observing then s.send (.jtag (s.scanned a.toNat)) else s
    | .halt => s
    | .memoryRead a => if s.unlocked then (s.debugRead a.toNat).settle else s
    | .memoryWrite a v => if s.unlocked then (s.writeAt a.toNat [v] none).1.settle else s
    | .resetAssert d => if s.unlocked && decide (d ≠ .frame) then (s.resetDomain true d).settle else s
    | .resetAssertModule => if s.unlocked then s.resetOwnM F.RS_CAUSE_DEBUG else s
    | .resetRelease => if s.unlocked then s.dropDebug else s)

end Sys2Proof.Machine
end

