-- ==== Sys2Proof/Machine/LinkRows.lean ====
section
/-!
DEFINITION. Machine/LinkRows.lean: the meanings of the fabric's link rows, of SET_POSITION and of SET_ROUTES (chapter 11). The row of
an event that cannot occur in a state, such as a flit on a port that is DOWN, leaves that state unchanged.
-/
namespace Sys2Proof.Machine

/-- IDLE_FLIT. -/
def execIdleFlit (port : Fin 8) (f : FlitHdr) (s : State) : Host.Outcome State Fault Refusal :=
  done (if s.portRuns port.val then (s.idleFlit port.val f).settle else s)

/-- FLIT_ERROR. -/
def execFlitError (port : Fin 8) (crc : Bool) (s : State) : Host.Outcome State Fault Refusal :=
  done (if s.portRuns port.val then (s.flitError port.val crc).settle else s)

/-- NAK. -/
def execNak (port : Fin 8) (seq : BitVec 15) (s : State) : Host.Outcome State Fault Refusal :=
  done (if s.portRuns port.val then (s.nakReceived port.val seq.toNat).settle else s)

/-- ACK_TIMEOUT: a replay from the oldest unacknowledged flit. -/
def execAckTimeout (port : Fin 8) (s : State) : Host.Outcome State Fault Refusal :=
  let v := s.port port.val
  done (if s.portRuns port.val && decide (v.unacked ≠ 0) then (s.replayFrom port.val v.txAcked).settle else s)

/-- RETRY_EPISODE_TIMEOUT: the episode is still open 10 µs after it opened. -/
def execRetryEpisodeTimeout (port : Fin 8) (s : State) : Host.Outcome State Fault Refusal :=
  done (match (s.port port.val).episode with
    | some e => if s.portRuns port.val then ((s.advance (e.opened + 10000)).degradePort port.val).settle else s
    | none => s)

/-- LANE_LOCK_LOSS: a lane in use loses lock. -/
def execLaneLockLoss (port : Fin 8) (lane : Fin 16) (s : State) : Host.Outcome State Fault Refusal :=
  let p := port.val
  let first := s.get (F.ZP_STATUS_FIRST_LANE p)
  let used := decide (first ≤ lane.val) && decide (lane.val < first + lanesOf (s.get (F.ZP_STATUS_WIDTH p)))
  done (if s.portRuns p && used then (s.degradePort p).settle else s)

/-- PORT_RETRAIN_DONE. -/
def execPortRetrainDone (port : Fin 8) (ok upperHalf : Bool) (s : State) : Host.Outcome State Fault Refusal :=
  done (if s.get (F.ZP_STATUS_STATE port.val) = 4 then (s.retrained port.val ok upperHalf).settle else s)

/-- ZP_CTRL_RETRAIN. -/
def execZpCtrlRetrain (port : Fin 8) (s : State) : Host.Outcome State Fault Refusal :=
  done (if s.regOpen (Reg.ZP_CTRL port.val) then s.retrainPort port.val else s)

/-- ZP_CTRL_FORCE_DOWN. -/
def execZpCtrlForceDown (port : Fin 8) (down : Bool) (s : State) : Host.Outcome State Fault Refusal :=
  done (if s.regOpen (Reg.ZP_CTRL port.val) then (s.forceDown port.val down none).settle else s)

/-- PORT_TRAINING_DONE. -/
def execPortTrainingDone (port : Fin 8) (s : State) : Host.Outcome State Fault Refusal :=
  done (if decide (s.get (F.ZP_STATUS_STATE port.val) ≤ 1) && s.portMayTrain port.val then (s.portTrained port.val).settle else s)

/-- DISCOVER. -/
def execDiscover (port : Fin 8) (p : DiscoverPayload) (s : State) : Host.Outcome State Fault Refusal :=
  done (if s.portRuns port.val then (s.discovered port.val p).settle else s)

/-- LATENCY_MEASUREMENT. -/
def execLatencyMeasurement (port : Fin 8) (s : State) : Host.Outcome State Fault Refusal :=
  done (if s.portUp port.val then s.measureLatency port.val else s)

/-- ECHO_REQ: received at T2, answered at T3. -/
def execEchoReq (port : Fin 8) (t1 t2 t3 : BitVec 64) (s : State) : Host.Outcome State Fault Refusal :=
  let p := port.val
  done (if s.portRuns p then (s.accepted p 1).sendOn p 1 none (.echoRsp p t1.toNat t2.toNat t3.toNat) |>.settle else s)

/-- ECHO_RSP: arrived at T4. -/
def execEchoRsp (port : Fin 8) (t1 t2 t3 t4 : BitVec 64) (s : State) : Host.Outcome State Fault Refusal :=
  done (if s.portRuns port.val then s.echoReturned port.val t1.toNat t2.toNat t3.toNat t4.toNat |>.settle else s)

/-- LINK_STATE. -/
def execLinkState (port : Fin 8) (axis : BitVec 2) (link : BitVec 8) (broken : Bool) (s : State) : Host.Outcome State Fault Refusal :=
  done (if s.portRuns port.val then (s.linkAnnounced port.val axis.toNat link.toNat broken).settle else s)

/-- IDENT_REQ. -/
def execIdentReq (port : Fin 8) (r : Route) (s : State) : Host.Outcome State Fault Refusal :=
  done (if s.portRuns port.val then
      (match s.routed port.val r.dest.toNat 1 (subOf 0 r) (fun p => .identReq p r) with
        | (s, true) => s.identify port.val r
        | (s, false) => s).settle
    else s)

/-- RESERVED_TYPE_FLIT: discarded and counted (R314). -/
def execReservedTypeFlit (port : Fin 8) (type : BitVec 5) (s : State) : Host.Outcome State Fault Refusal :=
  let t := type.toNat
  let reserved := decide (0x0D ≤ t ∧ t ≤ 0x0F) || decide (0x14 ≤ t)
  done (if s.portRuns port.val && reserved then ((s.accepted port.val 1).bump F.ZF_ERRS_BADTYPE 1).settle else s)

/-- SET_POSITION. -/
def execSetPosition (h : Hdr) (p : PositionParams) (s : State) : Host.Outcome State Fault Refusal :=
  done (s.run h 0x31 .notBound (fun _ s =>
    s.guard [(!s.idle, ST_NOT_READY), (!s.positionOk p, ST_BAD_PARAM)] (fun s => (s.setPosition p).ok 0))).settle

/-- SET_ROUTES MAP. -/
def execSetRoutesMap (h : Hdr) (address : BitVec 48) (digest : BitVec 64) (s : State) : Host.Outcome State Fault Refusal :=
  done (s.run h 0x32 .notBound (fun c s => s.setRemap address.toNat digest.toNat c)).settle

/-- SET_ROUTES DIRMAP. -/
def execSetRoutesDirmap (h : Hdr) (dirmap : BitVec 24) (s : State) : Host.Outcome State Fault Refusal :=
  done (s.run h 0x32 .notBound (fun _ s => s.setDirmap dirmap.toNat)).settle

/-- SET_ROUTES BREAKS. -/
def execSetRoutesBreaks (h : Hdr) (address : BitVec 48) (s : State) : Host.Outcome State Fault Refusal :=
  done (s.run h 0x32 .notBound (fun c s => s.setBreaks address.toNat c)).settle

/-- SET_ROUTES PORT. -/
def execSetRoutesPort (h : Hdr) (port : Fin 8) (down : Bool) (s : State) : Host.Outcome State Fault Refusal :=
  done (s.run h 0x32 .notBound (fun c s =>
    s.guard [(!s.idle, ST_NOT_READY)] (fun s => (s.forceDown port.val down (some c)).ok 0))).settle

end Sys2Proof.Machine
end

