-- ==== Sys2Proof/Machine/ManagementRows.lean ====
section
/-!
DEFINITION. Machine/ManagementRows.lean: the meanings of the board-management rows (R516 to R519) and of the register accesses (R7 to R12,
R340, R515, R519).
-/
namespace Sys2Proof.Machine

/-! ## MCTP and PLDM -/

/-- MCTP control codes of DSP0236, outside the spec (log entry 6). -/
abbrev mctpSetEid : Nat := 0x01
abbrev mctpGetEid : Nat := 0x02
abbrev mctpUnsupported : Nat := 5

/-- MCTP_CONTROL_MESSAGE: the endpoint ID set or given; another command is answered as not supported. -/
def execMctpControlMessage (m : MctpControl) (s : State) : Host.Outcome State Fault Refusal :=
  done (if s.endpointUp then
      match m with
      | .setEndpointId eid => ({ s with mgmt := { s.mgmt with eid := eid.toNat } } : State).send (.mctp mctpSetEid 0 eid.toNat)
      | .getEndpointId => s.send (.mctp mctpGetEid 0 s.mgmt.eid)
      | .other c => s.send (.mctp c.toNat mctpUnsupported 0)
    else s)

/-- The event at the head of the PLDM queue acknowledged: it leaves the queue, and ALERT clears once that is empty (R519). -/
def State.pldmAck (s : State) : State :=
  let q := s.mgmt.queue.drop 1
  let s : State := { s with mgmt := { s.mgmt with queue := q } }
  let s := s.put F.ER_STATUS_PLDM_QUEUED q.length
  if q.isEmpty then s.put F.ER_STATUS_ALERT 0 else s

/-- What a PLDM request changes: the event receiver, or the queue. -/
def State.pldmEffect (s : State) (r : PldmReq) : State :=
  match r with
  | .setEventReceiver eid => { s with mgmt := { s.mgmt with receiver := some eid.toNat } }
  | .pollForEvents ack => if ack then s.pldmAck else s
  | _ => s

/-- PLDM's completion code: ERROR_UNSUPPORTED_PLDM_CMD for a command that R517 does not list, and SUCCESS (DSP0240; log entry 6). -/
def pldmCode : PldmReq → Nat
  | .unsupported _ _ => 5
  | _ => 0

/-- The reading of a sensor of R517 as the registers hold it: the input's voltage, current and power, the dies, the stacks, the arithmetic
clock and the module's state. -/
def State.sensorReading (s : State) (id : Nat) : Nat :=
  if id = 1 then s.get F.PW_INPUT_VIN
  else if id = 2 then s.get F.PW_INPUT_IIN
  else if id = 3 then s.get F.PW_INPUT_PIN
  else if 4 ≤ id ∧ id ≤ 8 then s.get (F.TM_TEMP_CURRENT (id - 4))
  else if 9 ≤ id ∧ id ≤ 24 then s.get (F.HM_STATUS_TEMP (id - 9))
  else if id = 25 then s.get F.PW_CLOCK_ARITH_MHZ
  else if id = 26 then s.get F.PW_STATUS_STATE
  else 0

/-- A queued event in numbers: an OEM event's class and bytes, or a sensor and its threshold. -/
def PldmEvent.numbers : PldmEvent → List Nat
  | .oem cls bytes => 0 :: cls :: bytes.map (·.toNat)
  | .sensor id level => [1, id, level]

/-- What the answer to a PLDM request reports: a sensor's reading with the threshold it is past, or the oldest queued event (R517, R518). -/
def State.pldmReport (s : State) : PldmReq → List Nat
  | .getSensorReading id => [s.sensorReading id.toNat, (alGet s.mgmt.levels id.toNat).getD 0]
  | .getStateSensorReadings id => [s.sensorReading id.toNat]
  | .pollForEvents _ => s.mgmt.queue.head?.elim [] PldmEvent.numbers
  | _ => []

/-- PLDM_REQUEST: answered, with its effect. -/
def execPldmRequest (r : PldmReq) (s : State) : Host.Outcome State Fault Refusal :=
  done (if s.endpointUp then
      let body := if pldmCode r = 0 then Config.pldmResponse r (s.pldmReport r) s.draws else []
      let s : State := { s with draws := s.draws + 1 }
      (s.pldmEffect r).send (.pldm (pldmCode r) body)
    else s)

/-- ALERT_CLEAR_WRITE: 1 written to `ER_STATUS.ALERT`. -/
def execAlertClearWrite (s : State) : Host.Outcome State Fault Refusal :=
  done (if s.regOpen Reg.ER_STATUS then s.put F.ER_STATUS_ALERT 0 else s)

/-! ## Register accesses -/

/-- A read of the control window, with the value it returns. -/
def State.answerRead (s : State) (a n : Nat) : State :=
  match s.controlRead a n with
  | (s, _, v) => s.send (.regRead a v)

/-- READ_CLEAR_ACCESS: a read, 8 bytes wide or 4. -/
def execReadClearAccess (address : BitVec 24) (wide : Bool) (s : State) : Host.Outcome State Fault Refusal :=
  done (s.answerRead address.toNat (if wide then 8 else 4)).settle

/-- LOW_WORD_READ_LATCH: a 4-byte read of the low word of a 64-bit register. -/
def execLowWordReadLatch (address : BitVec 24) (s : State) : Host.Outcome State Fault Refusal :=
  done (s.answerRead (address.toNat / 8 * 8) 4).settle

/-- BREAK_MAP_WORD0_READ: a read of `ZF_BREAK[a][0]`. -/
def execBreakMapWord0Read (axis : Fin 3) (s : State) : Host.Outcome State Fault Refusal :=
  done (s.answerRead (Reg.ZF_BREAK axis.val 0) 8).settle

/-- TM_SLACK_READ. -/
def execTmSlackRead (c : Fin 16) (s : State) : Host.Outcome State Fault Refusal :=
  done (s.answerRead (Reg.TM_SLACK c.val) 4).settle

/-- REGISTER_WRITE. -/
def execRegisterWrite (address : BitVec 24) (wide : Bool) (value : BitVec 64) (s : State) : Host.Outcome State Fault Refusal :=
  let n := if wide then 8 else 4
  done (s.controlWrite address.toNat n (value.toNat % 2 ^ (8 * n))).1.settle

end Sys2Proof.Machine
end

