-- ==== Sys2Proof/Machine/MemoryRows.lean ====
section
/-!
DEFINITION. Machine/MemoryRows.lean: the meanings of the memory rows (chapter 10); GATHER_WINDOW FETCH stands with the collectives.
-/
namespace Sys2Proof.Machine

/-- DMA_COPY. -/
def execDmaCopy (h : Hdr) (p : CopyParams) (s : State) : Host.Outcome State Fault Refusal :=
  done (s.run h 0x10 .any (fun c s => s.dmaCopy h p c)).settle

/-- FILL. -/
def execFill (h : Hdr) (dst : BitVec 48) (length : BitVec 64) (width : FillWidth) (pattern : BitVec 64) (s : State) :
    Host.Outcome State Fault Refusal :=
  done (s.run h 0x15 .any (fun c s => s.fillBody h dst.toNat length.toNat width pattern.toNat c)).settle

/-- LOAD_SHARD. -/
def execLoadShard (h : Hdr) (p : LoadParams) (s : State) : Host.Outcome State Fault Refusal :=
  done (s.run h 0x11 .notBound (fun c s => s.loadShard p c)).settle

/-- SWAP_TENSE. -/
def execSwapTense (h : Hdr) (atPeriod : BitVec 48) (cancel : Bool) (s : State) : Host.Outcome State Fault Refusal :=
  done (s.run h 0x12 .notBound (fun _ s => s.swapTense atPeriod.toNat cancel)).settle

/-- VERIFY_SHARD. -/
def execVerifyShard (h : Hdr) (target : VerifyTarget) (s : State) : Host.Outcome State Fault Refusal :=
  done (s.run h 0x13 .notBound (fun c s => s.verifyShard target c)).settle

/-- GATHER_WINDOW SETUP. -/
def execGatherSetup (h : Hdr) (count : BitVec 16) (base : BitVec 48) (slotBytes : BitVec 64) (table : BitVec 48) (s : State) :
    Host.Outcome State Fault Refusal :=
  done (s.run h 0x14 .notBound (fun c s => s.gatherSetup count.toNat base.toNat slotBytes.toNat table.toNat c)).settle

/-- GATHER_WINDOW RELEASE. -/
def execGatherRelease (h : Hdr) (slot : Fin 3) (s : State) : Host.Outcome State Fault Refusal :=
  done (s.run h 0x14 (.kinds [kindForward, kindBackward, kindEvaluate]) (fun _ s => (s.holdSlot slot.val false).ok 0)).settle

/-- PATROL_SCRUB: one pass of a stack's scrub, with the lines it finds bad (R285). HOURS 0 disables it. -/
def execPatrolScrub (stack : Fin 16) (findings : List ScrubFinding) (s : State) : Host.Outcome State Fault Refusal :=
  done (if s.get (F.HM_SCRUB_HOURS stack.val) = 0 ∨ s.stackHeld stack.val then s
    else (findings.foldl (fun s f => s.scrubLine stack.val f) (s.scrubArmed stack.val)).settle)

/-- HBM_TEMPERATURE_READ. -/
def execHbmTemperatureRead (stack : Fin 16) (celsius : BitVec 8) (s : State) : Host.Outcome State Fault Refusal :=
  done (s.stackTemperature stack.val celsius.toNat).settle

/-- DM_MAP_WRITE. -/
def execDmMapWrite (localMap : BitVec 6) (lock : Bool) (s : State) : Host.Outcome State Fault Refusal :=
  done (if s.regOpen Reg.DM_MAP then s.writeMap localMap.toNat lock else s)

/-- REVERIFY_PASS. -/
def execReverifyPass (bank : Fin 2) (s : State) : Host.Outcome State Fault Refusal :=
  done (s.reverify bank.val).settle

end Sys2Proof.Machine
end

