-- ==== Sys2Proof/Machine/Orrex.lean ====
section
/-!
DEFINITION. Machine/Orrex.lean: the Orrex Link ports, the companion's requests, its snoops, and its responses (R442 to R460).
-/
namespace Sys2Proof.Machine

/-! ## Ports (R450, R455, R457) -/

/-- `OXL_STATUS.LINKl`. -/
abbrev linkField (l : Nat) : Field := if l = 0 then F.OXL_STATUS_LINK0 else F.OXL_STATUS_LINK1

/-- `OXL_STATUS` with a port's state set; SINGLE follows. -/
def State.putLink (s : State) (l v : Nat) : State :=
  let s := s.put (linkField l) v
  s.put F.OXL_STATUS_SINGLE (flag (s.oxlUp 0 != s.oxlUp 1))

/-- A request sent again on the port that is left, with the same tag (R457). -/
def State.resend (s : State) (l : Nat) (r : OxlReq) : State :=
  let move (x : OxlReq) : OxlReq := if x.tag = r.tag then { x with link := l } else x
  ({ s with oxl := { s.oxl with pending := s.oxl.pending.map move } } : State).sendLink l (.oxlRequest l r.kind r.tag r.addr r.len r.data)

/-- The interrupts that wait at a port: they go out on the other. -/
def waitingVectors (ms : List OutMsg) : List Nat :=
  ms.filterMap (fun m => match m with
    | .interrupt _ v => some v
    | _ => none)

/-- A port is DOWN: OXL_LINK_DOWN; the requests that it carried move to the other port, and the responses owed on it are discarded. With both
DOWN the requests are lost, with OXL_LOST. -/
def State.linkDown (s : State) (l : Nat) : State :=
  let vs := waitingVectors (s.oxlLink l).queue
  let s := ((s.putLink l 0).setLink l OxlLink.reset).bump F.OXL_ERRS_LINK_DOWN 1
  let other := 1 - l
  if s.oxlUp other then
    let s := (s.oxl.pending.filter (fun r => decide (r.link = l))).foldl (fun (s : State) r => s.resend other r) s
    let s := vs.foldl (fun (s : State) v => s.sendLink other (.interrupt other v)) s
    s.raise (Ev.plain 0x0E01 2 14 l)
  else
    ((s.raise (Ev.plain 0x0E01 2 14 l)).oxlAbandon).raise (Ev.plain 0x0E03 3 14 0)

/-- A message with a reserved encoding (R457): OXL_PROTOCOL, and the port DOWN. -/
def State.protocolError (s : State) (l : Nat) : State :=
  ((s.bump F.OXL_ERRS_PROTOCOL 1).raise (Ev.plain 0x0E02 2 14 l)).linkDown l

/-- A port has finished training: INIT, and the module's INIT flit (R455). -/
def State.linkTrained (s : State) (l : Nat) : State :=
  ((s.putLink l 2).setLink l { s.oxlLink l with initSent := true }).send (.oxlInit l (s.get F.ZF_UNIT_ID_UNIT_ID))

/-- The companion's INIT flit: its credits and its limit; too few slots in a class leave the port DOWN (R454). A port with another
VERSION stays in INIT. -/
def State.linkInit (s : State) (l version req rsp snp limit : Nat) : State :=
  if req < 256 ∨ rsp < 256 ∨ snp < 256 then
    (((s.putLink l 0).setLink l OxlLink.reset).bump F.OXL_ERRS_PROTOCOL 1).raise (Ev.plain 0x0E02 2 14 l)
  else if version ≠ 1 then s
  else
    let v := s.oxlLink l
    let s := (s.setLink l { v with req := req, rsp := rsp, snp := snp, initGot := true }).put F.OXL_MEM_LIMIT_LIMIT limit
    if v.initSent then s.putLink l 3 else s

/-! ## The companion's requests (R447 to R449, R456) -/

/-- HBM accesses are answered BUSY until the module is READY. -/
def State.hbmBusy (s : State) : Bool :=
  !(decide (5 ≤ s.get F.PW_STATUS_STATE) && (decide (s.get F.PW_STATUS_STATE ≠ 11) || s.pwr.bootDone))

/-- An HBM window access is well formed (R446). -/
def hbmShaped (a n : Nat) : Bool := decide (4 ≤ n ∧ n ≤ 1024 ∧ n % 4 = 0 ∧ a % 4 = 0 ∧ a / 4096 = (a + n - 1) / 4096)

/-- The STATUS that answers an access which a command would end with a status for. -/
def oxlStatus (st : Nat) : Nat :=
  if st = ST_ISOLATED then OXL_ISOLATED else if st = ST_ECC then OXL_POISON else if st = ST_NOT_READY then OXL_REFUSED else OXL_UNMAPPED

/-- What stops an HBM window access before it reaches the memory: it is not served yet, malformed, outside the window, or in an alias that
it may not touch. -/
def State.hbmGate (s : State) (a n : Nat) (write : Bool) : Option Nat :=
  if s.hbmBusy then some OXL_BUSY
  else if !hbmShaped a n then some OXL_ACCESS
  else match rangeSpace a n with
    | none => some OXL_UNMAPPED
    | some .companion => some OXL_UNMAPPED
    | some .hbm => none
    | some _ => if write then some OXL_REFUSED else (s.aliasCheck a n).map oxlStatus

/-- Data that a failed read returns. -/
abbrev ones (n : Nat) : List Byte := List.replicate n 0xFF

/-- A READ of the HBM window: its status and data. -/
def State.hbmWindowRead (s : State) (a n : Nat) : State × Nat × List Byte :=
  match s.hbmGate a n false with
  | some st => (s, st, ones n)
  | none => match s.readAt a n none with
    | (s, .bytes bs) => (s, OXL_OK, bs)
    | (s, .error st) => (s, oxlStatus st, ones n)

/-- A WRITE to the HBM window: its status. -/
def State.hbmWindowWrite (s : State) (a : Nat) (bs : List Byte) : State × Nat :=
  match s.hbmGate a bs.length true with
  | some st => (s, st)
  | none => match (s.noteWrite a bs.length none).writeHbm a bs none with
    | (s, none) => (s, OXL_OK)
    | (s, some st) => (s, oxlStatus st)

/-- A READ: window 0 CONTROL, 1 HBM; the others are reserved. -/
def State.companionRead (s : State) (l tag window a n : Nat) : State :=
  match window with
  | 0 => match s.controlRead a n with
    | (s, st, v) => s.sendLink l (.oxlData l tag st (if st = OXL_OK then leBytes n v else ones n))
  | 1 => match s.hbmWindowRead a n with
    | (s, st, bs) => s.sendLink l (.oxlData l tag st bs)
  | _ => s.protocolError l

/-- A WRITE. -/
def State.companionWrite (s : State) (l tag window a : Nat) (bs : List Byte) : State :=
  match window with
  | 0 => match s.controlWrite a bs.length (ofLE bs) with
    | (s, st) => s.sendLink l (.oxlAck l tag st)
  | 1 => match s.hbmWindowWrite a bs with
    | (s, st) => s.sendLink l (.oxlAck l tag st)
  | _ => s.protocolError l

/-! ## What a received flit brings (R444, R454) -/

/-- Credits that a flit header returns, and the messages that they let go. -/
def State.creditIn (s : State) (l : Nat) (h : OxlFlitHdr) : State :=
  if h.crClass = 3 then s
  else
    let v := s.oxlLink l
    (s.setLink l (v.withCredit h.crClass (v.credit h.crClass + h.crSlots))).pumpLink l

/-- A message of `slots` slots of a class received on a port in a flit with the given header. A reserved TYPE breaks the protocol (R457), and
an INIT or IDLE flit holds no message. The module takes the message at once, and so returns its slots at once, in an IDLE flit (log entry
131). -/
def State.received (s : State) (l : Nat) (flit : BitVec 96) (cls slots : Nat) (f : State → State) : State :=
  match OxlFlitHdr.ofWord flit.toNat with
  | none => s.protocolError l
  | some h =>
    let s := s.creditIn l h
    if h.type = 0 then f (s.send (.oxlCredit l cls slots)) else s

/-! ## Snoops (R453) -/

/-- The line buffer's line at an address. -/
abbrev State.lineAt (s : State) (a : Nat) : Option Line := s.oxl.lines.find? (fun x => decide (x.addr = a))

/-- The line buffer without a line, or with its state changed. -/
def State.setLine (s : State) (a : Nat) (v : Option LineState) : State :=
  let ls := match v with
    | some st => s.oxl.lines.map (fun x => if x.addr = a then { x with state := st } else x)
    | none => s.oxl.lines.filter (fun x => decide (x.addr ≠ a))
  { s with oxl := { s.oxl with lines := ls } }

/-- A snoop answered from the state of its line; `shared`: SNP_SHARED. -/
def State.snooped (s : State) (l tag a : Nat) (shared : Bool) : State :=
  let keep (s : State) : State := if shared then s.setLine a (some .s) else s.setLine a none
  match s.lineAt a with
  | none => s.sendLink l (.snpRsp l tag false false [])
  | some x => match x.state with
    | .s => (keep s).sendLink l (.snpRsp l tag shared false [])
    | .e => (keep s).sendLink l (.snpRsp l tag shared false [])
    | .m => (keep s).sendLink l (.snpRsp l tag shared false x.data)
    | .wb => s.sendLink l (.snpRsp l tag false true [])

/-! ## Responses (R446, R447, R451, R457) -/

/-- The request that a response answers. -/
abbrev State.oxlRequestOf (s : State) (tag : Nat) : Option OxlReq := s.oxl.pending.find? (fun r => decide (r.tag = tag))

/-- What waited for a request to end goes on: requests that wait, and records. -/
abbrev State.pumpAgents (s : State) : State := (s.pumpOxl).pumpRecords

/-- A line granted for a record or a part of a line (READ_OWN): the bytes are merged and the line is written back (R426). -/
def State.lineGranted (s : State) (r : OxlReq) (bs : List Byte) : State :=
  let line := padTo 64 bs
  let merged := match r.merge with
    | some (off, v) => overlay line off v
    | none => line
  let s := s.takeReq r
  ({ s with comp := s.comp.write r.addr merged }).issue { r with kind := .writeback, data := merged }

/-- The data of a read: what the module holds of companion memory follows, and its agent has it; a READ_SHARED also puts its line into the
line buffer. -/
def State.dataRead (s : State) (r : OxlReq) (bs : List Byte) : State :=
  let bs := padTo r.len bs
  let s := s.takeReq r
  let line := if r.kind = .readShared then [(⟨r.addr, .s, bs⟩ : Line)] else []
  let seen := match r.owner with
    | some o => [(⟨o, r.addr, r.len, OXL_OK⟩ : OxlSeen)]
    | none => []
  { s with comp := s.comp.write r.addr bs, oxl := { s.oxl with lines := s.oxl.lines ++ (if r.owner.isSome then line else []), seen := s.oxl.seen ++ seen } }

/-- A DATA response; one with a reserved status breaks the protocol, and one that no READ waits for is nothing to the module. -/
def State.dataArrived (s : State) (l tag status : Nat) (bs : List Byte) : State :=
  if 7 ≤ status then s.protocolError l
  else match s.oxlRequestOf tag with
    | some r =>
      if !r.kind.reads then s
      else if status ≠ OXL_OK then s.oxlFail r true status
      else if r.kind = .readOwn then s.lineGranted r bs
      else (s.dataRead r bs).pumpAgents
    | none => s

/-- A write performed: its lines leave the buffer, a record that it carried is written, and an interrupt that waited for it goes out
(R429, R451). -/
def State.writePerformed (s : State) (r : OxlReq) : State :=
  let s := s.takeReq r
  let s := match r.record with
    | some tag => s.recorded tag
    | none => s
  match r.irq with
  | some v => s.interrupt v
  | none => s

/-- An ACK response. -/
def State.ackArrived (s : State) (l tag status : Nat) : State :=
  if 7 ≤ status then s.protocolError l
  else match s.oxlRequestOf tag with
    | some r =>
      if r.kind.reads then s
      else if status = OXL_OK then (s.writePerformed r).pumpAgents else s.oxlFail r true status
    | none => s

/-- A request without a response for TIMEOUT_US (R457). -/
def State.requestTimeout (s : State) (r : OxlReq) : State :=
  ((s.oxlFail r false OXL_ISOLATED).bump F.OXL_ERRS_TIMEOUTS 1).raise (Ev.plain 0x0E04 2 14 r.link)

end Sys2Proof.Machine
end

