-- ==== Sys2Proof/Machine/OrrexRows.lean ====
section
/-!
DEFINITION. Machine/OrrexRows.lean: the meanings of the Orrex Link rows (chapter 15). A message is received on a port that is UP; a step
that cannot occur in a state leaves that state unchanged.
-/
namespace Sys2Proof.Machine

/-- A step of a port that is UP. -/
abbrev State.onLink (s : State) (l : Fin 2) (f : State → State) : Host.Outcome State Fault Refusal :=
  done (if s.oxlUp l.val then (f s).settle else s)

/-- A message of a class received on a port that is UP, with its data bytes. -/
abbrev State.onMessage (s : State) (l : OxlIn) (cls bytes : Nat) (f : State → State) : Host.Outcome State Fault Refusal :=
  s.onLink l.port (fun s => s.received l.port.val l.flit cls (1 + oxlSlots bytes) f)

/-- OXL_PORT_TRAINED: a port that is DOWN or TRAINING, with the hub out of reset. -/
def execOxlPortTrained (link : Fin 2) (s : State) : Host.Outcome State Fault Refusal :=
  done (if decide (s.get (linkField link.val) ≤ 1) && s.endpointUp then s.linkTrained link.val else s)

/-- OXL_INIT. -/
def execOxlInit (link : Fin 2) (version : BitVec 8) (req rsp snp : BitVec 16) (memLimit : BitVec 48) (s : State) :
    Host.Outcome State Fault Refusal :=
  done (if s.get (linkField link.val) = 2 then
      (s.linkInit link.val version.toNat req.toNat rsp.toNat snp.toNat memLimit.toNat).settle
    else s)

/-- OXL_READ. -/
def execOxlRead (link : OxlIn) (tag : BitVec 12) (window : BitVec 2) (address : BitVec 48) (length : BitVec 11) (s : State) :
    Host.Outcome State Fault Refusal :=
  s.onMessage link 0 0 (fun s => s.companionRead link.port.val tag.toNat window.toNat address.toNat length.toNat)

/-- OXL_WRITE. -/
def execOxlWrite (link : OxlIn) (tag : BitVec 12) (window : BitVec 2) (address : BitVec 48) (data : List (BitVec 8)) (s : State) :
    Host.Outcome State Fault Refusal :=
  s.onMessage link 0 data.length (fun s => s.companionWrite link.port.val tag.toNat window.toNat address.toNat data)

/-- OXL_DOORBELL: a write of `CP_RING_TAIL`. -/
def execOxlDoorbell (link : OxlIn) (ring : Fin 64) (tail : BitVec 24) (s : State) : Host.Outcome State Fault Refusal :=
  s.onMessage link 0 0 (fun s => if s.regOpen (Reg.CP_RING_TAIL ring.val) then s.doorbell ring.val tail.toNat else s)

/-- SNP_INV. -/
def execSnpInv (link : OxlIn) (tag : BitVec 12) (line : BitVec 48) (s : State) : Host.Outcome State Fault Refusal :=
  s.onMessage link 2 0 (fun s => s.snooped link.port.val tag.toNat (line.toNat / 64 * 64) false)

/-- SNP_SHARED. -/
def execSnpShared (link : OxlIn) (tag : BitVec 12) (line : BitVec 48) (s : State) : Host.Outcome State Fault Refusal :=
  s.onMessage link 2 0 (fun s => s.snooped link.port.val tag.toNat (line.toNat / 64 * 64) true)

/-- OXL_DATA. -/
def execOxlData (link : OxlIn) (tag : BitVec 12) (status : BitVec 4) (data : List (BitVec 8)) (s : State) :
    Host.Outcome State Fault Refusal :=
  s.onMessage link 1 data.length (fun s => s.dataArrived link.port.val tag.toNat status.toNat data)

/-- OXL_ACK. -/
def execOxlAck (link : OxlIn) (tag : BitVec 12) (status : BitVec 4) (s : State) : Host.Outcome State Fault Refusal :=
  s.onMessage link 1 0 (fun s => s.ackArrived link.port.val tag.toNat status.toNat)

/-- OXL_TRAINING_TIMEOUT: a port in TRAINING or INIT is DOWN; its training goes on being retried. -/
def execOxlTrainingTimeout (link : Fin 2) (s : State) : Host.Outcome State Fault Refusal :=
  let st := s.get (linkField link.val)
  done (if st = 1 ∨ st = 2 then
      ((((s.putLink link.val 0).setLink link.val OxlLink.reset).bump F.OXL_ERRS_LINK_DOWN 1).raise (Ev.plain 0x0E01 2 14 link.val)).settle
    else s)

/-- OXL_L0_LOSS. -/
def execOxlL0Loss (link : Fin 2) (s : State) : Host.Outcome State Fault Refusal := s.onLink link (fun s => s.linkDown link.val)

/-- OXL_TIMEOUT. -/
def execOxlTimeout (tag : BitVec 12) (s : State) : Host.Outcome State Fault Refusal :=
  done (match s.oxlRequestOf tag.toNat with
    | some r => (s.requestTimeout r).settle
    | none => s)

/-- L0_EXIT_TO_RECOVERY. -/
def execL0ExitToRecovery (link : Fin 2) (s : State) : Host.Outcome State Fault Refusal :=
  s.onLink link (fun s =>
    (s.bump (F.OXL_LINK_RECOVERIES link.val) 1).setLink link.val { s.oxlLink link.val with outOfL0 := true })

end Sys2Proof.Machine
end

