-- ==== Sys2Proof/Machine/PeriodRows.lean ====
section
/-!
DEFINITION. Machine/PeriodRows.lean: the meanings of the Period controller's commands, of REPLAY_CONTROL, and of the timebase's and the
Period's own steps (chapter 02, R330, R335, R336, R357). A step that cannot occur in a state leaves that state unchanged.
-/
namespace Sys2Proof.Machine

/-! ## Commands (R57 to R62) -/

/-- PERIOD_PLAN. -/
def execPeriodPlan (h : Hdr) (p : Plan) (s : State) : Host.Outcome State Fault Refusal :=
  done (s.run h 0x70 .notBound (fun c s => match s.useCritical 4 0 (some c) with
    | (s, true) => s.fail ST_ISOLATED
    | (s, false) => s.takePlan p)).settle

/-- PERIOD_ARM. -/
def execPeriodArm (h : Hdr) (p : ArmParams) (s : State) : Host.Outcome State Fault Refusal :=
  done (s.run h 0x71 .notBound (fun _ s => s.armPeriod p)).settle

/-- PERIOD_HALT. -/
def execPeriodHalt (h : Hdr) (machine atEnd : Bool) (s : State) : Host.Outcome State Fault Refusal :=
  done (s.run h 0x72 .notBound (fun c s => s.haltPeriodBody machine atEnd c)).settle

/-- REPLAY_CONTROL FREEZE. -/
def execReplayFreeze (h : Hdr) (s : State) : Host.Outcome State Fault Refusal :=
  done (s.run h 0x73 .notBound (fun _ s => (s.freezeRing true).ok 0)).settle

/-- REPLAY_CONTROL THAW. -/
def execReplayThaw (h : Hdr) (s : State) : Host.Outcome State Fault Refusal :=
  done (s.run h 0x73 .notBound (fun _ s => (s.freezeRing false).ok 0)).settle

/-- REPLAY_CONTROL COPY_OUT. -/
def execReplayCopyOut (h : Hdr) (period : BitVec 48) (count : BitVec 32) (dest destLen : BitVec 64) (s : State) :
    Host.Outcome State Fault Refusal :=
  done (s.run h 0x73 .notBound (fun c s => s.copyRecords period.toNat count.toNat dest.toNat destLen.toNat c)).settle

/-- REPLAY_CONTROL REPLAY. -/
def execReplayReplay (h : Hdr) (period : BitVec 48) (dest destLen : BitVec 64) (s : State) : Host.Outcome State Fault Refusal :=
  done (s.run h 0x73 .notBound (fun _ s => s.armReplay period.toNat dest.toNat destLen.toNat)).settle

/-- REPLAY_CONTROL CLEAR. -/
def execReplayClear (h : Hdr) (s : State) : Host.Outcome State Fault Refusal :=
  done (s.run h 0x73 .notBound (fun _ s => (s.clearRing).ok 0)).settle

/-! ## The timebase -/

/-- TIME_SEND: 100 µs after the last one. -/
def execTimeSend (s : State) : Host.Outcome State Fault Refusal :=
  done (if s.pcOn && s.isMaster then (s.sendTime).settle else s)

/-- TIME_MESSAGE. -/
def execTimeMessage (port : Fin 8) (p : TimePayload) (residence : BitVec 32) (s : State) : Host.Outcome State Fault Refusal :=
  done (if s.portUp port.val then (s.timeArrived port.val p residence.toNat).settle else s)

/-- HOLDOVER: 500 µs after the last TIME. -/
def execHoldover (s : State) : Host.Outcome State Fault Refusal :=
  done (if s.pcOn && !s.isMaster && !s.on F.PC_STATUS_HOLDOVER then
      (((s.advance (s.pd.lastTime + 500000)).put F.PC_STATUS_HOLDOVER 1).raise (Ev.plain 0x0B02 0 11 0)).settle
    else s)

/-- TIMEBASE_LOST: 5 ms after the last TIME. -/
def execTimebaseLost (s : State) : Host.Outcome State Fault Refusal :=
  done (if s.pcOn && !s.isMaster then
      ((s.advance (s.pd.lastTime + 5000000)).raise (Ev.plain 0x0B03 3 11 0)).settle
    else s)

/-- TICKREF_EDGE, at the instant that the module's clock reads. -/
def execTickrefEdge (time : BitVec 64) (s : State) : Host.Outcome State Fault Refusal :=
  done (if s.pcOn && s.tickref then (s.edge time.toNat).settle else s)

/-- TICKREF_EDGE_MISSING. -/
def execTickrefEdgeMissing (s : State) : Host.Outcome State Fault Refusal :=
  done (if s.pcOn && s.tickref then (s.edgeMissing).settle else s)

/-! ## The tick -/

/-- TICK_SEND: the master's next tick, sent and scheduled in the module itself. -/
def execTickSend (s : State) : Host.Outcome State Fault Refusal :=
  done (if s.pcOn && s.isMaster then
      (match s.nextTick with
        | some t => ({ s.tickDown (tickPayload t) with pd := { (s.tickDown (tickPayload t)).pd with sched := some t } } : State).settle
        | none => s)
    else s)

/-- TICK_MESSAGE. -/
def execTickMessage (port : Fin 8) (p : TickPayload) (s : State) : Host.Outcome State Fault Refusal :=
  done (if s.portUp port.val then (s.tickArrived port.val p).settle else s)

/-- PERIOD_START: fabric time reaches the scheduled start, which it does only once the module has synchronised (R26). -/
def execPeriodStart (s : State) : Host.Outcome State Fault Refusal :=
  done (match s.pd.sched with
    | some t => if s.pcOn && (s.on F.PC_STATUS_SYNCED || decide (t.start ≤ s.now)) && (decide (s.pcState = 1) || decide (s.pcState = 2)) then (s.startPeriod t false).settle else s
    | none => s)

/-- CLAUSE_START: the boundary at which a Clause starts. -/
def execClauseStart (c : Fin 16) (s : State) : Host.Outcome State Fault Refusal :=
  done (match planEntry s.pd.plan c.val with
    | some e => if s.inPeriod && (s.clause c.val).runs && !(s.clause c.val).started then (s.reachBoundary e.startUs.toNat).settle else s
    | none => s)

/-- CLAUSE_DEADLINE: the boundary at which a Clause has its deadline. -/
def execClauseDeadline (c : Fin 16) (s : State) : Host.Outcome State Fault Refusal :=
  done (match planEntry s.pd.plan c.val with
    | some e => if s.inPeriod && (s.clause c.val).runs && !(s.clause c.val).passed then (s.reachBoundary e.deadlineUs.toNat).settle else s
    | none => s)

/-! ## Reports and GRANTs -/

/-- READY_TO_COMMIT_REPORT. In replay mode the module waits for the publications that the record marks (R56, R221). -/
def execReadyToCommitReport (s : State) : Host.Outcome State Fault Refusal :=
  let published := !s.replaying || s.replayPublished
  done (if s.inPeriod && decide (s.pcState = 2) && s.readyToCommit && published && !s.pd.readySent then (s.reportReady).settle else s)

/-- DONE_REPORT. -/
def execDoneReport (s : State) : Host.Outcome State Fault Refusal :=
  done (if s.inPeriod && decide (s.pcState = 2) && s.allClausesEnded && !s.on F.PC_STATUS_DONE then (s.reportDone).settle else s)

/-- REDUCE_MESSAGE. -/
def execReduceMessage (port : Fin 8) (p : ReducePayload) (s : State) : Host.Outcome State Fault Refusal :=
  done (if s.portUp port.val then (s.reduceArrived port.val p).settle else s)

/-- GRANT_MESSAGE. -/
def execGrantMessage (port : Fin 8) (p : GrantPayload) (s : State) : Host.Outcome State Fault Refusal :=
  done (if s.portUp port.val then (s.grantArrived port.val p).settle else s)

/-- NOISE_REDUCE_SEND: every EXCHANGE Clause of the Period is complete. -/
def execNoiseReduceSend (s : State) : Host.Outcome State Fault Refusal :=
  let complete := (s.runningClauses [kindExchange]).all (fun c => (s.clause c).complete.isSome)
  done (if s.inPeriod && complete && !s.noiseReported then (s.report_ s.noiseReportOf).settle else s)

/-- COMMIT. -/
def execCommit (s : State) : Host.Outcome State Fault Refusal :=
  done (if s.mayCommit then (s.commitPeriod).settle else s)

/-- HALT_MESSAGE. -/
def execHaltMessage (port : Fin 8) (p : HaltPayload) (s : State) : Host.Outcome State Fault Refusal :=
  done (if s.portUp port.val then (s.haltArrived port.val p).settle else s)

/-- RECORDER_ENABLE: `RR_CTRL.ENABLE` is 1 for the first time after a reset, by its reset value or by a write: the ring is scanned. -/
def execRecorderEnable (s : State) : Host.Outcome State Fault Refusal :=
  done (if s.on F.RR_CTRL_ENABLE && s.hubReady then (s.scanRing).settle
    else if s.regOpen Reg.RR_CTRL then ((s.put F.RR_CTRL_ENABLE 1).scanRing).settle
    else s)

end Sys2Proof.Machine
end

