-- ==== Sys2Proof/Machine/PowerRows.lean ====
section
/-!
DEFINITION. Machine/PowerRows.lean: the meanings of the power stage's, the sensors' and the reset controller's rows (R461 to R480, R514,
R540). A step that cannot occur in a state leaves that state unchanged.
-/
namespace Sys2Proof.Machine

/-- The rails are up: the module has left OFF and POWERING and its stage runs. -/
abbrev State.powered (s : State) : Bool := decide (2 ≤ s.get F.PW_STATUS_STATE) && s.on F.PW_STATUS_PGOOD

/-! ## The input (R462 to R464, R540) -/

/-- INPUT_CROSSES_10V. A removed input ends everything that power holds, the THERMTRIP latch too (R467). -/
def execInputCrosses10V (rising : Bool) (s : State) : Host.Outcome State Fault Refusal :=
  done (if rising then
      if s.pwr.above10 then s
      else
        let s : State := { s with pwr := { s.pwr with above10 := true } }
        if s.get F.PW_STATUS_STATE = 0 then s.driveMrst else s
    else
      let s := if s.get F.PW_STATUS_STATE = 0 then s else s.resetP
      { (s.put F.RS_MRST_LEVEL 1) with pwr := { s.pwr with above10 := false, thermLatch := false, mrstDriven := false } })

/-- INPUT_QUALIFIED: OFF to POWERING, unless a THERMTRIP keeps the module OFF. -/
def execInputQualified (s : State) : Host.Outcome State Fault Refusal :=
  done (if s.get F.PW_STATUS_STATE = 0 && s.pwr.above10 && !s.pwr.thermLatch then s.put F.PW_STATUS_STATE 1 else s)

/-- RAILS_IN_REGULATION: PGOOD, and FUSE_LOAD. -/
def execRailsInRegulation (s : State) : Host.Outcome State Fault Refusal :=
  done (if s.get F.PW_STATUS_STATE = 1 then
      { ((s.put F.PW_STATUS_STATE 2).put F.PW_STATUS_PGOOD 1) with pwr := { s.pwr with stopped := false } }
    else s)

/-- POWER_WARNING: the warning cap is in force. -/
def execPowerWarning (s : State) : Host.Outcome State Fault Refusal :=
  done (if s.powered then (((s.put F.PW_STATUS_WARN 1).bump F.PW_COUNTS_WARNINGS 1).raise (Ev.plain 0x0D01 0 13 0)).settle else s)

/-- POWER_RECOVERED, after a warning. -/
def execPowerRecovered (s : State) : Host.Outcome State Fault Refusal :=
  done (if s.powered && s.on F.PW_STATUS_WARN then ((s.put F.PW_STATUS_WARN 0).raise (Ev.plain 0x0D02 0 13 0)).settle else s)

/-- OVERVOLTAGE. -/
def execOvervoltage (s : State) : Host.Outcome State Fault Refusal :=
  done (if s.powered then (s.raise (Ev.plain 0x0D03 0 13 0)).settle else s)

/-- OVERVOLTAGE_STOP: the stage stops, a reset of reach P. -/
def execOvervoltageStop (s : State) : Host.Outcome State Fault Refusal := done (if s.get F.PW_STATUS_STATE = 0 then s else s.resetP)

/-- BROWN_OUT: the stage stops, a reset of reach P. -/
def execBrownOut (s : State) : Host.Outcome State Fault Refusal := done (if s.get F.PW_STATUS_STATE = 0 then s else s.resetP)

/-- THERMTRIP: the stage stops, and the module stays OFF until the input has been removed. -/
def execThermtrip (s : State) : Host.Outcome State Fault Refusal :=
  done (if s.get F.PW_STATUS_STATE = 0 then s
    else
      let s := s.resetP
      { s with pwr := { s.pwr with thermLatch := true } })

/-! ## The clock (R465 to R467) -/

/-- The cap in force, in units of 0.1 W. -/
abbrev State.capDeciwatts (s : State) : Nat := if s.on F.PW_STATUS_WARN then 10 * s.get F.PW_CFG_WARN_CAP_W else 20000

/-- The arithmetic clock set, with its sensor. -/
def State.setClock (s : State) (mhz : Nat) : State :=
  if s.get F.PW_CLOCK_ARITH_MHZ = mhz then s else (s.put F.PW_CLOCK_ARITH_MHZ mhz).sensor 25 mhz

/-- One step down, to the floor of 1,200 MHz. -/
abbrev State.clockDown (s : State) : State := s.setClock (max 1200 (s.get F.PW_CLOCK_ARITH_MHZ - 25))

/-- One step up, while no junction is too hot. -/
abbrev State.clockUp (s : State) : State := if s.on F.PW_STATUS_HOT then s else s.setClock (min 3600 (s.get F.PW_CLOCK_ARITH_MHZ + 25))

/-- THROTTLE, as the clock stands after the power manager has moved it. -/
def State.noteThrottle (s : State) (lowered : Bool) : State :=
  if lowered && decide (s.get F.PW_CLOCK_ARITH_MHZ < 3600) && !s.on F.PW_STATUS_THROTTLE then (s.put F.PW_STATUS_THROTTLE 1).bump F.PW_COUNTS_THROTTLES 1
  else if s.get F.PW_CLOCK_ARITH_MHZ = 3600 then s.put F.PW_STATUS_THROTTLE 0
  else s

/-- The sum of one quantity over measurements. -/
abbrev sumOf (f : InputSample → Nat) (xs : List InputSample) : Nat := sumList (xs.map f)

/-- The average power of the last 100 µs, or of the measurements that there are, is above the cap in force (R24, R465). -/
def State.overCap (s : State) : Bool :=
  let xs := s.pwr.samples.take 100
  decide (s.capDeciwatts * xs.length < sumOf (·.deciWatts) xs)

/-- The average power of the last 1 ms exceeds that of the 1 ms before it by more than 2,000 W ÷ RAMP_MS (R466). -/
def State.overRamp (s : State) : Bool :=
  let xs := s.pwr.samples
  let ramp := s.get F.PW_CFG_RAMP_MS
  decide (xs.length = 2000 ∧ ramp * sumOf (·.deciWatts) (xs.drop 1000) + 1000 * 20000 < ramp * sumOf (·.deciWatts) (xs.take 1000))

/-- The power manager after a measurement: a step down while the cap or the ramp is exceeded; within both its step is free (log entry 62). -/
def State.manageClock (s : State) : State :=
  if s.overCap || s.overRamp then (s.clockDown).noteThrottle true
  else
    let k := Config.clockStep s.draws
    let s : State := { s with draws := s.draws + 1 }
    if k = 0 then s.noteThrottle false
    else if k = 1 then (s.clockUp).noteThrottle false
    else (s.clockDown).noteThrottle true

/-- A measurement joins those of the last 2 ms, one a microsecond. -/
def State.sampled (s : State) (x : InputSample) : State :=
  { s with pwr := { s.pwr with samples := (x :: s.pwr.samples).take 2000 } }

/-- The average of a quantity of the input over the last 100 µs, or over the measurements that there are (R514). -/
def State.average (s : State) (f : InputSample → Nat) : Nat :=
  let xs := s.pwr.samples.take 100
  sumOf f xs / xs.length

/-- POWER_MEASUREMENT. -/
def execPowerMeasurement (milliVolts tenMilliAmps deciWatts : BitVec 16) (s : State) : Host.Outcome State Fault Refusal :=
  done (if s.powered then
      let s := s.sampled ⟨milliVolts.toNat, tenMilliAmps.toNat, deciWatts.toNat⟩
      let vin := s.average (·.milliVolts)
      let iin := s.average (·.tenMilliAmps)
      let pin := s.average (·.deciWatts)
      let s := ((s.put F.PW_INPUT_VIN vin).put F.PW_INPUT_IIN iin).put F.PW_INPUT_PIN pin
      (((s.sensor 1 vin).sensor 2 iin).sensor 3 pin).manageClock
    else s)

/-- The temperature of a die, as sampled. -/
def State.dieTemperature (s : State) (d t : Nat) : State :=
  ((s.put (F.TM_TEMP_CURRENT d) t).put (F.TM_TEMP_PEAK d) (max t (s.get (F.TM_TEMP_PEAK d)))).sensor (4 + d) t

/-- The hottest junction: at 105 °C HOT is set with THERMAL_THROTTLE and the clock steps down, and does so again at every sample above
105 °C; below 105 °C HOT clears. -/
def State.manageHeat (s : State) (t : Nat) : State :=
  if t < 105 then s.put F.PW_STATUS_HOT 0
  else if !s.on F.PW_STATUS_HOT then ((s.put F.PW_STATUS_HOT 1).clockDown).raise (Ev.plain 0x0D04 0 13 0)
  else if 105 < t then s.clockDown
  else s

/-- JUNCTION_TEMPERATURE_SAMPLE: the hottest sensor and the core rail of each die, from Q0 to the hub (R514). -/
def execJunctionTemperatureSample (celsius : BitVec 40) (railMilliVolts : BitVec 80) (s : State) : Host.Outcome State Fault Refusal :=
  done (if s.powered then
      let t (d : Nat) : Nat := bits celsius.toNat (8 * d) 8
      let s := (List.range 5).foldl (fun (s : State) d => (s.dieTemperature d (t d)).put (F.TM_RAIL_MV d) (bits railMilliVolts.toNat (16 * d) 16)) s
      let hottest := maxList ((List.range 5).map t)
      ((s.put F.PW_CLOCK_TJ_MAX hottest).manageHeat hottest).settle
    else s)

/-! ## Reset sources (R469 to R472, R544) -/

/-- MRST_N_ASSERTION: ignored while the module itself drives the pin (R472). -/
def execMrstAssertion (s : State) : Host.Outcome State Fault Refusal :=
  done (if s.pwr.mrstDriven || !s.powered then s
    else ((s.resetM).bump F.RS_MRST_EXT_ASSERTIONS 1).put F.RS_CAUSE_MRST_EXT 1)

/-- MODULE_WATCHDOG: the firmware runs on the hub. -/
def execModuleWatchdog (s : State) : Host.Outcome State Fault Refusal :=
  done (if s.powered && s.hubReady then s.resetOwnM F.RS_CAUSE_MODULE_WATCHDOG else s)

/-- REFCLK_LOSS. -/
def execRefclkLoss (s : State) : Host.Outcome State Fault Refusal := done (if s.powered then s.resetOwnM F.RS_CAUSE_REFCLK else s)

/-- A reset of a quarter by its own watchdog or PLL: QUARTER_RESET (R485). -/
def State.quarterReset (s : State) (q : Fin 4) : State :=
  if s.pwr.held.any (fun h => decide (h.dom = .quarter q) && decide (h.phase = .reset)) then s
  else (s.raise (Ev.plain 0x0D05 2 13 q.val)).resetDomain false (.quarter q)

/-- QUARTER_WATCHDOG. -/
def execQuarterWatchdog (quarter : Fin 4) (s : State) : Host.Outcome State Fault Refusal :=
  done (if s.powered then (s.quarterReset quarter).settle else s)

/-- PLL_LOCK_LOSS. -/
def execPllLockLoss (quarter : Fin 4) (s : State) : Host.Outcome State Fault Refusal :=
  done (if s.powered then (s.quarterReset quarter).settle else s)

/-- CP_LOCKUP: a control core misses its heartbeat. -/
def execCpLockup (s : State) : Host.Outcome State Fault Refusal :=
  done (if s.powered && s.ready .commandProcessor then (s.lockUp).settle else s)

/-! ## Release (R475 to R480) -/

/-- RESET_RELEASE. -/
def execResetRelease (d : Domain) (s : State) : Host.Outcome State Fault Refusal := done (s.releaseDomain d).settle

/-- What a domain's release sequence must have done: the frame a good fuse load, the hub secure boot (R468, R476). -/
def State.releaseDone (s : State) : Domain → Bool
  | .frame => s.on F.PW_STATUS_TRIM_VALID
  | .hub => s.pwr.bootDone
  | _ => true

/-- DOMAIN_READY. -/
def execDomainReady (d : Domain) (s : State) : Host.Outcome State Fault Refusal :=
  done (if s.releaseDone d then (s.domainReady d).settle else s)

/-- The physical clusters that the fuses retire: those of the image, and those blown since. -/
def State.fusedRetired (s : State) (f : FuseImage) : List Nat :=
  (List.range 264).filter (fun i => f.retired.getLsbD i || s.pwr.blown.retired.contains i)

/-- A fuse load after a reset of reach P writes every fuse-loaded register, and MRST_N is released (R478, R479, R501). -/
def State.firstLoad (s : State) (f : FuseImage) : State :=
  let s := if f.lidBroken then
      ({ s with pwr := { s.pwr with blown := { s.pwr.blown with revoke := true } } } : State).send (.fuse 2 7)
    else s
  let s : State := { s with sec := { s.sec with fuses := some f } }
  let s := (s.put F.ZF_UNIT_ID_UNIT_ID f.unitId.toNat).put F.ID_UNIT_UNIT_ID f.unitId.toNat
  let retired := s.fusedRetired f
  let s := (List.range 4).foldl (fun (s : State) q => s.loadMap q retired) s
  let s := s.fuseStatus
  { (s.put F.RS_MRST_LEVEL 1) with pwr := { s.pwr with mrstDriven := false } }

/-- A load that fails its CRC: the third in a row puts the module into FAILED (R477). -/
def State.badLoad (s : State) : State :=
  let n := s.pwr.trimTries + 1
  let s : State := { s with pwr := { s.pwr with trimTries := n } }
  if 3 ≤ n then ((s.put F.PW_STATUS_FUSE_FAIL 1).put F.PW_STATUS_STATE 11).allPortsDown else s

/-- A fuse load may run: the frame is powered and not in reset, and the shadow is not valid yet. -/
def State.mayLoad (s : State) : Bool :=
  s.on F.PW_STATUS_PGOOD && !s.on F.PW_STATUS_TRIM_VALID && !s.on F.PW_STATUS_FUSE_FAIL && !s.pwr.stopped &&
    !s.pwr.held.any (fun h => decide (h.dom = .frame) && decide (h.phase = .reset))

/-- FUSE_LOAD_DONE: one load of the array, checked by its CRC. -/
def execFuseLoadDone (image : FuseImage) (s : State) : Host.Outcome State Fault Refusal :=
  done (if !s.mayLoad then s
    else if !image.crcOk then s.badLoad
    else
      let s := if s.sec.fuses.isNone then s.firstLoad image else s
      let s : State := { s with pwr := { s.pwr with trimTries := 0, fuseLoaded := true } }
      (s.put F.PW_STATUS_TRIM_VALID 1).setModule 3)

/-- HBM_INIT_DONE after a reset of reach P: every stack trained and zeroed, but for those that fail (R287, R480). -/
def execHbmInitDone (trainingFailed : BitVec 16) (s : State) : Host.Outcome State Fault Refusal :=
  done (if s.get F.PW_STATUS_STATE = 4 && allBelow 16 (fun k => decide (s.get (F.HM_STATUS_STATE k) ≤ 1)) then
      let good := (List.range 16).filter (fun k => !trainingFailed.getLsbD k)
      let s : State := { s with hbm := Mem.empty, poison := [], pwr := { s.pwr with trained := good } }
      ((List.range 16).foldl (fun (s : State) k =>
        if trainingFailed.getLsbD k then (s.put (F.HM_STATUS_STATE k) 1).raise (Ev.plain 0x0605 4 6 k) else s.put (F.HM_STATUS_STATE k) 3) s).settle
    else s)

/-- POWER_ON_SELF_CHECKS_DONE: READY, with every stack trained. -/
def execPowerOnSelfChecksDone (s : State) : Host.Outcome State Fault Refusal :=
  done (if s.get F.PW_STATUS_STATE = 4 && allBelow 16 (fun k => decide (2 ≤ s.get (F.HM_STATUS_STATE k))) then s.put F.PW_STATUS_STATE 5 else s)

end Sys2Proof.Machine
end

