-- ==== Sys2Proof/Machine/RingRows.lean ====
section
/-!
DEFINITION. Machine/RingRows.lean: the meanings of the ring rows and of the system commands NOP, QUERY, SET_CONFIG, FENCE and EVENT_ACK
(chapter 14).
-/
namespace Sys2Proof.Machine

/-! ## System commands -/

/-- NOP (R432). -/
def execNop (h : Hdr) (s : State) : Host.Outcome State Fault Refusal :=
  done (s.run h 0x01 .any (fun _ s => s.ok 0)).settle

/-- QUERY (R433). -/
def execQuery (h : Hdr) (dest : BitVec 48) (s : State) : Host.Outcome State Fault Refusal :=
  let a := dest.toNat
  done (s.run h 0x02 .any (fun c s =>
    s.guard [(decide (a % 64 ≠ 0) || !writable a 64 || s.fenceHit h [(a, 64)], ST_BAD_PARAM)]
      (fun s => s.writing a s.queryBytes c (fun t => t.ok (crc64 s.queryBytes))))).settle

/-- SET_CONFIG (R434). -/
def execSetConfig (h : Hdr) (items : List ConfigItem) (s : State) : Host.Outcome State Fault Refusal :=
  let ids := items.map (·.item)
  done (s.run h 0x03 .notBound (fun _ s =>
    s.guard [(decide (items.length = 0 ∨ 16 < items.length), ST_BAD_PARAM), (!s.idle, ST_NOT_READY),
        (!items.all s.itemOk || decide (ids.eraseDups.length ≠ ids.length), ST_BAD_PARAM)]
      (fun s => (items.foldl State.applyItem s).ok (crc64 (items.flatMap itemBytes))))).settle

/-- FENCE (R435). -/
def execFence (h : Hdr) (entries : List FenceEntry) (s : State) : Host.Outcome State Fault Refusal :=
  done (s.run h 0x04 .any (fun c s =>
    s.guard [(decide (entries.length = 0 ∨ 8 < entries.length) || fenceBad c entries, ST_BAD_PARAM)] (fun s => s.ok 0))).settle

/-- EVENT_ACK (R430, R436). -/
def execEventAck (h : Hdr) (ack : BitVec 48) (s : State) : Host.Outcome State Fault Refusal :=
  done (s.run h 0x05 .notBound (fun _ s =>
    s.guard [(decide (s.get F.CP_EVT_SEQ_SEQ < ack.toNat), ST_BAD_PARAM)] (fun s => (s.ackTo ack.toNat).ok 0))).settle

/-! ## Rings. A register write has its effect when the access reaches the register (R456, R474). -/

/-- RING_DOORBELL: a write of `CP_RING_TAIL` (R411, R412). -/
def execRingDoorbell (ring : Fin 64) (tail : BitVec 24) (s : State) : Host.Outcome State Fault Refusal :=
  done (if s.regOpen (Reg.CP_RING_TAIL ring.val) then (s.doorbell ring.val tail.toNat).settle else s)

/-- RING_ENABLE: a write of `CP_RING_CTRL` with ENABLE 1 (R413). -/
def execRingEnable (ring : Fin 64) (size : BitVec 4) (clauses : BitVec 16) (s : State) : Host.Outcome State Fault Refusal :=
  done (if s.regOpen (Reg.CP_RING_CTRL ring.val) then (s.controlRing ring.val true size.toNat clauses.toNat).settle else s)

/-- RING_DISABLE: a write of `CP_RING_CTRL` with ENABLE 0 (R413). -/
def execRingDisable (ring : Fin 64) (size : BitVec 4) (clauses : BitVec 16) (s : State) : Host.Outcome State Fault Refusal :=
  done (if s.regOpen (Reg.CP_RING_CTRL ring.val) then (s.controlRing ring.val false size.toNat clauses.toNat).settle else s)

/-- EVENT_RING_ENABLE: a write of `CP_EVT_CTRL` with ENABLE 1 (R429). -/
def execEventRingEnable (entriesLog2 : BitVec 5) (s : State) : Host.Outcome State Fault Refusal :=
  done (if s.regOpen Reg.CP_EVT_CTRL then (s.controlEvents true entriesLog2.toNat).settle else s)

/-- CP_EVT_ACK_WRITE: a write above `CP_EVT_SEQ` is ignored (R430). -/
def execCpEvtAckWrite (ack : BitVec 48) (s : State) : Host.Outcome State Fault Refusal :=
  done (if s.regOpen Reg.CP_EVT_ACK then s.ackWrite ack.toNat else s)

/-- COMMAND_READ (R411 to R415, R422, R424). -/
def execCommandRead (ring : Fin 64) (s : State) : Host.Outcome State Fault Refusal :=
  done (if s.readable ring.val then
      (match s.useCritical 1 0 none with
        | (s, true) => s
        | (s, false) => s.readPacket ring.val).settle
    else s)

/-- COMMAND_DISPATCH (R416 to R418, R421, R423). -/
def execCommandDispatch (ring : Fin 64) (s : State) : Host.Outcome State Fault Refusal := done (s.dispatchRing ring.val).settle

/-- DEFERRED_DISPATCH (R146). -/
def execDeferredDispatch (s : State) : Host.Outcome State Fault Refusal := done s.dispatchDeferred.settle

/-- COMMAND_COMPLETION (R420, R426, R427). -/
def execCommandCompletion (ring : Fin 64) (s : State) : Host.Outcome State Fault Refusal := done (s.completeNext ring.val).settle

end Sys2Proof.Machine
end

