-- ==== Sys2Proof/Machine/ShadowRows.lean ====
section
/-!
DEFINITION. Machine/ShadowRows.lean: the meanings of the rows of surviving failure (chapter 13), with SHADOW_MESSAGE, IDENT_RSP and
COLLECTIVE_WATCHDOG_EXPIRY.
-/
namespace Sys2Proof.Machine

/-- SET_BUDDY HOME. -/
def execSetBuddyHome (h : Hdr) (override mode : Bool) (peer : BitVec 24) (gloss : BitVec 48) (s : State) :
    Host.Outcome State Fault Refusal :=
  done (s.run h 0x60 .notBound (fun c s => s.buddyHome override mode peer.toNat gloss.toNat c)).settle

/-- SET_BUDDY HOLD. -/
def execSetBuddyHold (h : Hdr) (override attach : Bool) (peer : BitVec 24) (desc : BitVec 48) (s : State) :
    Host.Outcome State Fault Refusal :=
  done (s.run h 0x60 .notBound (fun c s => s.buddyHold override attach peer.toNat desc.toNat c)).settle

/-- SET_BUDDY RELEASE_HOME. -/
def execSetBuddyReleaseHome (h : Hdr) (s : State) : Host.Outcome State Fault Refusal :=
  done (s.run h 0x60 .notBound (fun _ s => s.guard [(!s.idle, ST_NOT_READY)] (fun s => s.releaseHome.ok 0))).settle

/-- SET_BUDDY RELEASE_HOLD. -/
def execSetBuddyReleaseHold (h : Hdr) (s : State) : Host.Outcome State Fault Refusal :=
  done (s.run h 0x60 .notBound (fun _ s => s.guard [(!s.idle, ST_NOT_READY)] (fun s => s.releaseHold.ok 0))).settle

/-- The Clause that FORWARD binds to: EXCHANGE in replay mode, PRECONDITION in direct mode; either where there is no relation. -/
def State.forwardBinding (s : State) : Binding :=
  if !s.on F.SH_BUDDY_VALID then .kinds [kindExchange, kindPrecondition]
  else if s.on F.SH_STATUS_MODE then .kinds [kindPrecondition] else .kinds [kindExchange]

/-- SHADOW_SYNC FORWARD. -/
def execShadowForward (h : Hdr) (lrScale : BitVec 32) (s : State) : Host.Outcome State Fault Refusal :=
  done (s.run h 0x61 s.forwardBinding (fun c s => s.forward lrScale.toNat c)).settle

/-- SHADOW_SYNC ROOTS. -/
def execShadowRoots (h : Hdr) (s : State) : Host.Outcome State Fault Refusal :=
  done (s.run h 0x61 (.kinds [kindPrecondition]) (fun c s => s.forwardRoots c)).settle

/-- SHADOW_SYNC REPLAY. -/
def execShadowReplay (h : Hdr) (p : ReplayParams) (s : State) : Host.Outcome State Fault Refusal :=
  done (s.run h 0x61 (.kinds [kindShadow]) (fun c s => s.replayShadow h p c)).settle

/-- SHADOW_SYNC CLOSE. -/
def execShadowClose (h : Hdr) (s : State) : Host.Outcome State Fault Refusal :=
  done (s.run h 0x61 (.kinds [kindShadow]) (fun c s => s.closeShadow c)).settle

/-- SHADOW_SYNC SEED. -/
def execShadowSeed (h : Hdr) (s : State) : Host.Outcome State Fault Refusal :=
  done (s.run h 0x61 .notBound (fun c s => s.seedShadow c)).settle

/-- SHADOW_SYNC RECOVER. -/
def execShadowRecover (h : Hdr) (p : ReplayParams) (s : State) : Host.Outcome State Fault Refusal :=
  done (s.run h 0x61 .notBound (fun c s => s.recoverShadow p c)).settle

/-- DIGEST_COMPARE RANGE. -/
def execDigestRange (h : Hdr) (record count : BitVec 32) (s : State) : Host.Outcome State Fault Refusal :=
  done (s.run h 0x62 .notBound (fun c s => s.digestRange record.toNat count.toNat c)).settle

/-- DIGEST_COMPARE ARBITRATE. -/
def execDigestArbitrate (h : Hdr) (anchorCopy : Bool) (record : BitVec 32) (anchor : BitVec 48) (s : State) :
    Host.Outcome State Fault Refusal :=
  done (s.run h 0x62 .notBound (fun c s => s.arbitrate anchorCopy record.toNat anchor.toNat c)).settle

/-- DIGEST_COMPARE RECOPY. -/
def execDigestRecopy (h : Hdr) (record count : BitVec 32) (s : State) : Host.Outcome State Fault Refusal :=
  done (s.run h 0x62 .notBound (fun c s => s.digestRecopy record.toNat count.toNat c)).settle

/-- PROMOTE. -/
def execPromote (h : Hdr) (logical ldim holder : BitVec 24) (gloss : BitVec 48) (s : State) : Host.Outcome State Fault Refusal :=
  done (s.run h 0x63 .notBound (fun c s => s.promote logical.toNat ldim.toNat holder.toNat gloss.toNat c)).settle

/-- RESTORE_FROM_SHADOW. -/
def execRestoreFromShadow (h : Hdr) (holder : BitVec 24) (force : Bool) (s : State) : Host.Outcome State Fault Refusal :=
  done (s.run h 0x64 .notBound (fun c s => s.restoreShadow holder.toNat force c)).settle

/-- RESHARD COMMIT: after it a held shadow is STALE (R403). -/
def execReshardCommit (h : Hdr) (p : ReshardParams) (s : State) : Host.Outcome State Fault Refusal :=
  done (s.run h 0x65 .notBound (fun c s =>
    match s.reshardCommit p c with
    | (s, some d) => (if d.status = ST_OK then s.staleByReshard else s, some d)
    | r => r)).settle

/-- CHECKPOINT_OUT. -/
def execCheckpointOut (h : Hdr) (dest : BitVec 48) (destLen : BitVec 64) (key : BitVec 16) (s : State) :
    Host.Outcome State Fault Refusal :=
  done (s.run h 0x66 .notBound (fun c s => s.checkpointOut dest.toNat destLen.toNat key.toNat c)).settle

/-- CHECKPOINT_IN. -/
def execCheckpointIn (h : Hdr) (src : BitVec 48) (srcLen : BitVec 64) (key : BitVec 16) (s : State) :
    Host.Outcome State Fault Refusal :=
  done (s.run h 0x67 .notBound (fun c s => s.checkpointIn src.toNat srcLen.toNat key.toNat c)).settle

/-- SHADOW_MESSAGE: routed, or taken by the shadow engine. -/
def execShadowMessage (port : Fin 8) (r : Route) (m : ShadowHdr) (data : List (BitVec 8)) (s : State) :
    Host.Outcome State Fault Refusal :=
  done (if s.portRuns port.val then
      (match s.routed port.val r.dest.toNat (flitsOf data.length) (subOf 2 r) (fun p => .shadow p r m data) with
        | (s, true) => s.shadowMessage port.val r.src.toNat m data
        | (s, false) => s).settle
    else s)

/-- IDENT_RSP: routed, or the answer to a SET_BUDDY or PROMOTE. -/
def execIdentRsp (port : Fin 8) (r : Route) (p : DiscoverPayload) (s : State) : Host.Outcome State Fault Refusal :=
  done (if s.portRuns port.val then
      (match s.routed port.val r.dest.toNat 1 (subOf 0 r) (fun q => .identRsp q r p) with
        | (s, true) => s.identAnswered r.src.toNat p
        | (s, false) => s).settle
    else s)

/-! ## COLLECTIVE_WATCHDOG_EXPIRY (R404, R406) -/

/-- A port retries, or has done so within 110 µs × `hops`. -/
def State.portRetried (s : State) (hops p : Nat) : Bool :=
  s.on (F.ZP_STATUS_RETRYING p) || (match (s.port p).lastRetry with
    | some t => decide (s.now ≤ t + 110000 * hops)
    | none => false)

/-- A port that a command's transfers have used, or that a route to one of its peers leaves by, retries or has done so lately. -/
def State.retriedLately (s : State) (c : CmdRef) (peers : List Nat) (hops : Nat) : Bool :=
  ((s.cp.flights.find? (fun f => sameCmd f.ref c)).any (fun f => f.ports.any (s.portRetried hops))) ||
    peers.any (fun m => match s.route m none with
      | .out p _ => s.portRetried hops p
      | _ => false)

/-- The watchdog extended: counted and noted. -/
def State.noteExtended (s : State) (c : CmdRef) : State :=
  (s.bump F.SH_COUNTS_EXTENDED 1).raise ⟨0x0907, 0, 9, 0, 0, false, some c⟩

/-- The watchdog has ended a transfer: counted and raised. -/
def State.noteTimeout (s : State) (c : CmdRef) : State :=
  (s.bump F.SH_COUNTS_TIMEOUT 1).raise ⟨0x0906, 2, 9, 0, 0, false, some c⟩

/-- A watchdog expires for a collective. -/
def State.collExpired (s : State) (r : CollRun) : State :=
  let g := s.runGroup r
  if r.got.isEmpty && r.sent.isEmpty then s
  else if !r.extended && s.retriedLately r.cmd (r.outPeers g ++ r.inPeers g) r.hops then
    (s.noteExtended r.cmd).setRun { r with extended := true }
  else (s.noteTimeout r.cmd).endColl r (Done.fail ST_FABRIC)

/-- A watchdog expires for a transfer of the shadow engine. -/
def State.shadowExpired (s : State) (r : ShadowRun) : State :=
  if !r.moved && r.unacked.isEmpty then s
  else if !r.extended && s.retriedLately r.cmd [r.peer] r.hops then (s.noteExtended r.cmd).setShRun { r with extended := true }
  else (s.noteTimeout r.cmd).failRestore r ST_FABRIC

/-- A watchdog expires for a SET_BUDDY whose peer has not answered; a PROMOTE ends without the relation (R370, R398). -/
def State.identExpired (s : State) (w : IdentWait) : State :=
  if !w.extended && s.retriedLately w.cmd [w.peer] ((s.routeHops w.peer).getD 0) then
    let set (x : IdentWait) : IdentWait := if x.cmd = w.cmd then { x with extended := true } else x
    { (s.noteExtended w.cmd) with sh := { (s.noteExtended w.cmd).sh with idents := s.sh.idents.map set } }
  else match w.promote with
    | some d => (s.dropIdent w.cmd).finish w.cmd ⟨ST_OK, 2, d⟩
    | none => (s.dropIdent w.cmd).finish w.cmd (Done.fail ST_FABRIC)

/-- A watchdog expires for a re-shard. -/
def State.reshardExpired (s : State) (r : ReshardRun) : State :=
  let moves := s.roundMoves r
  let peers := movePeers moves true ++ movePeers moves false
  if r.got.isEmpty && r.sent.isEmpty then s
  else if !r.extended && s.retriedLately r.cmd peers (maxList (peers.filterMap s.routeHops)) then
    (s.noteExtended r.cmd).setReshard (some { r with extended := true })
  else (s.noteTimeout r.cmd).endReshard r (Done.fail ST_FABRIC)

/-- COLLECTIVE_WATCHDOG_EXPIRY: of the transfer whose command has this ring and number. -/
def execCollectiveWatchdogExpiry (ring : Fin 64) (seq : BitVec 48) (s : State) : Host.Outcome State Fault Refusal :=
  let mine (c : CmdRef) : Bool := decide (c.ring = ring.val) && decide (c.seq = seq.toNat)
  done (match s.coll.runs.find? (fun r => mine r.cmd), s.sh.runs.find? (fun r => mine r.cmd),
      s.sh.idents.find? (fun w => mine w.cmd), s.coll.reshard with
    | some r, _, _, _ => (s.collExpired r).settle
    | none, some r, _, _ => (s.shadowExpired r).settle
    | none, none, some w, _ => (s.identExpired w).settle
    | none, none, none, some r => if mine r.cmd then (s.reshardExpired r).settle else s
    | none, none, none, none => s)

end Sys2Proof.Machine
end

