-- ==== Sys2Proof/Machine/SolverRows.lean ====
section
/-!
DEFINITION. Machine/SolverRows.lean: the meanings of LOAD_PARSE, SOLVE, ROOT_TABLE, SOLVE_JOB_START and SOLVE_JOB_END (chapters 07,
08).
-/
namespace Sys2Proof.Machine

/-- LOAD_PARSE LOAD. -/
def execLoadParseLoad (h : Hdr) (id : BitVec 12) (address : BitVec 48) (length : BitVec 32) (s : State) :
    Host.Outcome State Fault Refusal :=
  let a := address.toNat
  let n := length.toNat
  done (s.run h 0x40 .notBound (fun c s =>
    s.guard [(decide (id = 0 ∨ a % 64 ≠ 0 ∨ 0x4000000 < n ∨ hbmEnd < a + n), ST_BAD_PARAM), (!s.idle, ST_NOT_READY)]
      (fun s => s.loadParse id.toNat a n c))).settle

/-- LOAD_PARSE UNLOAD. -/
def execLoadParseUnload (h : Hdr) (id : BitVec 12) (s : State) : Host.Outcome State Fault Refusal :=
  done (s.run h 0x40 .notBound (fun _ s =>
    s.guard [(decide (id = 0), ST_BAD_PARAM), (!s.idle, ST_NOT_READY)] (fun s => s.unloadParse id.toNat))).settle

/-- A SOLVE that has completed: its submission, where it attached to no instance (R218), and its outcome in the record. -/
def State.solveEnded (s before : State) (h : Hdr) (entry : Nat) : State :=
  match s.cp.ended.getLast? with
  | some e =>
    if before.cp.ended.length < s.cp.ended.length then
      let s := if e.attach.isNone then s.submit s.currentPeriod entry else s
      s.noteSolve e.ref h.clause.val e.done false
    else s
  | none => s

/-- SOLVE. -/
def execSolve (h : Hdr) (entry : BitVec 16) (parse : BitVec 12) (s : State) : Host.Outcome State Fault Refusal :=
  done (((s.run h 0x41 (.kinds [kindRefresh]) (fun c s => s.solve c h.clause.val entry.toNat parse.toNat)).solveEnded s h
    entry.toNat).settle)

/-- ROOT_TABLE SETUP. -/
def execRootTableSetup (h : Hdr) (attach : Bool) (count : BitVec 32) (address : BitVec 48) (s : State) :
    Host.Outcome State Fault Refusal :=
  let a := address.toNat
  let n := count.toNat
  done (s.run h 0x42 .notBound (fun c s =>
    s.guard [(decide (65535 < n ∨ a % 4096 ≠ 0 ∨ hbmEnd < a + 128 * n), ST_BAD_PARAM), (!s.idle, ST_NOT_READY)]
      (fun s => s.rootSetup attach n a c))).settle

/-- The entries that WRITE, READ and INVALIDATE may name (R243). -/
def State.rootRange (s : State) (entry count : Nat) : Bool :=
  decide (1 ≤ count ∧ entry + count ≤ s.get F.CJ_ROOT_COUNT_COUNT)

/-- ROOT_TABLE WRITE. -/
def execRootTableWrite (h : Hdr) (keep : Bool) (entry : BitVec 16) (count : BitVec 32) (address : BitVec 48) (s : State) :
    Host.Outcome State Fault Refusal :=
  done (s.run h 0x42 .notBound (fun c s =>
    s.guard [(decide (address.toNat % 64 ≠ 0) || !s.rootRange entry.toNat count.toNat, ST_BAD_PARAM), (!s.idle, ST_NOT_READY)]
      (fun s => s.rootWrite keep entry.toNat count.toNat address.toNat c))).settle

/-- ROOT_TABLE READ. -/
def execRootTableRead (h : Hdr) (entry : BitVec 16) (count : BitVec 32) (address : BitVec 48) (s : State) :
    Host.Outcome State Fault Refusal :=
  done (s.run h 0x42 .notBound (fun c s =>
    s.guard [(decide (address.toNat % 64 ≠ 0) || !writable address.toNat (128 * count.toNat) ||
        !s.rootRange entry.toNat count.toNat, ST_BAD_PARAM)]
      (fun s => s.rootRead entry.toNat count.toNat address.toNat c))).settle

/-- ROOT_TABLE INVALIDATE. -/
def execRootTableInvalidate (h : Hdr) (entry : BitVec 16) (count : BitVec 32) (s : State) : Host.Outcome State Fault Refusal :=
  done (s.run h 0x42 .notBound (fun _ s =>
    s.guard [(!s.rootRange entry.toNat count.toNat, ST_BAD_PARAM), (!s.idle, ST_NOT_READY)]
      (fun s => s.rootInvalidate entry.toNat count.toNat))).settle

/-- SOLVE_JOB_START: an admitted job starts once its units are free (R241). -/
def execSolveJobStart (entry : BitVec 16) (s : State) : Host.Outcome State Fault Refusal :=
  done (match s.jobOf entry.toNat with
    | some j => if !j.running && s.jobFree j then (s.startJob j).settle else s
    | none => s)

/-- SOLVE_JOB_END: a running job finishes its schedule (R204). -/
def execSolveJobEnd (entry : BitVec 16) (s : State) : Host.Outcome State Fault Refusal :=
  done (match s.jobOf entry.toNat with
    | some j => if j.running then (s.judgeJob j).settle else s
    | none => s)

end Sys2Proof.Machine
end

