-- ==== Sys2Proof/Machine/UpdateRows.lean ====
section
/-!
DEFINITION. Machine/UpdateRows.lean: the meanings of UPDATE and SET_RULE (chapter 09).
-/
namespace Sys2Proof.Machine

/-- UPDATE PREPARE. -/
def execUpdatePrepare (h : Hdr) (p : PrepareParams) (s : State) : Host.Outcome State Fault Refusal :=
  done (s.run h 0x50 (.kinds [kindPrecondition]) (fun c s => s.prepareBody h p c)).settle

/-- UPDATE APPLY. -/
def execUpdateApply (h : Hdr) (lrScale : BitVec 32) (s : State) : Host.Outcome State Fault Refusal :=
  done (s.run h 0x50 (.kinds [kindUpdate]) (fun c s => s.applyBody lrScale.toNat c)).settle

/-- UPDATE RECOVER. -/
def execUpdateRecover (h : Hdr) (s : State) : Host.Outcome State Fault Refusal :=
  done (s.run h 0x50 .notBound (fun c s => s.recoverBody c)).settle

/-- SET_RULE RULE. -/
def execSetRuleRule (h : Hdr) (id : BitVec 8) (record : BitVec 512) (s : State) : Host.Outcome State Fault Refusal :=
  done (s.run h 0x51 .notBound (fun _ s =>
    s.guard [(!s.idle, ST_NOT_READY)] (fun s => s.setRule id.toNat (leBytes 64 record.toNat)))).settle

/-- SET_RULE TABLE. -/
def execSetRuleTable (h : Hdr) (attach : Bool) (count : BitVec 32) (address ledger : BitVec 48) (s : State) :
    Host.Outcome State Fault Refusal :=
  let n := count.toNat
  let a := address.toNat
  let l := ledger.toNat
  done (s.run h 0x51 .notBound (fun c s =>
    s.guard [(decide (n = 0 ∨ 65535 < n ∨ a % 4096 ≠ 0 ∨ l % 4096 ≠ 0 ∨ hbmEnd < a + 128 * n), ST_BAD_PARAM), (!s.idle, ST_NOT_READY)]
      (fun s => s.setTable attach n a l c))).settle

/-- SET_RULE READ. -/
def execSetRuleRead (h : Hdr) (id : BitVec 8) (count : BitVec 32) (address : BitVec 48) (s : State) :
    Host.Outcome State Fault Refusal :=
  let n := count.toNat
  done (s.run h 0x51 .notBound (fun c s =>
    s.guard [(decide (n = 0 ∨ 256 < id.toNat + n ∨ address.toNat % 64 ≠ 0) || !writable address.toNat (64 * n), ST_BAD_PARAM),
        (!s.idle, ST_NOT_READY)]
      (fun s => s.readRules id.toNat n address.toNat c))).settle

end Sys2Proof.Machine
end

