-- ==== Sys2Proof/Machine/Dispatch.lean ====
section
/-!
DEFINITION. Machine/Dispatch.lean: one arm per command, each a call of its meaning.
-/
namespace Sys2Proof.Machine

/-- The effect of a command on everything but the queue. -/
def exec (i : Instr) (s : State) : Host.Outcome State Fault Refusal :=
  match i with
  | .nop h => Sys2Proof.Machine.execNop h s
  | .query h dest => Sys2Proof.Machine.execQuery h dest s
  | .setConfig h items => Sys2Proof.Machine.execSetConfig h items s
  | .fence h entries => Sys2Proof.Machine.execFence h entries s
  | .eventAck h ack => Sys2Proof.Machine.execEventAck h ack s
  | .loadParseLoad h id address length => Sys2Proof.Machine.execLoadParseLoad h id address length s
  | .loadParseUnload h id => Sys2Proof.Machine.execLoadParseUnload h id s
  | .solve h entry parse => Sys2Proof.Machine.execSolve h entry parse s
  | .rootTableSetup h attach count address => Sys2Proof.Machine.execRootTableSetup h attach count address s
  | .rootTableWrite h keep entry count address => Sys2Proof.Machine.execRootTableWrite h keep entry count address s
  | .rootTableRead h entry count address => Sys2Proof.Machine.execRootTableRead h entry count address s
  | .rootTableInvalidate h entry count => Sys2Proof.Machine.execRootTableInvalidate h entry count s
  | .updatePrepare h p => Sys2Proof.Machine.execUpdatePrepare h p s
  | .updateApply h lrScale => Sys2Proof.Machine.execUpdateApply h lrScale s
  | .updateRecover h => Sys2Proof.Machine.execUpdateRecover h s
  | .setRuleRule h id record => Sys2Proof.Machine.execSetRuleRule h id record s
  | .setRuleTable h attach count address ledger => Sys2Proof.Machine.execSetRuleTable h attach count address ledger s
  | .setRuleRead h id count address => Sys2Proof.Machine.execSetRuleRead h id count address s
  | .dmaCopy h p => Sys2Proof.Machine.execDmaCopy h p s
  | .fill h dst length width pattern => Sys2Proof.Machine.execFill h dst length width pattern s
  | .loadShard h p => Sys2Proof.Machine.execLoadShard h p s
  | .swapTense h atPeriod cancel => Sys2Proof.Machine.execSwapTense h atPeriod cancel s
  | .verifyShard h target => Sys2Proof.Machine.execVerifyShard h target s
  | .gatherSetup h count base slotBytes table => Sys2Proof.Machine.execGatherSetup h count base slotBytes table s
  | .gatherFetch h slot layer => Sys2Proof.Machine.execGatherFetch h slot layer s
  | .gatherRelease h slot => Sys2Proof.Machine.execGatherRelease h slot s
  | .runProgram h p => Sys2Proof.Machine.execRunProgram h p s
  | .setGramTapDefine h p => Sys2Proof.Machine.execSetGramTapDefine h p s
  | .setGramTapClear h site => Sys2Proof.Machine.execSetGramTapClear h site s
  | .setGramTapRelease h site => Sys2Proof.Machine.execSetGramTapRelease h site s
  | .scaleLedgerSetup h attach address count => Sys2Proof.Machine.execScaleLedgerSetup h attach address count s
  | .scaleLedgerSetMode h forceGuarded guardPeriods warmPeriods => Sys2Proof.Machine.execScaleLedgerSetMode h forceGuarded guardPeriods warmPeriods s
  | .scaleLedgerDefine h entry count target cls margin => Sys2Proof.Machine.execScaleLedgerDefine h entry count target cls margin s
  | .scaleLedgerRead h address entry count => Sys2Proof.Machine.execScaleLedgerRead h address entry count s
  | .scaleLedgerWarmup h => Sys2Proof.Machine.execScaleLedgerWarmup h s
  | .reduceScatter h p => Sys2Proof.Machine.execReduceScatter h p s
  | .allGather h p => Sys2Proof.Machine.execAllGather h p s
  | .allReduce h p => Sys2Proof.Machine.execAllReduce h p s
  | .broadcast h p => Sys2Proof.Machine.execBroadcast h p s
  | .permute h p => Sys2Proof.Machine.execPermute h p s
  | .send h p => Sys2Proof.Machine.execSend h p s
  | .recv h p => Sys2Proof.Machine.execRecv h p s
  | .ringExchange h p => Sys2Proof.Machine.execRingExchange h p s
  | .setPosition h p => Sys2Proof.Machine.execSetPosition h p s
  | .setRoutesMap h address digest => Sys2Proof.Machine.execSetRoutesMap h address digest s
  | .setRoutesDirmap h dirmap => Sys2Proof.Machine.execSetRoutesDirmap h dirmap s
  | .setRoutesBreaks h address => Sys2Proof.Machine.execSetRoutesBreaks h address s
  | .setRoutesPort h port down => Sys2Proof.Machine.execSetRoutesPort h port down s
  | .noiseReport h period count dest => Sys2Proof.Machine.execNoiseReport h period count dest s
  | .reshardStart h p => Sys2Proof.Machine.execReshardStart h p s
  | .reshardResume h p => Sys2Proof.Machine.execReshardResume h p s
  | .reshardReverse h p => Sys2Proof.Machine.execReshardReverse h p s
  | .reshardCommit h p => Sys2Proof.Machine.execReshardCommit h p s
  | .setBuddyHome h override mode peer gloss => Sys2Proof.Machine.execSetBuddyHome h override mode peer gloss s
  | .setBuddyHold h override attach peer desc => Sys2Proof.Machine.execSetBuddyHold h override attach peer desc s
  | .setBuddyReleaseHome h => Sys2Proof.Machine.execSetBuddyReleaseHome h s
  | .setBuddyReleaseHold h => Sys2Proof.Machine.execSetBuddyReleaseHold h s
  | .shadowForward h lrScale => Sys2Proof.Machine.execShadowForward h lrScale s
  | .shadowRoots h => Sys2Proof.Machine.execShadowRoots h s
  | .shadowReplay h p => Sys2Proof.Machine.execShadowReplay h p s
  | .shadowClose h => Sys2Proof.Machine.execShadowClose h s
  | .shadowSeed h => Sys2Proof.Machine.execShadowSeed h s
  | .shadowRecover h p => Sys2Proof.Machine.execShadowRecover h p s
  | .digestRange h record count => Sys2Proof.Machine.execDigestRange h record count s
  | .digestArbitrate h anchorCopy record anchor => Sys2Proof.Machine.execDigestArbitrate h anchorCopy record anchor s
  | .digestRecopy h record count => Sys2Proof.Machine.execDigestRecopy h record count s
  | .promote h logical ldim holder gloss => Sys2Proof.Machine.execPromote h logical ldim holder gloss s
  | .restoreFromShadow h holder force => Sys2Proof.Machine.execRestoreFromShadow h holder force s
  | .checkpointOut h dest destLen key => Sys2Proof.Machine.execCheckpointOut h dest destLen key s
  | .checkpointIn h src srcLen key => Sys2Proof.Machine.execCheckpointIn h src srcLen key s
  | .periodPlan h p => Sys2Proof.Machine.execPeriodPlan h p s
  | .periodArm h p => Sys2Proof.Machine.execPeriodArm h p s
  | .periodHalt h machine atEnd => Sys2Proof.Machine.execPeriodHalt h machine atEnd s
  | .replayFreeze h => Sys2Proof.Machine.execReplayFreeze h s
  | .replayThaw h => Sys2Proof.Machine.execReplayThaw h s
  | .replayCopyOut h period count dest destLen => Sys2Proof.Machine.execReplayCopyOut h period count dest destLen s
  | .replayReplay h period dest destLen => Sys2Proof.Machine.execReplayReplay h period dest destLen s
  | .replayClear h => Sys2Proof.Machine.execReplayClear h s
  | .attestChain h dest destLen => Sys2Proof.Machine.execAttestChain h dest destLen s
  | .attestQuote h dest destLen nonce => Sys2Proof.Machine.execAttestQuote h dest destLen nonce s
  | .keyImport h handle address => Sys2Proof.Machine.execKeyImport h handle address s
  | .keyDestroy h handle => Sys2Proof.Machine.execKeyDestroy h handle s
  | .keyKexCert h address => Sys2Proof.Machine.execKeyKexCert h address s
  | .keyAdvanceSvn h force => Sys2Proof.Machine.execKeyAdvanceSvn h force s
  | .debugChallenge h address => Sys2Proof.Machine.execDebugChallenge h address s
  | .debugUnlock h address => Sys2Proof.Machine.execDebugUnlock h address s
  | .selfTest h targets dest => Sys2Proof.Machine.execSelfTest h targets dest s
  | .conformanceRun h p => Sys2Proof.Machine.execConformanceRun h p s
  | .injectError h kind store index address => Sys2Proof.Machine.execInjectError h kind store index address s
  | .resetBlock h reach kind index holdUs => Sys2Proof.Machine.execResetBlock h reach kind index holdUs s
  | .ringDoorbell ring tail => Sys2Proof.Machine.execRingDoorbell ring tail s
  | .ringEnable ring size clauses => Sys2Proof.Machine.execRingEnable ring size clauses s
  | .ringDisable ring size clauses => Sys2Proof.Machine.execRingDisable ring size clauses s
  | .eventRingEnable entriesLog2 => Sys2Proof.Machine.execEventRingEnable entriesLog2 s
  | .cpEvtAckWrite ack => Sys2Proof.Machine.execCpEvtAckWrite ack s
  | .commandRead ring => Sys2Proof.Machine.execCommandRead ring s
  | .commandDispatch ring => Sys2Proof.Machine.execCommandDispatch ring s
  | .deferredDispatch => Sys2Proof.Machine.execDeferredDispatch s
  | .commandCompletion ring => Sys2Proof.Machine.execCommandCompletion ring s
  | .timeSend => Sys2Proof.Machine.execTimeSend s
  | .timeMessage port p residence => Sys2Proof.Machine.execTimeMessage port p residence s
  | .holdover => Sys2Proof.Machine.execHoldover s
  | .timebaseLost => Sys2Proof.Machine.execTimebaseLost s
  | .tickrefEdge time => Sys2Proof.Machine.execTickrefEdge time s
  | .tickrefEdgeMissing => Sys2Proof.Machine.execTickrefEdgeMissing s
  | .tickSend => Sys2Proof.Machine.execTickSend s
  | .tickMessage port p => Sys2Proof.Machine.execTickMessage port p s
  | .periodStart => Sys2Proof.Machine.execPeriodStart s
  | .clauseStart c => Sys2Proof.Machine.execClauseStart c s
  | .clauseDeadline c => Sys2Proof.Machine.execClauseDeadline c s
  | .readyToCommitReport => Sys2Proof.Machine.execReadyToCommitReport s
  | .doneReport => Sys2Proof.Machine.execDoneReport s
  | .reduceMessage port p => Sys2Proof.Machine.execReduceMessage port p s
  | .grantMessage port p => Sys2Proof.Machine.execGrantMessage port p s
  | .noiseReduceSend => Sys2Proof.Machine.execNoiseReduceSend s
  | .commit => Sys2Proof.Machine.execCommit s
  | .haltMessage port p => Sys2Proof.Machine.execHaltMessage port p s
  | .recorderEnable => Sys2Proof.Machine.execRecorderEnable s
  | .qcRetireReqWrite quarter index persist => Sys2Proof.Machine.execQcRetireReqWrite quarter index persist s
  | .clusterRetirementEffect cluster => Sys2Proof.Machine.execClusterRetirementEffect cluster s
  | .solveJobStart entry => Sys2Proof.Machine.execSolveJobStart entry s
  | .solveJobEnd entry => Sys2Proof.Machine.execSolveJobEnd entry s
  | .patrolScrub stack findings => Sys2Proof.Machine.execPatrolScrub stack findings s
  | .hbmTemperatureRead stack celsius => Sys2Proof.Machine.execHbmTemperatureRead stack celsius s
  | .dmMapWrite localMap lock => Sys2Proof.Machine.execDmMapWrite localMap lock s
  | .reverifyPass bank => Sys2Proof.Machine.execReverifyPass bank s
  | .idleFlit port f => Sys2Proof.Machine.execIdleFlit port f s
  | .flitError port crc => Sys2Proof.Machine.execFlitError port crc s
  | .nak port seq => Sys2Proof.Machine.execNak port seq s
  | .ackTimeout port => Sys2Proof.Machine.execAckTimeout port s
  | .retryEpisodeTimeout port => Sys2Proof.Machine.execRetryEpisodeTimeout port s
  | .laneLockLoss port lane => Sys2Proof.Machine.execLaneLockLoss port lane s
  | .portRetrainDone port ok upperHalf => Sys2Proof.Machine.execPortRetrainDone port ok upperHalf s
  | .zpCtrlRetrain port => Sys2Proof.Machine.execZpCtrlRetrain port s
  | .zpCtrlForceDown port down => Sys2Proof.Machine.execZpCtrlForceDown port down s
  | .portTrainingDone port => Sys2Proof.Machine.execPortTrainingDone port s
  | .discover port p => Sys2Proof.Machine.execDiscover port p s
  | .latencyMeasurement port => Sys2Proof.Machine.execLatencyMeasurement port s
  | .echoReq port t1 t2 t3 => Sys2Proof.Machine.execEchoReq port t1 t2 t3 s
  | .echoRsp port t1 t2 t3 t4 => Sys2Proof.Machine.execEchoRsp port t1 t2 t3 t4 s
  | .linkState port axis link broken => Sys2Proof.Machine.execLinkState port axis link broken s
  | .identReq port r => Sys2Proof.Machine.execIdentReq port r s
  | .identRsp port r p => Sys2Proof.Machine.execIdentRsp port r p s
  | .collectiveMessage port r m data => Sys2Proof.Machine.execCollectiveMessage port r m data s
  | .shadowMessage port r m data => Sys2Proof.Machine.execShadowMessage port r m data s
  | .p2pMessage port r m data => Sys2Proof.Machine.execP2pMessage port r m data s
  | .bulkMessage port r data => Sys2Proof.Machine.execBulkMessage port r data s
  | .collectiveWatchdogExpiry ring seq => Sys2Proof.Machine.execCollectiveWatchdogExpiry ring seq s
  | .reservedTypeFlit port type => Sys2Proof.Machine.execReservedTypeFlit port type s
  | .oxlPortTrained link => Sys2Proof.Machine.execOxlPortTrained link s
  | .oxlInit link version req rsp snp memLimit => Sys2Proof.Machine.execOxlInit link version req rsp snp memLimit s
  | .oxlRead link tag window address length => Sys2Proof.Machine.execOxlRead link tag window address length s
  | .oxlWrite link tag window address data => Sys2Proof.Machine.execOxlWrite link tag window address data s
  | .oxlDoorbell link ring tail => Sys2Proof.Machine.execOxlDoorbell link ring tail s
  | .snpInv link tag line => Sys2Proof.Machine.execSnpInv link tag line s
  | .snpShared link tag line => Sys2Proof.Machine.execSnpShared link tag line s
  | .oxlData link tag status data => Sys2Proof.Machine.execOxlData link tag status data s
  | .oxlAck link tag status => Sys2Proof.Machine.execOxlAck link tag status s
  | .oxlTrainingTimeout link => Sys2Proof.Machine.execOxlTrainingTimeout link s
  | .oxlL0Loss link => Sys2Proof.Machine.execOxlL0Loss link s
  | .oxlTimeout tag => Sys2Proof.Machine.execOxlTimeout tag s
  | .l0ExitToRecovery link => Sys2Proof.Machine.execL0ExitToRecovery link s
  | .inputQualified => Sys2Proof.Machine.execInputQualified s
  | .railsInRegulation => Sys2Proof.Machine.execRailsInRegulation s
  | .powerWarning => Sys2Proof.Machine.execPowerWarning s
  | .powerRecovered => Sys2Proof.Machine.execPowerRecovered s
  | .overvoltage => Sys2Proof.Machine.execOvervoltage s
  | .overvoltageStop => Sys2Proof.Machine.execOvervoltageStop s
  | .brownOut => Sys2Proof.Machine.execBrownOut s
  | .powerMeasurement milliVolts tenMilliAmps deciWatts => Sys2Proof.Machine.execPowerMeasurement milliVolts tenMilliAmps deciWatts s
  | .junctionTemperatureSample celsius railMilliVolts => Sys2Proof.Machine.execJunctionTemperatureSample celsius railMilliVolts s
  | .thermtrip => Sys2Proof.Machine.execThermtrip s
  | .mrstAssertion => Sys2Proof.Machine.execMrstAssertion s
  | .moduleWatchdog => Sys2Proof.Machine.execModuleWatchdog s
  | .quarterWatchdog quarter => Sys2Proof.Machine.execQuarterWatchdog quarter s
  | .pllLockLoss quarter => Sys2Proof.Machine.execPllLockLoss quarter s
  | .refclkLoss => Sys2Proof.Machine.execRefclkLoss s
  | .cpLockup => Sys2Proof.Machine.execCpLockup s
  | .resetRelease d => Sys2Proof.Machine.execResetRelease d s
  | .domainReady d => Sys2Proof.Machine.execDomainReady d s
  | .fuseLoadDone image => Sys2Proof.Machine.execFuseLoadDone image s
  | .secureBoot slot0 slot1 => Sys2Proof.Machine.execSecureBoot slot0 slot1 s
  | .hbmInitDone trainingFailed => Sys2Proof.Machine.execHbmInitDone trainingFailed s
  | .powerOnSelfChecksDone => Sys2Proof.Machine.execPowerOnSelfChecksDone s
  | .inputCrosses10V rising => Sys2Proof.Machine.execInputCrosses10V rising s
  | .lidBreach => Sys2Proof.Machine.execLidBreach s
  | .spdmMailboxGo len req => Sys2Proof.Machine.execSpdmMailboxGo len req s
  | .spdmMctpRequest req => Sys2Proof.Machine.execSpdmMctpRequest req s
  | .mctpControlMessage m => Sys2Proof.Machine.execMctpControlMessage m s
  | .pldmRequest r => Sys2Proof.Machine.execPldmRequest r s
  | .alertClearWrite => Sys2Proof.Machine.execAlertClearWrite s
  | .tmSlackRead c => Sys2Proof.Machine.execTmSlackRead c s
  | .readClearAccess address wide => Sys2Proof.Machine.execReadClearAccess address wide s
  | .lowWordReadLatch address => Sys2Proof.Machine.execLowWordReadLatch address s
  | .breakMapWord0Read axis => Sys2Proof.Machine.execBreakMapWord0Read axis s
  | .registerWrite address wide value => Sys2Proof.Machine.execRegisterWrite address wide value s
  | .jtagAccess op => Sys2Proof.Machine.execJtagAccess op s

end Sys2Proof.Machine
end

