-- ==== Sys2Proof/Machine/Encode.lean ====
section
/-!
DEFINITION. Machine/Encode.lean: the packets of the memory commands and of three system commands, written from the same tables as the packet
reader of Machine/Packet.lean (R290, R293, R302, R304, R415, R431 to R433). No meaning uses it: statements about the reader do.
-/
namespace Sys2Proof.Machine

/-- A field of a parameter area with its value: the byte offset of its word, its lowest bit there, and the value. -/
abbrev encField (off lo v : Nat) : Nat := v * 2 ^ (8 * off + lo)

/-- The first 16 bytes of a packet of 64 bytes. -/
def encodeHead (h : Hdr) (op : Nat) : List Byte :=
  leBytes 8 (op + flag h.order * 2 ^ 8 + flag h.close * 2 ^ 9 + flag h.interrupt * 2 ^ 10 + 8 * 2 ^ 16 + h.tag.toNat * 2 ^ 32)
    ++ leBytes 8 (h.clause.val + flag h.bound * 2 ^ 4 + flag h.nbValid * 2 ^ 5 + h.notBefore.toNat * 2 ^ 16)

/-- WIDTH's code (R290). -/
def widthCode : FillWidth → Nat
  | .one => 0 | .two => 1 | .four => 2 | .eight => 3

/-- The header, the opcode and the parameters of a command that has a packet here. -/
def packetParts : Instr → Option (Hdr × Nat × Nat)
  | .nop h => some (h, 0x01, 0)
  | .query h dest => some (h, 0x02, dest.toNat)
  | .eventAck h ack => some (h, 0x05, ack.toNat)
  | .dmaCopy h p => some (h, 0x10, p.src.toNat + encField 8 0 p.dst.toNat + encField 0x10 0 p.length.toNat + encField 0x18 0 (flag p.digest)
      + encField 0x20 0 p.digestAddr.toNat)
  | .loadShard h p =>
    let source := match p.source with
      | .memory src => encField 8 0 src.toNat
      | .stream id => 1 + encField 4 0 id.toNat
    some (h, 0x11, source + encField 0x10 0 p.dst.toNat + encField 0x18 0 p.length.toNat + encField 0x20 0 p.manifest.toNat)
  | .swapTense h at_ cancel => some (h, 0x12, at_.toNat + encField 8 0 (flag cancel))
  | .verifyShard h target =>
    let v := match target with
      | .present => 0
      | .future => 1
      | .region a n m => 2 + encField 8 0 a.toNat + encField 0x10 0 n.toNat + encField 0x18 0 m.toNat
    some (h, 0x13, v)
  | .gatherSetup h count base slotBytes table => some (h, 0x14, 1 + encField 4 16 count.toNat + encField 8 0 base.toNat
      + encField 0x10 0 slotBytes.toNat + encField 0x18 0 table.toNat)
  | .gatherFetch h slot layer => some (h, 0x14, 2 + encField 0 8 slot.val + encField 4 0 layer.toNat)
  | .gatherRelease h slot => some (h, 0x14, 3 + encField 0 8 slot.val)
  | .fill h dst length width pattern => some (h, 0x15, dst.toNat + encField 8 0 length.toNat + encField 0x10 0 (widthCode width)
      + encField 0x18 0 pattern.toNat)
  | _ => none

/-- A command's packet: its header, and 48 bytes of parameters. -/
def encodePacket (i : Instr) : Option (List Byte) := (packetParts i).map (fun p => encodeHead p.1 p.2.1 ++ leBytes 48 p.2.2)

end Sys2Proof.Machine
end

