-- ==== Sys2Proof/Safety.lean ====
section
/-!
DEFINITION. Safety.lean: the states that statements about the module speak of.
-/
namespace Sys2Proof.Machine

/-- No action of a fatal event is still to be taken: between steps it always holds (R45, R399, R506, R513; 95). -/
def State.noneDue (s : State) : Prop := s.pd.haltDue = none ∧ s.pd.failDue = none ∧ s.pwr.resetDue = []

/-- A Clause of the running Period that may still become complete. -/
def State.clauseOpen (s : State) (c : Nat) : Bool :=
  (s.clause c).runs && (s.clause c).complete.isNone && !(s.clause c).missed

/-- No write of the step is still to be looked at, and no failure of a companion request still to be met: between steps it always holds. -/
def State.noneNoted (s : State) : Prop := s.wrote = [] ∧ s.oxl.failed = [] ∧ s.oxl.missing = none

/-- Nothing in the module waits for something else: no transfer, commit, hold, halt or open Clause. -/
structure State.Quiet (s : State) : Prop where
  noted  : s.noneNoted
  due    : s.noneDue
  period : s.pcState ≠ 3 ∧ (s.pcState = 2 → ∀ c < 16, s.clauseOpen c = false)
  coll   : s.coll.runs = [] ∧ s.coll.reshard = none
  commit : s.uu.openCommit = none
  shadow : s.sh.runs = [] ∧ s.sh.replay = none ∧ s.holds = false

/-- No command that has been read waits on its ring or in the deferred queue, and the registers say so. -/
structure State.Drained (s : State) : Prop where
  flights : ∀ f ∈ s.cp.flights, f.phase = .dispatched
  depth   : s.get F.BW_QUEUE_DEPTH = 0
  waiting : ∀ k < 64, s.get (F.CP_RING_STATUS_WAITING k) = 0

/-- In such a state the end of a step has nothing to bring forward, so a command's effect is all that changes. -/
structure State.Calm (s : State) : Prop extends s.Quiet, s.Drained

/-- Every stack answers, no line is poisoned and no error is armed: an access of HBM meets no error. -/
structure State.Sound (s : State) : Prop where
  allStacks : s.get F.RS_HELD_HBM = 0
  poison : s.poison = []
  inject : s.inject = []

/-- `t` is `s` with the bytes `bs` stored from `a` on, and nothing else changed. -/
def State.Stores (s t : State) (a : Nat) (bs : List Byte) : Prop :=
  t = { s with hbm := t.hbm } ∧ t.hbm.read a bs.length = bs ∧ ∀ x, x < a ∨ a + bs.length ≤ x → t.hbm.get x = s.hbm.get x

/-- `s` with the bytes `bs` stored in HBM from `a` on by a command, or by the companion, and the write noted for the end of the step (R41, R157,
R186, R196, R237, R271). -/
def State.stored (s : State) (a : Nat) (bs : List Byte) (c : Option CmdRef) : State :=
  { s.noteWrite a bs.length c with hbm := s.hbm.write a bs }

/-- A write of `n` bytes at `a` is of no further concern: no Period runs, no commit is open, and no loaded table lies there. -/
def State.Unwatched (s : State) (a n : Nat) : Prop :=
  s.pcState ≠ 2 ∧ s.pcState ≠ 3 ∧ s.uu.openCommit = none ∧ (∀ t ∈ s.cj.tables, overlaps a n t.address t.length = false) ∧
    ∀ j ∈ s.cj.jobs, overlaps a n j.table.address j.table.length = false

/-- Port `q` is UP and idle, with a credit and room for a flit, and no port owes credits that it could return: a message of one flit queued there
leaves at once, alone. -/
structure State.Clear (s : State) (q : Nat) : Prop where
  inject : s.inject = []
  port   : q < 8
  up     : s.portUp q = true
  idle   : (s.port q).queue = []
  credit : 0 < (s.port q).shared
  room   : (s.port q).buffer.length < replaySlots q
  owed   : ∀ k < 8, ∀ n ∈ (s.port k).owed, n < 8

/-- `t` is `s` with message `m` of command `c` sent on port `q`, and the shadow engine as `t` has it. -/
def State.Asks (s t : State) (q : Nat) (c : CmdRef) (m : OutMsg) : Prop :=
  t = { s.usePort (some c) q with fab := t.fab, out := s.out ++ [m], sh := t.sh }

/-- A flit header of TYPE 0: the flit holds messages (R444). -/
abbrev NormalFlit (flit : BitVec 96) : Prop := bits flit.toNat 14 2 = 0

/-- `s` when a message of a class, with `n` data bytes, has come in on an Orrex Link port: the credits of its flit header are taken, and its own
slots are returned at once (R444, R454). -/
def State.heard (s : State) (l : Nat) (flit : BitVec 96) (cls n : Nat) : State :=
  (s.creditIn l ⟨bits flit.toNat 0 14, bits flit.toNat 14 2, bits flit.toNat 16 2, bits flit.toNat 18 10⟩).send
    (.oxlCredit l cls (1 + oxlSlots n))

/-- Of the Orrex Link interface, `t` differs from `s` only in what an agent had read and asked for: none of it is left (R446). -/
def State.Released (s t : State) (o : OxlOwner) : Prop :=
  t.oxl = { s.oxl with pending := t.oxl.pending, waiting := t.oxl.waiting, lines := t.oxl.lines, seen := t.oxl.seen } ∧
    ∀ x ∈ t.oxl.seen, x.owner ≠ o

/-- Every register field but those listed reads in `t` as in `s`. -/
def State.sameRegs (s t : State) (changed : List Field) : Prop :=
  ∀ f : Field, f.key ∉ changed.map Field.key → t.get f = s.get f

/-- From `s` to `t` one command more has ended: `c`, as `d` says. -/
def State.Ends (s t : State) (c : CmdRef) (d : Done) : Prop :=
  ∃ (attach : Option (Nat × Nat)) (noted : Bool) (cmd : Option Instr), t.cp.ended = s.cp.ended ++ [⟨c, d, attach, noted, cmd⟩]

/-- A program that only copies and converts: its stages are ELTWISE without epilogue, and its tensors lie in HBM, without block scales,
extension planes or digests. -/
def Program.Plain (g : Program) : Prop :=
  (∀ st ∈ g.stages, st.kind = 3 ∧ st.epis = []) ∧
    ∀ x ∈ g.tensors, x.digest = false ∧ x.mx = false ∧ x.fmt ≠ .m40 ∧
      ∀ r < x.rows, x.rowAddr r < hbmEnd ∧ x.rowAddr r + x.fmt.bytes x.d0 ≤ hbmEnd

/-- The eight rows of COLLECTIVE by their sub-operation (R345). -/
def collRow (h : Hdr) (p : CollParams) : Nat → Instr
  | 1 => .reduceScatter h p
  | 2 => .allGather h p
  | 3 => .allReduce h p
  | 4 => .broadcast h p
  | 5 => .permute h p
  | 6 => .send h p
  | 7 => .recv h p
  | _ => .ringExchange h p

/-- A routed message of VC 1 to 3 as a command: its arrival port, its route, the sub-channel it came on, its data length, and what the router
sends on. -/
inductive RoutedRow : Instr → Fin 8 → Route → Nat → Nat → (Nat → OutMsg) → Prop where
  | collective (q r m d) : RoutedRow (.collectiveMessage q r m d) q r (subOf 1 r) d.length (fun p => .collective p r m d)
  | p2p (q r m d) : RoutedRow (.p2pMessage q r m d) q r (subOf (if r.sub.toNat / 2 = 3 then 3 else 1) r) d.length (fun p => .p2p p r m d)
  | shadow (q r m d) : RoutedRow (.shadowMessage q r m d) q r (subOf 2 r) d.length (fun p => .shadow p r m d)
  | bulk (q r d) : RoutedRow (.bulkMessage q r d) q r (subOf 3 r) d.length (fun p => .bulk p r d)

/-- `s` with `n` flits of a sub-channel accepted on a port and consumed: the slots they took are owed to the far end, and returned in whole
units (R318, R320). -/
def State.taken (s : State) (p n sub : Nat) : State := (s.arrive p n sub).1.consume (s.arrive p n sub).2 n

/-- The fields that the record of an event may change: the event ring's, the class counters, the PLDM status, and a stack's error
counters. -/
def eventFields : List Nat :=
  [F.CP_EVT_SEQ_SEQ.key, F.CP_EVT_LOST_NOTE.key, F.CP_EVT_LOST_CORRECTED.key, F.CP_EVT_LOST_CONTAINED.key,
    F.CP_EVT_LOST_PERIOD_FATAL.key, F.CP_EVT_LOST_MODULE_FATAL.key, F.CP_STATUS_EVT_OVERFLOW.key, F.CP_EVT_FATAL_CODE.key,
    F.CP_EVT_FATAL_CLASS.key, F.CP_EVT_FATAL_VALID.key, F.ER_STATUS_PLDM_LOST.key, F.ER_STATUS_PLDM_QUEUED.key,
    F.ER_STATUS_ALERT.key]

/-- A field that the record of an event may change. -/
def eventField (f : Field) : Prop :=
  f.key ∈ eventFields ∨ (∃ c < 5, f.key = (F.ER_CLASS_COUNT c).key) ∨
    ∃ k < 16, f.key = (F.HM_ECC_CORRECTED k).key ∨ f.key = (F.HM_ECC_UNCORRECTABLE k).key ∨ f.key = (F.HM_ECC_POISONED k).key ∨
      f.key = (F.HM_ERR_ADDR_ADDR k).key

end Sys2Proof.Machine
end

