-- ==== Sys2Proof/Certificates/Slice0/Obligations.lean ====
section
/-!
DEFINITION. Certificates/Slice0/Obligations.lean: what is claimed of the module. Each statement's docstring names the rules it formalises.
-/
open Sys2Proof Sys2Proof.Machine

/-- A step takes the command at the front of the queue and runs it with the rest of the queue left; with an empty queue the module idles
(log entry 9: the model's choice). Every command has a next state: none faults and none is refused. -/
def Obligations.FrontCommandRuns : Prop :=
  (
  (∀ (c : Instr) (rest : List Instr) (s : State), s.pending = c :: rest → step s = exec c (s.withPending rest)) ∧
  (∀ s : State, s.pending = [] → step s = .next s)) ∧
  (
 ∀ (c : Instr) (s : State), ∃ t : State, exec c s = .next t)

/-- Every step leaves no action of a fatal event to be taken: the halt, the failure and the resets that its events call for are part of it
(R45, R399, R506, R513, and 95: a step is whole). -/
def Obligations.StepTakesItsActions : Prop :=
  ∀ s t : State, s.noneDue → step s = .next t → t.noneDue

/-- Right after reset no action is due, the module is calm, and its memories have their canonical form and list nothing. Right after reset
every register reads the Reset column of its table: what no row has written reads its reset value. -/
def Obligations.ResetState : Prop :=
  (
  State.reset.noneDue ∧ State.reset.Calm ∧ State.reset.hbm.wf = true ∧ State.reset.comp.wf = true ∧
    State.reset.hbm.cells = [] ∧ State.reset.comp.cells = [] ∧ State.reset.pending = []) ∧
  (
  (∀ f : Field, State.reset.get f = f.reset) ∧
  State.reset.get F.PC_COMMITTED_COMMITTED = 2 ^ 48 - 1 ∧ State.reset.get F.PC_STATUS_STATE = 0 ∧
  State.reset.get F.PC_GUARD_GUARD_US = 1000 ∧ State.reset.get F.SH_WATCHDOG_CONFIGURED_US = 2000 ∧
  State.reset.get F.CP_EVT_CTRL_ENTRIES_LOG2 = 6 ∧ State.reset.get F.CP_EVT_SEQ_SEQ = 0 ∧
  ∀ k : Fin 64, State.reset.get (F.CP_RING_CTRL_ENABLE k) = 0 ∧ State.reset.get (F.CP_CQ_TAIL_PHASE k) = 1)

/-- A field of a register that is written reads the low bits of the value; every other field of the register file reads as before. Bytes
written to a memory read back, every other byte reads as before, and the canonical form is kept by a write and by contents that become
undefined. -/
def Obligations.ReadAfterWrite : Prop :=
  (
  ∀ (s : State) (f : Field) (v : Nat), (s.put f v).get f = v % 2 ^ f.len ∧
    (∀ g : Field, g.key ≠ f.key → (s.put f v).get g = s.get g) ∧ s.put f v = { s with regs := (s.put f v).regs }) ∧
  (
  ∀ (m : Mem) (a : Nat) (bs : List Byte), (m.write a bs).read a bs.length = bs ∧
    (∀ x, x < a ∨ a + bs.length ≤ x → (m.write a bs).get x = m.get x) ∧
    (m.wf = true → (m.write a bs).wf = true ∧ ∀ hi d, (m.forget a hi d).wf = true))

/-- A doorbell that is a multiple of 64, lies in the ring and does not move TAIL backward sets TAIL and nothing else (R411). A doorbell that
is no multiple of 64, lies beyond the ring or moves TAIL backward faults the ring: FAULT, FAULT_CODE 4 and the ring's bit of CP_FAULTS are
set, and commands, other rings and everything but the event's record stay (R412). That a bad doorbell stores TAIL too is the model's reading
(log entry 59). -/
def Obligations.DoorbellsMoveTail : Prop :=
  (
  ∀ (s : State) (k : Fin 64) (tail : BitVec 24), s.Calm → s.regOpen (Reg.CP_RING_TAIL k) = true →
    (let n := s.ringBytes k
     let head := s.get (F.CP_RING_HEAD_HEAD k)
     tail.toNat % 64 = 0 ∧ tail.toNat < n ∧ (s.get (F.CP_RING_TAIL_TAIL k) + n - head) % n ≤ (tail.toNat + n - head) % n) →
    ∃ t : State, exec (.ringDoorbell k tail) s = .next t ∧ t = { s with regs := t.regs } ∧
      t.get (F.CP_RING_TAIL_TAIL k) = tail.toNat ∧ s.sameRegs t [F.CP_RING_TAIL_TAIL k]) ∧
  (
  ∀ (s : State) (k : Fin 64) (tail : BitVec 24), s.Calm → s.regOpen (Reg.CP_RING_TAIL k) = true →
    (let n := s.ringBytes k
     let head := s.get (F.CP_RING_HEAD_HEAD k)
     tail.toNat % 64 ≠ 0 ∨ n ≤ tail.toNat ∨ (tail.toNat + n - head) % n < (s.get (F.CP_RING_TAIL_TAIL k) + n - head) % n) →
    ∃ t : State, exec (.ringDoorbell k tail) s = .next t ∧ t.get (F.CP_RING_STATUS_FAULT k) = 1 ∧ t.get (F.CP_RING_STATUS_FAULT_CODE k) = 4 ∧
      bit (t.get F.CP_FAULTS_FAULT) k = true ∧ t.cp.flights = s.cp.flights ∧ t.cp.ended = s.cp.ended ∧
      (∀ f : Field, ¬ eventField f → f.key ∉ [(F.CP_RING_TAIL_TAIL k).key, (F.CP_RING_STATUS_FAULT k).key,
        (F.CP_RING_STATUS_FAULT_CODE k).key, F.CP_FAULTS_FAULT.key] → t.get f = s.get f))

/-- Writing ENABLE 1 while ACTIVE is 0 starts the ring anew: HEAD, TAIL, SEQ, CQ_HEAD and CQ_TAIL 0, PHASE 1, no fault; SIZE and CLAUSES
take their values (R413). Writing ENABLE 0 stops an active ring's reading; ACTIVE stays until no command of the ring is in flight; SIZE and
CLAUSES are ignored while it is active (R413). Enabling the event ring sets ENTRIES_LOG2 (6 to 16), brings ACKED up to SEQ and allows the
next interrupt (R429, R431). -/
def Obligations.RingsStartAndStop : Prop :=
  (
  ∀ (s : State) (k : Fin 64) (size : BitVec 4) (clauses : BitVec 16), s.Calm → s.regOpen (Reg.CP_RING_CTRL k) = true →
    s.get (F.CP_RING_STATUS_ACTIVE k) ≠ 1 → size.toNat ≤ 12 →
    ∃ t : State, exec (.ringEnable k size clauses) s = .next t ∧ t = { s with regs := t.regs, oxl := t.oxl } ∧ s.Released t (.ring k) ∧
      t.get (F.CP_RING_CTRL_ENABLE k) = 1 ∧ t.get (F.CP_RING_CTRL_SIZE k) = size.toNat ∧
      t.get (F.CP_RING_CTRL_CLAUSES k) = clauses.toNat ∧ t.get (F.CP_RING_STATUS_ACTIVE k) = 1 ∧
      t.get (F.CP_RING_HEAD_HEAD k) = 0 ∧ t.get (F.CP_RING_TAIL_TAIL k) = 0 ∧ t.get (F.CP_RING_SEQ_SEQ k) = 0 ∧
      t.get (F.CP_CQ_HEAD_HEAD k) = 0 ∧ t.get (F.CP_CQ_TAIL_TAIL k) = 0 ∧ t.get (F.CP_CQ_TAIL_PHASE k) = 1 ∧
      t.get (F.CP_RING_STATUS_FAULT k) = 0 ∧ t.get (F.CP_RING_STATUS_FAULT_CODE k) = 0 ∧
      s.sameRegs t [F.CP_RING_CTRL_ENABLE k, F.CP_RING_CTRL_SIZE k, F.CP_RING_CTRL_CLAUSES k, F.CP_RING_STATUS_ACTIVE k,
        F.CP_RING_HEAD_HEAD k, F.CP_RING_TAIL_TAIL k, F.CP_RING_SEQ_SEQ k, F.CP_CQ_HEAD_HEAD k, F.CP_CQ_TAIL_TAIL k,
        F.CP_CQ_TAIL_PHASE k, F.CP_RING_STATUS_FAULT k, F.CP_RING_STATUS_FAULT_CODE k, F.CP_FAULTS_FAULT,
        F.CP_RING_STATUS_INFLIGHT k, F.CP_STATUS_INFLIGHT]) ∧
  (
  ∀ (s : State) (k : Fin 64) (size : BitVec 4) (clauses : BitVec 16), s.Calm → s.regOpen (Reg.CP_RING_CTRL k) = true →
    s.get (F.CP_RING_STATUS_ACTIVE k) = 1 →
    ∃ t : State, exec (.ringDisable k size clauses) s = .next t ∧ t = { s with regs := t.regs } ∧ t.get (F.CP_RING_CTRL_ENABLE k) = 0 ∧
      (t.get (F.CP_RING_STATUS_ACTIVE k) = 0 ↔
        (∀ f ∈ s.cp.flights, f.ref.ring ≠ k) ∧ ∀ e ∈ s.cp.ended, e.ref.ring ≠ k) ∧
      s.sameRegs t [F.CP_RING_CTRL_ENABLE k, F.CP_RING_STATUS_ACTIVE k, F.CP_RING_STATUS_INFLIGHT k, F.CP_STATUS_INFLIGHT]) ∧
  (
  ∀ (s : State) (n : BitVec 5), s.Calm → s.regOpen Reg.CP_EVT_CTRL = true → s.get F.CP_EVT_CTRL_ENABLE ≠ 1 → s.sec.slotFail = false →
    6 ≤ n.toNat → n.toNat ≤ 16 → s.get F.CP_EVT_ACKED_ACKED < s.get F.CP_EVT_SEQ_SEQ →
    ∃ t : State, exec (.eventRingEnable n) s = .next t ∧ t = { s with regs := t.regs, cp := { s.cp with irqArmed := true } } ∧
      t.get F.CP_EVT_CTRL_ENABLE = 1 ∧ t.get F.CP_EVT_CTRL_ENTRIES_LOG2 = n.toNat ∧
      t.get F.CP_EVT_ACKED_ACKED = s.get F.CP_EVT_SEQ_SEQ % 2 ^ 48 ∧
      s.sameRegs t [F.CP_EVT_CTRL_ENABLE, F.CP_EVT_CTRL_ENTRIES_LOG2, F.CP_EVT_ACKED_ACKED])

/-- NOP has no parameters, may be bound and carry CLOSE, and completes with ST_OK and a result digest of 0 (R432). -/
def Obligations.NopCompletes : Prop :=
  ∀ (h : Hdr) (s : State),
    (∀ v, areaOf 0x01 v = some ⟨0, []⟩ ∧ packetInstr h 0x01 v = some (.nop h)) ∧
    (h.bound = true → s.bindingOk h .any = true) ∧
    (s.bindingOk h .any = true → exec (.nop h) s = .next (s.finish (s.refOf h 0x01) ⟨ST_OK, 0, 0⟩).settle)

/-- EVENT_ACK, and a write to CP_EVT_ACK, free every record whose SEQ is below the value, and let the next vector-64 interrupt go; a value
that is not above CP_EVT_ACKED has no effect; one above CP_EVT_SEQ completes EVENT_ACK with ST_BAD_PARAM and is ignored by the register
(R430). -/
def Obligations.EventAckFreesRecords : Prop :=
  ∀ (h : Hdr) (s : State) (a : BitVec 48), s.Calm → s.bindingOk h .notBound = true → s.regOpen Reg.CP_EVT_ACK = true →
    let acked := s.get F.CP_EVT_ACKED_ACKED
    let seq := s.get F.CP_EVT_SEQ_SEQ
    (acked < a.toNat → a.toNat ≤ seq → ∃ t : State, t.get F.CP_EVT_ACKED_ACKED = a.toNat ∧
      t = { s with regs := t.regs, cp := { s.cp with irqArmed := true } } ∧ s.sameRegs t [F.CP_EVT_ACKED_ACKED] ∧
      exec (.eventAck h a) s = .next (t.finish (s.refOf h 0x05) ⟨ST_OK, 0, 0⟩) ∧ exec (.cpEvtAckWrite a) s = .next t) ∧
    (a.toNat ≤ acked → a.toNat ≤ seq →
      exec (.eventAck h a) s = .next (s.finish (s.refOf h 0x05) ⟨ST_OK, 0, 0⟩) ∧ exec (.cpEvtAckWrite a) s = .next s) ∧
    (seq < a.toNat → exec (.eventAck h a) s = .next (s.finish (s.refOf h 0x05) ⟨ST_BAD_PARAM, 0, 0⟩) ∧ exec (.cpEvtAckWrite a) s = .next s)

/-- A FENCE that is dispatched completes with ST_OK and a result of 0; one that names its own ring beyond itself completes with ST_BAD_PARAM
(R435). SET_CONFIG of RAMP_MS sets it and completes with the item's CRC-64; outside IDLE and HALTED it completes with ST_NOT_READY, and an
unknown item completes it with ST_BAD_PARAM, and nothing is applied (R434). QUERY writes its 64-byte record to DEST and completes with ST_OK
and the record's CRC-64; the record holds the states, COMMITTED, fabric time, CP_EVT_SEQ, CP_FAULTS and the enabled rings, and no other byte
changes (R433). -/
def Obligations.SystemCommands : Prop :=
  (
  ∀ (h : Hdr) (s : State) (es : List FenceEntry), s.Calm → s.bindingOk h .any = true → 1 ≤ es.length → es.length ≤ 8 →
    ((∀ e ∈ es, e.ring = h.ring → e.seq.toNat ≤ h.seq.toNat) →
      exec (.fence h es) s = .next (s.finish (s.refOf h 0x04) ⟨ST_OK, 0, 0⟩)) ∧
    ((∃ e ∈ es, e.ring = h.ring ∧ h.seq.toNat < e.seq.toNat) →
      exec (.fence h es) s = .next (s.finish (s.refOf h 0x04) ⟨ST_BAD_PARAM, 0, 0⟩))) ∧
  (
  ∀ (h : Hdr) (s : State), s.Calm → s.bindingOk h .notBound = true →
    (∀ v : BitVec 64, s.idle = true → 1 ≤ v.toNat → v.toNat ≤ 50 →
      exec (.setConfig h [⟨2, v⟩]) s = .next ((s.put F.PW_CFG_RAMP_MS v.toNat).finish (s.refOf h 0x03)
        ⟨ST_OK, 0, crc64 (itemBytes ⟨2, v⟩) % 2 ^ 64⟩)) ∧
    (∀ is : List ConfigItem, 1 ≤ is.length → is.length ≤ 16 → s.idle = false →
      exec (.setConfig h is) s = .next (s.finish (s.refOf h 0x03) ⟨ST_NOT_READY, 0, 0⟩)) ∧
    (∀ is : List ConfigItem, is.length ≤ 16 → s.idle = true → (∃ i ∈ is, i.item.toNat ≠ 1 ∧ i.item.toNat ≠ 2) →
      exec (.setConfig h is) s = .next (s.finish (s.refOf h 0x03) ⟨ST_BAD_PARAM, 0, 0⟩))) ∧
  (
  ∀ (h : Hdr) (dest : BitVec 48) (s : State), s.Sound → s.bindingOk h .any = true → dest.toNat % 64 = 0 →
    dest.toNat + 64 ≤ hbmEnd → s.fenceHit h [(dest.toNat, 64)] = false →
    s.queryBytes.length = 64 ∧ leAt s.queryBytes 0 4 = (s.get F.PW_STATUS_STATE + 16 * s.pcState) % 2 ^ 32 ∧
    leAt s.queryBytes 4 2 = 0x0103 ∧ leAt s.queryBytes 6 1 = 0xA0 ∧
    leAt s.queryBytes 8 8 = s.get F.PC_COMMITTED_COMMITTED % 2 ^ 64 ∧ leAt s.queryBytes 0x10 8 = s.now % 2 ^ 64 ∧
    leAt s.queryBytes 0x18 8 = s.get F.CP_EVT_SEQ_SEQ % 2 ^ 64 ∧ leAt s.queryBytes 0x20 8 = s.get F.CP_FAULTS_FAULT % 2 ^ 64 ∧
    exec (.query h dest) s = .next (((s.stored dest.toNat s.queryBytes (some (s.refOf h 0x02))).finish (s.refOf h 0x02)
      ⟨ST_OK, 0, crc64 s.queryBytes % 2 ^ 64⟩).settle) ∧
    (s.Calm → s.Unwatched dest.toNat 64 → ∃ t : State, s.Stores t dest.toNat s.queryBytes ∧
      exec (.query h dest) s = .next (t.finish (s.refOf h 0x02) ⟨ST_OK, 0, crc64 s.queryBytes % 2 ^ 64⟩)))

/-- COMMAND_READ of a packet that names no Clause and no NOT_BEFORE, and is neither a FENCE nor a program: HEAD moves to the next 64-byte
boundary after it, CP_RING_SEQ counts it, and the command waits on its ring (R411, R414). COMMAND_DISPATCH hands the next command of the
ring that is served next to its subsystem, with its dispatch time; a packet that carries no command ends with its status instead (R416,
R417, R418). DEFERRED_DISPATCH does so for the deferred queue (R146). A program that is dispatched claims the sites it gathers on, and ends
with ST_BAD_PARAM where another ring has claimed one (R179). That a malformed packet's status comes at its dispatch is the model's reading
(log entry 69). -/
def Obligations.PacketsAreReadAndDispatched : Prop :=
  (
  ∀ (s : State) (k : Fin 64), s.Calm → s.Sound → s.readable k = true →
    (let head := s.get (F.CP_RING_HEAD_HEAD k)
     let base := s.get (F.CP_RING_BASE_BASE k)
     let p := PacketHead.parse (s.hbm.read (base + head) 16)
     base + s.ringBytes k ≤ hbmEnd → 2 ≤ p.length → p.length ≤ 512 → head + 8 * p.length ≤ s.ringBytes k →
     8 * p.length ≤ (s.get (F.CP_RING_TAIL_TAIL k) + s.ringBytes k - head) % s.ringBytes k →
     p.bound = false → p.nbValid = false → p.opcode ≠ 0x04 → p.opcode ≠ 0x20 →
     ∃ t : State, exec (.commandRead k) s = .next t ∧
       t.cp = { s.cp with flights := s.cp.flights ++
         [{ p.flight k (s.get (F.CP_RING_SEQ_SEQ k)) (s.hbm.read (base + head + 16) (8 * p.length - 16)) with
            fromDefer := bit (s.get F.BW_DEFER_RINGS) k }] } ∧
       t.get (F.CP_RING_HEAD_HEAD k) = (head + cdiv (8 * p.length) 64 * 64) % s.ringBytes k % 2 ^ 24 ∧
       t.get (F.CP_RING_SEQ_SEQ k) = (s.get (F.CP_RING_SEQ_SEQ k) + 1) % 2 ^ 48 ∧ t = { s with regs := t.regs, cp := t.cp, oxl := t.oxl } ∧
       s.Released t (.ring k) ∧
       s.sameRegs t [F.CP_RING_HEAD_HEAD k, F.CP_RING_SEQ_SEQ k, F.CP_RING_STATUS_INFLIGHT k, F.CP_STATUS_INFLIGHT,
         F.CP_RING_STATUS_ACTIVE k])) ∧
  (
  (∀ (s : State) (k : Fin 64) (f : Flight), s.Quiet → s.inject = [] → s.get F.RS_HELD_CP = 0 → s.get F.BW_QUEUE_DEPTH = 0 →
    (∀ j < 64, s.get (F.CP_RING_STATUS_WAITING j) = 0) → s.nextRing = some k.val → s.dispatchable k = some f →
    (∀ g ∈ s.cp.flights, g ≠ f → g.phase = .dispatched ∧ ¬ (g.ref.ring = f.ref.ring ∧ g.ref.seq = f.ref.seq)) →
    let f' : Flight := { f with phase := .dispatched, ref := { f.ref with start := s.now } }
    let s1 := ({ s with cp := { s.cp with lastServed := k.val } } : State).setFlight f'
    (f.cmd.isSome = true → (∀ u, s1.claimFlight f' = some u → exec (.commandDispatch k) s = .next u.settle) ∧
      (s1.claimFlight f' = none → exec (.commandDispatch k) s = .next (s1.endFlight f' ST_BAD_PARAM).settle) ∧
      ((∀ h p, f.cmd ≠ some (.runProgram h p)) → s1.claimFlight f' = some s1 ∧ exec (.commandDispatch k) s = .next s1 ∧
        f' ∈ s1.cp.flights ∧ s1.cp.flights.length = s.cp.flights.length)) ∧
    (f.cmd = none → ∃ t : State, exec (.commandDispatch k) s = .next t ∧ t.cp.lastServed = k ∧ t = { s with cp := t.cp } ∧
      (∀ g ∈ t.cp.flights, g ∈ s.cp.flights ∧ g ≠ f) ∧
      t.cp.ended = s.cp.ended ++ [⟨f'.ref, ⟨f.status, 0, 0⟩, f.attach, decide (f.ref.opcode = 0x41), none⟩])) ∧
  (∀ (s : State) (f : Flight), s.Quiet → s.inject = [] → s.get F.RS_HELD_CP = 0 → (∀ j < 64, s.get (F.CP_RING_STATUS_WAITING j) = 0) →
    s.nextDeferred = some f → f.cmd.isSome = true →
    (∀ g ∈ s.cp.flights, g ≠ f → g.phase = .dispatched ∧ ¬ (g.ref.ring = f.ref.ring ∧ g.ref.seq = f.ref.seq)) →
    let f' : Flight := { f with phase := .dispatched, ref := { f.ref with start := s.now } }
    let s1 := s.setFlight f'
    (∀ u, s1.claimFlight f' = some u → exec .deferredDispatch s = .next u.countDeferred.settle) ∧
    (s1.claimFlight f' = none → exec .deferredDispatch s = .next (s1.endFlight f' ST_BAD_PARAM).countDeferred.settle) ∧
    (s1.claimFlight f' = some s1 → ∃ t : State, exec .deferredDispatch s = .next t ∧
      t = { s with regs := t.regs, cp := { s.cp with flights := t.cp.flights } } ∧ f' ∈ t.cp.flights ∧
      t.get F.BW_QUEUE_DEPTH = 0 ∧ s.sameRegs t [F.BW_QUEUE_DEPTH, F.BW_QUEUE_PEAK])))

/-- COMMAND_COMPLETION writes the record of the first command of the ring that has ended and waits for no ACK, 32 bytes at CQ_BASE + 32
TAIL, and no other byte; TAIL goes on by one record, and PHASE changes at the end of the queue (R414, R420, R426). A record that cannot be
written is outside it (log entry 61). -/
def Obligations.CompletionRecordWritten : Prop :=
  ∀ (s : State) (k : Fin 64) (e : Ended), s.Calm → s.Sound → s.get F.RS_HELD_CP = 0 →
    s.cp.ended.find? (fun e => decide (e.ref.ring = k.val) && !s.awaitsAcks e.ref) = some e → e.attach = none → e.ref.interrupt = false →
    (let a := s.get (F.CP_CQ_BASE_BASE k) + 32 * s.get (F.CP_CQ_TAIL_TAIL k)
     let last := s.get (F.CP_CQ_TAIL_TAIL k) + 1 = 2 ^ s.get (F.CP_CQ_CTRL_ENTRIES_LOG2 k)
     a + 32 ≤ hbmEnd →
     leAt (s.completionBytes e) 4 4 = e.ref.tag % 2 ^ 32 ∧ leAt (s.completionBytes e) 0x10 8 = s.now % 2 ^ 64 ∧
     leAt (s.completionBytes e) 0x18 8 = e.done.result % 2 ^ 64 ∧
     ∃ t : State, exec (.commandCompletion k) s = .next t ∧ t.hbm.read a 32 = s.completionBytes e ∧
       (∀ x, x < a ∨ a + 32 ≤ x → t.hbm.get x = s.hbm.get x) ∧
       t = { s with regs := t.regs, hbm := t.hbm, oxl := t.oxl, cp := { s.cp with ended := s.cp.ended.erase e } } ∧
       s.Released t e.ref.owner ∧
       t.get (F.CP_CQ_TAIL_TAIL k) = (if last then 0 else s.get (F.CP_CQ_TAIL_TAIL k) + 1) % 2 ^ 16 ∧
       t.get (F.CP_CQ_TAIL_PHASE k) = (if last then (1 - s.get (F.CP_CQ_TAIL_PHASE k)) % 2 else s.get (F.CP_CQ_TAIL_PHASE k)) ∧
       s.sameRegs t [F.CP_CQ_TAIL_TAIL k, F.CP_CQ_TAIL_PHASE k, F.CP_RING_STATUS_INFLIGHT k, F.CP_STATUS_INFLIGHT,
         F.CP_RING_STATUS_ACTIVE k])

/-- FILL writes LENGTH bytes of its pattern from DST on, and DMA_COPY the bytes of its source: each completes with ST_OK and the CRC-64 of
the bytes written, and changes no other byte; a DMA_COPY whose ranges overlap completes with ST_BAD_PARAM and writes nothing (R290, R292).
Where the write is of no concern to a Period, a commit or a loaded table, the bytes are all that changes. -/
def Obligations.FillAndCopyWrite : Prop :=
  ∀ (h : Hdr) (s : State), s.Sound → s.bindingOk h .any = true →
    (∀ (dst : BitVec 48) (length : BitVec 64) (width : FillWidth) (pattern : BitVec 64),
      dst.toNat % fillBytes width = 0 → length.toNat % fillBytes width = 0 → 0 < length.toNat → dst.toNat + length.toNat ≤ hbmEnd →
      s.fenceHit h [(dst.toNat, length.toNat)] = false →
      ∃ bs : List Byte, bs.length = length.toNat ∧
        (∀ i < bs.length, bs.getD i 0 = BitVec.ofNat 8 (pattern.toNat / 256 ^ (i % fillBytes width))) ∧
        exec (.fill h dst length width pattern) s = .next (((s.stored dst.toNat bs (some (s.refOf h 0x15))).finish (s.refOf h 0x15)
          ⟨ST_OK, 0, crc64 bs % 2 ^ 64⟩).settle) ∧
        (s.Calm → s.Unwatched dst.toNat length.toNat → ∃ t : State, s.Stores t dst.toNat bs ∧
          exec (.fill h dst length width pattern) s = .next (t.finish (s.refOf h 0x15) ⟨ST_OK, 0, crc64 bs % 2 ^ 64⟩))) ∧
    (∀ p : CopyParams, p.digest = false → 1 ≤ p.length.toNat → p.length.toNat ≤ 2 ^ 40 → p.src.toNat + p.length.toNat ≤ hbmEnd →
      p.dst.toNat + p.length.toNat ≤ hbmEnd → s.fenceHit h [(p.dst.toNat, p.length.toNat)] = false →
      let bs := s.hbm.read p.src.toNat p.length.toNat
      (overlaps p.src.toNat p.length.toNat p.dst.toNat p.length.toNat = false →
        exec (.dmaCopy h p) s = .next (((s.stored p.dst.toNat bs (some (s.refOf h 0x10))).finish (s.refOf h 0x10)
          ⟨ST_OK, 0, crc64 bs % 2 ^ 64⟩).settle) ∧
        (s.Calm → s.Unwatched p.dst.toNat p.length.toNat → ∃ t : State, s.Stores t p.dst.toNat bs ∧
          exec (.dmaCopy h p) s = .next (t.finish (s.refOf h 0x10) ⟨ST_OK, 0, crc64 bs % 2 ^ 64⟩))) ∧
      (overlaps p.src.toNat p.length.toNat p.dst.toNat p.length.toNat = true →
        exec (.dmaCopy h p) s = .next (s.finish (s.refOf h 0x10) ⟨ST_BAD_PARAM, 0, 0⟩).settle))

/-- SWAP_TENSE arms the swap when the FUTURE bank is VERIFIED and the tick of AT_PERIOD has not passed, completes with ST_NOT_READY when the
bank is not VERIFIED, and with CANCEL clears the arm (R304). -/
def Obligations.SwapTenseArms : Prop :=
  ∀ (h : Hdr) (n : BitVec 48) (s : State), s.Calm → s.bindingOk h .notBound = true →
    (s.bankState (s.bankOf .future) = 2 → s.tickPassed n.toNat = false →
      ∃ t : State, exec (.swapTense h n false) s = .next (t.finish (s.refOf h 0x12) ⟨ST_OK, 0, 0⟩) ∧ t = { s with regs := t.regs } ∧
        t.get F.TB_STATE_ARMED = 1 ∧ t.get F.TB_AT_AT_PERIOD = n.toNat ∧ s.sameRegs t [F.TB_STATE_ARMED, F.TB_AT_AT_PERIOD]) ∧
    (s.bankState (s.bankOf .future) ≠ 2 →
      exec (.swapTense h n false) s = .next (s.finish (s.refOf h 0x12) ⟨ST_NOT_READY, 0, 0⟩)) ∧
    (∃ t : State, exec (.swapTense h n true) s = .next (t.finish (s.refOf h 0x12) ⟨ST_OK, 0, 0⟩) ∧ t = { s with regs := t.regs } ∧
      t.get F.TB_STATE_ARMED = 0 ∧ s.sameRegs t [F.TB_STATE_ARMED])

/-- LOAD_SHARD from memory of a shard of one chunk whose bytes match its manifest: the chunk is copied, the FUTURE bank becomes VERIFIED
with DST, LENGTH and MANIFEST in its registers, and the result is the shard digest's first 8 bytes; from a stream the bank is LOADING and
the command stays in flight; while a swap is armed it completes with ST_NOT_READY (R302, R303). VERIFY_SHARD of a region of one chunk
completes with ST_OK when the chunk matches its leaf, and otherwise with ST_DIGEST, with DM_FAIL and DM_COUNTS.FAILS counting it; a bank
that is not VERIFIED completes it with ST_NOT_READY. A re-verification pass over a VERIFIED bank of one chunk that matches counts in
DM_COUNTS.PASSES (R305, R306). -/
def Obligations.ShardsLoadAndVerify : Prop :=
  (
  ∀ (h : Hdr) (p : LoadParams) (s : State), s.Calm → s.Sound → s.bindingOk h .notBound = true → loadEncoded p = true →
    (s.get F.TB_STATE_ARMED = 1 → exec (.loadShard h p) s = .next (s.finish (s.refOf h 0x11) ⟨ST_NOT_READY, 0, 0⟩)) ∧
    (∀ leaf : List Byte, s.loadFault p = none → p.length.toNat ≤ mebi → p.manifest.toNat + 176 ≤ hbmEnd →
      leAt (s.hbm.read p.manifest.toNat 128) 8 8 = p.length.toNat → leAt (s.hbm.read p.manifest.toNat 128) 4 4 = 1 →
      manifestLeaves (s.hbm.read p.manifest.toNat 176) p.length.toNat = some [leaf] →
      (∀ id, p.source = .stream id →
        ∃ t : State, exec (.loadShard h p) s = .next t ∧ t.bankState (s.bankOf .future) = 1 ∧
          t.get (F.TB_BASE_BASE (s.bankOf .future)) = p.dst.toNat ∧ t.cp = s.cp ∧ t.hbm = s.hbm ∧
          t.dm.load = some ⟨s.refOf h 0x11, s.bankOf .future, id.toNat, p.dst.toNat, p.length.toNat, p.manifest.toNat, []⟩) ∧
      (∀ src, p.source = .memory src → src.toNat + p.length.toNat ≤ hbmEnd →
        shardLeaf (s.hbm.read src.toNat p.length.toNat) = leaf →
        ∃ t : State, exec (.loadShard h p) s =
            .next ((t.finish (s.refOf h 0x11) ⟨ST_OK, 0, shardResult p.length.toNat [leaf] % 2 ^ 64⟩).settle) ∧
          t.bankState (s.bankOf .future) = 2 ∧ t.get (F.TB_BASE_BASE (s.bankOf .future)) = p.dst.toNat ∧
          t.get (F.TB_LEN_LENGTH (s.bankOf .future)) = p.length.toNat % 2 ^ (F.TB_LEN_LENGTH (s.bankOf .future)).len ∧
          t.get (F.TB_MANIFEST_MANIFEST (s.bankOf .future)) = p.manifest.toNat ∧
          t.hbm.read p.dst.toNat p.length.toNat = s.hbm.read src.toNat p.length.toNat ∧
          (∀ x, x < p.dst.toNat ∨ p.dst.toNat + p.length.toNat ≤ x → t.hbm.get x = s.hbm.get x) ∧
          t = { s with regs := t.regs, hbm := t.hbm, wrote := t.wrote } ∧
          (s.Unwatched p.dst.toNat p.length.toNat → exec (.loadShard h p) s =
            .next (({ t with wrote := [] } : State).finish (s.refOf h 0x11)
              ⟨ST_OK, 0, shardResult p.length.toNat [leaf] % 2 ^ 64⟩))))) ∧
  (
  (∀ (h : Hdr) (a : BitVec 48) (n : BitVec 64) (m : BitVec 48) (s : State), s.Calm → s.Sound → s.bindingOk h .notBound = true →
    1 ≤ n.toNat → n.toNat ≤ mebi → a.toNat + n.toNat ≤ hbmEnd → m.toNat + 176 ≤ hbmEnd →
    (shardLeaf (s.hbm.read a.toNat n.toNat) = s.hbm.read (m.toNat + 128) 48 →
      exec (.verifyShard h (.region a n m)) s = .next (s.finish (s.refOf h 0x13) ⟨ST_OK, 0, 0⟩)) ∧
    (shardLeaf (s.hbm.read a.toNat n.toNat) ≠ s.hbm.read (m.toNat + 128) 48 →
      exec (.verifyShard h (.region a n m)) s =
        .next ((((s.put F.DM_FAIL_CHUNK 0).put F.DM_FAIL_TARGET 2).bump F.DM_COUNTS_FAILS 1).finish (s.refOf h 0x13)
          ⟨ST_DIGEST, 0, 0⟩))) ∧
  (∀ (h : Hdr) (s : State), s.Calm → s.bindingOk h .notBound = true → s.bankState (s.bankOf .present) ≠ 2 →
    exec (.verifyShard h .present) s = .next (s.finish (s.refOf h 0x13) ⟨ST_NOT_READY, 0, 0⟩)) ∧
  (∀ (s : State) (b : Fin 2), s.Calm → s.Sound → s.get F.DM_REVERIFY_ENABLE = 1 → 0 < s.get F.DM_REVERIFY_ENGINES →
    s.bankState b = 2 → 1 ≤ s.get (F.TB_LEN_LENGTH b) → s.get (F.TB_LEN_LENGTH b) ≤ mebi →
    s.get (F.TB_BASE_BASE b) + s.get (F.TB_LEN_LENGTH b) ≤ hbmEnd → s.get (F.TB_MANIFEST_MANIFEST b) + 176 ≤ hbmEnd →
    shardLeaf (s.hbm.read (s.get (F.TB_BASE_BASE b)) (s.get (F.TB_LEN_LENGTH b))) =
      s.hbm.read (s.get (F.TB_MANIFEST_MANIFEST b) + 128) 48 →
    exec (.reverifyPass b) s = .next (s.bump F.DM_COUNTS_PASSES 1)))

/-- GATHER_WINDOW SETUP with a table of one good entry takes the window; RELEASE of a held slot clears its bit of GW_STATE.HELD and no other
(R293, R295). GATHER_WINDOW FETCH of a slot that is held, or of a layer beyond the table, completes with ST_BAD_PARAM; a good one holds the
slot and starts the layer's all-gather over its axis, with the module's own piece as its source (R293, R295). -/
def Obligations.GatherWindow : Prop :=
  (
  ∀ (h : Hdr) (s : State), s.Calm → s.Sound →
    (∀ (base : BitVec 48) (slot : BitVec 64) (table : BitVec 48), s.bindingOk h .notBound = true → s.idle = true →
      base.toNat % 4096 = 0 → slot.toNat % 4096 = 0 → table.toNat % 64 = 0 → base.toNat + 3 * slot.toNat ≤ hbmEnd →
      table.toNat + 32 ≤ hbmEnd → layerOk (s.hbm.read table.toNat 32) slot.toNat = true →
      exec (.gatherSetup h 1 base slot table) s =
        .next (({ s with dm := { s.dm with gather := some ⟨1, base.toNat, slot.toNat, table.toNat⟩ } } : State).finish
          (s.refOf h 0x14) ⟨ST_OK, 0, 0⟩)) ∧
    (∀ k : Fin 3, s.bindingOk h (.kinds [kindForward, kindBackward, kindEvaluate]) = true → s.slotHeld k = true →
      s.get F.GW_STATE_HELD < 8 →
      ∃ t : State, exec (.gatherRelease h k) s = .next (t.finish (s.refOf h 0x14) ⟨ST_OK, 0, 0⟩) ∧ t = { s with regs := t.regs } ∧
        t.slotHeld k = false ∧ (∀ j : Fin 3, j ≠ k → t.slotHeld j = s.slotHeld j) ∧ s.sameRegs t [F.GW_STATE_HELD])) ∧
  (
  ∀ (h : Hdr) (k : Fin 3) (layer : BitVec 16) (gs : GatherSetup) (s : State), s.Sound → s.dm.gather = some gs →
    s.coll.runs = [] → s.coll.early = [] → s.bindingOk h (.kinds [kindForward, kindBackward, kindEvaluate]) = true →
    (gs.count ≤ layer.toNat ∨ s.slotHeld k = true →
      exec (.gatherFetch h k layer) s = .next (s.finish (s.refOf h 0x14) ⟨ST_BAD_PARAM, 0, 0⟩).settle) ∧
    (layer.toNat < gs.count → s.slotHeld k = false → gs.table + 32 * layer.toNat + 32 ≤ hbmEnd →
      let bs := s.hbm.read (gs.table + 32 * layer.toNat) 32
      let e := LayerEntry.parse bs
      let q := fetchParams e layer.toNat (gs.base + k * gs.slotBytes)
      let g := s.groupOf q.axes.toNat
      let r := newRun h (s.refOf h 0x14) (s.evalBound h) (.fetch k) 2 q (s.hbm.read e.src e.piece) []
      layerOk bs gs.slotBytes = true → e.ring = dimOf (s.get F.ZF_LDIM_DIM) e.axis → 0 < e.piece → e.src + e.piece ≤ hbmEnd →
      s.fenceHit h [(gs.base + k * gs.slotBytes, e.ring * e.piece)] = false → r.outPeers g ≠ [] →
      (∀ m ∈ r.inPeers g, s.route m none ≠ .unroutable) → s.get F.GW_STATE_HELD < 8 →
      ∃ t : State, exec (.gatherFetch h k layer) s = .next t.settle ∧ t.slotHeld k = true ∧
        (∀ j : Fin 3, j ≠ k → t.slotHeld j = s.slotHeld j) ∧ t.cp.flights = s.cp.flights ∧
        ∃ u ∈ t.coll.runs, t.coll.runs.length = 1 ∧ u.kind = .fetch k ∧ u.src = s.hbm.read e.src e.piece ∧ u.sent = []))

/-- A patrol scrub that finds a correctable line of its stack counts it and raises HBM_CORRECTED of class CORRECTED; one that finds an
uncorrectable line counts it, holds its address, poisons it and raises HBM_UNCORRECTABLE and HBM_SCRUB_POISON of class CONTAINED; a stack
read above 85 °C becomes HOT with HBM_HOT of class NOTE, and at or below it is not HOT; TEMP holds the reading (R283, R284, R285). DM_MAP
takes LOCAL while the module is IDLE or HALTED with no command running and LOCK clear; only the contents of regions whose bit changes become
undefined. LOCK once set shuts LOCAL out (R282). -/
def Obligations.MemoryUpkeep : Prop :=
  (
  (∀ (s : State) (k : Fin 16) (line : BitVec 48), s.Calm → s.Sound → s.get (F.HM_SCRUB_HOURS k) ≠ 0 → line.toNat % 64 = 0 →
    s.stackOf line.toNat = k →
    exec (.patrolScrub k [⟨line, false⟩]) s =
      .next ((s.bump (F.HM_ECC_CORRECTED k) 1).raise ⟨0x0601, 1, 6, k, line.toNat, false, none⟩) ∧
    exec (.patrolScrub k [⟨line, true⟩]) s =
      .next (((((({ s with poison := [line.toNat] } : State).bump (F.HM_ECC_UNCORRECTABLE k) 1).bump (F.HM_ECC_POISONED k) 1).put
        (F.HM_ERR_ADDR_ADDR k) line.toNat).raise ⟨0x0602, 2, 6, k, line.toNat, false, none⟩).raise
        ⟨0x0603, 2, 6, k, line.toNat, false, none⟩)) ∧
  (∀ (s : State) (k : Fin 16) (t : BitVec 8), s.Calm →
    (thresholds (9 + k)).level t.toNat = (alGet s.mgmt.levels (9 + k)).getD 0 →
    (t.toNat ≤ 85 → exec (.hbmTemperatureRead k t) s = .next ((s.put (F.HM_STATUS_TEMP k) t.toNat).put (F.HM_STATUS_HOT k) 0)) ∧
    (85 < t.toNat → s.get (F.HM_STATUS_HOT k) ≠ 1 →
      exec (.hbmTemperatureRead k t) s =
        .next (((s.put (F.HM_STATUS_TEMP k) t.toNat).put (F.HM_STATUS_HOT k) 1).raise ⟨0x0604, 0, 6, k, 0, false, none⟩)))) ∧
  (
  ∀ (s : State) (map : BitVec 6) (lock : Bool), s.regOpen Reg.DM_MAP = true →
    (s.idle = true → s.commandRunning = false → s.get F.DM_MAP_LOCK ≠ 1 →
      ∃ t : State, exec (.dmMapWrite map lock) s = .next t ∧ t.get F.DM_MAP_LOCAL = map.toNat ∧
        (lock = true → t.get F.DM_MAP_LOCK = 1) ∧ s.sameRegs t [F.DM_MAP_LOCAL, F.DM_MAP_LOCK] ∧
        (∀ x, bit (s.get F.DM_MAP_LOCAL) (x / 2 ^ 36) = bit map.toNat (x / 2 ^ 36) → t.hbm.get x = s.hbm.get x) ∧
        t = { s with regs := t.regs, hbm := t.hbm, draws := t.draws }) ∧
    (s.get F.DM_MAP_LOCK = 1 → ∃ t : State, exec (.dmMapWrite map lock) s = .next t ∧ t = { s with regs := t.regs } ∧
      t.get F.DM_MAP_LOCAL = s.get F.DM_MAP_LOCAL ∧ t.get F.DM_MAP_LOCK = 1))

/-- SCALE_LEDGER SETUP: with ATTACH it records ADDRESS and COUNT and reads and writes nothing; without it, it writes a header of FORMAT 1
with ENTRIES = COUNT, and every entry 0, and the ledger then passes its check (R102, R550). SET_MODE writes GUARD_PERIODS, WARM_PERIODS and
FORCE_GUARDED to the header, WARMUP sets WARM_PENDING there, and a DEFINE of one entry writes its DEFINED, TARGET, CLASS and MARGIN; each
rewrites DIGEST and changes no other byte (R91, R102). SCALE_LEDGER READ copies the header and the named entries to ADDRESS; beyond ENTRIES
it completes with ST_BAD_PARAM, and without a SETUP with ST_NOT_READY, and copies nothing (R102, R550). -/
def Obligations.ScaleLedgerChanges : Prop :=
  (
  ∀ (h : Hdr) (a : BitVec 64) (n : BitVec 16) (s : State), s.Calm → s.Sound → s.bindingOk h .notBound = true → s.idle = true →
    a.toNat % 4096 = 0 → 1 ≤ n.toNat → n.toNat ≤ 4096 → a.toNat + ledgerSize n.toNat ≤ hbmEnd →
    exec (.scaleLedgerSetup h true a n) s =
      .next (({ s with num := { s.num with attach := some ⟨a.toNat, n.toNat, false⟩, mode := none, defs := [] } } : State).finish
        (s.refOf h 0x22) ⟨ST_OK, 0, 0⟩) ∧
    ∃ t : State, exec (.scaleLedgerSetup h false a n) s = .next (t.finish (s.refOf h 0x22) ⟨ST_OK, 0, 0⟩) ∧
      t = { s with hbm := t.hbm, num := { s.num with
        attach := some ⟨a.toNat, n.toNat, true⟩, mode := none, defs := [], originDue := true } } ∧
      t.word a.toNat 2 = 1 ∧ t.word (a.toNat + 2) 2 = n.toNat ∧ t.ledgerOk ⟨a.toNat, n.toNat, true⟩ = true ∧
      (∀ x, a.toNat + 128 ≤ x → x < a.toNat + ledgerSize n.toNat → t.hbm.get x = 0) ∧
      (∀ x, x < a.toNat ∨ a.toNat + ledgerSize n.toNat ≤ x → t.hbm.get x = s.hbm.get x)) ∧
  (
  ∀ (h : Hdr) (l : LedgerAttach) (s : State), s.Calm → s.Sound → s.bindingOk h .notBound = true → s.idle = true →
    s.num.attach = some l → l.checked = true →
    let digestOk (t : State) : Prop := t.word (l.address + 0x28) 8 =
      crc64 ((t.hbm.read l.address (ledgerSize l.count)).take 0x28 ++ (t.hbm.read l.address (ledgerSize l.count)).drop 128)
    (∀ (force : Bool) (guard warm : BitVec 16), warm.toNat ≠ 0 →
      ∃ t : State, exec (.scaleLedgerSetMode h force guard warm) s = .next (t.finish (s.refOf h 0x22) ⟨ST_OK, 0, 0⟩) ∧
        t = { s with hbm := t.hbm, num := { s.num with mode := some ⟨force, guard.toNat, warm.toNat⟩ } } ∧
        t.word (l.address + 0x20) 2 = guard.toNat ∧ t.word (l.address + 0x22) 2 = warm.toNat ∧
        bit (t.word (l.address + 0x24) 4) 0 = force ∧ t.word (l.address + 0x24) 4 / 2 = s.word (l.address + 0x24) 4 / 2 ∧
        digestOk t ∧ ∀ x, x < l.address + 0x20 ∨ l.address + 0x30 ≤ x → t.hbm.get x = s.hbm.get x) ∧
    (∃ t : State, exec (.scaleLedgerWarmup h) s = .next (t.finish (s.refOf h 0x22) ⟨ST_OK, 0, 0⟩) ∧ t = { s with hbm := t.hbm } ∧
      bit (t.word (l.address + 0x24) 4) 2 = true ∧ t.word (l.address + 0x24) 4 % 4 = s.word (l.address + 0x24) 4 % 4 ∧
      digestOk t ∧ ∀ x, x < l.address + 0x24 ∨ l.address + 0x30 ≤ x → t.hbm.get x = s.hbm.get x) ∧
    (∀ (i : BitVec 16) (target : BitVec 4) (cls : BitVec 2) (margin : BitVec 8), target.toNat ≤ 0xB → marginOk margin = true →
      i.toNat < l.count →
      ∃ t : State, exec (.scaleLedgerDefine h i 1 target cls margin) s = .next (t.finish (s.refOf h 0x22) ⟨ST_OK, 0, 0⟩) ∧
        (let w := t.word (l.entry i.toNat + 0x40) 4
         bit w 14 = true ∧ bits w 8 4 = target.toNat ∧ bits w 12 2 = cls.toNat ∧ bits w 16 8 = margin.toNat ∧
         w % 256 = s.word (l.entry i.toNat + 0x40) 1) ∧ digestOk t ∧
        t = { s with hbm := t.hbm, num := { s.num with
          defs := ⟨i.toNat, 1, target.toNat, cls.toNat, margin.toNat⟩ :: s.num.defs } } ∧
        ∀ x, (x < l.address + 0x28 ∨ l.address + 0x30 ≤ x) → (x < l.entry i.toNat + 0x40 ∨ l.entry i.toNat + 0x44 ≤ x) →
          t.hbm.get x = s.hbm.get x)) ∧
  (
  ∀ (h : Hdr) (a : BitVec 64) (i n : BitVec 16) (s : State), s.Calm → s.Sound → s.bindingOk h .notBound = true →
    a.toNat % 64 = 0 → a.toNat + ledgerSize n.toNat ≤ hbmEnd →
    (s.num.attach = none →
      exec (.scaleLedgerRead h a i n) s = .next (s.finish (s.refOf h 0x22) ⟨ST_NOT_READY, 0, 0⟩)) ∧
    (∀ l, s.num.attach = some l → l.checked = true →
      (l.count < i.toNat + n.toNat →
        exec (.scaleLedgerRead h a i n) s = .next (s.finish (s.refOf h 0x22) ⟨ST_BAD_PARAM, 0, 0⟩)) ∧
      (i.toNat + n.toNat ≤ l.count →
        let bs := s.hbm.read l.address 128 ++ s.hbm.read (l.entry i.toNat) (128 * n.toNat)
        exec (.scaleLedgerRead h a i n) s = .next (((s.stored a.toNat bs (some (s.refOf h 0x22))).finish (s.refOf h 0x22)
          ⟨ST_OK, 0, 0⟩).settle) ∧
        (s.Unwatched a.toNat (ledgerSize n.toNat) → ∃ t : State, s.Stores t a.toNat bs ∧
          exec (.scaleLedgerRead h a i n) s = .next (t.finish (s.refOf h 0x22) ⟨ST_OK, 0, 0⟩)))))

/-- SET_GRAM_TAP: a DEFINE that initialises a site writes +0 to S and P and a header whose COUNT is 0 and whose DIGEST verifies, and defines
the site; CLEAR does the same to a defined site's region; RELEASE undefines the site and leaves the region as it is; each of an undefined
site completes with ST_BAD_PARAM (R185, R187, R188). -/
def Obligations.GramTapSites : Prop :=
  ∀ (h : Hdr) (s : State), s.Calm → s.Sound → s.bindingOk h .notBound = true → s.idle = true →
    let cleared (t : State) (g : GramSite) : Prop :=
      (∀ x, g.sAddr ≤ x → x < g.base + g.size → t.hbm.get x = 0) ∧ t.word g.base 2 = 1 ∧ t.word (g.base + 2) 2 = g.id % 2 ^ 16 ∧
      t.word (g.base + 0x28) 8 = 0 ∧ t.word (g.base + 0x40) 8 = 0 ∧ t.word (g.base + 0x38) 8 = crc64 (t.hbm.read g.base 0x38) ∧
      ∀ x, x < g.base ∨ g.base + g.size ≤ x → t.hbm.get x = s.hbm.get x
    (∀ p : GramDef, gramDefOk p = true → p.attach = false → s.siteClash (GramSite.ofDef p) = false →
      ∃ t : State, exec (.setGramTapDefine h p) s =
          .next (t.finish (s.refOf h 0x21) ⟨ST_OK, 0, crc64 (t.hbm.read p.base.toNat 0x40) % 2 ^ 64⟩) ∧
        cleared t (GramSite.ofDef p) ∧ t.site p.site.toNat = some (GramSite.ofDef p) ∧
        (∀ j, j ≠ p.site.toNat → t.site j = s.site j) ∧ t = { s with hbm := t.hbm, gram := t.gram }) ∧
    (∀ (id : BitVec 12) (g : GramSite), id ≠ 0 → s.site id.toNat = some g → g.id < 2 ^ 16 →
      (∃ t : State, exec (.setGramTapClear h id) s =
          .next (t.finish (s.refOf h 0x21) ⟨ST_OK, 0, crc64 (t.hbm.read g.base 0x40) % 2 ^ 64⟩) ∧
        cleared t g ∧ t = { s with hbm := t.hbm }) ∧
      (∃ t : State, exec (.setGramTapRelease h id) s = .next (t.finish (s.refOf h 0x21) ⟨ST_OK, 0, 0⟩) ∧
        t.site id.toNat = none ∧ (∀ j, j ≠ id.toNat → t.site j = s.site j) ∧ t = { s with gram := t.gram })) ∧
    (∀ id : BitVec 12, s.site id.toNat = none →
      exec (.setGramTapClear h id) s = .next (s.finish (s.refOf h 0x21) ⟨ST_BAD_PARAM, 0, 0⟩) ∧
      exec (.setGramTapRelease h id) s = .next (s.finish (s.refOf h 0x21) ⟨ST_BAD_PARAM, 0, 0⟩))

/-- RUN_PROGRAM: a program that passes its checks and whose clusters are ready runs its stages in order and completes with ST_OK and the
CRC-64 of the bytes of its DIGEST tensors, here none; one whose stages fail completes with their status and leaves its OUTPUT tensors
undefined; an image that does not pass R112's checks completes it with ST_BAD_PARAM and writes nothing. The stages of a program that only
copies and converts between tensors in HBM come to their end (R110, R112, R116, R118). -/
def Obligations.ProgramRunsItsStages : Prop :=
  ∀ (h : Hdr) (p : RunParams) (s : State), s.Sound → s.bindingOk h .any = true → h.bound = false → runParamsOk p = true →
    p.image.toNat + p.imageLen.toNat ≤ hbmEnd → p.stats = 0 →
    let c := s.refOf h 0x20
    let ctx : RunCtx := ⟨c, h, p.clusterFirst.toNat, p.clusterCount.toNat⟩
    (s.programOf (s.hbm.read p.image.toNat p.imageLen.toNat) p.relocs = none →
      exec (.runProgram h p) s = .next (s.finish c ⟨ST_BAD_PARAM, 0, 0⟩).settle) ∧
    (∀ g : Program, s.programOf (s.hbm.read p.image.toNat p.imageLen.toNat) p.relocs = some g → s.programFault h p g = none →
      g.tensors.all (fun x => !x.digest) = true → s.marks = [] → (s.physSet ctx.first ctx.count).any s.clusterHeld = false →
      (∀ (t : State) (r : Stats), s.runStages ctx g.tensors g.stages = (t, .ok r) → t.oxl.missing = s.oxl.missing →
        exec (.runProgram h p) s = .next (t.finish c ⟨ST_OK, 0, crc64 [] % 2 ^ 64⟩).settle) ∧
      (∀ (t : State) (st : Nat), s.runStages ctx g.tensors g.stages = (t, .fail st) → t.oxl.missing = s.oxl.missing →
        exec (.runProgram h p) s = .next ((t.forgetOutputs g st).finish c ⟨st, 0, 0⟩).settle) ∧
      (g.Plain → ∃ (t : State) (r : Stats), s.runStages ctx g.tensors g.stages = (t, .ok r) ∧
        exec (.runProgram h p) s = .next (t.finish c ⟨ST_OK, 0, crc64 [] % 2 ^ 64⟩).settle))

/-- CONFORMANCE_RUN of an image for this Numerics Revision whose signature verifies runs the chosen vectors, writes a record of each run
that fails as far as RESULT holds them, and completes with ST_OK and the numbers of failures and of runs; an image whose signature does not
verify completes it with ST_SECURITY, and one for another Revision with ST_BAD_PARAM, and they write nothing (R105, R106). -/
def Obligations.ConformanceRunChecks : Prop :=
  ∀ (h : Hdr) (p : ConformanceParams) (s : State), s.Sound → s.bindingOk h .notBound = true → s.idle = true →
    p.image.toNat % 64 = 0 → p.result.toNat % 64 = 0 → p.image.toNat < hbmEnd → p.image.toNat + p.imageLen.toNat ≤ hbmEnd →
    (p.cluster.toNat < 256 ∨ p.cluster.toNat = 0xFFFF) → p.result.toNat < hbmEnd → p.result.toNat + p.resultLen.toNat ≤ hbmEnd →
    let c := s.refOf h 0x91
    let img := s.hbm.read p.image.toNat p.imageLen.toNat
    (leAt img 2 2 ≠ numRev → exec (.conformanceRun h p) s = .next (s.finish c ⟨ST_BAD_PARAM, 0, 0⟩).settle) ∧
    (leAt img 2 2 = numRev → conformanceSigned img = false →
      exec (.conformanceRun h p) s = .next (s.finish c ⟨ST_SECURITY, 0, 0⟩).settle) ∧
    (leAt img 2 2 = numRev → conformanceSigned img = true →
      let runs := s.conformanceRuns p.cluster.toNat (conformanceChosen p img)
      let bad := conformanceFailing img runs
      let bytes := (bad.take (p.resultLen.toNat / 32)).flatMap (fun r => failureRecord img r.1 r.2)
      exec (.conformanceRun h p) s = .next (((({ s with draws := s.draws + 32 } : State).stored p.result.toNat bytes (some c)).finish c
        ⟨ST_OK, 0, (bad.length % 2 ^ 32 + runs.length % 2 ^ 32 * 2 ^ 32) % 2 ^ 64⟩).settle))

/-- A write of QC_RETIRE_REQ marks a working cluster once; the retirement takes effect once no command uses the cluster: its logical cluster
moves to the lowest unused spare, WORKING and SPARES fall by one, its bit of QC_RETIRED is set, and CLUSTER_RETIRED is raised (R139, R140). -/
def Obligations.ClusterRetirement : Prop :=
  (∀ (s : State) (q : Fin 4) (i : BitVec 7) (persist : Bool), s.regOpen (Reg.QC_RETIRE_REQ q) = true → i.toNat < 66 →
    s.retiredBit q i.toNat = false → s.marks = [] →
    exec (.qcRetireReqWrite q i persist) s = .next { s with marks := [⟨66 * q + i.toNat, persist, none⟩] }) ∧
  (∀ (s : State) (k : Fin 264) (l i : Nat) (st : Option Nat), s.Calm → s.marks = [⟨k, false, st⟩] → s.served (k / 66) (k % 66) = [l] →
    s.clusterBusy (64 * (k / 66) + l) = false → s.retiredBit (k / 66) (k % 66) = false → s.freeSpare (k / 66) = some i → l < 64 →
    ∃ t : State, exec (.clusterRetirementEffect k) s = .next t ∧ t.marks = [] ∧ t.retiredBit (k / 66) (k % 66) = true ∧
      t.get (lmapPhys (k / 66) l) = i ∧ t.get (lmapShared (k / 66) l) = 0 ∧
      (∀ j < 64, j ≠ l → t.get (lmapPhys (k / 66) j) = s.get (lmapPhys (k / 66) j)) ∧
      t.get (F.QC_STATUS_WORKING (k / 66)) = (s.get (F.QC_STATUS_WORKING (k / 66)) - 1) % 2 ^ 7 ∧
      t.get (F.QC_STATUS_SPARES (k / 66)) = (s.get (F.QC_STATUS_SPARES (k / 66)) - 1) % 2 ^ 3 ∧
      t.cp.flights = s.cp.flights ∧ t.cp.ended = s.cp.ended ∧ t.get F.PW_STATUS_STATE = s.get F.PW_STATUS_STATE)

/-- LOAD_PARSE LOAD of a table that passes R232's checks loads it under its ID and completes with the fingerprint; one that fails them
completes with ST_BAD_PARAM and loads nothing. UNLOAD forgets a loaded table, and completes with ST_BAD_PARAM where none is loaded (R235,
R237). -/
def Obligations.ParseTablesLoad : Prop :=
  ∀ (h : Hdr) (id : BitVec 12) (s : State), s.Calm → s.Sound → s.bindingOk h .notBound = true → s.idle = true → id ≠ 0 →
    (∀ (a : BitVec 48) (n : BitVec 32), a.toNat % 64 = 0 → 1 ≤ n.toNat → n.toNat ≤ 0x4000000 → a.toNat + n.toNat ≤ hbmEnd →
      (parseOk (s.hbm.read a.toNat n.toNat) n.toNat = true →
        ∃ t : State, exec (.loadParseLoad h id a n) s =
            .next (t.finish (s.refOf h 0x40) ⟨ST_OK, 0, fingerprint (s.hbm.read a.toNat n.toNat) % 2 ^ 64⟩) ∧
          t.parseTable id.toNat = some ⟨id.toNat, a.toNat, n.toNat, false⟩ ∧
          (∀ j, j ≠ id.toNat → t.parseTable j = s.parseTable j) ∧ t = { s with cj := { s.cj with tables := t.cj.tables } }) ∧
      (parseOk (s.hbm.read a.toNat n.toNat) n.toNat = false →
        exec (.loadParseLoad h id a n) s = .next (s.finish (s.refOf h 0x40) ⟨ST_BAD_PARAM, 0, 0⟩))) ∧
    (s.parseTable id.toNat = none →
      exec (.loadParseUnload h id) s = .next (s.finish (s.refOf h 0x40) ⟨ST_BAD_PARAM, 0, 0⟩)) ∧
    (∀ p, s.parseTable id.toNat = some p →
      ∃ t : State, exec (.loadParseUnload h id) s = .next (t.finish (s.refOf h 0x40) ⟨ST_OK, 0, 0⟩) ∧
        t.parseTable id.toNat = none ∧ (∀ j, j ≠ id.toNat → t.parseTable j = s.parseTable j) ∧
        t = { s with cj := { s.cj with tables := t.cj.tables } })

/-- ROOT_TABLE SETUP without ATTACH sets the base and the count and writes every entry empty and sealed, with no publication; INVALIDATE
clears VALID0, VALID1 and MISS of the entries it names and keeps their configuration; a range beyond the table completes with ST_BAD_PARAM.
No byte outside the entries changes (R243, R244). ROOT_TABLE WRITE without KEEP takes each image's configuration, with an empty slot state,
and seals the entry; an image that R244 refuses completes it with ST_BAD_PARAM and nothing is written. READ copies the entries as of the
last commit, here unchanged since, and changes no other byte (R243, R244). -/
def Obligations.RootTable : Prop :=
  (
  ∀ (h : Hdr) (s : State), s.Calm → s.Sound → s.bindingOk h .notBound = true → s.idle = true →
    (∀ (n : BitVec 32) (a : BitVec 48), n.toNat ≤ 65535 → a.toNat % 4096 = 0 → a.toNat + 128 * n.toNat ≤ hbmEnd →
      ∃ t : State, exec (.rootTableSetup h false n a) s = .next (t.finish (s.refOf h 0x42) ⟨ST_OK, 0, t.rootDigest 0 n.toNat % 2 ^ 64⟩) ∧
        t = { s with regs := t.regs, hbm := t.hbm, cj := { s.cj with snaps := [], held := [], submitted := [], due := [] } } ∧
        t.get F.CJ_ROOT_BASE_BASE = a.toNat ∧ t.get F.CJ_ROOT_COUNT_COUNT = n.toNat ∧
        s.sameRegs t [F.CJ_ROOT_BASE_BASE, F.CJ_ROOT_COUNT_COUNT] ∧
        (∀ e < n.toNat, rtDigestOk (t.rootBytes e) = true ∧ (t.rootBytes e).take 0x70 = List.replicate 0x70 0 ∧
          leAt (t.rootBytes e) 0x70 6 = noPeriod) ∧
        ∀ x, x < a.toNat ∨ a.toNat + 128 * n.toNat ≤ x → t.hbm.get x = s.hbm.get x) ∧
    (∀ (e : BitVec 16) (n : BitVec 32), 1 ≤ n.toNat → e.toNat + n.toNat ≤ s.get F.CJ_ROOT_COUNT_COUNT →
      s.get F.CJ_ROOT_BASE_BASE + 128 * s.get F.CJ_ROOT_COUNT_COUNT ≤ hbmEnd →
      ∃ t : State, exec (.rootTableInvalidate h e n) s =
          .next (t.finish (s.refOf h 0x42) ⟨ST_OK, 0, t.rootDigest e.toNat n.toNat % 2 ^ 64⟩) ∧ t = { s with hbm := t.hbm } ∧
        (∀ i < n.toNat, let b := t.rootBytes (e.toNat + i)
          rtDigestOk b = true ∧ rtValid b 0 = false ∧ rtValid b 1 = false ∧ rtMiss b = 0 ∧
          b.take 0x68 = (s.rootBytes (e.toNat + i)).take 0x68) ∧
        ∀ x, x < s.rootAddr e.toNat ∨ s.rootAddr (e.toNat + n.toNat) ≤ x → t.hbm.get x = s.hbm.get x) ∧
    (∀ (e : BitVec 16) (n : BitVec 32), s.get F.CJ_ROOT_COUNT_COUNT < e.toNat + n.toNat →
      exec (.rootTableInvalidate h e n) s = .next (s.finish (s.refOf h 0x42) ⟨ST_BAD_PARAM, 0, 0⟩))) ∧
  (
  ∀ (h : Hdr) (e : BitVec 16) (n : BitVec 32) (a : BitVec 48) (s : State), s.Calm → s.Sound → s.bindingOk h .notBound = true →
    a.toNat % 64 = 0 → 1 ≤ n.toNat → e.toNat + n.toNat ≤ s.get F.CJ_ROOT_COUNT_COUNT → a.toNat + 128 * n.toNat ≤ hbmEnd →
    s.get F.CJ_ROOT_BASE_BASE + 128 * s.get F.CJ_ROOT_COUNT_COUNT ≤ hbmEnd →
    (s.idle = true → ((List.range n.toNat).all fun i => rtImageOk (s.hbm.read (a.toNat + 128 * i) 128)) = true →
      ∃ t : State, exec (.rootTableWrite h false e n a) s =
          .next (t.finish (s.refOf h 0x42) ⟨ST_OK, 0, t.rootDigest e.toNat n.toNat % 2 ^ 64⟩) ∧ t = { s with hbm := t.hbm } ∧
        (∀ i < n.toNat, let b := t.rootBytes (e.toNat + i)
          rtDigestOk b = true ∧ b.take 0x58 = s.hbm.read (a.toNat + 128 * i) 0x58 ∧ rtFlags b = 0 ∧ leAt b 0x70 6 = noPeriod) ∧
        ∀ x, x < s.rootAddr e.toNat ∨ s.rootAddr (e.toNat + n.toNat) ≤ x → t.hbm.get x = s.hbm.get x) ∧
    (s.idle = true → ((List.range n.toNat).all fun i => rtImageOk (s.hbm.read (a.toNat + 128 * i) 128)) = false →
      exec (.rootTableWrite h false e n a) s = .next (s.finish (s.refOf h 0x42) ⟨ST_BAD_PARAM, 0, 0⟩)) ∧
    (s.cj.snaps = [] →
      let bs := s.hbm.read (s.rootAddr e.toNat) (128 * n.toNat)
      exec (.rootTableRead h e n a) s = .next (((s.stored a.toNat bs (some (s.refOf h 0x42))).finish (s.refOf h 0x42)
        ⟨ST_OK, 0, crc64 bs % 2 ^ 64⟩).settle) ∧
      (s.Unwatched a.toNat (128 * n.toNat) → ∃ t : State, s.Stores t a.toNat bs ∧
        exec (.rootTableRead h e n a) s = .next (t.finish (s.refOf h 0x42) ⟨ST_OK, 0, crc64 bs % 2 ^ 64⟩))))

/-- SOLVE: a job that passes R239's checks and whose bound T fits before its Clause's deadline is admitted: it stays in flight with the
cores of its table, and its units are reserved until its end; a job that does not fit completes with ST_BUDGET, and one whose table is not
loaded with ST_BAD_PARAM, and no job is admitted (R239, R240). `settle` is the end of every step. -/
def Obligations.SolveAdmitsOrRefuses : Prop :=
  ∀ (h : Hdr) (entry : BitVec 16) (parse : BitVec 12) (s : State), s.Sound → s.bindingOk h (.kinds [kindRefresh]) = true →
    (s.parseTable parse.toNat = none →
      ∃ t : State, exec (.solve h entry parse) s = .next t.settle ∧ t.cj.jobs = s.cj.jobs ∧
        s.Ends t (s.refOf h 0x41) ⟨ST_BAD_PARAM, 0, 0⟩) ∧
    (∀ r, s.parseTable parse.toNat = some r → entry.toNat < s.get F.CJ_ROOT_COUNT_COUNT → s.conjHeld = false →
      s.rootAddr entry.toNat + 128 ≤ hbmEnd → s.replaying = false → s.cj.jobs.length < 255 → s.jobOf entry.toNat = none →
      (let b := s.rootBytes entry.toNat
       let p := Parse.of (s.hbm.read r.address 0x60)
       let shares := earliest s.cj.shareFree p.shares
       let stores := earliest s.cj.storeFree (cdiv p.sharedKib 1024)
       let start := max s.now (max (latest s.cj.coreFree (coresOf p.mask)) (max (latest s.cj.shareFree shares) (latest s.cj.storeFree stores)))
       let stop := start + jobBound p (s.get F.PW_CLOCK_ARITH_MHZ)
       s.solveAgrees b p = true → rtPublished b = false → rtDigestOk b = true → p.mask &&& s.cj.withdrawn = 0 →
       (stop ≤ s.deadlineOf h.clause.val →
         ∃ t : State, exec (.solve h entry parse) s = .next t.settle ∧ t = { s with regs := t.regs, cj := t.cj } ∧
           t.cj.jobs = s.cj.jobs ++
             [⟨s.refOf h 0x41, h.clause.val, entry.toNat, r, p.mask, shares, stores, stop, false, false, false, false, r.spoiled⟩] ∧
           t.cj.coreFree = reserve s.cj.coreFree (coresOf p.mask) stop ∧ t.get F.CJ_STATUS_ADMITTED = (s.cj.jobs.length + 1) % 256) ∧
       (s.deadlineOf h.clause.val < stop →
         ∃ t : State, exec (.solve h entry parse) s = .next t.settle ∧ t.cj.jobs = s.cj.jobs ∧
           s.Ends t (s.refOf h 0x41) ⟨ST_BUDGET, 0, 0⟩)))

/-- SOLVE_JOB_START of a job whose units are free: a triangular solve whose source slot is valid, in the entry as it stood when the Clause
started, runs, with its scratch slot no longer valid and nothing else of HBM changed; with no valid source slot it ends with ST_NOT_READY,
and its scratch slot is no longer valid either; a job whose site's sums are not finite publishes without change and ends with ST_OK, flag
bit 1 and, where it asked for a warm start and gets none, flag bit 0. A job already running, or whose units an earlier job holds, does not
start (R201, R209, R216, R241). SOLVE_JOB_END of a running job: the job is gone and its command has ended. When every block passed and its
outputs can be written, its publication is due, from the slot that is not committed, with the result digest of what it wrote; when a block
failed it completes with ST_OK and flag bit 1, the count of unaccepted jobs rises and nothing is due; when an operand cannot be read it
completes with that status (R204, R214). A job that does not run does not end. -/
def Obligations.SolveJobsRun : Prop :=
  (
  ∀ (entry : BitVec 16) (j : SolveJob) (s : State), s.Sound → s.jobOf entry.toNat = some j →
    (j.running = true ∨ s.jobFree j = false → exec (.solveJobStart entry) s = .next s) ∧
    (j.running = false → s.jobFree j = true → 1 ≤ j.table.length → j.table.address + j.table.length ≤ hbmEnd → s.rootAddr entry.toNat + 128 ≤ hbmEnd →
      let b := s.rootBytes entry.toNat
      let src := s.rootAt j.clause (rtSource b)
      let p := Parse.of (s.hbm.read j.table.address j.table.length)
      (p.alg = 3 → rtValid src (rtCurrent src) = true →
        ∃ t : State, exec (.solveJobStart entry) s = .next t.settle ∧ t.jobOf entry.toNat = some { j with running := true, warm := false, cold := false } ∧
          t.cp = s.cp ∧ rtValid (t.rootBytes entry.toNat) (rtScratch b) = false ∧
          rtCommitted (t.rootBytes entry.toNat) = rtCommitted b ∧
          (∀ x, x < s.rootAddr entry.toNat ∨ s.rootAddr entry.toNat + 128 ≤ x → t.hbm.get x = s.hbm.get x)) ∧
      (p.alg = 3 → rtValid src (rtCurrent src) = false →
        ∃ t : State, exec (.solveJobStart entry) s = .next t.settle ∧ t.jobOf entry.toNat = none ∧
          rtValid (t.rootBytes entry.toNat) (rtScratch b) = false ∧ t.cj.due = s.cj.due ∧ s.Ends t j.cmd ⟨ST_NOT_READY, 0, 0⟩ ∧
          (∀ x, x < s.rootAddr entry.toNat ∨ s.rootAddr entry.toNat + 128 ≤ x → t.hbm.get x = s.hbm.get x)) ∧
      (∀ g, p.alg ≠ 3 → rtSite b ≠ 0 → s.site (rtSite b) = some g → bit (s.word (g.base + 8) 1) 5 = true → s.replaying = false →
        let warm := rtValid b (rtCommitted b) && decide (rtFprint b (rtCommitted b) = fingerprint (s.hbm.read j.table.address j.table.length))
        ∃ t : State, exec (.solveJobStart entry) s = .next t.settle ∧ t.jobOf entry.toNat = none ∧
          t.cj.due = s.cj.due ++ [⟨entry.toNat, none⟩] ∧ s.Ends t j.cmd ⟨ST_OK, flag (warmAlg p.alg && rtWarm b && !warm) + 2, 0⟩))) ∧
  (
  ∀ (entry : BitVec 16) (j : SolveJob) (s : State), s.Sound → s.jobOf entry.toNat = some j →
    (j.running = false → exec (.solveJobEnd entry) s = .next s) ∧
    (j.running = true → s.replaying = false → s.rootAddr entry.toNat + 128 ≤ hbmEnd →
      let img := s.hbm.read j.table.address j.table.length
      let before := s.bump F.CJ_BUSY_CYCLES_CYCLES (busyCycles (Parse.of img) img j.warm)
      ∃ t : State, exec (.solveJobEnd entry) s = .next t.settle ∧ t.jobOf entry.toNat = none ∧
        match (before.jobOutputs j img (s.rootBytes entry.toNat)).2 with
        | .fail st => t.cj.due = s.cj.due ∧ s.Ends t j.cmd ⟨st, flag j.cold, 0⟩
        | .ok (o, passed) =>
          (passed = false → t.cj.due = s.cj.due ∧ s.Ends t j.cmd ⟨ST_OK, flag j.cold + 2, 0⟩ ∧
            t.get F.CJ_COUNT_UNACCEPTED_COUNT = min (s.get F.CJ_COUNT_UNACCEPTED_COUNT + 1) (2 ^ 32 - 1)) ∧
          (passed = true → (∀ w ∈ o, w.2 ≠ [] ∧ w.1 + w.2.length ≤ hbmEnd) →
            s.Ends t j.cmd ⟨ST_OK, flag j.cold, outDigest o⟩ ∧
            ∃ k, t.cj.due = s.cj.due ++ [⟨entry.toNat, some k⟩])))

/-- UPDATE PREPARE: while Q is not known it waits and every quarter shows WAITING_NORM; with a Q that is not finite it completes with ST_OK
and flag bit 1 and prepares nothing; with a finite Q and no tensor to prepare it completes with ST_OK and a result of 0; a second PREPARE in
one Period completes with ST_BAD_PARAM (R253, R256, R273, R274). UPDATE APPLY: a scale that is negative or not finite, or a second APPLY in
one Period, completes with ST_BAD_PARAM; a ledger that was not CLOSED at the tick, with ST_NOT_READY; a commit whose unit has stopped, with
that stop's status; before the grant it waits. Once the commit of its Period is open and Q is known it does its work and completes, unless
bytes of companion memory must be read first; unless it fails it completes with ST_OK, the Period is committed, PC_CURSOR holds the Period's
cursor, and the result is the CRC-64 of the ledger's header (R268, R272, R273, R274). -/
def Obligations.UpdateCommits : Prop :=
  (
  ∀ (h : Hdr) (p : PrepareParams) (s : State), s.bindingOk h (.kinds [kindPrecondition]) = true →
    p.scratch.toNat % 4096 = 0 → writable p.scratch.toNat p.scratchLen.toNat = true → 1 ≤ p.clusterCount.toNat →
    p.clusterFirst.toNat + p.clusterCount.toNat ≤ 256 →
    (s.uu.prepared = some s.currentPeriod →
      exec (.updatePrepare h p) s = .next (s.finish (s.refOf h 0x50) ⟨ST_BAD_PARAM, 0, 0⟩).settle) ∧
    (s.uu.prepared ≠ some s.currentPeriod → s.Sound →
      let s' : State := { s with uu := { s.uu with prepared := some s.currentPeriod } }
      s'.prepareOk p = true →
      (s'.qOf s.currentPeriod = none →
        ∃ t : State, exec (.updatePrepare h p) s = .next t.settle ∧ (∀ q < 4, t.get (F.UU_STATUS_WAITING_NORM q) = 1) ∧
          t = { s with regs := t.regs, uu := { s.uu with
            prepared := some s.currentPeriod, waitPrepare := some ⟨s.refOf h 0x50, h, p⟩ } }) ∧
      (∀ q, s'.qOf s.currentPeriod = some q → (v64 q).isFinite = false →
        exec (.updatePrepare h p) s = .next ((s'.skipNote (s.refOf h 0x50)).finish (s.refOf h 0x50) ⟨ST_OK, 2, 0⟩).settle) ∧
      (∀ q, s'.qOf s.currentPeriod = some q → (v64 q).isFinite = true → s'.prepItems = [] →
        s'.enterClusters p.clusterFirst.toNat p.clusterCount.toNat (s.refOf h 0x50) = (s', none) →
        exec (.updatePrepare h p) s = .next (s'.finish (s.refOf h 0x50) ⟨ST_OK, 0, 0⟩).settle))) ∧
  (
  ∀ (h : Hdr) (lr : BitVec 32) (s : State), s.bindingOk h (.kinds [kindUpdate]) = true →
    let n := s.currentPeriod
    let c := s.refOf h 0x50
    let s' : State := { s with uu := { s.uu with applied := some n } }
    (nonNegative (v32 lr.toNat) = false ∨ s.uu.applied = some n →
      exec (.updateApply h lr) s = .next (s.finish c ⟨ST_BAD_PARAM, 0, 0⟩).settle) ∧
    (nonNegative (v32 lr.toNat) = true → s.uu.applied ≠ some n →
      (s.ledgerLive = false → exec (.updateApply h lr) s = .next (s'.finish c ⟨ST_NOT_READY, 0, 0⟩).settle) ∧
      (∀ st, s.ledgerLive = true → s.uu.failed = some st → exec (.updateApply h lr) s = .next (s'.finish c ⟨st, 0, 0⟩).settle) ∧
      (s.ledgerLive = true → s.uu.failed = none → s.uu.openCommit = none →
        exec (.updateApply h lr) s =
          .next (({ s' with uu := { s'.uu with waitApply := some ⟨c, lr.toNat⟩ } } : State)).settle) ∧
      (∀ q, s.ledgerLive = true → s.uu.failed = none → s.uu.openCommit = some n → s.qOf n = some q →
        (s'.applyNow ⟨c, lr.toNat⟩ n q).1.oxl.missing = s.oxl.missing →
        ∃ (t : State) (d : Done), exec (.updateApply h lr) s = .next (t.finish c d).settle ∧ t.uu.openCommit = none ∧
          (d = Done.fail d.status ∨ (d.status = ST_OK ∧ t.get F.PC_COMMITTED_COMMITTED = n % 2 ^ 48 ∧
            t.get F.PC_CURSOR_CURSOR = t.uu.cursor % 2 ^ 64 ∧ d.result = t.ledDigest)))))

/-- UPDATE RECOVER of a sealed ledger that is CLOSED takes PC_COMMITTED and PC_CURSOR from its header and completes with the header's
CRC-64; with a header that does not verify, in phase 3, or of other rules it completes with ST_DIGEST, and without a table with ST_NOT_READY
(R269, R270). -/
def Obligations.RecoverAdoptsTheHeader : Prop :=
  ∀ (h : Hdr) (s : State), s.Calm → s.Sound → s.bindingOk h .notBound = true → s.idle = true →
    (s.tableAttached = false → exec (.updateRecover h) s = .next (s.finish (s.refOf h 0x50) ⟨ST_NOT_READY, 0, 0⟩)) ∧
    (s.tableAttached = true → s.shardLedger + 0x80 ≤ hbmEnd →
      (s.ledSealed = true → s.ledPhase = 0 → s.ledRules = s.rulesDigest → s.ledOverride = false →
        exec (.updateRecover h) s = .next (((s.put F.PC_COMMITTED_COMMITTED s.ledCommitted).put F.PC_CURSOR_CURSOR s.ledCursor).finish
          (s.refOf h 0x50) ⟨ST_OK, 0, s.ledDigest % 2 ^ 64⟩)) ∧
      (s.ledSealed = false ∨ s.ledPhase = 3 ∨ (s.ledPhase ≠ 1 ∧ s.ledRules ≠ s.rulesDigest) →
        exec (.updateRecover h) s = .next (s.finish (s.refOf h 0x50) ⟨ST_DIGEST, 0, 0⟩)))

/-- SET_RULE: RULE defines a rule whose fields are in range, and refuses another with ST_BAD_PARAM; TABLE attaches a table whose entries
pass R248 and initialises its ledger: nothing committed, CLOSED, sealed; READ writes the records of the rules, 64 zero bytes for an
undefined one (R248, R251, R275, R276). -/
def Obligations.SetRuleDefines : Prop :=
  ∀ (h : Hdr) (s : State), s.Calm → s.Sound → s.bindingOk h .notBound = true → s.idle = true →
    (∀ (id : BitVec 8) (rec : BitVec 512), s.uu.tensors = 0 →
      (ruleOk (leBytes 64 rec.toNat) = true →
        ∃ t : State, exec (.setRuleRule h id rec) s = .next (t.finish (s.refOf h 0x51) ⟨ST_OK, 0, crc64 (leBytes 64 rec.toNat) % 2 ^ 64⟩) ∧
          t.ruleBytes id.toNat = leBytes 64 rec.toNat ∧ (∀ j, j ≠ id.toNat → t.ruleBytes j = s.ruleBytes j) ∧
          t = { s with uu := { s.uu with rules := t.uu.rules } }) ∧
      (ruleOk (leBytes 64 rec.toNat) = false →
        exec (.setRuleRule h id rec) s = .next (s.finish (s.refOf h 0x51) ⟨ST_BAD_PARAM, 0, 0⟩))) ∧
    (∀ (n : BitVec 32) (a l : BitVec 48), 1 ≤ n.toNat → n.toNat ≤ 65535 → a.toNat % 4096 = 0 → l.toNat % 4096 = 0 →
      a.toNat + 128 * n.toNat ≤ hbmEnd →
      (let imgs := pieces 128 (s.hbm.read a.toNat (128 * n.toNat))
       let size := 0x80 + 16 * (n.toNat + sumList ((imgs.map Param.of).map Param.blocks))
       (imgs.all s.paramOk = false → exec (.setRuleTable h false n a l) s = .next (s.finish (s.refOf h 0x51) ⟨ST_BAD_PARAM, 0, 0⟩)) ∧
       (imgs.all s.paramOk = true → firstsOk (imgs.map Param.of) = true → l.toNat + size ≤ hbmEnd →
         ∃ t : State, exec (.setRuleTable h false n a l) s = .next (t.finish (s.refOf h 0x51) ⟨ST_OK, 0, t.ledDigest % 2 ^ 64⟩) ∧
           t = { s with regs := t.regs, hbm := t.hbm, uu := { s.uu with tensors := n.toNat } } ∧
           (∀ q < 4, t.get (F.UU_TABLE_BASE q) = a.toNat ∧ t.get (F.UU_LEDGER_BASE q) = l.toNat) ∧
           t.ledCommitted = noPeriod ∧ t.ledTarget = noPeriod ∧ t.ledPhase = 0 ∧ t.ledSealed = true ∧
           ∀ x, x < l.toNat ∨ l.toNat + size ≤ x → t.hbm.get x = s.hbm.get x))) ∧
    (∀ (id : BitVec 8) (n : BitVec 32) (a : BitVec 48), 1 ≤ n.toNat → id.toNat + n.toNat ≤ 256 → a.toNat % 64 = 0 →
      a.toNat + 64 * n.toNat ≤ hbmEnd →
      (let bs := (List.range n.toNat).flatMap fun i => s.ruleBytes (id.toNat + i)
       (∀ i, (s.ruleBytes i).length = 64) →
       exec (.setRuleRead h id n a) s = .next (((s.stored a.toNat bs (some (s.refOf h 0x51))).finish (s.refOf h 0x51)
         ⟨ST_OK, 0, crc64 bs % 2 ^ 64⟩).settle) ∧
       (s.Unwatched a.toNat (64 * n.toNat) → ∃ t : State, s.Stores t a.toNat bs ∧
         exec (.setRuleRead h id n a) s = .next (t.finish (s.refOf h 0x51) ⟨ST_OK, 0, crc64 bs % 2 ^ 64⟩))))

/-- Every COLLECTIVE row refuses OP 3, a reserved rounding mode and a POST_SCALE that is not finite, and SEND and RECV a STREAM_ID of 2^31
or more, with ST_BAD_PARAM and no other effect (R345, R346, R351). A COLLECTIVE whose checks pass reads its source, sends READY to each
member that sends to it, and waits in the collective engine with nothing sent: so it is where it waits for a READY itself, or for a RECV's
data. When a READY cannot be routed it ends with ST_FABRIC (R329, R344, R350, R351). The PERMUTE's source is its SEND moves' data (R353).
FETCH starts the all-gather of a layer and holds its slot (R295). The MATCH of a FETCH and the order of partial sums are the model's (log
entry 41). -/
def Obligations.CollectivesStart : Prop :=
  (
  ∀ (h : Hdr) (p : CollParams) (k : Nat) (s : State), s.bindingOk h .any = true → 1 ≤ k → k ≤ 8 →
    (p.op = 3 ∨ 4 < p.round.toNat ∨ (postScale p).isFinite = false ∨ ((k = 6 ∨ k = 7) ∧ 2 ^ 31 ≤ p.streamId.toNat)) →
    exec (collRow h p k) s = .next (s.finish (s.refOf h 0x30) ⟨ST_BAD_PARAM, 0, 0⟩).settle) ∧
  (
  ∀ (h : Hdr) (p : CollParams) (s : State), s.Sound → s.coll.runs = [] → s.coll.early = [] →
    let g := s.groupOf p.axes.toNat
    let starts (e : Instr) (c : CmdRef) (r : CollRun) : Prop :=
      (r.outPeers g ≠ [] ∨ (r.subop = 7 ∧ p.count ≠ 0)) →
      ∃ t : State, exec e s = .next t.settle ∧ t.cp.flights = s.cp.flights ∧ t.cp.ended = s.cp.ended ∧
        ∃ u ∈ t.coll.runs, t.coll.runs.length = 1 ∧ u.cmd = c ∧ u.subop = r.subop ∧ u.p = r.p ∧ u.src = r.src ∧ u.moves = r.moves ∧
          u.sent = [] ∧ u.got = []
    let routable (r : CollRun) : Prop := ∀ m ∈ r.inPeers g, m = s.logical ∨ s.route m none ≠ .unroutable
    s.bindingOk h .any = true →
      (∀ k, 1 ≤ k → k ≤ 8 → k ≠ 5 → s.collParamsOk h k p = true →
        (let r := newRun h (s.refOf h 0x30) (s.evalBound h) .command k p (s.hbm.read p.src.toNat (collSource k p g)) []
         s.fenceHit h (r.targets g) = false → p.src.toNat < hbmEnd → p.src.toNat + collSource k p g ≤ hbmEnd →
         (∀ w ∈ r.targets g, 0 < w.2 ∧ w.1 + w.2 ≤ hbmEnd) → routable r → starts (collRow h p k) (s.refOf h 0x30) r)) ∧
      (∀ moves, s.collParamsOk h 5 p = true → p.src.toNat < hbmEnd → p.src.toNat + 32 * p.count.toNat ≤ hbmEnd →
        (List.range p.count.toNat).mapM (fun i => Move.parse (s.hbm.read (p.src.toNat + 32 * i) 32)) = some moves →
        s.movesFault h moves = none → (∀ m ∈ moves, 0 < m.len ∧ m.addr + m.len ≤ hbmEnd) →
        (let r := newRun h (s.refOf h 0x30) (s.evalBound h) .command 5 p
           ((moves.filter (·.send)).flatMap fun m => s.hbm.read m.addr m.len) moves
         routable r → starts (.permute h p) (s.refOf h 0x30) r)))

/-- A posted RECV whose data have all arrived is written to DST and completes with ST_OK and the CRC-64 of the data; data for no posted
receive are discarded and counted (R315, R351). A routed message for another module is queued at the port of R326's route, on its class of
virtual channel with the DL of that route, and its slots stay taken until it has left; at a port that counts as DOWN it is lost, and its
flits are counted; one with no route is discarded, counted and raises UNROUTABLE; a port that is not running takes none (R318, R326, R329).
A BULK message delivered here has no further effect. -/
def Obligations.MessagesArrive : Prop :=
  (
  (∀ (s : State) (r : CollRun) (b : List Byte), s.Sound → s.coll.runs = [r] → s.coll.reshard = none → r.subop = 7 → r.lastFlit = none →
    r.arrived r.p.peer.toNat 0 false 0 r.p.count.toNat = some b → b ≠ [] → r.p.dst.toNat + b.length ≤ hbmEnd → s.pcState ≤ 1 →
    ∃ t : State, s.Stores t r.p.dst.toNat b ∧ ∃ u : State, s.pumpRun r = u ∧ u.coll.runs = [] ∧ u.hbm = t.hbm ∧
      s.Ends u r.cmd ⟨ST_OK, 0, crc64 b % 2 ^ 64⟩) ∧
  (∀ (q : Fin 8) (r : Route) (m : P2pHdr) (data : List Byte) (s : State), s.Calm → s.inject = [] → s.portRuns q = true →
    r.dest.toNat = farEnd → m.streamId.toNat < 2 ^ 31 →
    exec (.p2pMessage q r m data) s =
      .next ((s.taken q (flitsOf data.length) (subOf (if r.sub.toNat / 2 = 3 then 3 else 1) r)).bump F.ZF_ERRS_NOSTREAM 1))) ∧
  (
  ∀ (c : Instr) (q : Fin 8) (r : Route) (sub len : Nat) (m : Nat → OutMsg) (s : State), RoutedRow c q r sub len m →
    (s.portRuns q = false → exec c s = .next s) ∧
    (s.portRuns q = true → s.inject = [] → r.dest.toNat ≠ farEnd → s.get F.PW_STATUS_STATE ≠ 11 →
      let n := flitsOf len
      let x := s.arrive q n sub
      (∀ o dl, s.route r.dest.toNat (some (q.val, sub)) = .out o dl →
        let k := (m o).subOn (sub / 2) dl
        (x.1.routeDown o = false →
          exec c s = .next ((x.1.enqueue o ⟨(m o).onSub k, some k, n, 0, some x.2⟩).pumpPort o).settle) ∧
        (x.1.routeDown o = true → exec c s = .next ((x.1.bump F.ZF_ERRS_LOST n).consume x.2 n).settle)) ∧
      (s.route r.dest.toNat (some (q.val, sub)) = .unroutable →
        exec c s = .next (((x.1.bump F.ZF_ERRS_UNROUTABLE 1).raise ⟨0x0706, 2, 7, q, 0, false, none⟩).consume x.2 n).settle) ∧
      ((∃ d, c = .bulkMessage q r d) → s.route r.dest.toNat (some (q.val, sub)) = .deliver →
        exec c s = .next (s.taken q n sub).settle)))

/-- COLLECTIVE_WATCHDOG_EXPIRY of a transfer that has moved data and whose ports do not retry ends it with ST_FABRIC and raises
COLLECTIVE_TIMEOUT; where a port retries it is extended once; one that has moved no data goes on (R404, R406). -/
def Obligations.WatchdogEndsTransfers : Prop :=
  ∀ (ring : Fin 64) (seq : BitVec 48) (r : CollRun) (s : State), s.coll.runs = [r] → r.cmd.ring = ring → r.cmd.seq = seq.toNat →
    let slow := s.retriedLately r.cmd (r.outPeers (s.runGroup r) ++ r.inPeers (s.runGroup r)) r.hops
    (r.got = [] → r.sent = [] → exec (.collectiveWatchdogExpiry ring seq) s = .next s.settle) ∧
    (r.got ≠ [] ∨ r.sent ≠ [] →
      (slow = true → r.extended = false →
        ∃ t : State, exec (.collectiveWatchdogExpiry ring seq) s = .next t.settle ∧ t.coll.runs = [{ r with extended := true }] ∧
          t.get F.SH_COUNTS_EXTENDED = min (s.get F.SH_COUNTS_EXTENDED + 1) (2 ^ F.SH_COUNTS_EXTENDED.len - 1)) ∧
      (slow = false ∨ r.extended = true →
        ∃ t : State, exec (.collectiveWatchdogExpiry ring seq) s = .next t.settle ∧ t.coll.runs = [] ∧
          s.Ends t r.cmd ⟨ST_FABRIC, 0, 0⟩ ∧
          t.get F.SH_COUNTS_TIMEOUT = min (s.get F.SH_COUNTS_TIMEOUT + 1) (2 ^ F.SH_COUNTS_TIMEOUT.len - 1)))

/-- NOISE_REPORT writes the records of the Periods it names, 32 bytes each, and no other byte; a Period without a record completes it with
ST_BAD_PARAM (R358). -/
def Obligations.NoiseReportWritesRecords : Prop :=
  ∀ (h : Hdr) (n : BitVec 48) (k : BitVec 8) (a : BitVec 48) (rs : List NoiseRec) (s : State), s.Calm → s.Sound →
    s.bindingOk h .notBound = true → 1 ≤ k.toNat → k.toNat ≤ 16 → a.toNat % 64 = 0 →
    (let found := (List.range k.toNat).mapM fun i => s.coll.records.find? fun r => decide (r.period = (n.toNat + i) % 2 ^ 48)
     (found = none → exec (.noiseReport h n k a) s = .next (s.finish (s.refOf h 0x33) ⟨ST_BAD_PARAM, 0, 0⟩)) ∧
     (found = some rs → a.toNat + 32 * k.toNat ≤ hbmEnd →
       let bs := rs.flatMap NoiseRec.bytes
       exec (.noiseReport h n k a) s = .next (((s.stored a.toNat bs (some (s.refOf h 0x33))).finish (s.refOf h 0x33) ⟨ST_OK, 0, 0⟩).settle) ∧
       (s.Unwatched a.toNat (32 * k.toNat) → ∃ t : State, s.Stores t a.toNat bs ∧
         exec (.noiseReport h n k a) s = .next (t.finish (s.refOf h 0x33) ⟨ST_OK, 0, 0⟩))))

/-- RESHARD: START writes a ledger of the plan with every round PENDING, begins round 0 and freezes the shadow; RESUME and REVERSE of a
ledger that is COMMITTED or REVERSED do nothing; REVERSE before any round was applied leaves it REVERSED; COMMIT with every round APPLIED
leaves it COMMITTED, and before that completes with ST_NOT_READY. The ledger's digest is kept (R362, R364, R365). The messages of a round
are the model's (log entry 43). -/
def Obligations.ReshardLedger : Prop :=
  ∀ (h : Hdr) (p : ReshardParams) (plan : ReshardPlan) (s : State), s.Calm → s.Sound → s.bindingOk h .notBound = true → s.idle = true →
    p.ledger.toNat % 4096 = 0 → p.landing.toNat % 4096 = 0 → inHbm p.landing.toNat p.landingLen.toNat = true →
    inHbm p.plan.toNat 64 = true → s.readPlan p.plan.toNat (s.refOf h 0x65) = (s, .ok plan) →
    let l := p.ledger.toNat
    let n := plan.rounds.length
    let size := planSize (s.hbm.read p.plan.toNat 64)
    let header := s.hbm.read l 64
    let mine := leAt header 0x38 8 = crc64 (header.take 0x38) ∧ leAt header 8 8 = plan.id ∧ leAt header 0x10 8 = plan.crc
    l + 64 + 16 * n ≤ hbmEnd → (p.plan.toNat + size ≤ l ∨ l + 64 + 16 * n ≤ p.plan.toNat) →
    (p.landingLen.toNat < plan.landing ∨ plan.clash = true →
      exec (.reshardStart h p) s = .next (s.finish (s.refOf h 0x65) ⟨ST_BAD_PARAM, 0, 0⟩)) ∧
    (plan.landing ≤ p.landingLen.toNat → plan.clash = false → s.coll.early = [] →
      (movePeers (plan.round 0) false).all (fun q => decide (q = s.logical)) = true →
      ∃ t : State, exec (.reshardStart h p) s = .next t.settle ∧ t.coll.frozen = true ∧
        t.coll.reshard = some ⟨s.refOf h 0x65, p, 0, false, [], [], [], false, false⟩ ∧ t.cp.flights = s.cp.flights ∧
        t.word (l + 0x18) 4 = 0 ∧ t.word (l + 0x38) 8 = crc64 (t.hbm.read l 0x38) ∧
        (∀ k < n, t.roundState l k = if k = 0 then 1 else 0) ∧
        ∀ x, x < l ∨ l + 64 + 16 * n ≤ x → t.hbm.get x = s.hbm.get x) ∧
    (mine →
      ((RoundLedger.parse header).state ≠ 0 →
        exec (.reshardResume h p) s = .next (s.finish (s.refOf h 0x65) ⟨ST_OK, 0, crc64 header % 2 ^ 64⟩) ∧
        exec (.reshardReverse h p) s = .next (s.finish (s.refOf h 0x65) ⟨ST_OK, 0, crc64 header % 2 ^ 64⟩)) ∧
      (RoundLedger.parse header = ⟨0, 0, 0⟩ → s.roundState l 0 ≤ 1 → 1 ≤ n →
        ∃ t : State, exec (.reshardReverse h p) s = .next (t.finish (s.refOf h 0x65) ⟨ST_OK, 0, crc64 (t.hbm.read l 64) % 2 ^ 64⟩) ∧
          t.coll.frozen = false ∧ RoundLedger.parse (t.hbm.read l 64) = ⟨2, 1, 0⟩ ∧
          ∀ x, x < l ∨ l + 72 ≤ x → t.hbm.get x = s.hbm.get x) ∧
      ((∀ k < n, s.roundState l k = 4) →
        ∃ t : State, exec (.reshardCommit h p) s = .next (t.finish (s.refOf h 0x65) ⟨ST_OK, 0, crc64 (t.hbm.read l 64) % 2 ^ 64⟩) ∧
          t.coll.frozen = false ∧ RoundLedger.parse (t.hbm.read l 64) = ⟨1, 0, n⟩ ∧
          ∀ x, x < l ∨ l + 64 ≤ x → t.hbm.get x = s.hbm.get x) ∧
      ((∃ k < n, s.roundState l k ≠ 4) →
        exec (.reshardCommit h p) s = .next (s.finish (s.refOf h 0x65) ⟨ST_NOT_READY, 0, 0⟩)))

/-- A flit that fails its check is counted and discarded, and answered with one NAK of the expected SEQ until a flit is accepted; a NAK,
itself accepted, that names an unacknowledged flit, and an expired acknowledgement timer, open a retry episode and replay; one that names
none is stale. An acknowledgement takes flits out of the replay buffer even out of sequence; credits count in sequence (R313, R318, R320,
R321). A retry episode still open after 10 µs, and a lane in use that loses lock, make the port retrain at half its width; from 4 lanes it
goes DOWN instead. A port that has retrained at half width keeps the half that R322's choice names and counts the degrade. RETRAIN makes a
running port retrain at 16 lanes while the module is IDLE or HALTED. A lane that is not in use changes nothing (R321 to R323). -/
def Obligations.LinkRetries : Prop :=
  (
  ∀ (p : Fin 8) (s : State), s.portRuns p = true → s.inject = [] →
    let v := s.port p
    (∀ crc : Bool,
      let f := if crc then F.ZP_RETRY_CRC_ERRORS p else F.ZP_FEC_UNCORRECTABLE p
      ∃ t : State, exec (.flitError p crc) s = .next t.settle ∧ t.get f = satAdd f.len (s.get f) 1 % 2 ^ f.len ∧ s.sameRegs t [f] ∧
        t = { s with regs := t.regs, fab := t.fab, out := t.out } ∧ (v.nakOut = true → t.out = s.out ∧ t.fab = s.fab) ∧
        (v.nakOut = false → v.queue = [] → v.buffer.length < replaySlots p →
          t.out = s.out ++ [.nak p v.rxNext] ∧ (t.port p).nakOut = true ∧ (t.port p).txNext = (v.txNext + 1) % 2 ^ 15 ∧
            (t.port p).buffer.length = v.buffer.length + 1)) ∧
    (let u := s.accepted p 1
     (∀ q : BitVec 15, v.unacked ≤ seqDist v.txAcked q.toNat → exec (.nak p q) s = .next u.settle) ∧
     u.port p = { v with rxNext := (v.rxNext + 1) % 2 ^ 15, nakOut := false } ∧
     (v.episode = none →
       let replayed (w : State) (seq : Nat) (t : State) : Prop := t.out = s.out ++ [.replay p seq] ∧ t.get (F.ZP_STATUS_RETRYING p) = 1 ∧
         s.sameRegs t [F.ZP_STATUS_RETRYING p, F.ZP_RETRY_EPISODES p, F.ZP_RETRY_REPLAYS p] ∧
         t = { (w.setPort p { w.port p with episode := some ⟨s.now, v.txNext, 1⟩ }) with regs := t.regs, out := t.out }
       (∀ q : BitVec 15, seqDist v.txAcked q.toNat < v.unacked →
         ∃ t : State, exec (.nak p q) s = .next t.settle ∧ replayed u q.toNat t) ∧
       (v.unacked ≠ 0 → ∃ t : State, exec (.ackTimeout p) s = .next t.settle ∧ replayed s v.txAcked t))) ∧
    (∀ f : FlitHdr, v.episode = none → f.corrected = [] →
      let adv := seqDist v.txAcked f.ack.toNat
      let w : PortState := if v.unacked < adv then v else { v with txAcked := f.ack.toNat, buffer := v.buffer.drop adv }
      (f.seq.toNat ≠ v.rxNext → exec (.idleFlit p f) s = .next ((s.setPort p w).pumpPort p).settle) ∧
      (f.seq.toNat = v.rxNext → f.cr = 8 →
        exec (.idleFlit p f) s = .next ((s.setPort p { w with
          rxNext := (v.rxNext + 1) % 2 ^ 15, nakOut := false, shared := v.shared + 8 * f.credits.toNat }).pumpPort p).settle))) ∧
  (
  ∀ (p : Fin 8) (s : State),
    let w := s.get (F.ZP_STATUS_WIDTH p)
    let first := s.get (F.ZP_STATUS_FIRST_LANE p)
    let degraded (t : State) : Prop := t.get (F.ZP_STATUS_STATE p) = 4 ∧ t.get (F.ZP_STATUS_WIDTH p) = w + 1 ∧
      t.get (F.ZP_STATUS_RETRYING p) = 1 ∧ t.get (F.ZP_STATUS_LAT_OK p) = 0 ∧ t.out = s.out ++ [.retrain p (lanesOf (w + 1))]
    (s.portRuns p = true →
      (∀ lane : Fin 16, ¬ (first ≤ lane.val ∧ lane.val < first + lanesOf w) → exec (.laneLockLoss p lane) s = .next s) ∧
      (∀ lane : Fin 16, first ≤ lane.val → lane.val < first + lanesOf w →
        (w < 2 → ∃ t : State, exec (.laneLockLoss p lane) s = .next t.settle ∧ degraded t) ∧
        (2 ≤ w → ∃ t : State, exec (.laneLockLoss p lane) s = .next t.settle ∧ t.get (F.ZP_STATUS_STATE p) = 0)) ∧
      (∀ e, (s.port p).episode = some e → w < 2 →
        ∃ t : State, exec (.retryEpisodeTimeout p) s = .next t.settle ∧ degraded t ∧
          t.now = (if s.get F.PC_STATUS_SYNCED = 1 ∧ s.now < e.opened + 10000 then (e.opened + 10000) % 2 ^ 64 else s.now)) ∧
      (s.regOpen (Reg.ZP_CTRL p) = true → s.idle = true →
        ∃ t : State, exec (.zpCtrlRetrain p) s = .next t ∧ t.get (F.ZP_STATUS_STATE p) = 4 ∧ t.get (F.ZP_STATUS_WIDTH p) = 0 ∧
          t.get (F.ZP_STATUS_FIRST_LANE p) = 0 ∧ t.out = s.out ++ [.retrain p 16])) ∧
    (∀ u : Bool, s.get (F.ZP_STATUS_STATE p) = 4 → w ≠ 0 → (s.port p).unacked = 0 → (s.port p).discSent = true →
      (s.port p).discGot = true → s.on F.ZF_PHYS_VALID = false →
      ∃ t : State, exec (.portRetrainDone p true u) s = .next t.settle ∧ t.get (F.ZP_STATUS_STATE p) = 3 ∧
        t.get (F.ZP_STATUS_FIRST_LANE p) = (first + if s.keepsUpper p (lanesOf w) u then lanesOf w else 0) % 16 ∧
        t.get (F.ZP_RETRY_DEGRADES p) =
          satAdd (F.ZP_RETRY_DEGRADES p).len (s.get (F.ZP_RETRY_DEGRADES p)) 1 % 2 ^ (F.ZP_RETRY_DEGRADES p).len))

/-- Training that ends brings the port to DISCOVERY with full credits, SEQ from 0 and its width as it was, and sends DISCOVER; DISCOVER
fills the peer registers, and with both exchanged the port is UP; FORCE_DOWN holds the port DOWN and, released, lets it train; a retraining
that fails takes the port DOWN (R318, R322, R323, R331, R338). -/
def Obligations.PortsComeAndGo : Prop :=
  ∀ (p : Fin 8) (s : State), s.inject = [] →
    (s.get (F.ZP_STATUS_STATE p) ≤ 1 → s.portMayTrain p = true →
      ∃ t : State, exec (.portTrainingDone p) s = .next t.settle ∧ t.get (F.ZP_STATUS_STATE p) = 2 ∧ s.sameRegs t [F.ZP_STATUS_STATE p] ∧
        (t.port p).shared = (s.fullCredits p).1 ∧ (t.port p).reserve = (s.fullCredits p).2 ∧ (t.port p).rxNext = 0 ∧
        (t.port p).txAcked = 0 ∧ (t.port p).txNext = 1 ∧ t.out = s.out ++ [.discover p (s.discoverPayload p)]) ∧
    (∀ d : DiscoverPayload, s.get (F.ZP_STATUS_STATE p) = 3 → s.on F.ZF_PHYS_VALID = false →
      ∃ t : State, exec (.discover p d) s = .next t.settle ∧ t.get (F.ZP_PEER_UNIT_UNIT_ID p) = d.unitId.toNat ∧
        t.get (F.ZP_PEER_BOARD_BOARD_ID p) = d.boardId.toNat ∧ t.get (F.ZP_PEER_INFO_SLOTID p) = d.slotId.toNat ∧
        t.get (F.ZP_PEER_INFO_PORT p) = d.port ∧ t.get (F.ZP_PEER_INFO_PHYS p) = d.phys.toNat ∧
        t.get (F.ZP_STATUS_CHILD p) = flag d.parent ∧ t.get (F.ZP_STATUS_STATE p) = 3) ∧
    (s.regOpen (Reg.ZP_CTRL p) = true →
      (∃ t : State, exec (.zpCtrlForceDown p true) s = .next t.settle ∧ t.get (F.ZP_CTRL_FORCE_DOWN p) = 1 ∧
        t.get (F.ZP_STATUS_STATE p) = 0) ∧
      (s.get (F.ZP_STATUS_STATE p) = 0 → (s.put (F.ZP_CTRL_FORCE_DOWN p) 0).portMayTrain p = true →
        ∃ t : State, exec (.zpCtrlForceDown p false) s = .next t.settle ∧ t.get (F.ZP_CTRL_FORCE_DOWN p) = 0 ∧
          t.get (F.ZP_STATUS_STATE p) = 1)) ∧
    (s.get (F.ZP_STATUS_STATE p) = 4 →
      (∀ u : Bool, ∃ t : State, exec (.portRetrainDone p false u) s = .next t.settle ∧ t.get (F.ZP_STATUS_STATE p) = 0 ∧
        t.get (F.ZP_STATUS_WIDTH p) = s.get (F.ZP_STATUS_WIDTH p)) ∧
      (∀ u : Bool, s.get (F.ZP_STATUS_WIDTH p) = 0 → (s.port p).unacked = 0 → (s.port p).discSent = true → (s.port p).discGot = true →
        s.on F.ZF_PHYS_VALID = false →
        ∃ t : State, exec (.portRetrainDone p true u) s = .next t.settle ∧ t.get (F.ZP_STATUS_STATE p) = 3 ∧
          t.get (F.ZP_STATUS_FIRST_LANE p) = 0 ∧ t.get (F.ZP_STATUS_RETRYING p) = 0 ∧ (t.port p).lastRetry = some s.now))

/-- ECHO_REQ is answered with its times; a latency measurement sends 16 ECHO_REQ, and the sixteenth answer sets LAT_OK and ZP_LATENCY;
LINK_STATE updates the break map; IDENT_REQ for this module is answered on its link; a flit of a reserved type is counted and discarded.
Link-local flits go at once while the replay buffer has room (R314, R317, R320, R328, R333, R334). -/
def Obligations.LinkMessages : Prop :=
  ∀ (p : Fin 8) (s : State), s.inject = [] → s.portRuns p = true →
    (∀ t1 t2 t3 : BitVec 64, ∃ t : State, exec (.echoReq p t1 t2 t3) s = .next t.settle ∧ t = { s with fab := t.fab, out := t.out } ∧
      ((s.port p).queue = [] → (s.port p).buffer.length < replaySlots p →
        t.out = s.out ++ [.echoRsp p t1.toNat t2.toNat t3.toNat])) ∧
    (s.portUp p = true → ∃ t : State, exec (.latencyMeasurement p) s = .next t ∧ t = { s with fab := t.fab, out := t.out, draws := t.draws } ∧
      (t.port p).echoes = 0 ∧ ((s.port p).queue = [] → (s.port p).buffer.length + 16 ≤ replaySlots p →
        ∃ ts : List Nat, ts.length = 16 ∧ t.out = s.out ++ ts.map fun x => .echoReq p x)) ∧
    (∀ t1 t2 t3 t4 : BitVec 64, (s.port p).echoes = 15 →
      ∃ t : State, exec (.echoRsp p t1 t2 t3 t4) s = .next t.settle ∧ t.get (F.ZP_STATUS_LAT_OK p) = 1 ∧
        s.sameRegs t [F.ZP_STATUS_LAT_OK p, F.ZP_LATENCY_LATENCY p] ∧ t.out = s.out) ∧
    (∀ (axis : BitVec 2) (link : BitVec 8) (b : Bool), axis.toNat < 3 →
      ∃ t : State, exec (.linkState p axis link b) s = .next t.settle ∧ t.broken axis.toNat link.toNat = b ∧
        ∀ (a : Fin 3) (k : Fin 256), ¬ (a.val = axis.toNat ∧ k.val = link.toNat) → t.broken a k = s.broken a k) ∧
    (∀ axis link b, axis = (3 : BitVec 2) → exec (.linkState p axis link b) s = .next (s.taken p 1 0).settle) ∧
    (∀ r : Route, r.dest.toNat = farEnd → r.src.toNat = farEnd →
      exec (.identReq p r) s = .next ((s.taken p 1 (subOf 0 r)).sendOn p 1 (some 0)
        (.identRsp p ⟨r.src, BitVec.ofNat 24 s.logical, 0#3⟩ (s.discoverPayload p))).settle) ∧
    (∀ ty : BitVec 5, (0x0D ≤ ty.toNat ∧ ty.toNat ≤ 0x0F) ∨ 0x14 ≤ ty.toNat →
      exec (.reservedTypeFlit p ty) s = .next ((s.accepted p 1).bump F.ZF_ERRS_BADTYPE 1).settle)

/-- SET_POSITION sets the module's coordinates and dimensions and makes it POSITIONED, or SPARE; a coordinate beyond its dimension, or an
unlocked fabric, completes it with ST_BAD_PARAM, and outside IDLE and HALTED it completes with ST_NOT_READY (R337). SET_ROUTES: MAP takes a
table in HBM whose CRC-64 is the one given and whose entries pass their checks; DIRMAP takes six different ports; BREAKS takes the three
break maps; PORT holds a port DOWN. A table with another CRC-64 completes MAP with ST_DIGEST, and a DIRMAP that names a port twice completes
with ST_BAD_PARAM (R324, R325, R328, R338). -/
def Obligations.PlaceAndRoutes : Prop :=
  (
  ∀ (h : Hdr) (p : PositionParams) (s : State), s.bindingOk h .notBound = true →
    (s.idle = false → exec (.setPosition h p) s = .next (s.finish (s.refOf h 0x31) ⟨ST_NOT_READY, 0, 0⟩).settle) ∧
    (s.idle = true → s.positionOk p = false →
      exec (.setPosition h p) s = .next (s.finish (s.refOf h 0x31) ⟨ST_BAD_PARAM, 0, 0⟩).settle) ∧
    (s.idle = true → s.positionOk p = true → s.inject = [] →
      ∃ t : State, exec (.setPosition h p) s = .next (t.finish (s.refOf h 0x31) ⟨ST_OK, 0, 0⟩).settle ∧
        t.get F.ZF_PHYS_PHYS = p.phys.toNat ∧ t.get F.ZF_PHYS_VALID = 1 ∧ t.get F.ZF_PDIM_DIM = p.pdim.toNat ∧
        t.get F.ZF_LOGICAL_LOGICAL = (if p.spare then 0 else p.logical.toNat) ∧ t.get F.ZF_LOGICAL_VALID = flag (!p.spare) ∧
        t.get F.ZF_LOGICAL_SPARE = flag p.spare ∧ t.get F.ZF_LDIM_DIM = p.ldim.toNat ∧
        (s.get F.PW_STATUS_STATE ≠ 11 → t.get F.PW_STATUS_STATE = if p.spare then 8 else 6))) ∧
  (
  ∀ (h : Hdr) (s : State), s.Sound → s.bindingOk h .notBound = true → s.idle = true →
    (∀ (a : BitVec 48) (d : BitVec 64), a.toNat % 4096 = 0 → 0 < s.remapEntries → a.toNat + 4 * s.remapEntries ≤ hbmEnd →
      (let bs := s.hbm.read a.toNat (4 * s.remapEntries)
       (crc64 bs ≠ d.toNat → exec (.setRoutesMap h a d) s = .next (s.finish (s.refOf h 0x32) ⟨ST_DIGEST, 0, 0⟩).settle) ∧
       (crc64 bs = d.toNat → s.remapOk bs = false →
         exec (.setRoutesMap h a d) s = .next (s.finish (s.refOf h 0x32) ⟨ST_BAD_PARAM, 0, 0⟩).settle) ∧
       (crc64 bs = d.toNat → s.remapOk bs = true →
         ∃ t : State, exec (.setRoutesMap h a d) s = .next (t.finish (s.refOf h 0x32) ⟨ST_OK, 0, d.toNat⟩).settle ∧
           t.get F.ZF_REMAP_BASE_BASE = a.toNat ∧ t.fab.map = []))) ∧
    (∀ d : BitVec 24,
      ((dirPorts d.toNat).all (fun q => decide (q < 8)) = false ∨ ¬ (dirPorts d.toNat).Nodup →
        exec (.setRoutesDirmap h d) s = .next (s.finish (s.refOf h 0x32) ⟨ST_BAD_PARAM, 0, 0⟩).settle) ∧
      ((dirPorts d.toNat).all (fun q => decide (q < 8)) = true → (dirPorts d.toNat).Nodup →
        ∃ t : State, exec (.setRoutesDirmap h d) s = .next (t.finish (s.refOf h 0x32) ⟨ST_OK, 0, 0⟩).settle ∧
          t.get F.ZF_DIRMAP_DIRMAP = d.toNat)) ∧
    (∀ a : BitVec 48, a.toNat % 8 = 0 → a.toNat + 96 ≤ hbmEnd →
      ∃ t : State, exec (.setRoutesBreaks h a) s = .next (t.finish (s.refOf h 0x32) ⟨ST_OK, 0, 0⟩).settle ∧
        ∀ (i : Fin 3) (j : Fin 4), t.get (F.ZF_BREAK_BREAKS i j) = s.word (a.toNat + 32 * i + 8 * j) 8) ∧
    (∀ q : Fin 8, ∃ t : State, exec (.setRoutesPort h q true) s = .next (t.finish (s.refOf h 0x32) ⟨ST_OK, 0, 0⟩).settle ∧
      t.get (F.ZP_CTRL_FORCE_DOWN q) = 1 ∧ t.get (F.ZP_STATUS_STATE q) = 0))

/-- SET_BUDDY HOME and HOLD ask their peer to name itself and wait; a peer that is the module itself completes them with ST_BAD_PARAM, one
with no route with ST_FABRIC. The answer of a peer on the same board or feed completes it with ST_BUDDY_REJECT; otherwise the relation is
PENDING. RELEASE ends the relation (R368, R370). The peer's BIND makes it ACTIVE (log entry 46: the message is the model's). IDENT_RSP
completes the SET_BUDDY that waits for its sender: with ST_BUDDY_REJECT when the two share a board or a feed and OVERRIDE is not set, and
otherwise with the relation PENDING. A BIND from the named buddy makes the relation ACTIVE (R368, R370; the BIND is the model's, log entry
46). -/
def Obligations.BuddyRelation : Prop :=
  (
  ∀ (h : Hdr) (s : State), s.Sound → s.bindingOk h .notBound = true → s.idle = true →
    let c := s.refOf h 0x60
    let asks (i : Instr) (w : IdentWait) : Prop :=
      (s.route w.peer none ≠ .unroutable → ∃ t : State, exec i s = .next t.settle ∧ t.sh = { s.sh with idents := s.sh.idents ++ [w] } ∧
        t.cp.ended = s.cp.ended ∧
        ∀ q dl, s.route w.peer none = .out q dl → s.Clear q →
          s.Asks t q c (.identReq q ⟨BitVec.ofNat 24 w.peer, BitVec.ofNat 24 s.logical, BitVec.ofNat 3 (flag dl)⟩)) ∧
      (s.route w.peer none = .unroutable → ∃ t : State, exec i s = .next t.settle ∧ s.Ends t c ⟨ST_FABRIC, 0, 0⟩)
    (∀ (o m : Bool) (peer : BitVec 24) (g : BitVec 48), g.toNat % 4096 = 0 → g.toNat < hbmEnd →
      (peer.toNat = s.logical → exec (.setBuddyHome h o m peer g) s = .next (s.finish c ⟨ST_BAD_PARAM, 0, 0⟩).settle) ∧
      (peer.toNat ≠ s.logical → s.tableAttached = true →
        asks (.setBuddyHome h o m peer g) ⟨c, true, o, m, false, peer.toNat, g.toNat, none, false⟩)) ∧
    (∀ (o a : Bool) (peer : BitVec 24) (d : BitVec 48), d.toNat % 4096 = 0 → d.toNat + 256 ≤ hbmEnd → peer.toNat ≠ s.logical →
      (let b := s.hbm.read d.toNat 256
       let n := leAt b 4 4
       1 ≤ n → n ≤ 65535 → leAt b 8 6 + 128 * n ≤ hbmEnd → (a = true → crc64 (b.take 0xF8) = leAt b 0xF8 8) →
       s.descOk b (s.hbm.read (leAt b 8 6) (128 * n)) a = true →
         asks (.setBuddyHold h o a peer d) ⟨c, false, o, false, a, peer.toNat, d.toNat, none, false⟩)) ∧
    (∃ t : State, exec (.setBuddyReleaseHome h) s = .next (t.finish c ⟨ST_OK, 0, 0⟩).settle ∧ t.get F.SH_BUDDY_VALID = 0 ∧
      t.get F.SH_STATUS_HOME_STATE = 0 ∧ s.sameRegs t [F.SH_BUDDY_VALID, F.SH_STATUS_HOME_STATE, F.SH_BUDDY_BUDDY]) ∧
    (∃ t : State, exec (.setBuddyReleaseHold h) s = .next (t.finish c ⟨ST_OK, 0, 0⟩).settle ∧ t.get F.SH_HOME_VALID = 0 ∧
      t.get F.SH_STATUS_HOLD_STATE = 0 ∧ s.sameRegs t [F.SH_HOME_VALID, F.SH_STATUS_HOLD_STATE, F.SH_HOME_HOME])) ∧
  (
  ∀ (p : Fin 8) (r : Route) (s : State), s.portRuns p = true → s.inject = [] → r.dest.toNat = farEnd →
    (∀ (d : DiscoverPayload) (w : IdentWait), s.sh.idents = [w] → w.peer = r.src.toNat → w.promote = none →
      (∀ x : ShadowRun, x ∈ s.sh.runs → x.peer ≠ r.src.toNat) →
      (s.sharesBoard d = true → w.override = false →
        ∃ t : State, exec (.identRsp p r d) s = .next t.settle ∧ t.sh.idents = [] ∧ s.Ends t w.cmd ⟨ST_BUDDY_REJECT, 0, 0⟩) ∧
      (s.sharesBoard d = false ∨ w.override = true → w.home = true →
        ∃ t : State, exec (.identRsp p r d) s = .next t.settle ∧ t.sh.idents = [] ∧
          s.Ends t w.cmd ⟨ST_OK, 0, 0⟩ ∧ t.get F.SH_BUDDY_VALID = 1 ∧
          t.get F.SH_BUDDY_BUDDY = r.src.toNat ∧ t.get F.SH_STATUS_HOME_STATE = 1 ∧ t.get F.SH_STATUS_MODE = flag w.direct)) ∧
    (∀ m : ShadowHdr, m.kind = 10 → m.item = 2 → (∀ x ∈ s.sh.runs, x.peer ≠ r.src.toNat) → s.get F.SH_BUDDY_VALID = 1 →
      s.get F.SH_BUDDY_BUDDY = r.src.toNat →
      ∃ t : State, exec (.shadowMessage p r m []) s = .next t.settle ∧ t.get F.SH_STATUS_HOME_STATE = 2 ∧
        t.sh.holderState = m.offset.toNat))

/-- SHADOW_SYNC at the home: on a module that only holds a shadow each completes with ST_BAD_PARAM, and while a re-shard is open with
ST_NOT_READY; with no holder that takes the Period FORWARD and ROOTS complete with ST_OK and the degraded flag, once in a Period; CLOSE
waits for its Period's commit; SEED asks the holder first (R375 to R377, R380, R383, R384, R403). SHADOW_SYNC at the holder: REPLAY of a
Period whose slot is there waits for Q; on a module that holds no shadow it completes with ST_BAD_PARAM, and of another Period with
ST_NOT_READY. RECOVER of a shadow ledger that is CLOSED and verifies completes with the CRC-64 of its header; with one that does not verify
it completes with ST_DIGEST (R381, R383, R385). The messages between home and holder are the model's (log entry 46). -/
def Obligations.ShadowSync : Prop :=
  (
  ∀ (h : Hdr) (lr : BitVec 32) (s : State),
    let c := s.refOf h 0x61
    let n := s.currentPeriod
    (s.notHome = true → s.bindingOk h (.kinds [kindExchange, kindPrecondition]) = true →
      exec (.shadowForward h lr) s = .next (s.finish c ⟨ST_BAD_PARAM, 0, 0⟩).settle) ∧
    (s.notHome = false → s.coll.frozen = false →
      (s.bindingOk h s.forwardBinding = true →
        (s.sh.forwarded = some n → exec (.shadowForward h lr) s = .next (s.finish c ⟨ST_BAD_PARAM, 0, 0⟩).settle) ∧
        (s.sh.forwarded ≠ some n → s.holderTakes = false →
          exec (.shadowForward h lr) s =
            .next (({ s with sh := { s.sh with forwarded := some n } } : State).finish c ⟨ST_OK, 2, 0⟩).settle)) ∧
      (s.bindingOk h (.kinds [kindPrecondition]) = true →
        (s.sh.rooted = some n → exec (.shadowRoots h) s = .next (s.finish c ⟨ST_BAD_PARAM, 0, 0⟩).settle) ∧
        (s.sh.rooted ≠ some n → s.holderTakes = false ∨ s.get F.CJ_ROOT_COUNT_COUNT = 0 →
          exec (.shadowRoots h) s = .next (({ s with sh := { s.sh with rooted := some n } } : State).finish c
            ⟨ST_OK, if s.holderTakes then 0 else 2, 0⟩).settle)) ∧
      (s.bindingOk h (.kinds [kindShadow]) = true →
        ∃ (t : State) (r : ShadowRun), exec (.shadowClose h) s = .next t.settle ∧ t.sh.runs = s.sh.runs ++ [r] ∧ r.cmd = c ∧
          r.task = .close n false ∧ t = { s with sh := t.sh }) ∧
      (s.bindingOk h .notBound = true → s.idle = true → s.homeActive = true → s.tableAttached = true → s.ledPhase = 0 →
        s.route s.buddy none ≠ .unroutable →
        ∃ (t : State) (r : ShadowRun), exec (.shadowSeed h) s = .next t.settle ∧ t.sh = { s.sh with runs := s.sh.runs ++ [r] } ∧ r.cmd = c ∧
          r.task = .seed false ∧ r.peer = s.buddy ∧ t.cp.ended = s.cp.ended ∧
          ∀ q dl, s.route s.buddy none = .out q dl → s.Clear q → ∃ m, s.Asks t q c m)) ∧
    (s.notHome = false → s.coll.frozen = true → s.bindingOk h (.kinds [kindShadow]) = true →
      exec (.shadowClose h) s = .next (s.finish c ⟨ST_NOT_READY, 0, 0⟩).settle)) ∧
  (
  ∀ (h : Hdr) (p : ReplayParams) (s : State), s.Sound →
    let c := s.refOf h 0x61
    let n := s.currentPeriod
    (s.bindingOk h (.kinds [kindShadow]) = true →
      (s.holds = false → exec (.shadowReplay h p) s = .next (s.finish c ⟨ST_BAD_PARAM, 0, 0⟩).settle) ∧
      (s.holds = true → s.replayParamsOk p = true → s.coll.frozen = false → s.descState = 2 →
        (nextPeriod s.shadowPeriod ≠ n ∨ s.word (s.slotOf n) 6 ≠ n ∨ s.sh.landed ≠ some n →
          exec (.shadowReplay h p) s = .next (s.finish c ⟨ST_NOT_READY, 0, 0⟩).settle) ∧
        (nextPeriod s.shadowPeriod = n → s.word (s.slotOf n) 6 = n → s.sh.landed = some n →
          (s.qOf n = none → exec (.shadowReplay h p) s =
            .next (({ s with sh := { s.sh with replay := some ⟨c, h, p⟩ } } : State)).settle) ∧
          (∀ q, s.qOf n = some q → (s.replayNow ⟨c, h, p⟩ n q).1.oxl.missing = s.oxl.missing →
            ∃ (t : State) (d : Done), exec (.shadowReplay h p) s = .next (t.finish c d).settle ∧
              (d = Done.fail d.status ∨ t.get F.SH_SHADOW_PERIOD_PERIOD = n % 2 ^ 48))))) ∧
    (s.bindingOk h .notBound = true →
      (s.holds = false → exec (.shadowRecover h p) s = .next (s.finish c ⟨ST_BAD_PARAM, 0, 0⟩).settle) ∧
      (s.holds = true → s.replayParamsOk p = true → s.idle = true → s.coll.frozen = false → s.descState ≠ 3 →
        s.descLedger + 0x48 ≤ hbmEnd →
        let v := s.shadowView 0
        (v.ledSealed = true → v.ledPhase = 0 → v.ledRules = s.rulesDigest → s.word (s.slotOf v.ledTarget) 6 ≠ v.ledTarget →
          exec (.shadowRecover h p) s = .next (s.finish c ⟨ST_OK, 0, crc64 (s.hbm.read s.descLedger 0x40) % 2 ^ 64⟩).settle) ∧
        (v.ledSealed = false → v.ledPhase ≠ 1 →
          exec (.shadowRecover h p) s = .next (s.finish c ⟨ST_DIGEST, 0, 0⟩).settle))))

/-- DIGEST_COMPARE: RANGE and RECOPY of records that the home's table does not have complete with ST_BAD_PARAM, and away from IDLE and
HALTED with ST_NOT_READY; otherwise RANGE computes its records and sends them, and RECOPY sends the records' data: each stays in flight
until its holder has answered. ARBITRATE on a module that holds no shadow completes with ST_BAD_PARAM (R391, R392). The messages between
home and holder are the model's (log entry 46). -/
def Obligations.DigestCompare : Prop :=
  ∀ (h : Hdr) (record count : BitVec 32) (s : State), s.bindingOk h .notBound = true →
    let c := s.refOf h 0x62
    (∀ (k : Bool) (a : BitVec 48),
      (s.holds = false → exec (.digestArbitrate h k record a) s = .next (s.finish c ⟨ST_BAD_PARAM, 0, 0⟩).settle) ∧
      (s.holds = true → s.idle = true → s.coll.frozen = false → 2 ≤ s.get F.SH_STATUS_HOLD_STATE → s.descState ≠ 3 →
        let u := (s.recompute record.toNat k a.toNat c).1
        u.oxl.missing = s.oxl.missing → u.route u.homeOf none ≠ .unroutable →
        ∃ t : State, exec (.digestArbitrate h k record a) s = .next t.settle ∧
          match (s.recompute record.toNat k a.toNat c).2 with
          | .fail st => u.Ends t c ⟨st, 0, 0⟩
          | .ok _ => ∃ r ∈ t.sh.runs, r.cmd = c ∧ r.task = .arbitrate record.toNat k a.toNat 0 ∧ r.peer = u.homeOf)) ∧
    (s.notHome = false →
      (s.idle = false → exec (.digestRange h record count) s = .next (s.finish c ⟨ST_NOT_READY, 0, 0⟩).settle ∧
        exec (.digestRecopy h record count) s = .next (s.finish c ⟨ST_NOT_READY, 0, 0⟩).settle) ∧
      (s.idle = true → s.coll.frozen = false → s.homeActive = true →
        (s.recordsOk record.toNat count.toNat = false →
          exec (.digestRange h record count) s = .next (s.finish c ⟨ST_BAD_PARAM, 0, 0⟩).settle ∧
          exec (.digestRecopy h record count) s = .next (s.finish c ⟨ST_BAD_PARAM, 0, 0⟩).settle) ∧
        (s.recordsOk record.toNat count.toNat = true →
          let rs := recordList record.toNat count.toNat
          let gloss := s.computeGloss (s.get F.SH_GLOSS_BASE) (s.get F.PC_COMMITTED_COMMITTED) rs c
          (gloss.1.oxl.missing = s.oxl.missing → gloss.1.route gloss.1.buddy none ≠ .unroutable →
            ∃ t : State, exec (.digestRange h record count) s = .next t.settle ∧
              match gloss.2 with
              | .fail st => gloss.1.Ends t c ⟨st, 0, 0⟩
              | .ok bs => bs ≠ [] → ∃ r ∈ t.sh.runs, r.cmd = c ∧ r.task = .range record.toNat count.toNat ∧ r.peer = gloss.1.buddy) ∧
          let msgs := s.recordMsgs rs c
          (msgs.1.oxl.missing = s.oxl.missing → msgs.1.route msgs.1.buddy none ≠ .unroutable →
            ∃ t : State, exec (.digestRecopy h record count) s = .next t.settle ∧
              match msgs.2 with
              | .fail st => msgs.1.Ends t c ⟨st, 0, 0⟩
              | .ok _ => ∃ r ∈ t.sh.runs, r.cmd = c ∧ r.task = .recopy ∧ r.peer = msgs.1.buddy))))

/-- RESTORE_FROM_SHADOW asks the holder and stays in flight; a module without its tables completes it with ST_NOT_READY. PROMOTE gives a
SPARE its logical position first, and asks its holder; a module that is no SPARE completes it with ST_NOT_READY (R395, R398). The messages
between home and holder are the model's (log entry 46). -/
def Obligations.RestoresAsk : Prop :=
  ∀ (h : Hdr) (holder : BitVec 24) (s : State), s.bindingOk h .notBound = true →
    (∀ force : Bool,
      (s.mayRestore = false → exec (.restoreFromShadow h holder force) s =
        .next (s.finish (s.refOf h 0x64) ⟨ST_NOT_READY, 0, 0⟩).settle) ∧
      (s.mayRestore = true → s.route holder.toNat none ≠ .unroutable →
        ∃ (t : State) (r : ShadowRun), exec (.restoreFromShadow h holder force) s = .next t.settle ∧
          t.sh = { s.sh with runs := s.sh.runs ++ [r] } ∧ r.cmd = s.refOf h 0x64 ∧ r.task = .restore force false none ∧
          r.peer = holder.toNat ∧ t.cp.ended = s.cp.ended ∧
          ∀ q dl, s.route holder.toNat none = .out q dl → s.Clear q →
            s.Asks t q (s.refOf h 0x64) (.shadow q ⟨holder, BitVec.ofNat 24 s.logical, BitVec.ofNat 3 (4 + flag dl)⟩
              ⟨BitVec.ofNat 8 kRestore, false, BitVec.ofNat 16 (flag force), BitVec.ofNat 16 (s.tagFor holder.toNat), 0, 0⟩ []))) ∧
    (∀ (logical ldim : BitVec 24) (g : BitVec 48), g.toNat % 4096 = 0 → g.toNat < hbmEnd →
      (s.get F.ZF_LOGICAL_SPARE = 0 → exec (.promote h logical ldim holder g) s =
        .next (s.finish (s.refOf h 0x63) ⟨ST_NOT_READY, 0, 0⟩).settle) ∧
      (s.get F.ZF_LOGICAL_SPARE = 1 → s.mayRestore = true →
        s.positionOk ⟨BitVec.ofNat 24 s.here, BitVec.ofNat 24 (s.get F.ZF_PDIM_DIM), logical, false, ldim⟩ = true →
        (s.setPosition ⟨BitVec.ofNat 24 s.here, BitVec.ofNat 24 (s.get F.ZF_PDIM_DIM), logical, false, ldim⟩).route holder.toNat none
          ≠ .unroutable →
        ∃ (t : State) (r : ShadowRun), exec (.promote h logical ldim holder g) s = .next t.settle ∧ r ∈ t.sh.runs ∧
          r.cmd = s.refOf h 0x63 ∧ r.peer = holder.toNat ∧ t.get F.ZF_LOGICAL_LOGICAL = logical.toNat ∧
          t.get F.ZF_LOGICAL_SPARE = 0 ∧ t.get F.ZF_LDIM_DIM = ldim.toNat))

/-- CHECKPOINT_OUT writes the image of the module's state, and no other byte, and completes with the CRC-64 of its header; CHECKPOINT_IN of
an image whose header does not verify completes with ST_DIGEST and takes nothing; one whose header, directory and sections are good and fit
the module is taken, commits its Period and cursor, and completes with the ledger header's CRC-64. A key slot that is empty completes either
with ST_SECURITY (R400 to R402, R498). The order of what an image holds behind its directory is the model's (log entry 52). -/
def Obligations.CheckpointsTravel : Prop :=
  ∀ (h : Hdr) (a : BitVec 48) (n : BitVec 64) (key : BitVec 16) (s : State), s.Calm → s.Sound → s.bindingOk h .notBound = true →
    (s.idle = true → s.tableAttached = true → s.ledPhase = 0 →
      (1 ≤ key.toNat → key.toNat ≤ 64 → s.keySlot key.toNat = none →
        exec (.checkpointOut h a n key) s = .next (s.finish (s.refOf h 0x66) ⟨ST_SECURITY, 0, 0⟩)) ∧
      (∀ xs, key = 0 → s.sections (s.refOf h 0x66) = (s, .ok xs) → imageSize false xs ≤ n.toNat →
        a.toNat + imageSize false xs ≤ hbmEnd →
        let img := s.image none xs
        exec (.checkpointOut h a n key) s = .next (((s.stored a.toNat img (some (s.refOf h 0x66))).finish (s.refOf h 0x66)
          ⟨ST_OK, 0, leAt img 0x78 8 % 2 ^ 64⟩).settle) ∧
        (s.Unwatched a.toNat img.length → ∃ t : State, s.Stores t a.toNat img ∧
          exec (.checkpointOut h a n key) s = .next (t.finish (s.refOf h 0x66) ⟨ST_OK, 0, leAt img 0x78 8 % 2 ^ 64⟩)))) ∧
    (s.mayRestore = false → key.toNat ≤ 64 →
      exec (.checkpointIn h a n key) s = .next (s.finish (s.refOf h 0x67) ⟨ST_NOT_READY, 0, 0⟩)) ∧
    (s.mayRestore = true →
      (1 ≤ key.toNat → key.toNat ≤ 64 → s.keySlot key.toNat = none →
        exec (.checkpointIn h a n key) s = .next (s.finish (s.refOf h 0x67) ⟨ST_SECURITY, 0, 0⟩)) ∧
      (key = 0 → 128 ≤ n.toNat → a.toNat + n.toNat < hbmEnd →
        let head := s.hbm.read a.toNat 128
        (leAt head 0 2 ≠ 1 → exec (.checkpointIn h a n key) s = .next (s.finish (s.refOf h 0x67) ⟨ST_DIGEST, 0, 0⟩)) ∧
        (∀ xs : List ReadSection, leAt head 0 2 = 1 → leAt head 2 2 = numRev → bit (leAt head 0x30 8) 1 = false →
          128 + 32 * leAt head 4 4 ≤ n.toNat →
          (let dir := s.hbm.read (a.toNat + 128) (32 * leAt head 4 4)
           crc64 (head.take 0x78 ++ dir) = leAt head 0x78 8 →
           (∀ d ∈ pieces 32 dir, leAt d 8 8 + leAt d 0x10 8 ≤ n.toNat ∧ leAt d 0x18 8 + 8 * cdiv (leAt d 0x10 8) mebi ≤ n.toNat) →
           s.readSections a.toNat none (pieces 32 dir) (s.refOf h 0x67) = (s, .ok xs) → (∀ x ∈ xs, x.bad = none ∧ s.sectionFits x = true) →
           (∀ i < s.uu.tensors, ∃ x ∈ xs, x.kind = 2 ∧ x.item = i) →
           (xs.filter (fun x => decide (x.kind = 3))).length ≤ s.get F.CJ_ROOT_COUNT_COUNT →
           ∃ t : State, exec (.checkpointIn h a n key) s = .next (t.finish (s.refOf h 0x67) ⟨ST_OK, 0, t.ledDigest % 2 ^ 64⟩).settle ∧
             t.get F.PC_COMMITTED_COMMITTED = leAt head 0x10 6 ∧ t.get F.PC_CURSOR_CURSOR = leAt head 0x20 8))))

/-- PERIOD_PLAN of a plan that R36 allows becomes active at once while no Period runs and is pending while one does; the active plan's
generation, or a plan that R36 refuses, completes with ST_BAD_PARAM. PERIOD_ARM of the Period after the committed one, with a plan, arms the
module; of another it completes with ST_BAD_PARAM. PERIOD_HALT of a HALTED module completes at once, at the end of a running Period it
waits, and an IDLE module becomes HALTED (R36, R39, R58 to R61). That PERIOD_HALT makes an IDLE module HALTED is the model's reading (log
entry 58). -/
def Obligations.PeriodCommands : Prop :=
  ∀ (h : Hdr) (s : State), s.inject = [] → s.tickref = false → s.bindingOk h .notBound = true →
    (∀ p : Plan, s.pd.plan ≠ some p →
      (planOk p (s.get F.PC_GUARD_GUARD_US) = false ∨ (∃ q, s.pd.plan = some q ∧ q.generation = p.generation) →
        exec (.periodPlan h p) s = .next (s.finish (s.refOf h 0x70) ⟨ST_BAD_PARAM, 0, 0⟩).settle) ∧
      (planOk p (s.get F.PC_GUARD_GUARD_US) = true → (∀ q, s.pd.plan = some q → q.generation ≠ p.generation) →
        (s.pcState = 2 ∨ s.pcState = 3 → ∃ t : State, exec (.periodPlan h p) s = .next (t.finish (s.refOf h 0x70) ⟨ST_OK, 0, 0⟩).settle ∧
          t.pd.plan = s.pd.plan ∧ t.pd.pendingPlan = some p) ∧
        (s.pcState ≠ 2 → s.pcState ≠ 3 → ∃ t : State,
          exec (.periodPlan h p) s = .next (t.finish (s.refOf h 0x70) ⟨ST_OK, 0, 0⟩).settle ∧
          t.pd.plan = some p ∧ t.pd.pendingPlan = none ∧ t.get F.PC_PERIOD_GENERATION = p.generation.toNat))) ∧
    (∀ p : ArmParams,
      (p.firstPeriod.toNat ≠ nextPeriod (s.get F.PC_COMMITTED_COMMITTED) →
        exec (.periodArm h p) s = .next (s.finish (s.refOf h 0x71) ⟨ST_BAD_PARAM, 0, 0⟩).settle) ∧
      (p.firstPeriod.toNat = nextPeriod (s.get F.PC_COMMITTED_COMMITTED) → s.pd.plan.isSome = true → s.idle = true → p.replay = false →
        ∃ t : State, exec (.periodArm h p) s = .next (t.finish (s.refOf h 0x71) ⟨ST_OK, 0, 0⟩).settle ∧ t.get F.PC_STATUS_STATE = 1 ∧
          t.pd.arm = some ⟨p.firstPeriod.toNat, if p.startTime = 0 then s.now + 200000 else p.startTime.toNat, p.cursor.toNat, p.seed.toNat,
            p.retry, false, none⟩)) ∧
    (∀ m e : Bool,
      (s.pcState = 4 → exec (.periodHalt h m e) s = .next (s.finish (s.refOf h 0x72) ⟨ST_OK, 0, 0⟩).settle) ∧
      (s.pcState = 0 → s.pd.waiters = [] → ∃ t : State, exec (.periodHalt h m e) s = .next t.settle ∧
        t.get F.PC_STATUS_STATE = 4 ∧ t.pd.waiters = [] ∧ ∃ x ∈ t.cp.ended, x.ref = s.refOf h 0x72 ∧ x.done = ⟨ST_OK, 0, 0⟩) ∧
      (s.pcState = 2 → s.get F.PC_STATUS_DONE = 0 → e = true →
        exec (.periodHalt h m e) s = .next ({ s with pd := { s.pd with
          waiters := s.pd.waiters ++ [s.refOf h 0x72], haltAtEnd := true, endToken := s.pd.endToken || m } } : State).settle))

/-- REPLAY_CONTROL: FREEZE and THAW set and clear RR_CTRL.FREEZE; COPY_OUT writes the records of the Periods it names, and no other byte;
CLEAR empties the ring; REPLAY of the next Period on a HALTED module makes the next PERIOD_ARM re-run it. Enabling the recorder scans its
ring (R52, R55, R56, R62). -/
def Obligations.ReplayControl : Prop :=
  ∀ (h : Hdr) (s : State), s.Calm → s.Sound → s.pd.scanned = true → s.bindingOk h .notBound = true →
    let c := s.refOf h 0x73
    (∃ t : State, exec (.replayFreeze h) s = .next (t.finish c ⟨ST_OK, 0, 0⟩) ∧ t.get F.RR_CTRL_FREEZE = 1 ∧ t.rr.frozen = true ∧
      t = { s with regs := t.regs, rr := t.rr } ∧ s.sameRegs t [F.RR_CTRL_FREEZE]) ∧
    (∃ t : State, exec (.replayThaw h) s = .next (t.finish c ⟨ST_OK, 0, 0⟩) ∧ t.get F.RR_CTRL_FREEZE = 0 ∧
      t = { s with regs := t.regs } ∧ s.sameRegs t [F.RR_CTRL_FREEZE]) ∧
    (∃ t : State, exec (.replayClear h) s = .next (t.finish c ⟨ST_OK, 0, 0⟩) ∧ t.get F.RR_WPTR_WPTR = 0 ∧ t.get F.RR_OLDEST_OLDEST = noPeriod ∧
      t = { s with regs := t.regs, rr := { s.rr with records := [] } } ∧ s.sameRegs t [F.RR_WPTR_WPTR, F.RR_OLDEST_OLDEST]) ∧
    (∀ (n : BitVec 48) (k : BitVec 32) (a len : BitVec 64), 1 ≤ k.toNat → a.toNat % 64 = 0 →
      (s.rr.records.length < k.toNat ∨ s.recordsOf n.toNat k.toNat = none →
        exec (.replayCopyOut h n k a len) s = .next (s.finish c ⟨ST_BAD_PARAM, 0, 0⟩)) ∧
      (∀ bs, k.toNat ≤ s.rr.records.length → s.recordsOf n.toNat k.toNat = some bs → bs.length ≤ len.toNat → 0 < bs.length →
        a.toNat + bs.length ≤ hbmEnd →
        exec (.replayCopyOut h n k a len) s = .next (((s.stored a.toNat bs (some c)).finish c ⟨ST_OK, 0, crc64 bs % 2 ^ 64⟩).settle) ∧
        (s.Unwatched a.toNat bs.length → ∃ t : State, s.Stores t a.toNat bs ∧
          exec (.replayCopyOut h n k a len) s = .next (t.finish c ⟨ST_OK, 0, crc64 bs % 2 ^ 64⟩)))) ∧
    (∀ (n : BitVec 48) (a len : BitVec 64), a.toNat % 64 = 0 →
      (s.pcState ≠ 4 → exec (.replayReplay h n a len) s = .next (s.finish c ⟨ST_NOT_READY, 0, 0⟩)) ∧
      (s.pcState = 4 → n.toNat = nextPeriod (s.get F.PC_COMMITTED_COMMITTED) → (s.findRecord n.toNat).isSome = true →
        0x100000 ≤ len.toNat → a.toNat + 0x100000 ≤ hbmEnd →
        ∃ t : State, exec (.replayReplay h n a len) s = .next (t.finish c ⟨ST_OK, 0, 0⟩) ∧ t.get F.PC_STATUS_REPLAY = 1 ∧
          t = { s with regs := t.regs, pd := { s.pd with replay := some ⟨n.toNat, a.toNat⟩ } } ∧ s.sameRegs t [F.PC_STATUS_REPLAY])) ∧
    (∀ s : State, s.regOpen Reg.RR_CTRL = true → s.pd.scanned = false →
      ∃ t : State, exec .recorderEnable s = .next t.settle ∧ t.get F.RR_CTRL_ENABLE = 1 ∧ t.pd.scanned = true ∧ t.hbm = s.hbm ∧
        t.rr.records = (s.put F.RR_CTRL_ENABLE 1).recordsFound)

/-- The tick master sends TIME on every UP port with the next SEQUENCE; a TIME from another master than the known one raises
MASTER_CONFLICT, and the known one's ends the holdover; without TIME the module is in holdover after 500 µs and raises TIMEBASE_LOST after 5
ms; two edges of TICKREF a whole number of ms apart, 1 to 1,000, lock its interval, and a missing edge puts the module in holdover (R26 to
R28, R32, R33). The master's next tick is sent to every UP child and scheduled; a TICK from the parent, for the Period that the module waits
for, is scheduled; from another port it is ignored, and a master raises MASTER_CONFLICT (R27, R30, R31, R336). At its start the Period runs:
its number and tick are in their registers, GRANT and DONE are 0; without its plan it raises PLAN_MISMATCH and does not start (R31, R39).
Fabric time moves only with the rows that name an instant, and which ticks a module takes is the model's reading (log entries 57 and 76). -/
def Obligations.TimeAndTicks : Prop :=
  (
  ∀ s : State, s.pcOn = true → s.inject = [] →
    (s.isMaster = true → ∃ (t : State) (p : TimePayload), exec .timeSend s = .next t.settle ∧
      ((∀ q ∈ s.upPorts, s.Clear q) → t.out = s.out ++ s.upPorts.map (fun q => .time q p)) ∧
      (s.get F.PC_CTRL_TSRC = 0 → t.get F.PC_STATUS_SYNCED = 1) ∧ p.sequence = BitVec.ofNat 32 s.pd.nextTimeSeq ∧ p.hops = 0 ∧
      p.correction = 0 ∧ p.masterId = BitVec.ofNat 64 (s.get F.ZF_UNIT_ID_UNIT_ID) ∧ p.origin = BitVec.ofNat 64 t.now ∧
      t.pd.nextTimeSeq = (s.pd.nextTimeSeq + 1) % 2 ^ 32) ∧
    (s.isMaster = false →
      (∀ (q : Fin 8) (p : TimePayload) (x : BitVec 32), s.portUp q = true →
        (s.pd.masterId.isSome = true → s.pd.masterId ≠ some p.masterId.toNat →
          exec (.timeMessage q p x) s = .next ((s.taken q 1 0).raise ⟨0x0B04, 3, 11, 0, 0, false, none⟩).settle) ∧
        (s.pd.masterId = none ∨ s.pd.masterId = some p.masterId.toNat →
          ∃ t : State, exec (.timeMessage q p x) s = .next t.settle ∧ t.get F.PC_STATUS_HOLDOVER = 0 ∧
            t.pd.masterId = some p.masterId.toNat ∧ t.pd.lastTime = t.now)) ∧
      (s.get F.PC_STATUS_HOLDOVER = 0 →
        exec .holdover s = .next (((s.advance (s.pd.lastTime + 500000)).put F.PC_STATUS_HOLDOVER 1).raise
          ⟨0x0B02, 0, 11, 0, 0, false, none⟩).settle) ∧
      exec .timebaseLost s = .next ((s.advance (s.pd.lastTime + 5000000)).raise ⟨0x0B03, 3, 11, 0, 0, false, none⟩).settle) ∧
    (s.tickref = true →
      (∀ (x : BitVec 64) (e : Nat), s.get F.PC_TREF_LOCKED = 0 → s.pd.tref.edge = some e → 1 ≤ (x.toNat - e + 500000) / 1000000 →
        (x.toNat - e + 500000) / 1000000 ≤ 1000 →
        ∃ t : State, exec (.tickrefEdge x) s = .next t.settle ∧ t.get F.PC_TREF_LOCKED = 1 ∧
          t.get F.PC_TREF_INTERVAL_MS = (x.toNat - e + 500000) / 1000000) ∧
      (∀ x : BitVec 64, s.get F.PC_TREF_LOCKED = 0 → s.pd.tref.edge = none →
        ∃ t : State, exec (.tickrefEdge x) s = .next t.settle ∧ t.pd.tref = { s.pd.tref with edge := some x.toNat }) ∧
      (∀ m, s.pd.tref.mark = some m →
        ∃ t : State, exec .tickrefEdgeMissing s = .next t.settle ∧ t.get F.PC_STATUS_HOLDOVER = 1 ∧
          t.pd.tref.missing = s.pd.tref.missing + 1))) ∧
  (
  ∀ s : State, s.pcOn = true → s.inject = [] →
    (∀ x, s.isMaster = true → s.nextTick = some x →
      ∃ t : State, exec .tickSend s = .next t.settle ∧ t.pd.sched = some x ∧
        ((∀ q ∈ s.children.filter s.portUp, s.Clear q) → t.out = s.out ++ (s.children.filter s.portUp).map (fun q => .tick q (tickPayload x)))) ∧
    (∀ (q : Fin 8) (p : TickPayload), s.portUp q = true →
      (s.isMaster = true →
        exec (.tickMessage q p) s = .next ((s.taken q 1 0).raise ⟨0x0B04, 3, 11, 0, 0, false, none⟩).settle) ∧
      (s.isMaster = false → s.parent ≠ some q.val → exec (.tickMessage q p) s = .next (s.taken q 1 0).settle) ∧
      (s.isMaster = false → s.parent = some q.val → s.takesTick p = true → s.children = [] → s.now ≤ p.start.toNat →
        ∃ t : State, exec (.tickMessage q p) s = .next t.settle ∧ t = { s.taken q 1 0 with pd := { s.pd with
          sched := some ⟨p.period.toNat, p.start.toNat, p.generation.toNat, p.retry, p.replay, p.barrier⟩ } })) ∧
    (∀ x, s.pd.sched = some x → s.pcState = 1 ∨ (s.pcState = 2 ∧ s.get F.PC_STATUS_DONE = 1) →
      s.get F.PC_STATUS_SYNCED = 1 ∨ x.start ≤ s.now →
      (s.planOf x.generation = none →
        exec .periodStart s = .next (({ s.advance x.start with pd := { s.pd with sched := none } } : State).raise
          ⟨0x0B05, 3, 11, 0, 0, false, none⟩).settle) ∧
      (s.planOf x.generation ≠ none → s.get F.SO_CTRL_ENABLE = 0 →
        ∃ t : State, exec .periodStart s = .next t.settle ∧ t.get F.PC_PERIOD_PERIOD = x.period % 2 ^ 48 ∧
          t.get F.PC_TICK_TICK = x.start % 2 ^ 64 ∧ t.get F.PC_STATUS_STATE = 2 ∧ t.get F.PC_STATUS_GRANT = 0 ∧
          t.get F.PC_STATUS_DONE = 0 ∧ t.pd.sched = none)))

/-- A Clause's start makes it active. Its deadline ends its being active; when it is not complete, a soft Clause is abandoned and shown in
PC_MISS.SOFT, and a hard one is shown in PC_MISS.HARD and halts the Period, but in barrier mode without BDL it is noted only (R35, R37, R40,
R41). A Clause that ends its Period while the module is HALTING is the model's reading (log entry 56). -/
def Obligations.ClauseBoundaries : Prop :=
  ∀ (c : Fin 16) (e : ClauseEntry) (s : State), planEntry s.pd.plan c = some e → s.inPeriod = true → s.noneDue → s.inject = [] →
    s.cj.due = [] → s.replaying = false → (∀ j ∈ s.cj.jobs, j.marked = false) → (s.clause c).runs = true → (∀ j < 16, s.clauseReady j = false) →
    let before (us : Nat) : Prop := ∀ v < us, ∀ j < 16, s.startFalls v j = false ∧ s.deadlineFalls v j = false
    ((s.clause c).started = false → (s.clause c).passed = false → (s.clause c).missed = false → before e.startUs.toNat →
      (∀ j < 16, s.deadlineFalls e.startUs.toNat j = false) →
      ∃ t : State, exec (.clauseStart c) s = .next t.settle ∧ (t.clause c).started = true ∧ bit (t.get F.PC_STATUS_ACTIVE) c = true) ∧
    ((s.clause c).passed = false → before e.deadlineUs.toNat → (∀ j < 16, j ≠ c.val → s.deadlineFalls e.deadlineUs.toNat j = false) →
      ((s.clause c).complete.isSome = true →
        ∃ t : State, exec (.clauseDeadline c) s = .next t.settle ∧ (t.clause c).passed = true ∧ t.pd.haltDue = none ∧
          bit (t.get F.PC_STATUS_ACTIVE) c = false) ∧
      ((s.clause c).complete = none →
        (softKind (s.kindOf c) = true →
          ∃ t : State, exec (.clauseDeadline c) s = .next t.settle ∧ (t.clause c).passed = true ∧ (t.clause c).missed = true ∧
            bit (t.get F.PC_MISS_SOFT) c = true ∧ t.pd.haltDue = none) ∧
        (softKind (s.kindOf c) = false → s.barrier = false ∨ s.get F.PC_CTRL_BDL = 1 →
          ∃ t : State, exec (.clauseDeadline c) s = .next t.settle ∧ (t.clause c).passed = true ∧
            bit (t.get F.PC_MISS_HARD) c = true ∧ t.pd.haltDue = some 0x0B06) ∧
        (softKind (s.kindOf c) = false → s.barrier = true → s.get F.PC_CTRL_BDL = 0 →
          ∃ t : State, exec (.clauseDeadline c) s = .next t.settle ∧ (t.clause c).passed = true ∧ t.pd.haltDue = none ∧
            t.get F.PC_MISS_HARD = s.get F.PC_MISS_HARD)))

/-- Reports go up the tree: a module without children sends READY_TO_COMMIT, DONE and its noise sums to its parent, each once; a child's
report waits for the module's own, and the two go up combined. The commit GRANT from the parent is taken and noted; a GRANT from another
port is ignored (R42, R43, R336, R357). COMMIT of a granted Period opens its commit with the cursor after the Period; a module that may not
commit does nothing. The first HALT of a Period is passed on to every UP port and halts an ARMED module; a second one is ignored (R44 to
R46, R268). When an UPDATE Clause is complete is the model's reading (log entry 56). -/
def Obligations.ReportsCommitHalt : Prop :=
  (
  ∀ (s : State) (q : Fin 8), s.inject = [] → s.pcState = 2 → s.hubReady = true → s.isMaster = false → s.isSpare = false →
    s.pd.upPort = some q.val → s.portUp q = true →
    let n := s.get F.PC_PERIOD_PERIOD
    (s.pd.downPorts = [] → s.pd.reduceIn = [] → s.pd.reduceSent = [] →
      (s.readyToCommit = true → s.pd.readySent = false → s.replaying = false ∨ s.replayPublished = true →
        ∃ t : State, exec .readyToCommitReport s = .next t.settle ∧ t.pd.readySent = true ∧
          (s.Clear q → t.out = s.out ++ [.reduce q (plainReport 1 n 0)])) ∧
      (s.allClausesEnded = true → s.get F.PC_STATUS_DONE = 0 → s.holds = false → s.get F.RR_CTRL_ENABLE = 0 → s.pd.haltAtEnd = false →
        s.pd.run.any (·.replay) = false →
        ∃ t : State, exec .doneReport s = .next t.settle ∧ t.get F.PC_STATUS_DONE = 1 ∧
          (s.Clear q → t.out = s.out ++ [.reduce q (plainReport 2 n 0)])) ∧
      ((s.runningClauses [kindExchange]).all (fun c => (s.clause c).complete.isSome) = true →
        ∃ t : State, exec .noiseReduceSend s = .next t.settle ∧ ⟨3, n, 0⟩ ∈ t.pd.reduceSent ∧
          (s.Clear q → t.out = s.out ++ [.reduce q s.noiseReportOf]))) ∧
    (∀ (k : Fin 8) (p : ReducePayload), s.portUp k = true → s.pd.downPorts = [k.val] → p.kind.toNat ≠ 4 → s.pd.reduceSent = [] →
      (s.pd.reduceIn = [] →
        exec (.reduceMessage k p) s = .next ((s.taken k 1 0).noteReport ⟨k, p⟩).settle) ∧
      (∀ own : ReducePayload, own.kind = p.kind → own.period = p.period → own.round = p.round → s.pd.reduceIn = [⟨8, own⟩] →
        ∃ t : State, exec (.reduceMessage k p) s = .next t.settle ∧ t.pd.reduceIn = [] ∧
          ((s.taken k 1 0).Clear q → t.out = (s.taken k 1 0).out ++ [.reduce q (combineReports own p)]))) ∧
    (∀ g : GrantPayload, g.kind = 1 → g.period.toNat = n → s.get F.PC_STATUS_GRANT = 0 → s.pd.downPorts = [] →
      ∃ t : State, exec (.grantMessage q g) s = .next t.settle ∧ t.get F.PC_STATUS_GRANT = 1 ∧ t.pd.grantAt = some s.now ∧
        s.sameRegs t [F.PC_STATUS_GRANT]) ∧
    (∀ (k : Fin 8) (g : GrantPayload), s.portUp k = true → k ≠ q → g.kind.toNat ≠ 4 →
      exec (.grantMessage k g) s = .next (s.taken k 1 0).settle)) ∧
  (
  ∀ s : State, s.inject = [] →
    (s.mayCommit = false → exec .commit s = .next s) ∧
    (s.mayCommit = true → ∃ t : State, exec .commit s = .next t.settle ∧ t.uu.openCommit = some (s.get F.PC_PERIOD_PERIOD) ∧
      t.uu.cursor = s.nextCursor ∧ (∀ q < 4, t.get (F.UU_BLOCKS_DONE q) = 0) ∧ t.cj.submitted.all (fun x => decide (x.period ≠ s.get F.PC_PERIOD_PERIOD)) = true) ∧
    (∀ (q : Fin 8) (p : HaltPayload), s.portUp q = true →
      (s.pd.tokenSent = some p.period.toNat → exec (.haltMessage q p) s = .next (s.taken q 1 0).settle) ∧
      (s.pd.tokenSent ≠ some p.period.toNat → s.pcState = 1 → s.isSpare = false →
        ∃ t : State, exec (.haltMessage q p) s = .next t.settle ∧ t.get F.PC_STATUS_STATE = 4 ∧
          t.pd.tokenSent = some p.period.toNat ∧
          ((∀ r ∈ s.upPorts, (s.taken q 1 0).Clear r) → ∃ more, t.out = (s.taken q 1 0).out ++ s.upPorts.map (fun r => .halt r p) ++ more))))

/-- ATTEST CHAIN writes the chain behind its length, and QUOTE the 224 bytes of a quote with the command's nonce; each completes with ST_OK
and their CRC-64, or with ST_BAD_PARAM where DEST_LEN is too small; without keys, or for a quote at FULL, it completes with ST_SECURITY
(R495, R500, R501). KEY_OP: IMPORT of a blob that unwraps puts the key into its empty slot and completes with ST_OK, and of another
completes with ST_SECURITY; DESTROY empties a slot and completes with ST_OK; KEX_CERT copies the certificate; ADVANCE_SVN blows the counter
up to the running image's SVN (R491, R496, R497, R500, R501). That a command without its keys ends with ST_SECURITY is the model's reading
(log entry 64), and so is the bound on a chain's length (log entry 5). -/
def Obligations.AttestAndKeys : Prop :=
  (
  ∀ (h : Hdr) (s : State) (dest : BitVec 48) (len : BitVec 32) (nonce : BitVec 256), s.Calm → s.Sound → s.bindingOk h .notBound = true →
    dest.toNat % 64 = 0 →
    let c := s.refOf h 0x80
    let cert := Config.certificateChain s.firmware
    let chain := leBytes 4 cert.length ++ cert
    let quote := s.quoteBytes nonce
    (quote.length = 224 ∧ quote.take 8 = leBytes 8 1 ∧ (quote.drop 8).take 8 = s.unitBytes ∧ (quote.drop 16).take 32 = leBytes 32 nonce.toNat ∧
      (quote.drop 0x60).take 8 = leBytes 8 (s.get F.PC_COMMITTED_COMMITTED)) ∧
    (s.keyless = true → exec (.attestChain h dest len) s = .next (s.finish c ⟨ST_SECURITY, 0, 0⟩)) ∧
    (s.keyless = true ∨ s.get F.SC_STATUS_DEBUG_LEVEL = 2 →
      exec (.attestQuote h dest len nonce) s = .next (s.finish c ⟨ST_SECURITY, 0, 0⟩)) ∧
    (s.keyless = false →
      (len.toNat < chain.length → exec (.attestChain h dest len) s = .next (s.finish c ⟨ST_BAD_PARAM, 0, 0⟩)) ∧
      (chain.length ≤ len.toNat → dest.toNat + chain.length ≤ hbmEnd →
        exec (.attestChain h dest len) s = .next (((s.stored dest.toNat chain (some c)).finish c ⟨ST_OK, 0, crc64 chain % 2 ^ 64⟩).settle) ∧
        (s.Unwatched dest.toNat chain.length → ∃ t : State, s.Stores t dest.toNat chain ∧
          exec (.attestChain h dest len) s = .next (t.finish c ⟨ST_OK, 0, crc64 chain % 2 ^ 64⟩)))) ∧
    (s.keyless = false → s.get F.SC_STATUS_DEBUG_LEVEL ≠ 2 →
      (len.toNat < 224 → exec (.attestQuote h dest len nonce) s = .next (s.finish c ⟨ST_BAD_PARAM, 0, 0⟩)) ∧
      (224 ≤ len.toNat → dest.toNat + 224 ≤ hbmEnd →
        exec (.attestQuote h dest len nonce) s =
          .next (((s.stored dest.toNat quote (some c)).finish c ⟨ST_OK, 0, crc64 quote % 2 ^ 64⟩).settle) ∧
        (s.Unwatched dest.toNat 224 → ∃ t : State, s.Stores t dest.toNat quote ∧
          exec (.attestQuote h dest len nonce) s = .next (t.finish c ⟨ST_OK, 0, crc64 quote % 2 ^ 64⟩))))) ∧
  (
  ∀ (h : Hdr) (s : State) (k : BitVec 16) (a : BitVec 48), s.Calm → s.Sound → s.bindingOk h .notBound = true →
    let c := s.refOf h 0x81
    let holding (l : List KeySlot) : State :=
      { s.put F.SC_KEYS_OCCUPIED (sumList (l.map (fun x => 2 ^ (x.handle - 1)))) with sec := { s.sec with slots := l } }
    (k = 0 ∨ 64 < k.toNat → exec (.keyImport h k a) s = .next (s.finish c ⟨ST_BAD_PARAM, 0, 0⟩) ∧
      exec (.keyDestroy h k) s = .next (s.finish c ⟨ST_BAD_PARAM, 0, 0⟩)) ∧
    (k ≠ 0 → k.toNat ≤ 64 →
      (s.keyless = true ∨ s.get F.SC_STATUS_DEBUG_LEVEL = 2 →
        exec (.keyImport h k a) s = .next (s.finish c ⟨ST_SECURITY, 0, 0⟩)) ∧
      (s.keyless = false → s.get F.SC_STATUS_DEBUG_LEVEL ≠ 2 → (∃ x ∈ s.sec.slots, x.handle = k.toNat) →
        exec (.keyImport h k a) s = .next (s.finish c ⟨ST_BAD_PARAM, 0, 0⟩)) ∧
      (s.keyless = false → s.get F.SC_STATUS_DEBUG_LEVEL ≠ 2 → (∀ x ∈ s.sec.slots, x.handle ≠ k.toNat) → a.toNat + 176 ≤ hbmEnd →
        (s.unwrap (s.hbm.read a.toNat 176) = none → exec (.keyImport h k a) s = .next (s.finish c ⟨ST_SECURITY, 0, 0⟩)) ∧
        (∀ key usage, s.unwrap (s.hbm.read a.toNat 176) = some (key, usage) →
          exec (.keyImport h k a) s = .next ((holding (s.sec.slots ++ [⟨k.toNat, key, usage⟩])).finish c ⟨ST_OK, 0, 0⟩))) ∧
      (s.revoked = true → exec (.keyDestroy h k) s = .next (s.finish c ⟨ST_SECURITY, 0, 0⟩)) ∧
      (s.revoked = false → exec (.keyDestroy h k) s =
        .next ((holding (s.sec.slots.filter (fun x => x.handle ≠ k.toNat))).finish c ⟨ST_OK, 0, 0⟩))) ∧
    (s.keyless = true → exec (.keyKexCert h a) s = .next (s.finish c ⟨ST_SECURITY, 0, 0⟩)) ∧
    (let cert := Config.kexCertificate s.firmware
     s.keyless = false → a.toNat < hbmEnd → a.toNat + cert.length ≤ hbmEnd →
       exec (.keyKexCert h a) s = .next (((s.stored a.toNat cert (some c)).finish c ⟨ST_OK, 0, 0⟩).settle) ∧
       (s.Unwatched a.toNat cert.length → ∃ t : State, s.Stores t a.toNat cert ∧
         exec (.keyKexCert h a) s = .next (t.finish c ⟨ST_OK, 0, 0⟩))) ∧
    (∀ force : Bool,
      let other := (s.sec.flash.getD (1 - s.get F.SC_STATUS_SLOT) ⟨false, 0⟩)
      (s.revoked = true → exec (.keyAdvanceSvn h force) s = .next (s.finish c ⟨ST_SECURITY, 0, 0⟩)) ∧
      (s.revoked = false → s.pwr.bootDone = true →
        (force = false → other.ok = false ∨ other.svn < s.sec.svn →
          exec (.keyAdvanceSvn h force) s = .next (s.finish c ⟨ST_NOT_READY, 0, 0⟩)) ∧
        (force = true ∨ (other.ok = true ∧ s.sec.svn ≤ other.svn) →
          (s.sec.svn ≤ s.get F.SC_STATUS_SVN → exec (.keyAdvanceSvn h force) s = .next (s.finish c ⟨ST_OK, 0, 0⟩)) ∧
          (s.get F.SC_STATUS_SVN < s.sec.svn → s.sec.svn ≤ 64 →
            ∃ t : State, exec (.keyAdvanceSvn h force) s = .next (t.finish c ⟨ST_OK, 0, 0⟩).settle ∧ t.get F.SC_STATUS_SVN = s.sec.svn ∧
              t.pwr.blown.svn = s.sec.svn ∧ .fuse 1 s.sec.svn ∈ t.out)))))

/-- CHALLENGE writes a fresh nonce and UNIT_ID; UNLOCK uses the nonce up, and with a good token sets the debug level, at FULL emptying the
key slots (R499, R500). The debug port: IDCODE is always answered; OBSERVE scans the telemetry and status of a register from level OBSERVE
on; memory and resets are open at FULL only, and an instruction that its level does not open changes nothing (R500, R543). Which key signs a
token, what OBSERVE scans and what the other JTAG instructions leave are the model's readings (log entries 65, 67 and 109). -/
def Obligations.DebugAccess : Prop :=
  (
  ∀ (h : Hdr) (s : State) (a : BitVec 48), s.Calm → s.Sound → s.bindingOk h .notBound = true →
    let c := s.refOf h 0x82
    (let bs := leBytes 32 (Config.nonce s.draws).toNat ++ s.unitBytes
     let asked (t : State) : State := { t with draws := s.draws + 1, sec := { s.sec with nonce := some (Config.nonce s.draws) } }
     a.toNat + 40 ≤ hbmEnd →
       exec (.debugChallenge h a) s = .next (((asked (s.stored a.toNat bs (some c))).finish c ⟨ST_OK, 0, 0⟩).settle) ∧
       (s.Unwatched a.toNat 40 → ∃ t : State, s.Stores t a.toNat bs ∧
         exec (.debugChallenge h a) s = .next ((asked t).finish c ⟨ST_OK, 0, 0⟩))) ∧
    (a.toNat + 0x90 ≤ hbmEnd →
      let token := s.hbm.read a.toNat 0x90
      let level := leAt token 0x28 1 % 4
      let used : State := { s with sec := { s.sec with nonce := none } }
      (s.tokenOk token = false → exec (.debugUnlock h a) s = .next (used.finish c ⟨ST_SECURITY, 0, 0⟩)) ∧
      (s.tokenOk token = true → level = 0 ∨ level = 3 → exec (.debugUnlock h a) s = .next (used.finish c ⟨ST_BAD_PARAM, 0, 0⟩)) ∧
      (s.tokenOk token = true → level = 1 ∨ level = 2 →
        ∃ t : State, exec (.debugUnlock h a) s = .next (t.finish c ⟨ST_OK, 0, 0⟩).settle ∧ t.get F.SC_STATUS_DEBUG_LEVEL = level ∧
          t.sec.nonce = none ∧ (level = 1 → t.sec.slots = s.sec.slots) ∧ (level = 2 → t.sec.slots = [] ∧ t.get F.SC_KEYS_OCCUPIED = 0)))) ∧
  (
  ∀ s : State,
    exec (.jtagAccess .idcode) s = .next (s.send (.jtag 0xA5A091CF)) ∧
    (∀ op ∈ [JtagOp.bypass, .samplePreload, .extest, .halt], exec (.jtagAccess op) s = .next s) ∧
    (∀ a : BitVec 24,
      (s.get F.SC_STATUS_DEBUG_LEVEL = 0 → exec (.jtagAccess (.observe a)) s = .next s) ∧
      (1 ≤ s.get F.SC_STATUS_DEBUG_LEVEL → ∃ v, exec (.jtagAccess (.observe a)) s = .next (s.send (.jtag v)) ∧
        ∀ r i j, regAt a.toNat = some (r, i, j) → v = s.statusValue r a.toNat)) ∧
    (s.get F.SC_STATUS_DEBUG_LEVEL ≠ 2 → ∀ (a : BitVec 48) (v : BitVec 8) (d : Domain),
      ∀ op ∈ [JtagOp.memoryRead a, .memoryWrite a v, .resetAssert d, .resetAssertModule, .resetRelease], exec (.jtagAccess op) s = .next s) ∧
    (s.get F.SC_STATUS_DEBUG_LEVEL = 2 →
      (s.Sound → ∀ a : BitVec 48, a.toNat < hbmEnd →
        exec (.jtagAccess (.memoryRead a)) s = .next (s.send (.jtag (s.hbm.get a.toNat).toNat)).settle ∧
        ∀ v : BitVec 8, exec (.jtagAccess (.memoryWrite a v)) s = .next (s.stored a.toNat [v] none).settle) ∧
      (∀ d : Domain, d ≠ .frame → ∃ t : State, exec (.jtagAccess (.resetAssert d)) s = .next t.settle ∧ t.ready d = false ∧
        ∃ x ∈ t.pwr.held, x.dom = d ∧ x.phase = .reset ∧ x.debug = true) ∧
      (s.pwr.lidFailed = false → ∃ t : State, exec (.jtagAccess .resetAssertModule) s = .next t ∧ t.get F.RS_CAUSE_DEBUG = 1 ∧
        t.get F.RS_CAUSE_OWN_DRIVE = 1 ∧ t.get F.PW_STATUS_STATE = 2) ∧
      exec (.jtagAccess .resetRelease) s =
        .next { s with pwr := { s.pwr with held := s.pwr.held.map (fun x => { x with debug := false }) } }))

/-- Secure boot runs the accepted slot with the higher SVN, slot 0 on a tie; with none the module has FAILED and its ports go DOWN. A break
of the lid trace erases the keys, revokes the module and sets DEBUG_LEVEL to 0 (R487, R489, R490, R502). An SPDM request that is not
supported is answered with UnsupportedRequest, one that comes before its connection with UnexpectedRequest, and one that needs keys the
module does not have with Unspecified; each transport has a connection of its own. A response fills the mailbox and clears GO (R492, R493,
R501; the codes are DSP0274's, log entry 6). -/
def Obligations.BootLidAndSpdm : Prop :=
  (
  (∀ (s : State) (f : FuseImage) (a b : FlashSlot), s.sec.fuses = some f → s.get F.PW_STATUS_TRIM_VALID = 1 → s.pwr.bootDone = false →
    s.hubReady = true →
    let ok (x : FlashSlot) : Bool := slotAccepted x f.fwKeyHash (s.get F.SC_STATUS_SVN)
    let runs (k : Nat) (x : FlashSlot) : Prop :=
      ∃ t : State, exec (.secureBoot a b) s = .next t.settle ∧ t.pwr.bootDone = true ∧ t.get F.SC_STATUS_SLOT = k ∧ t.sec.digest = x.digest ∧
        t.sec.svn = x.svn.toNat ∧ t.sec.keys = !s.revoked ∧ (s.get F.PW_STATUS_STATE = 3 → t.get F.PW_STATUS_STATE = 4)
    (ok a = true → ok b = false ∨ b.svn.toNat ≤ a.svn.toNat → runs 0 a) ∧
    (ok b = true → ok a = false ∨ a.svn.toNat < b.svn.toNat → runs 1 b) ∧
    (ok a = false → ok b = false → exec (.secureBoot a b) s = .next (s.put F.PW_STATUS_STATE 11).allPortsDown.settle)) ∧
  ∀ s : State, s.get F.PW_STATUS_STATE ≠ 0 → s.noneDue →
    ∃ t : State, exec .lidBreach s = .next t.settle ∧ t.sec.slots = [] ∧ t.get F.SC_KEYS_OCCUPIED = 0 ∧ t.sec.keys = false ∧ t.sec.nonce = none ∧
      t.get F.SC_STATUS_DEBUG_LEVEL = 0 ∧ t.get F.SC_STATUS_REVOKED = 1 ∧ t.get F.CAP_SECURITY_REVOKED = 1 ∧ t.pwr.blown.revoke = true ∧
      t.pd.failDue = some 0x0C04) ∧
  (
  ∀ (s : State) (req : SpdmReq),
    let error (code data : Nat) : List Byte := [0x12, 0x7F, BitVec.ofNat 8 code, BitVec.ofNat 8 data]
    (s.endpointUp = true →
      (∀ x, req = .other x → exec (.spdmMctpRequest req) s = .next (s.send (.spdm false (error 7 x.toNat)))) ∧
      (∀ need next, spdmNeeds req = some (need, next) →
        (s.sec.mctp < need → exec (.spdmMctpRequest req) s = .next (s.send (.spdm false (error 4 0)))) ∧
        (need ≤ s.sec.mctp → spdmNeedsKeys req = true → s.keyless = true →
          exec (.spdmMctpRequest req) s = .next (s.send (.spdm false (error 5 0)))) ∧
        (need ≤ s.sec.mctp → spdmNeedsKeys req = false ∨ s.keyless = false →
          exec (.spdmMctpRequest req) s = .next (({ s with
            draws := s.draws + 1, sec := { s.sec with mctp := if next = 1 then 1 else max next s.sec.mctp } } : State).send
            (.spdm false (Config.spdmResponse false req s.draws)))))) ∧
    (s.mailboxOpen = true → s.regOpen Reg.SC_SPDM_CTRL = true → ∀ len : BitVec 13,
      ∃ (t : State) (bs : List Byte), exec (.spdmMailboxGo len req) s = .next t ∧ t.get F.SC_SPDM_CTRL_GO = 0 ∧
        t.get F.SC_SPDM_CTRL_LEN = bs.length ∧ t.mailboxBytes bs.length = bs ∧ t.sec.mctp = s.sec.mctp ∧
        (∀ x, req = .other x → bs = error 7 x.toNat) ∧
        (∀ need next, spdmNeeds req = some (need, next) → s.sec.mailbox < need → bs = error 4 0) ∧
        (∀ need next, spdmNeeds req = some (need, next) → need ≤ s.sec.mailbox → spdmNeedsKeys req = false ∨ s.keyless = false →
          bs = (Config.spdmResponse true req s.draws).take 4096 ∧ t.sec.mailbox = if next = 1 then 1 else max next s.sec.mailbox)))

/-- SELF_TEST runs on an IDLE or HALTED module and writes what failed at its destination; INJECT_ERROR arms one error while INJECT_EN is 1
and raises ERROR_INJECTED (R520 to R522). RESET_BLOCK resets the domain that it names and completes when that is ready; one whose reach is
not its kind's, or whose index names nothing, changes nothing. A reset of the module starts it again at FUSE_LOAD, with its cause (R469,
R481, R482). What a test finds is free (log entry 4), and the refusals of INJECT_ERROR are the model's reading (log entry 71). -/
def Obligations.TestsAndBlockResets : Prop :=
  (
  ∀ (h : Hdr) (s : State),
    (∀ (targets : BitVec 6) (dest : BitVec 48), s.bindingOk h .notBound = true → dest.toNat % 64 = 0 → dest.toNat + 64 ≤ hbmEnd →
      let c := s.refOf h 0x90
      let r := s.testResult targets.toNat
      (s.idle = false → exec (.selfTest h targets dest) s = .next (s.finish c ⟨ST_NOT_READY, 0, 0⟩).settle) ∧
      (s.idle = true → s.testIsolated targets.toNat = true →
        exec (.selfTest h targets dest) s = .next (s.finish c ⟨ST_ISOLATED, 0, 0⟩).settle) ∧
      (s.idle = true → s.testIsolated targets.toNat = false → s.Sound →
        ∃ t : State, exec (.selfTest h targets dest) s = .next (t.finish c ⟨ST_OK, 0, r.count⟩).settle ∧ t.draws = s.draws + 1 ∧
          t.hbm.read dest.toNat 64 = r.bytes ∧ r.bytes.length = 64)) ∧
    (∀ (kind : BitVec 8) (store : BitVec 4) (i : BitVec 16) (a : BitVec 48), s.bindingOk h .any = true →
      let c := s.refOf h 0x92
      let ok := injectable kind.toNat store.toNat i.toNat a.toNat
      (ok = false → exec (.injectError h kind store i a) s = .next (s.finish c ⟨ST_BAD_PARAM, 0, 0⟩).settle) ∧
      (ok = true → s.get F.ER_CTRL_INJECT_EN ≠ 1 → exec (.injectError h kind store i a) s = .next (s.finish c ⟨ST_SECURITY, 0, 0⟩).settle) ∧
      (ok = true → s.get F.ER_CTRL_INJECT_EN = 1 →
        exec (.injectError h kind store i a) s = .next (((({ s with
          inject := s.inject ++ [⟨kind.toNat, store.toNat, i.toNat, a.toNat⟩] } : State).raise
          ⟨0x0002, 0, 10, 0, kind.toNat + 256 * store.toNat + 65536 * i.toNat, true, some c⟩).finish c ⟨ST_OK, 0, 0⟩).settle)))) ∧
  (
  ∀ (h : Hdr) (s : State) (reach : Reach) (kind : BlockKind) (i : BitVec 16) (hold : BitVec 32), s.bindingOk h .notBound = true →
    let c := s.refOf h 0x93
    (blockDomainOf kind i.toNat = none ∨ blockReach kind ≠ reach ∨ 10000 < hold.toNat →
      exec (.resetBlock h reach kind i hold) s = .next (s.finish c ⟨ST_BAD_PARAM, 0, 0⟩).settle) ∧
    (∀ d, blockDomainOf kind i.toNat = some d → blockReach kind = reach → hold.toNat ≤ 10000 →
      (kind ≠ .module → ∃ t : State, exec (.resetBlock h reach kind i hold) s = .next t.settle ∧ (∀ x ∈ domainsUnder d, t.ready x = false) ∧
        (kind ≠ .hub → kind ≠ .commandProcessor → ⟨c, d⟩ ∈ t.pwr.waits)) ∧
      (kind = .module → s.pwr.lidFailed = false → ∃ t : State, exec (.resetBlock h reach kind i hold) s = .next t.settle ∧
        t.get F.PW_STATUS_STATE = 2 ∧ t.get F.RS_CAUSE_SOFTWARE = 1 ∧ t.get F.RS_CAUSE_OWN_DRIVE = 1 ∧ t.get F.RS_MRST_LEVEL = 0 ∧
        t.cp.flights = [] ∧ ∀ d, t.ready d = false)))

/-- A port that has trained sends its INIT flit; with the companion's of the same VERSION it is UP, and fewer than 256 slots in a class
leave it DOWN. A port that is not UP in time is DOWN. A port that leaves L0 for recovery counts it (R454, R455, R458). A port that goes DOWN
hands its outstanding requests to the other, with the same tags; with both DOWN no request stands, and OXL_LOST halts the Period. A request
without a response in time is given up, and raises OXL_TIMEOUT: a line that was asked for stands as it was, and the bytes of a write are
undefined (R457). Other VERSIONs, timeouts in INIT and when OXL_LOST is raised are the model's readings (log entry 108). -/
def Obligations.OrrexPorts : Prop :=
  (
  ∀ (s : State) (l : Fin 2),
    let st := s.get (linkField l)
    let v := s.oxlLink l
    (st ≤ 1 → s.endpointUp = true → ∃ t : State, exec (.oxlPortTrained l) s = .next t ∧ t.get (linkField l) = 2 ∧
      t.oxlLink l = { v with initSent := true } ∧ t.out = s.out ++ [.oxlInit l (s.get F.ZF_UNIT_ID_UNIT_ID)] ∧
      s.sameRegs t [linkField l, F.OXL_STATUS_SINGLE]) ∧
    (st = 2 → ∀ (version : BitVec 8) (req rsp snp : BitVec 16) (limit : BitVec 48),
      (req.toNat < 256 ∨ rsp.toNat < 256 ∨ snp.toNat < 256 →
        ∃ t : State, exec (.oxlInit l version req rsp snp limit) s = .next t.settle ∧ t.get (linkField l) = 0 ∧
          t.get F.OXL_ERRS_PROTOCOL = min (s.get F.OXL_ERRS_PROTOCOL + 1) (2 ^ F.OXL_ERRS_PROTOCOL.len - 1)) ∧
      (256 ≤ req.toNat → 256 ≤ rsp.toNat → 256 ≤ snp.toNat →
        (version ≠ 1 → exec (.oxlInit l version req rsp snp limit) s = .next s.settle) ∧
        (version = 1 → ∃ t : State, exec (.oxlInit l version req rsp snp limit) s = .next t.settle ∧
          t.get F.OXL_MEM_LIMIT_LIMIT = limit.toNat ∧ t.get (linkField l) = (if v.initSent then 3 else 2) ∧
          t.oxlLink l = { v with req := req.toNat, rsp := rsp.toNat, snp := snp.toNat, initGot := true }))) ∧
    (st = 1 ∨ st = 2 → ∃ t : State, exec (.oxlTrainingTimeout l) s = .next t.settle ∧ t.get (linkField l) = 0 ∧
      t.get F.OXL_ERRS_LINK_DOWN = min (s.get F.OXL_ERRS_LINK_DOWN + 1) (2 ^ F.OXL_ERRS_LINK_DOWN.len - 1)) ∧
    (s.oxlUp l = true → ∃ t : State, exec (.l0ExitToRecovery l) s = .next t.settle ∧
      t.get (F.OXL_LINK_RECOVERIES l) = min (s.get (F.OXL_LINK_RECOVERIES l) + 1) (2 ^ (F.OXL_LINK_RECOVERIES l).len - 1) ∧
      t.oxlLink l = { v with outOfL0 := true } ∧ s.sameRegs t [F.OXL_LINK_RECOVERIES l])) ∧
  (
  ∀ (s : State), s.noneDue →
    (∀ l : Fin 2, s.oxlUp l = true →
      (s.oxlUp (1 - l.val) = true → ∃ t : State, exec (.oxlL0Loss l) s = .next t.settle ∧ t.get (linkField l) = 0 ∧
        (∀ r ∈ t.oxl.pending, r.link ≠ l.val) ∧
        ∀ r ∈ s.oxl.pending, r.link = l.val →
          .oxlRequest (1 - l.val) r.kind r.tag r.addr r.len r.data ∈ t.out ++ (t.oxlLink (1 - l.val)).queue) ∧
      (s.oxlUp (1 - l.val) = false → ∃ t : State, exec (.oxlL0Loss l) s = .next t.settle ∧ t.get (linkField l) = 0 ∧ t.oxl.pending = [] ∧
        t.pd.haltDue = some 0x0E03)) ∧
    (∀ tag : BitVec 12,
      (s.oxlRequestOf tag.toNat = none → exec (.oxlTimeout tag) s = .next s) ∧
      (∀ r, s.oxlRequestOf tag.toNat = some r →
        let u := s.dropReq r false OXL_ISOLATED
        u.oxl.pending = s.oxl.pending.erase r ∧
        (r.kind ≠ .readOwn → r.merge = none → ∀ x, x < r.addr ∨ r.addr + r.old.length ≤ x → u.comp.get x = s.comp.get x) ∧
        (∀ off v, r.kind = .readOwn → r.merge = some (off, v) → r.old ≠ [] → u.comp = s.comp.write (r.addr + off) r.old) ∧
        exec (.oxlTimeout tag) s = .next (((u.pumpOxl.pumpRecords).bump F.OXL_ERRS_TIMEOUTS 1).raise ⟨0x0E04, 2, 14, r.link, 0, false, none⟩).settle)))

/-- The companion's accesses: an HBM window access is BUSY before READY, ACCESS when it is malformed, UNMAPPED outside HBM, REFUSED for a
write to an alias and a read of one that is not VERIFIED, and else reads or stores what it names; a CONTROL access is answered with its
status; a reserved window breaks the protocol, as a flit of TYPE 3 does; a DOORBELL writes its ring's TAIL. A flit's header brings its
credits, and a response leaves at once while the port has the credits for it (R444, R446 to R449, R454, R456). A snoop is answered by the
state of its line, with the data of a line that is being merged, and with WB_PENDING while its WRITEBACK is not acknowledged. The line
granted for a part of a line is merged and written back; the data of another read are kept for their agent; the ACK of a write lets its
interrupt go out; a response that refuses a request ends it, and one with a reserved STATUS breaks the protocol (R426, R446, R447, R451,
R453, R457). The statuses of the HBM window and the line that a record is merged into are the model's readings (log entries 106 to 108). -/
def Obligations.CompanionAccesses : Prop :=
  (
  ∀ (s : State) (l : Fin 2), s.oxlUp l = true →
    (∀ flit : BitVec 96, NormalFlit flit →
      (∀ (tag : BitVec 12) (a : BitVec 48) (n : BitVec 11),
        let u := s.heard l flit 0 0
        let reads (st : Nat) (bs : List Byte) : Prop :=
          exec (.oxlRead ⟨l, flit⟩ tag 1 a n) s = .next (u.sendLink l (.oxlData l tag.toNat st bs)).settle
        let ff := List.replicate n.toNat (0xFF : Byte)
        (s.hbmBusy = true → reads 6 ff) ∧
        (s.hbmBusy = false → hbmShaped a.toNat n.toNat = false → reads 2 ff) ∧
        (s.hbmBusy = false → hbmShaped a.toNat n.toNat = true →
          (rangeSpace a.toNat n.toNat = none ∨ rangeSpace a.toNat n.toNat = some .companion → reads 1 ff) ∧
          (∀ sp, sp = .present ∨ sp = .future → rangeSpace a.toNat n.toNat = some sp → s.bankState (s.bankOf sp) ≠ 2 → reads 5 ff) ∧
          (rangeSpace a.toNat n.toNat = some .hbm → s.Sound → reads 0 (s.hbm.read a.toNat n.toNat))) ∧
        (∀ w st v, u.controlRead a.toNat n.toNat = (w, st, v) →
          exec (.oxlRead ⟨l, flit⟩ tag 0 a n) s =
            .next (w.sendLink l (.oxlData l tag.toNat st (if st = 0 then leBytes n.toNat v else List.replicate n.toNat 0xFF))).settle) ∧
        (∀ w : BitVec 2, 2 ≤ w.toNat → ∃ t : State, exec (.oxlRead ⟨l, flit⟩ tag w a n) s = .next t.settle ∧ t.get (linkField l) = 0)) ∧
      (∀ (tag : BitVec 12) (a : BitVec 48) (bs : List (BitVec 8)),
        let n := bs.length
        let u := s.heard l flit 0 n
        let acks (t : State) (st : Nat) : Prop :=
          exec (.oxlWrite ⟨l, flit⟩ tag 1 a bs) s = .next (t.sendLink l (.oxlAck l tag.toNat st)).settle
        (s.hbmBusy = true → acks u 6) ∧
        (s.hbmBusy = false → hbmShaped a.toNat n = false → acks u 2) ∧
        (s.hbmBusy = false → hbmShaped a.toNat n = true →
          (rangeSpace a.toNat n = none ∨ rangeSpace a.toNat n = some .companion → acks u 1) ∧
          (rangeSpace a.toNat n = some .present ∨ rangeSpace a.toNat n = some .future → acks u 5) ∧
          (rangeSpace a.toNat n = some .hbm → s.Sound → acks (u.stored a.toNat bs none) 0)) ∧
        (∀ w st, u.controlWrite a.toNat n (ofLE bs) = (w, st) →
          exec (.oxlWrite ⟨l, flit⟩ tag 0 a bs) s = .next (w.sendLink l (.oxlAck l tag.toNat st)).settle) ∧
        (∀ w : BitVec 2, 2 ≤ w.toNat → ∃ t : State, exec (.oxlWrite ⟨l, flit⟩ tag w a bs) s = .next t.settle ∧ t.get (linkField l) = 0)) ∧
      (∀ (k : Fin 64) (tail : BitVec 24),
        let u := s.heard l flit 0 0
        (s.regOpen (Reg.CP_RING_TAIL k) = true → exec (.oxlDoorbell ⟨l, flit⟩ k tail) s = .next (u.doorbell k tail.toNat).settle) ∧
        (s.regOpen (Reg.CP_RING_TAIL k) = false → exec (.oxlDoorbell ⟨l, flit⟩ k tail) s = .next u.settle)) ∧
      (∀ cls n, (s.oxlLink l).queue = [] → bits flit.toNat 16 2 < 3 →
        ((s.heard l flit cls n).oxlLink l).credit (bits flit.toNat 16 2) =
          (s.oxlLink l).credit (bits flit.toNat 16 2) + bits flit.toNat 18 10)) ∧
    (∀ (flit : BitVec 96) (k : Fin 64) (tail : BitVec 24), bits flit.toNat 14 2 = 3 →
      ∃ t : State, exec (.oxlDoorbell ⟨l, flit⟩ k tail) s = .next t.settle ∧ t.get (linkField l) = 0) ∧
    (∀ m : OutMsg, (s.oxlLink l).queue = [] → m.oxlCost ≤ (s.oxlLink l).credit m.oxlClass →
      (s.sendLink l m).out = s.out ++ [m] ∧ ((s.sendLink l m).oxlLink l).credit m.oxlClass = (s.oxlLink l).credit m.oxlClass - m.oxlCost)) ∧
  (
  ∀ (s : State) (l : Fin 2) (flit : BitVec 96) (tag : BitVec 12), s.oxlUp l = true → NormalFlit flit →
    (∀ (a : BitVec 48) (shared : Bool),
      let i : Instr := if shared then .snpShared ⟨l, flit⟩ tag a else .snpInv ⟨l, flit⟩ tag a
      let u := s.heard l flit 2 0
      let line := a.toNat / 64 * 64
      let answers (t : State) (sh wb : Bool) (bs : List Byte) : Prop :=
        exec i s = .next (t.sendLink l (.snpRsp l tag.toNat sh wb bs)).settle
      (s.lineAt line = none → answers u false false []) ∧
      (∀ x, s.lineAt line = some x →
        (x.state = .wb → answers u false true []) ∧
        (x.state ≠ .wb → ∃ t : State, answers t shared false (if x.state = .m then x.data else []) ∧
          t = { u with oxl := { u.oxl with lines := t.oxl.lines } } ∧
          (shared = false → t.lineAt line = none) ∧ (shared = true → ∃ y, t.lineAt line = some y ∧ y.state = .s ∧ y.data = x.data)))) ∧
    (∀ (st : BitVec 4) (bs : List (BitVec 8)),
      let u := s.heard l flit 1 bs.length
      let v := s.heard l flit 1 0
      (7 ≤ st.toNat → (∃ t : State, exec (.oxlData ⟨l, flit⟩ tag st bs) s = .next t.settle ∧ t.get (linkField l) = 0) ∧
        ∃ t : State, exec (.oxlAck ⟨l, flit⟩ tag st) s = .next t.settle ∧ t.get (linkField l) = 0) ∧
      (st.toNat < 7 → s.oxlRequestOf tag.toNat = none →
        exec (.oxlData ⟨l, flit⟩ tag st bs) s = .next u.settle ∧ exec (.oxlAck ⟨l, flit⟩ tag st) s = .next v.settle) ∧
      (∀ r, s.oxlRequestOf tag.toNat = some r →
        (st = 0 → r.kind = .readOwn → bs.length = 64 → (∀ off w, r.merge = some (off, w) → off + w.length ≤ 64) →
          let merged := match r.merge with | some (off, w) => overlay bs off w | none => bs
          ∃ (t : State) (p g : Nat), exec (.oxlData ⟨l, flit⟩ tag st bs) s = .next t.settle ∧ t.comp = s.comp.write r.addr merged ∧
            .oxlRequest p .writeback g r.addr r.len merged ∈ t.out ++ (t.oxlLink p).queue ∧
            { r with tag := g, link := p, kind := .writeback, data := merged } ∈ t.oxl.pending ∧
            t.lineAt r.addr = some ⟨r.addr, .wb, merged⟩) ∧
        (st = 0 → r.kind = .readCur ∨ r.kind = .readShared → bs.length = r.len →
          let t := u.dataRead r bs
          exec (.oxlData ⟨l, flit⟩ tag st bs) s = .next (t.pumpAgents).settle ∧ t.comp = s.comp.write r.addr bs ∧
            t.oxl.pending = s.oxl.pending.erase r ∧ ∀ o, r.owner = some o → ⟨o, r.addr, r.len, OXL_OK⟩ ∈ t.oxl.seen) ∧
        (0 < st.toNat → st.toNat < 7 → r.kind.reads = true →
          exec (.oxlData ⟨l, flit⟩ tag st bs) s = .next (u.oxlFail r true st.toNat).settle) ∧
        (r.kind = .writeback ∨ r.kind = .writeBulk →
          (st = 0 →
            let t := v.writePerformed r
            exec (.oxlAck ⟨l, flit⟩ tag st) s = .next (t.pumpAgents).settle ∧
              (r.record = none → t.oxl.pending = s.oxl.pending.erase r ∧ (∀ x ∈ t.oxl.lines, overlaps x.addr 64 r.addr r.len = false) ∧
                (r.irq = none → t.out = v.out) ∧
                ∀ w q, r.irq = some w → v.oxlPort 0 = some q → (v.oxlLink q).queue = [] → 1 ≤ (v.oxlLink q).req →
                  t.out = v.out ++ [.interrupt q w])) ∧
          (0 < st.toNat → st.toNat < 7 → exec (.oxlAck ⟨l, flit⟩ tag st) s = .next (v.oxlFail r true st.toNat).settle)))))

/-- The input that rises through 10 V drives MRST_N low; qualified, it takes an OFF module to POWERING unless THERMTRIP holds it; rails in
regulation take it to FUSE_LOAD with PGOOD. A removed input, a brown-out, an overvoltage stop and THERMTRIP are resets of reach P: the
module is OFF, every domain is in reset, what HBM held is undefined, and the bits blown into the fuses stay (R462 to R464, R467, R473,
R476). Warnings: POWER_WARNING puts the warning cap in force and counts itself, POWER_RECOVERED takes it back, OVERVOLTAGE raises its event.
A measurement that takes the average of the last 100 µs above the cap in force, or that of the last 1 ms above that of the 1 ms before by
more than the ramp allows, or a junction at 105 °C, steps the arithmetic clock down by 25 MHz, not below 1,200 MHz; PW_INPUT shows the
averages of 100 µs (R24, R464 to R467, R514). Within the cap and the ramp the clock's step is free, and when HOT clears is the model's
choice (log entry 62); RS_MRST.LEVEL reads 1 without input (log entry 109). -/
def Obligations.PowerAndClock : Prop :=
  (
  ∀ s : State,
    let off (t : State) : Prop := t.get F.PW_STATUS_STATE = 0 ∧ t.get F.PW_STATUS_PGOOD = 0 ∧ t.cp.flights = [] ∧ t.pwr.blown = s.pwr.blown ∧
      (∀ d, t.ready d = false) ∧ ∃ n, ∀ a < hbmEnd, t.hbm.get a = Config.freeByte n a
    (s.pwr.above10 = true → exec (.inputCrosses10V true) s = .next s) ∧
    (s.pwr.above10 = false → ∃ t : State, exec (.inputCrosses10V true) s = .next t ∧ t.pwr.above10 = true ∧
      (s.get F.PW_STATUS_STATE = 0 → t.get F.RS_MRST_LEVEL = 0 ∧ t.pwr.mrstDriven = true)) ∧
    (∃ t : State, exec (.inputCrosses10V false) s = .next t ∧ t.get F.PW_STATUS_STATE = 0 ∧ t.pwr.above10 = false ∧ t.pwr.thermLatch = false ∧
      t.get F.RS_MRST_LEVEL = 1 ∧ (s.get F.PW_STATUS_STATE ≠ 0 → off t)) ∧
    (s.get F.PW_STATUS_STATE = 0 → s.pwr.above10 = true →
      (s.pwr.thermLatch = false → exec .inputQualified s = .next (s.put F.PW_STATUS_STATE 1)) ∧
      (s.pwr.thermLatch = true → exec .inputQualified s = .next s)) ∧
    (s.get F.PW_STATUS_STATE = 1 → ∃ t : State, exec .railsInRegulation s = .next t ∧ t.get F.PW_STATUS_STATE = 2 ∧
      t.get F.PW_STATUS_PGOOD = 1 ∧ s.sameRegs t [F.PW_STATUS_STATE, F.PW_STATUS_PGOOD]) ∧
    (s.get F.PW_STATUS_STATE ≠ 0 → ∀ i ∈ [Instr.overvoltageStop, .brownOut, .thermtrip], ∃ t : State, exec i s = .next t ∧ off t ∧
      t.get F.RS_MRST_LEVEL = 0 ∧ t.pwr.mrstDriven = true ∧ t.pwr.thermLatch = (s.pwr.thermLatch || decide (i = .thermtrip)))) ∧
  (
  ∀ s : State, s.powered = true → s.get F.PW_CLOCK_ARITH_MHZ ≤ 3600 →
    let clock := s.get F.PW_CLOCK_ARITH_MHZ
    let down := max 1200 (clock - 25)
    let up := if s.get F.PW_STATUS_HOT = 1 then clock else min 3600 (clock + 25)
    (∃ t : State, exec .powerWarning s = .next t.settle ∧ t.get F.PW_STATUS_WARN = 1 ∧
      t.get F.PW_COUNTS_WARNINGS = min (s.get F.PW_COUNTS_WARNINGS + 1) (2 ^ F.PW_COUNTS_WARNINGS.len - 1)) ∧
    (s.get F.PW_STATUS_WARN = 1 → ∃ t : State, exec .powerRecovered s = .next t.settle ∧ t.get F.PW_STATUS_WARN = 0) ∧
    exec .overvoltage s = .next (s.raise ⟨0x0D03, 0, 13, 0, 0, false, none⟩).settle ∧
    (∀ v i p : BitVec 16,
      let cap := if s.get F.PW_STATUS_WARN = 1 then 10 * s.get F.PW_CFG_WARN_CAP_W else 20000
      let ramp := s.get F.PW_CFG_RAMP_MS
      let kept := (⟨v.toNat, i.toNat, p.toNat⟩ :: s.pwr.samples).take 2000
      let near := kept.take 100
      let mean (f : InputSample → Nat) : Nat := sumList (near.map f) / near.length % 2 ^ 16
      let power (xs : List InputSample) : Nat := sumList (xs.map (fun x => x.deciWatts))
      let exceeded : Prop := cap * near.length < power near ∨
        (kept.length = 2000 ∧ ramp * power (kept.drop 1000) + 1000 * 20000 < ramp * power (kept.take 1000))
      ∃ t : State, exec (.powerMeasurement v i p) s = .next t ∧ t.pwr = { s.pwr with samples := kept } ∧
        t.get F.PW_INPUT_VIN = mean (fun x => x.milliVolts) ∧ t.get F.PW_INPUT_IIN = mean (fun x => x.tenMilliAmps) ∧
        t.get F.PW_INPUT_PIN = mean (fun x => x.deciWatts) ∧
        (exceeded → t.get F.PW_CLOCK_ARITH_MHZ = down) ∧
        (¬ exceeded → t.get F.PW_CLOCK_ARITH_MHZ = if Config.clockStep s.draws = 0 then clock
          else if Config.clockStep s.draws = 1 then up else down)) ∧
    (∀ (c : BitVec 40) (mv : BitVec 80),
      let temp (d : Nat) : Nat := bits c.toNat (8 * d) 8
      let hottest := maxList ((List.range 5).map temp)
      ∃ t : State, exec (.junctionTemperatureSample c mv) s = .next t.settle ∧ t.get F.PW_CLOCK_TJ_MAX = hottest ∧
        (∀ d < 5, t.get (F.TM_TEMP_CURRENT d) = temp d ∧ t.get (F.TM_TEMP_PEAK d) = max (temp d) (s.get (F.TM_TEMP_PEAK d)) % 2 ^ 8 ∧
          t.get (F.TM_RAIL_MV d) = bits mv.toNat (16 * d) 16) ∧
        t.get F.PW_STATUS_HOT = (if hottest < 105 then 0 else 1) ∧
        t.get F.PW_CLOCK_ARITH_MHZ = if 105 < hottest ∨ (hottest = 105 ∧ s.get F.PW_STATUS_HOT ≠ 1) then down else clock))

/-- The reset sources: MRST_N, the module's watchdog and the loss of REFCLK start the module again, each with its cause, and HBM keeps what
it holds where no transfer and no event record is under way; a quarter's watchdog or PLL resets the quarter; a lock-up resets the command
processor, and the module when it comes again within 1 s (R469 to R473, R478). A domain in reset that no source holds is released once its
parent is ready, and is ready when its release sequence is done; the straps are sampled as the frame is released (R468, R474, R475, R541). -/
def Obligations.ResetSourcesAndRelease : Prop :=
  (
  ∀ s : State, s.powered = true →
    let again (i : Instr) (cause : Field) : Prop := ∃ t : State, exec i s = .next t ∧ t.get cause = 1 ∧ (∀ d, t.ready d = false) ∧
      (s.coll.runs = [] → s.cp.evWaits = [] → t.hbm = s.hbm) ∧ t.cp = CpState.reset ∧ t.pd = PdState.reset ∧ t.sec.fuses = s.sec.fuses ∧ t.get F.RS_MRST_LEVEL = 0 ∧
      t.get F.PW_STATUS_STATE = (if s.pwr.lidFailed then 11 else 2) ∧ t.get F.PC_COMMITTED_COMMITTED = noPeriod
    (s.pwr.mrstDriven = false → again .mrstAssertion F.RS_CAUSE_MRST_EXT) ∧
    (s.pwr.mrstDriven = true → exec .mrstAssertion s = .next s) ∧
    (s.hubReady = true → again .moduleWatchdog F.RS_CAUSE_MODULE_WATCHDOG) ∧
    again .refclkLoss F.RS_CAUSE_REFCLK ∧
    (∀ q : Fin 4, ∀ i ∈ [Instr.quarterWatchdog q, .pllLockLoss q],
      (s.ready (.quarter q) = true → ∃ t : State, exec i s = .next t.settle ∧ ∀ x ∈ domainsUnder (.quarter q), t.ready x = false) ∧
      (⟨.quarter q, .reset, false⟩ ∈ s.pwr.held → exec i s = .next s.settle)) ∧
    (s.ready .commandProcessor = true →
      ((s.escalate 1).escalations 1 = 1 → ∃ t : State, exec .cpLockup s = .next t.settle ∧ t.ready .commandProcessor = false) ∧
      ((s.escalate 1).escalations 1 ≠ 1 → ∃ t : State, exec .cpLockup s = .next t.settle ∧ t.get F.RS_CAUSE_CP_ESCALATION = 1 ∧
        ∀ d, t.ready d = false))) ∧
  (
  ∀ (s : State) (d : Domain),
    let step (h : DomHeld) : DomHeld := if h.dom = d then { h with phase := .releasing } else h
    ((match parentOf d with | some p => s.ready p | none => !s.pwr.stopped) = true → ⟨d, .reset, false⟩ ∈ s.pwr.held →
      ∃ t : State, exec (.resetRelease d) s = .next t.settle ∧ t.pwr.held = s.pwr.held.map step ∧
        let p := Config.strapPins s.draws
        t.pwr.straps = if d = .frame then ⟨p.extractLsb' 0 6, p.extractLsb' 6 8, p.extractLsb' 14 4⟩ else s.pwr.straps) ∧
    ((match parentOf d with | some p => s.ready p | none => !s.pwr.stopped) = false ∨ (∀ h ∈ s.pwr.held, h.dom = d → h.phase = .releasing ∨ h.debug = true) →
      exec (.resetRelease d) s = .next s.settle) ∧
    (s.releaseDone d = true → (∃ h ∈ s.pwr.held, h.dom = d ∧ h.phase = .releasing) →
      ∃ t : State, exec (.domainReady d) s = .next t.settle ∧ t.ready d = true ∧ t.pwr.held = s.pwr.held.filter (fun h => h.dom ≠ d) ∧
        ∀ c, ⟨c, d⟩ ∈ s.pwr.waits → ∃ e ∈ t.cp.ended, e.ref = c ∧ e.done = ⟨ST_OK, 0, 0⟩) ∧
    (s.releaseDone d = false → exec (.domainReady d) s = .next s))

/-- A good fuse load makes the fuses valid, and the first after power-on writes the registers they load; the third bad one in a row leaves
the module FAILED. The stacks' initialisation zeroes HBM, a stack that fails it stays so, and with every stack trained the module becomes
READY (R287, R476 to R480). When each of the three applies is the model's reading (log entry 110). -/
def Obligations.ModuleStarts : Prop :=
  ∀ s : State,
    (∀ f : FuseImage, s.mayLoad = true →
      (f.crcOk = true → ∃ t : State, exec (.fuseLoadDone f) s = .next t ∧ t.get F.PW_STATUS_TRIM_VALID = 1 ∧ t.pwr.fuseLoaded = true ∧
        t.pwr.trimTries = 0 ∧ (s.get F.PW_STATUS_STATE < 10 → t.get F.PW_STATUS_STATE = 3) ∧
        (s.sec.fuses = none → t.sec.fuses = some f ∧ t.get F.ZF_UNIT_ID_UNIT_ID = f.unitId.toNat ∧ t.get F.RS_MRST_LEVEL = 1)) ∧
      (f.crcOk = false → s.pwr.trimTries < 2 →
        exec (.fuseLoadDone f) s = .next { s with pwr := { s.pwr with trimTries := s.pwr.trimTries + 1 } }) ∧
      (f.crcOk = false → 2 ≤ s.pwr.trimTries → ∃ t : State, exec (.fuseLoadDone f) s = .next t ∧ t.get F.PW_STATUS_FUSE_FAIL = 1 ∧
        t.get F.PW_STATUS_STATE = 11 ∧ ∀ p < 8, t.get (F.ZP_STATUS_STATE p) = 0)) ∧
    (∀ failed : BitVec 16, s.get F.PW_STATUS_STATE = 4 → (∀ k < 16, s.get (F.HM_STATUS_STATE k) ≤ 1) →
      ∃ t : State, exec (.hbmInitDone failed) s = .next t.settle ∧
        (∀ k < 16, t.get (F.HM_STATUS_STATE k) = if failed.getLsbD k then 1 else 3) ∧
        t.pwr.trained = (List.range 16).filter (fun k => !failed.getLsbD k) ∧
        (failed = 0 → t.poison = [] ∧ ∀ a < hbmEnd, t.hbm.get a = 0)) ∧
    (s.get F.PW_STATUS_STATE = 4 →
      ((∀ k < 16, 2 ≤ s.get (F.HM_STATUS_STATE k)) → exec .powerOnSelfChecksDone s = .next (s.put F.PW_STATUS_STATE 5)) ∧
      ((∃ k < 16, s.get (F.HM_STATUS_STATE k) < 2) → exec .powerOnSelfChecksDone s = .next s))

/-- The endpoint answers MCTP control messages and PLDM requests: the endpoint ID is set and given, the event receiver is set, an
acknowledged event leaves the queue, and ALERT clears with the last one or by its write. Without the endpoint nothing happens (R516 to R519;
the codes are DSP0236's and DSP0240's, log entry 6). -/
def Obligations.ManagementAnswers : Prop :=
  ∀ s : State,
    (s.endpointUp = true →
      (∀ eid : BitVec 8, exec (.mctpControlMessage (.setEndpointId eid)) s =
        .next (({ s with mgmt := { s.mgmt with eid := eid.toNat } } : State).send (.mctp 1 0 eid.toNat))) ∧
      exec (.mctpControlMessage .getEndpointId) s = .next (s.send (.mctp 2 0 s.mgmt.eid)) ∧
      (∀ c : BitVec 8, exec (.mctpControlMessage (.other c)) s = .next (s.send (.mctp c.toNat 5 0))) ∧
      (∀ t c : BitVec 8, exec (.pldmRequest (.unsupported t c)) s = .next (({ s with draws := s.draws + 1 } : State).send (.pldm 5 []))) ∧
      (∀ r : PldmReq, (∀ t c, r ≠ .unsupported t c) → ∃ t : State,
        exec (.pldmRequest r) s = .next (t.send (.pldm 0 (Config.pldmResponse r (s.pldmReport r) s.draws))) ∧
        (∀ e : BitVec 8, r = .setEventReceiver e → t = { s with draws := s.draws + 1, mgmt := { s.mgmt with receiver := some e.toNat } }) ∧
        (r = .pollForEvents true → t.mgmt = { s.mgmt with queue := s.mgmt.queue.tail } ∧
          t.get F.ER_STATUS_PLDM_QUEUED = s.mgmt.queue.tail.length % 2 ^ F.ER_STATUS_PLDM_QUEUED.len ∧
          (s.mgmt.queue.tail = [] → t.get F.ER_STATUS_ALERT = 0) ∧ (s.mgmt.queue.tail ≠ [] → t.get F.ER_STATUS_ALERT = s.get F.ER_STATUS_ALERT)) ∧
        ((∀ e, r ≠ .setEventReceiver e) → r ≠ .pollForEvents true → t = { s with draws := s.draws + 1 }))) ∧
    (s.endpointUp = false → (∀ m, exec (.mctpControlMessage m) s = .next s) ∧ ∀ r, exec (.pldmRequest r) s = .next s) ∧
    (s.regOpen Reg.ER_STATUS = true → exec .alertClearWrite s = .next (s.put F.ER_STATUS_ALERT 0)) ∧
    (s.regOpen Reg.ER_STATUS = false → exec .alertClearWrite s = .next s)

/-- An access that reaches no register reads ones and writes nothing, and a malformed one is counted and raises OXL_BAD_ACCESS. A read gives
the fields, and its RC fields become 0. The low word of a 64-bit register latches its high word for the next read of that; word 0 of a break
map latches the others; a read of TM_SLACK starts it anew. A write sets RW fields that take it, clears the ones written to W1C fields, sets
those written to W1S fields, and nothing else (R7 to R12, R340, R447, R449, R515). The order of BUSY, malformed and ISOLATED, and what a
half-word access clears and latches, are the model's readings (log entries 102 and 103). -/
def Obligations.RegisterAccesses : Prop :=
  ∀ (s : State) (a : BitVec 24) (wide : Bool),
    let n := if wide then 8 else 4
    let x := a.toNat
    let reads (u : State) (v : Nat) : Prop := exec (.readClearAccess a wide) s = .next (u.send (.regRead x v)).settle
    let writes (v : BitVec 64) (u : State) : Prop := exec (.registerWrite a wide v) s = .next u.settle
    let open_ (t : Target) : Prop := s.busy x = false ∧ aimOf x n = .at_ t ∧ s.ready (domainOf t.row.domain t.i) = true
    let acting : List Nat := [Reg.CP_RING_CTRL 0, Reg.CP_RING_TAIL 0, Reg.CP_EVT_CTRL, Reg.CP_EVT_ACK, Reg.DM_MAP, Reg.QC_RETIRE_REQ 0,
      Reg.PC_CTRL, Reg.RR_CTRL, Reg.BW_TIE 0, Reg.ZP_CTRL 0, Reg.ZF_BOARD_ID, Reg.SC_SPDM_CTRL]
    (s.busy x = true ∨ aimOf x n = .unmapped ∨ (∃ t, aimOf x n = .at_ t ∧ s.ready (domainOf t.row.domain t.i) = false) →
      reads s (2 ^ (8 * n) - 1) ∧ ∀ v, writes v s) ∧
    (s.busy x = false → aimOf x n = .malformed →
      let u := (s.bump F.OXL_ERRS_BAD_ACCESS 1).raise ⟨0x0E05, 0, 14, 0, 0, false, none⟩
      reads u (2 ^ (8 * n) - 1) ∧ ∀ v, writes v u) ∧
    (∀ (r : RegRow) (i : Nat), open_ ⟨r, i, x, .whole⟩ →
      (∃ u : State, reads u ((alGet s.latches (breakKey x)).getD (s.regValue r x)) ∧ u = { s with regs := u.regs, latches := u.latches } ∧
        s.sameRegs u ((r.fields.filter (fun f => f.access = .rc)).map (fun f => f.at x)) ∧
        (r.base ≠ Reg.TM_SLACK 0 → ∀ f ∈ r.fields, f.access = .rc → u.get (f.at x) = 0)) ∧
      (r.base ∉ acting → ∀ v : BitVec 64, ∃ u : State, writes v u ∧ u = { s with regs := u.regs } ∧
        s.sameRegs u (r.fields.map (fun f => f.at x)) ∧
        ∀ f ∈ r.fields,
          let w := bits (v.toNat % 2 ^ (8 * n)) f.lo f.len
          let old := s.get (f.at x)
          u.get (f.at x) = match f.access with
            | .rw => if s.takes r.base i f.lo && !reserved r.base f.lo w then w else old
            | .rwl => if s.takes r.base i f.lo && !reserved r.base f.lo w then w else old
            | .w1c => (old - (old &&& w)) % 2 ^ f.len
            | .w1s => (old ||| w) % 2 ^ f.len
            | _ => old)) ∧
    (∀ (r : RegRow) (i : Nat) (b h : Nat), open_ ⟨r, i, b, .high⟩ → alGet s.latches (highKey b) = some h → reads (s.unlatch (highKey b)) h) ∧
    (∀ (r : RegRow) (i : Nat), s.busy (x / 8 * 8) = false → aimOf (x / 8 * 8) 4 = .at_ ⟨r, i, x / 8 * 8, .low⟩ →
      s.ready (domainOf r.domain i) = true →
      let v := (alGet s.latches (breakKey (x / 8 * 8))).getD (s.regValue r (x / 8 * 8))
      ∃ u : State, exec (.lowWordReadLatch a) s = .next (u.send (.regRead (x / 8 * 8) (v % 2 ^ 32))).settle ∧
        alGet u.latches (highKey (x / 8 * 8)) = some (v / 2 ^ 32)) ∧
    (∀ axis : Fin 3, s.regOpen (Reg.ZF_BREAK axis 0) = true → ∃ (u : State) (v : Nat),
      exec (.breakMapWord0Read axis) s = .next (u.send (.regRead (Reg.ZF_BREAK axis 0) v)).settle ∧ u = { s with latches := u.latches } ∧
        ∀ w ∈ [1, 2, 3], alGet u.latches (breakKey (Reg.ZF_BREAK axis w)) = some (s.get (F.ZF_BREAK_BREAKS axis w))) ∧
    (∀ c : Fin 16, s.regOpen (Reg.TM_SLACK c) = true → alGet s.latches (breakKey (Reg.TM_SLACK c)) = none →
      ∃ u : State, exec (.tmSlackRead c) s = .next (u.send (.regRead (Reg.TM_SLACK c) (s.get (F.TM_SLACK_MIN_US c)))).settle ∧
        u.get (F.TM_SLACK_MIN_US c) = 0xFFFFFFFF ∧ s.sameRegs u [F.TM_SLACK_MIN_US c])

/-- An event that the ring takes fills the record that SEQ names with its code, class, phase, subsystem, instance, Period, time, detail and
SEQ, changes no other byte of HBM and advances SEQ; one that a disabled or full ring cannot take is counted in CP_EVT_LOST, and the first
fatal one is kept. After a loss EVENT_OVERFLOW is recorded first, with the counts of what was lost. An event is counted by its class, and
one of class PERIOD_FATAL or MODULE_FATAL has its action due (R428 to R431, R506 to R508). Behind a record under way to companion memory it
waits (log entry 134). The PERIOD field outside a Period is the model's reading (log entry 12). -/
def Obligations.EventsAreRecorded : Prop :=
  ∀ (s : State) (e : Ev), s.Sound → e.code < 2 ^ 16 → e.cls ≤ 4 → e.sub < 256 → s.withholds (s.evNow e) = false →
    let t := s.raise e
    let seq := s.get F.CP_EVT_SEQ_SEQ
    let a := s.eventSlot
    let r := t.hbm.read a 64
    let full := s.evtSize ≤ (seq + 2 ^ 48 - s.get F.CP_EVT_ACKED_ACKED) % 2 ^ 48
    let opens := s.get F.CP_EVT_CTRL_ENABLE ≠ 0 ∧ ¬ full ∧ a + 64 ≤ hbmEnd
    (e.cls < 3 → t.pd.haltDue = s.pd.haltDue ∧ t.pd.failDue = s.pd.failDue) ∧
    (e.cls = 3 → s.pd.haltDue = none → t.pd.haltDue = some e.code) ∧
    (e.cls = 4 → s.pd.failDue = none → t.pd.failDue = some e.code) ∧
    (s.recordBusy = true → t.cp.evWaits = s.cp.evWaits ++ [s.evNow e] ∧ t.hbm = s.hbm ∧ t.get F.CP_EVT_SEQ_SEQ = seq) ∧
    (s.recordBusy = false → s.get F.CP_STATUS_EVT_OVERFLOW = 0 →
      t.get (F.ER_CLASS_COUNT e.cls) = min (s.get (F.ER_CLASS_COUNT e.cls) + 1) (2 ^ (F.ER_CLASS_COUNT e.cls).len - 1) ∧
      (opens →
        leAt r 0 4 = e.code + e.cls * 2 ^ 16 + (if seq / s.evtSize % 2 = 0 then 2 ^ 31 else 0) ∧
        leAt r 4 1 = e.sub ∧ leAt r 5 3 = e.inst % 2 ^ 24 ∧ leAt r 8 8 = s.eventPeriod % 2 ^ 64 ∧ leAt r 16 8 = s.now % 2 ^ 64 ∧
        leAt r 24 4 = (match e.cmd with | some c => c.tag % 2 ^ 32 | none => 0) ∧
        leAt r 28 4 = (match e.cmd with | some c => c.ring % 64 + 64 | none => 0) ∧
        leAt r 32 8 = e.d0 % 2 ^ 64 ∧ leAt r 48 8 = seq % 2 ^ 64 ∧
        (∀ x, x < a ∨ a + 64 ≤ x → t.hbm.get x = s.hbm.get x) ∧ t.get F.CP_EVT_SEQ_SEQ = (seq + 1) % 2 ^ 48 ∧
        (s.get F.CP_CTRL_IRQ_CLASS ≤ e.cls → s.cp.irqArmed = true → ∀ l, s.oxlPort 0 = some l →
          .interrupt l 64 ∈ t.out ++ (t.oxlLink l).queue ∧
          ((s.oxlLink l).queue = [] → (OutMsg.interrupt l 64).oxlCost ≤ (s.oxlLink l).req → .interrupt l 64 ∈ t.out))) ∧
      (s.get F.CP_EVT_CTRL_ENABLE = 0 ∨ full →
        t.hbm = s.hbm ∧ t.get F.CP_EVT_SEQ_SEQ = seq ∧ t.get F.CP_STATUS_EVT_OVERFLOW = 1 ∧
        t.get (lostField e.cls) = min (s.get (lostField e.cls) + 1) (2 ^ (lostField e.cls).len - 1) ∧
        (3 ≤ e.cls → s.get F.CP_EVT_FATAL_VALID = 0 → t.get F.CP_EVT_FATAL_CODE = e.code ∧ t.get F.CP_EVT_FATAL_CLASS = e.cls ∧
          t.get F.CP_EVT_FATAL_VALID = 1))) ∧
    (s.recordBusy = false → s.get F.CP_STATUS_EVT_OVERFLOW = 1 → opens → seq < 2 ^ 48 → s.get F.CP_EVT_ACKED_ACKED < 2 ^ 48 →
      leAt r 0 4 % 2 ^ 19 = 0x0A02 + 2 * 2 ^ 16 ∧ leAt r 32 8 = s.cp.lost.word % 2 ^ 64 ∧ leAt r 48 8 = seq % 2 ^ 64)

/-- The packet of a memory command, of NOP, QUERY or EVENT_ACK is 64 bytes, and the reader of packets gets that command from it, with every
field of its header and every operand, at every value that they can have (R290, R293, R302, R304, R415, R416, R432, R433). The header of a
Zorren flit reads back from its 96 bits, and the image of a flit is 256 bytes whose CRC agrees with its contents (R312, R313); the header of
an Orrex Link flit and the header slot of a message read back (R444, R445). -/
def Obligations.PacketsReadBack : Prop :=
  (∀ (i : Instr) (h : Hdr) (op v : Nat) (bs : List Byte), packetParts i = some (h, op, v) → encodePacket i = some bs →
    let p := PacketHead.parse (bs.take 16)
    bs.length = 64 ∧ p.length = 8 ∧ p.opcode = op ∧ p.reserved = false ∧ p.hdr h.ring h.seq.toNat = h ∧
      (packetCommand p h (bs.drop 16)).1 = some i) ∧
  (∀ h : Hdr, (packetParts (.nop h)).isSome = true ∧
    (∀ a : BitVec 48, (packetParts (.query h a)).isSome = true ∧ (packetParts (.eventAck h a)).isSome = true) ∧
    (∀ p : CopyParams, (packetParts (.dmaCopy h p)).isSome = true) ∧ (∀ p : LoadParams, (packetParts (.loadShard h p)).isSome = true) ∧
    (∀ (n : BitVec 48) (c : Bool), (packetParts (.swapTense h n c)).isSome = true) ∧
    (∀ t : VerifyTarget, (packetParts (.verifyShard h t)).isSome = true) ∧
    (∀ c b k t, (packetParts (.gatherSetup h c b k t)).isSome = true) ∧
    (∀ k l, (packetParts (.gatherFetch h k l)).isSome = true ∧ (packetParts (.gatherRelease h k)).isSome = true) ∧
    (∀ d l w p, (packetParts (.fill h d l w p)).isSome = true)) ∧
  (∀ h : FlitHeader, h.type < 2 ^ 5 → h.vc < 4 → h.cr < 16 → h.seq < 2 ^ 15 → h.ack < 2 ^ 15 → h.credits < 16 → h.dest < 2 ^ 24 → h.src < 2 ^ 24 →
    FlitHeader.ofWord h.word = h ∧
    ∀ payload : List Byte, payload.length = 240 → (flitImage h payload).length = 256 ∧ imageOk (flitImage h payload) = true ∧
      (flitImage h payload).take 12 = leBytes 12 h.word ∧ (flitImage h payload).drop 16 = payload) ∧
  (∀ h : OxlFlitHdr, h.start < 2 ^ 14 → h.type < 3 → h.crClass < 4 → h.crSlots < 2 ^ 10 → OxlFlitHdr.ofWord h.word = some h) ∧
  (∀ h : OxlHead, h.opc < 2 ^ 8 → h.tag < 2 ^ 12 → h.status < 2 ^ 4 → h.slots < 2 ^ 7 → h.aux < 2 ^ 32 → h.address < 2 ^ 48 → h.window < 4 →
    h.bytes.length = 16 ∧ OxlHead.ofBytes h.bytes = h)
end

