-- ==== Sys2Proof/Laws/Regs.lean ====
section
/-!
SUPPORT. Laws/Regs.lean: the register file: what a field reads as after a write of it or of another field.
-/
namespace Sys2Proof.Machine

theorem alGet_alSet_same {α : Type} (k : Nat) (v : α) (l : List (Nat × α)) : alGet (alSet k v l) k = some v := by
  induction l with
  | nil => simp [alSet, alGet]
  | cons x t ih =>
    obtain ⟨k', v'⟩ := x
    unfold alSet
    split
    · simp [alGet]
    · split
      · simp [alGet]
      · rename_i h1 h2
        simp only [alGet, if_neg (fun h : k' = k => h2 h.symm), ih]

theorem alGet_alSet_other {α : Type} {k j : Nat} (h : j ≠ k) (v : α) (l : List (Nat × α)) : alGet (alSet k v l) j = alGet l j := by
  induction l with
  | nil => simp [alSet, alGet, Ne.symm h]
  | cons x t ih =>
    obtain ⟨k', v'⟩ := x
    unfold alSet
    split
    · simp [alGet, Ne.symm h]
    · split
      · rename_i h1 h2; subst h2; simp [alGet, Ne.symm h]
      · simp only [alGet, ih]

theorem alGet_alErase_same {α : Type} (k : Nat) (l : List (Nat × α)) : alGet (alErase k l) k = none := by
  induction l with
  | nil => rfl
  | cons x t ih =>
    obtain ⟨k', v'⟩ := x
    unfold alErase
    split
    · exact ih
    · rename_i h; simp only [alGet, if_neg h, ih]

theorem alGet_alErase_other {α : Type} {k j : Nat} (h : j ≠ k) (l : List (Nat × α)) : alGet (alErase k l) j = alGet l j := by
  induction l with
  | nil => rfl
  | cons x t ih =>
    obtain ⟨k', v'⟩ := x
    unfold alErase
    split
    · rename_i h'; subst h'; simp only [alGet, if_neg (Ne.symm h), ih]
    · simp only [alGet, ih]

/-- A field written reads as the low bits of the value. -/
theorem State.get_put_same (s : State) (f : Field) (v : Nat) : (s.put f v).get f = v % 2 ^ f.len := by
  unfold State.get State.put
  dsimp only
  split
  · rename_i h; rw [alGet_alErase_same, h]; rfl
  · rw [alGet_alSet_same]; rfl

/-- Another field reads as before. -/
theorem State.get_put_other {f g : Field} (h : g.key ≠ f.key) (s : State) (v : Nat) : (s.put f v).get g = s.get g := by
  unfold State.get State.put
  dsimp only
  split
  · rw [alGet_alErase_other h]
  · rw [alGet_alSet_other h]

/-- A counter advanced reads as the saturated sum. -/
theorem State.get_bump_same (s : State) (f : Field) (n : Nat) : (s.bump f n).get f = satAdd f.len (s.get f) n := by
  unfold State.bump
  rw [State.get_put_same, Nat.mod_eq_of_lt]
  have : 0 < 2 ^ f.len := Nat.two_pow_pos _
  unfold satAdd
  omega

theorem State.get_bump_other {f g : Field} (h : g.key ≠ f.key) (s : State) (n : Nat) : (s.bump f n).get g = s.get g :=
  State.get_put_other h s _

/-- Fabric time of a synchronised module after an advance: the later of the two (R26). -/
theorem State.now_advance {s : State} (hs : s.get F.PC_STATUS_SYNCED = 1) (t : Nat) (h : t < 2 ^ 64) : (s.advance t).now = max s.now t := by
  unfold State.advance State.on
  rw [hs]
  split
  · rename_i h'
    simp only [decide_true, Bool.true_and, decide_eq_true_eq] at h'
    rw [State.now, State.get_put_same, Nat.mod_eq_of_lt h]; omega
  · rename_i h'
    simp only [decide_true, Bool.true_and, decide_eq_true_eq] at h'
    omega

/-- Fabric time of a module that has not synchronised stays. -/
theorem State.advance_unsynced {s : State} (hs : s.get F.PC_STATUS_SYNCED = 0) (t : Nat) : s.advance t = s := by
  unfold State.advance State.on
  rw [hs]; simp

theorem State.get_advance_other {g : Field} (h : g.key ≠ F.PC_FTIME_FTIME.key) (s : State) (t : Nat) :
    (s.advance t).get g = s.get g := by
  unfold State.advance
  split
  · exact State.get_put_other h s t
  · rfl

@[simp] theorem State.put_latches (s : State) (f : Field) (v : Nat) : (s.put f v).latches = s.latches := rfl
@[simp] theorem State.put_hbm (s : State) (f : Field) (v : Nat) : (s.put f v).hbm = s.hbm := rfl
@[simp] theorem State.put_comp (s : State) (f : Field) (v : Nat) : (s.put f v).comp = s.comp := rfl
@[simp] theorem State.put_poison (s : State) (f : Field) (v : Nat) : (s.put f v).poison = s.poison := rfl
@[simp] theorem State.put_inject (s : State) (f : Field) (v : Nat) : (s.put f v).inject = s.inject := rfl
@[simp] theorem State.put_cp (s : State) (f : Field) (v : Nat) : (s.put f v).cp = s.cp := rfl
@[simp] theorem State.put_pd (s : State) (f : Field) (v : Nat) : (s.put f v).pd = s.pd := rfl
@[simp] theorem State.put_mgmt (s : State) (f : Field) (v : Nat) : (s.put f v).mgmt = s.mgmt := rfl
@[simp] theorem State.put_pwr (s : State) (f : Field) (v : Nat) : (s.put f v).pwr = s.pwr := rfl
@[simp] theorem State.put_oxl (s : State) (f : Field) (v : Nat) : (s.put f v).oxl = s.oxl := rfl
@[simp] theorem State.put_dm (s : State) (f : Field) (v : Nat) : (s.put f v).dm = s.dm := rfl
@[simp] theorem State.put_fab (s : State) (f : Field) (v : Nat) : (s.put f v).fab = s.fab := rfl
@[simp] theorem State.put_coll (s : State) (f : Field) (v : Nat) : (s.put f v).coll = s.coll := rfl
@[simp] theorem State.put_num (s : State) (f : Field) (v : Nat) : (s.put f v).num = s.num := rfl
@[simp] theorem State.put_gram (s : State) (f : Field) (v : Nat) : (s.put f v).gram = s.gram := rfl
@[simp] theorem State.put_marks (s : State) (f : Field) (v : Nat) : (s.put f v).marks = s.marks := rfl
@[simp] theorem State.put_rr (s : State) (f : Field) (v : Nat) : (s.put f v).rr = s.rr := rfl
@[simp] theorem State.put_cj (s : State) (f : Field) (v : Nat) : (s.put f v).cj = s.cj := rfl
@[simp] theorem State.put_uu (s : State) (f : Field) (v : Nat) : (s.put f v).uu = s.uu := rfl
@[simp] theorem State.put_sh (s : State) (f : Field) (v : Nat) : (s.put f v).sh = s.sh := rfl
@[simp] theorem State.put_sec (s : State) (f : Field) (v : Nat) : (s.put f v).sec = s.sec := rfl
@[simp] theorem State.put_out (s : State) (f : Field) (v : Nat) : (s.put f v).out = s.out := rfl
@[simp] theorem State.put_draws (s : State) (f : Field) (v : Nat) : (s.put f v).draws = s.draws := rfl
@[simp] theorem State.put_wrote (s : State) (f : Field) (v : Nat) : (s.put f v).wrote = s.wrote := rfl
@[simp] theorem State.put_pending (s : State) (f : Field) (v : Nat) : (s.put f v).pending = s.pending := rfl

end Sys2Proof.Machine
end

