-- ==== Sys2Proof/Laws/Mem.lean ====
section
/-!
SUPPORT. Laws/Mem.lean: the byte memories: a byte written reads back, the others read as before, and every operation keeps the
canonical form.
-/
namespace Sys2Proof.Machine

/-- A byte written reads back. -/
theorem Mem.get_set_same (m : Mem) (a : Nat) (b : Byte) : (m.set a b).get a = b := by
  unfold Mem.get Mem.set
  dsimp only
  split
  · rename_i h; rw [alGet_alErase_same, h]; rfl
  · rw [alGet_alSet_same]; rfl

/-- Another byte reads as before. -/
theorem Mem.get_set_other {m : Mem} {a x : Nat} (h : x ≠ a) (b : Byte) : (m.set a b).get x = m.get x := by
  unfold Mem.get Mem.set
  dsimp only
  split
  · rw [alGet_alErase_other h]; rfl
  · rw [alGet_alSet_other h]; rfl

/-- A byte outside those written reads as before. -/
theorem Mem.get_write_outside {a x : Nat} (bs : List Byte) (h : x < a ∨ a + bs.length ≤ x) (m : Mem) : (m.write a bs).get x = m.get x := by
  induction bs generalizing m a with
  | nil => rfl
  | cons b bs ih =>
    simp only [List.length_cons] at h
    rw [Mem.write, ih (by omega), Mem.get_set_other (by omega)]

/-- A byte written, by its place. -/
theorem Mem.get_write_inside {a i : Nat} (bs : List Byte) (h : i < bs.length) (m : Mem) : (m.write a bs).get (a + i) = bs[i] := by
  induction bs generalizing m a i with
  | nil => simp at h
  | cons b bs ih =>
    rw [Mem.write]
    cases i with
    | zero => rw [Mem.get_write_outside _ (by omega)]; exact Mem.get_set_same _ _ _
    | succ i =>
      have := ih (a := a + 1) (i := i) (by simpa using h) (m.set a b)
      rw [show a + (i + 1) = a + 1 + i by omega, this]; simp

/-- What was written reads back. -/
theorem Mem.read_write (m : Mem) (a : Nat) (bs : List Byte) : (m.write a bs).read a bs.length = bs := by
  apply List.ext_getElem
  · simp [Mem.read]
  · intro i h1 h2
    simp only [Mem.read, List.getElem_map, List.getElem_range]
    exact Mem.get_write_inside bs h2 m

theorem alRisingFrom_mono {α : Type} {l : List (Nat × α)} {lo hi : Nat} (h : lo ≤ hi) (hl : alRisingFrom hi l = true) :
    alRisingFrom lo l = true := by
  cases l with
  | nil => rfl
  | cons x t =>
    simp only [alRisingFrom, Bool.and_eq_true, decide_eq_true_eq] at hl ⊢
    exact ⟨by omega, hl.2⟩

theorem alRisingFrom_alSet {α : Type} {l : List (Nat × α)} {lo k : Nat} (v : α) (hk : lo ≤ k) (hl : alRisingFrom lo l = true) :
    alRisingFrom lo (alSet k v l) = true := by
  induction l generalizing lo with
  | nil => simp [alSet, alRisingFrom, hk]
  | cons x t ih =>
    obtain ⟨k', v'⟩ := x
    simp only [alRisingFrom, Bool.and_eq_true, decide_eq_true_eq] at hl
    unfold alSet
    split
    · simp only [alRisingFrom, Bool.and_eq_true, decide_eq_true_eq]
      exact ⟨hk, by omega, hl.2⟩
    · split
      · rename_i h2; subst h2; simp only [alRisingFrom, Bool.and_eq_true, decide_eq_true_eq]; exact hl
      · simp only [alRisingFrom, Bool.and_eq_true, decide_eq_true_eq]
        exact ⟨hl.1, ih (by omega) hl.2⟩

theorem alRisingFrom_filter {α : Type} {l : List (Nat × α)} {lo : Nat} (p : Nat × α → Bool) (hl : alRisingFrom lo l = true) :
    alRisingFrom lo (l.filter p) = true := by
  induction l generalizing lo with
  | nil => rfl
  | cons x t ih =>
    obtain ⟨k', v'⟩ := x
    simp only [alRisingFrom, Bool.and_eq_true, decide_eq_true_eq] at hl
    rw [List.filter_cons]
    split
    · simp only [alRisingFrom, Bool.and_eq_true, decide_eq_true_eq]; exact ⟨hl.1, ih hl.2⟩
    · exact alRisingFrom_mono (by omega) (ih hl.2)

theorem alErase_eq_filter {α : Type} (k : Nat) (l : List (Nat × α)) : alErase k l = l.filter (fun x => decide (x.1 ≠ k)) := by
  induction l with
  | nil => rfl
  | cons x t ih =>
    obtain ⟨k', v'⟩ := x
    unfold alErase
    split <;> simp_all

theorem mem_alSet {α : Type} {k : Nat} {v : α} {l : List (Nat × α)} {x : Nat × α} (h : x ∈ alSet k v l) : x = (k, v) ∨ x ∈ l := by
  induction l with
  | nil => simpa [alSet] using h
  | cons y t ih =>
    obtain ⟨k', v'⟩ := y
    unfold alSet at h
    split at h
    · simpa using h
    · split at h
      · rcases List.mem_cons.1 h with h | h
        · exact .inl h
        · exact .inr (List.mem_cons_of_mem _ h)
      · rcases List.mem_cons.1 h with h | h
        · exact .inr (h ▸ List.mem_cons_self ..)
        · rcases ih h with h | h
          · exact .inl h
          · exact .inr (List.mem_cons_of_mem _ h)

/-- A byte written keeps the canonical form. -/
theorem Mem.wf_set {m : Mem} (h : m.wf = true) (a : Nat) (b : Byte) : (m.set a b).wf = true := by
  unfold Mem.wf alRising at h ⊢
  simp only [Bool.and_eq_true, List.all_eq_true, decide_eq_true_eq] at h ⊢
  unfold Mem.set
  dsimp only
  split
  · rw [alErase_eq_filter]
    refine ⟨alRisingFrom_filter _ h.1, fun c hc => ?_⟩
    exact h.2 c (List.mem_filter.1 hc).1
  · rename_i hb
    refine ⟨alRisingFrom_alSet _ (Nat.zero_le _) h.1, fun c hc => ?_⟩
    rcases mem_alSet hc with rfl | hc
    · exact hb
    · exact h.2 c hc

/-- Bytes written keep the canonical form. -/
theorem Mem.wf_write {m : Mem} (h : m.wf = true) (a : Nat) (bs : List Byte) : (m.write a bs).wf = true := by
  induction bs generalizing m a with
  | nil => exact h
  | cons b bs ih => exact ih (Mem.wf_set h a b) (a + 1)

/-- A range that becomes undefined keeps the canonical form. -/
theorem Mem.wf_forget {m : Mem} (h : m.wf = true) (lo hi draw : Nat) : (m.forget lo hi draw).wf = true := by
  unfold Mem.wf alRising at h ⊢
  simp only [Bool.and_eq_true, List.all_eq_true, decide_eq_true_eq] at h ⊢
  refine ⟨alRisingFrom_filter _ h.1, fun c hc => ?_⟩
  obtain ⟨hc, ho⟩ := List.mem_filter.1 hc
  have := h.2 c hc
  simp only [Bool.or_eq_true, decide_eq_true_eq] at ho
  have hd : (m.forget lo hi draw).default c.1 = m.default c.1 := by
    simp only [Mem.forget, Mem.default, undefAt]
    rw [if_neg (by omega)]
  rw [hd]; exact this

/-- A byte outside a range that becomes undefined reads as before. -/
theorem Mem.get_forget_outside {m : Mem} {lo hi x : Nat} (h : x < lo ∨ hi ≤ x) (draw : Nat) : (m.forget lo hi draw).get x = m.get x := by
  have hd : (m.forget lo hi draw).default x = m.default x := by
    simp only [Mem.forget, Mem.default, undefAt]; rw [if_neg (by omega)]
  have hg : alGet (m.cells.filter (fun c => decide (c.1 < lo) || decide (hi ≤ c.1))) x = alGet m.cells x := by
    induction m.cells with
    | nil => rfl
    | cons c t ih =>
      obtain ⟨k, v⟩ := c
      rw [List.filter_cons]
      split
      · simp only [alGet, ih]
      · rename_i hc
        simp only [Bool.or_eq_true, decide_eq_true_eq] at hc
        simp only [alGet, ih, if_neg (show k ≠ x by omega)]
  unfold Mem.get
  rw [hd]
  simp only [Mem.forget, hg]

/-- The memories right after reset have the canonical form. -/
theorem Mem.wf_reset : State.reset.hbm.wf = true ∧ State.reset.comp.wf = true := ⟨rfl, rfl⟩

end Sys2Proof.Machine
end

