-- ==== Sys2Proof/Laws/Settle.lean ====
section
/-!
SUPPORT. Laws/Settle.lean: in a calm state the end of a step changes nothing.
-/
namespace Sys2Proof.Machine

/-- With nothing due, no action is taken. -/
theorem State.act_noneDue {s : State} (h : s.noneDue) : s.act = s := by
  obtain ⟨h1, h2, h3⟩ := h
  rcases s with ⟨⟩; rename_i pd mgmt pwr _ _ _ _ _ _ _ _ _ _ _ _ _ _ _ _
  rcases pd with ⟨⟩; rcases pwr with ⟨⟩
  simp only at h1 h2 h3
  subst h1 h2 h3
  rfl

/-- An action leaves nothing due. -/
theorem State.noneDue_act (s : State) : s.act.noneDue := ⟨rfl, rfl, rfl⟩

/-- After a step nothing is due. -/
theorem State.noneDue_settle (s : State) : s.settle.noneDue := State.noneDue_act _

/-- With no failure to meet, none is met. -/
theorem State.meetFailures_none {s : State} (h : s.noneNoted) : s.meetFailures = s := by
  obtain ⟨-, h2, h3⟩ := h
  unfold State.meetFailures
  rcases s with ⟨⟩; rename_i oxl _ _ _ _ _ _ _ _ _ _ _ _ _ _ _
  rcases oxl with ⟨⟩
  simp only at h2 h3
  subst h2 h3
  rfl

/-- With no write noted, nothing is spoilt. -/
theorem State.spoil_none {s : State} (h : s.wrote = []) : s.spoil = s := by unfold State.spoil; rw [h]

theorem State.clauseReady_open {s : State} {c : Nat} (h : s.clauseOpen c = false) : s.clauseReady c = false := by
  unfold State.clauseOpen at h
  unfold State.clauseReady
  cases ha : (s.clause c).runs <;> cases hb : (s.clause c).complete <;> cases hm : (s.clause c).missed <;> simp_all

theorem State.pumpClauses_calm {s : State} (h : s.pcState ≠ 3 ∧ (s.pcState = 2 → ∀ c < 16, s.clauseOpen c = false)) :
    s.pumpClauses = s := by
  unfold State.pumpClauses
  split
  · have h2 : s.pcState = 2 := by rename_i h'; rcases h' with h' | h'; exact h'; exact absurd h' h.1
    have : (List.range 16).filter s.clauseReady = [] := by
      rw [List.filter_eq_nil_iff]
      intro c hc
      rw [State.clauseReady_open (h.2 h2 c (List.mem_range.1 hc))]
      simp
    rw [this]; rfl
  · rfl

theorem State.pump_calm {s : State} (h : s.Quiet) : s.pump = s := by
  have hcl := State.pumpClauses_calm h.period
  have h1 : s.pumpColl = s := by simp [State.pumpColl, h.coll.1]
  have h2 : s.pumpRounds = s := by simp [State.pumpRounds, State.pumpReshard, h.coll.2]
  have h3 : s.pumpCommit = s := by simp [State.pumpCommit, h.commit]
  have h4 : s.pumpClose = s := by simp [State.pumpClose, h.shadow.1]
  have h5 : s.pumpReplay = s := by simp [State.pumpReplay, h.shadow.2.1]
  have h6 : s.pumpFreeze = s := by simp [State.pumpFreeze, h.shadow.2.2]
  have h7 : s.finishHalting = s := by simp [State.finishHalting, h.period.1]
  simp only [State.pump, hcl, h1, h2, h3, h4, h5, h6, h7]
  split <;> rfl

theorem State.nextFlight_calm {s : State} (h : ∀ f ∈ s.cp.flights, f.phase = .dispatched) (k : Nat) : s.nextFlight k = none := by
  unfold State.nextFlight State.ringFlights
  rw [List.find?_eq_none]
  intro f hf
  rw [h f ((List.mem_filter.1 hf).1)]
  simp

theorem State.foldl_id {α β : Type} (f : β → α → β) (l : List α) (b : β) (h : ∀ a ∈ l, f b a = b) : l.foldl f b = b := by
  induction l with
  | nil => rfl
  | cons x xs ih =>
    rw [List.foldl_cons, h x (List.mem_cons_self ..)]
    exact ih fun a ha => h a (List.mem_cons_of_mem _ ha)

theorem State.deferRing_calm {s : State} (h : ∀ f ∈ s.cp.flights, f.phase = .dispatched) (k n : Nat) : s.deferRing k n = s := by
  cases n with
  | zero => rfl
  | succ n => simp [State.deferRing, State.mayDefer, State.nextFlight_calm h]

theorem State.pumpQueues_calm {s : State} (h : s.Drained) : s.pumpQueues = s := by
  have hd : s.deferQueue = [] := by
    unfold State.deferQueue
    rw [List.filter_eq_nil_iff]
    intro f hf
    rw [h.flights f hf]; simp
  have h1 : s.pumpDeferred = s := by
    unfold State.pumpDeferred
    dsimp only
    rw [State.foldl_id (fun (s : State) k => s.deferRing k (s.ringFlights k).length) _ s
      fun k _ => State.deferRing_calm h.flights k _]
    simp [State.countDeferred, hd, h.depth]
  have h2 : s.putWaiting = s := by
    unfold State.putWaiting
    apply State.foldl_id
    intro k hk
    have hw : s.ringWaits k = false := by simp [State.ringWaits, State.nextFlight_calm h.flights]
    have hr := h.waiting k (List.mem_range.1 hk)
    simp [hw, hr]
  have h0 : s.fetchImages = s := by
    unfold State.fetchImages
    have : (List.range 64).filterMap s.nextFlight = [] := by
      rw [List.filterMap_eq_nil_iff]
      intro k _
      exact State.nextFlight_calm h.flights k
    rw [this]; rfl
  unfold State.pumpQueues
  rw [h0, h1, h2]; split <;> rfl

/-- In a quiet state the end of a step is what the command processor's queues bring. -/
theorem State.settle_quiet {s : State} (h : s.Quiet) : s.settle = s.pumpQueues.act := by
  simp only [State.settle, State.meetFailures_none h.noted, State.spoil_none h.noted.1, State.act_noneDue h.due, State.pump_calm h]

/-- In a calm state the end of a step changes nothing. -/
theorem State.settle_calm {s : State} (h : s.Calm) : s.settle = s := by
  rw [State.settle_quiet h.toQuiet, State.pumpQueues_calm h.toDrained, State.act_noneDue h.due]

end Sys2Proof.Machine
end

