-- ==== Sys2Proof/Laws/Sort.lean ====
section
/-!
SUPPORT. Laws/Sort.lean: sorting keeps the elements, and orders them.
-/
namespace Sys2Proof.Machine

@[simp] theorem sortBy_nil {α : Type} (le : α → α → Bool) : sortBy le [] = [] := rfl

@[simp] theorem sortBy_cons {α : Type} (le : α → α → Bool) (x : α) (l : List α) : sortBy le (x :: l) = insertBy le x (sortBy le l) := rfl

theorem perm_insertBy {α : Type} (le : α → α → Bool) (x : α) (l : List α) : (insertBy le x l).Perm (x :: l) := by
  induction l with
  | nil => exact .refl _
  | cons y t ih =>
    unfold insertBy
    split
    · exact .refl _
    · exact (ih.cons y).trans (.swap x y t)

theorem perm_sortBy {α : Type} (le : α → α → Bool) (l : List α) : (sortBy le l).Perm l := by
  induction l with
  | nil => exact .refl _
  | cons x t ih => exact (perm_insertBy le x _).trans (ih.cons x)

@[simp] theorem length_sortBy {α : Type} (le : α → α → Bool) (l : List α) : (sortBy le l).length = l.length := (perm_sortBy le l).length_eq

@[simp] theorem mem_sortBy {α : Type} (le : α → α → Bool) (l : List α) (x : α) : x ∈ sortBy le l ↔ x ∈ l := (perm_sortBy le l).mem_iff

/-- What is put into a sorted list leaves it sorted. -/
theorem insertBy_sorted {α : Type} {le : α → α → Bool} (total : ∀ a b, le a b = false → le b a = true)
    (trans : ∀ a b c, le a b = true → le b c = true → le a c = true) (x : α) {l : List α} (h : l.Pairwise (fun a b => le a b = true)) :
    (insertBy le x l).Pairwise (fun a b => le a b = true) := by
  induction l with
  | nil => simp [insertBy]
  | cons y t ih =>
    obtain ⟨hy, ht⟩ := List.pairwise_cons.1 h
    unfold insertBy
    split
    · rename_i hxy
      exact List.pairwise_cons.2 ⟨fun z hz => (List.mem_cons.1 hz).elim (fun e => e ▸ hxy) (fun hz => trans _ _ _ hxy (hy z hz)), h⟩
    · rename_i hxy
      refine List.pairwise_cons.2 ⟨fun z hz => ?_, ih ht⟩
      rcases List.mem_cons.1 ((perm_insertBy le x t).mem_iff.1 hz) with rfl | hz
      · exact total _ _ (by simpa using hxy)
      · exact hy z hz

/-- A sorted list is sorted. -/
theorem sortBy_sorted {α : Type} {le : α → α → Bool} (total : ∀ a b, le a b = false → le b a = true)
    (trans : ∀ a b c, le a b = true → le b c = true → le a c = true) (l : List α) : (sortBy le l).Pairwise (fun a b => le a b = true) := by
  induction l with
  | nil => exact .nil
  | cons x t ih => exact insertBy_sorted total trans x ih

end Sys2Proof.Machine
end

