-- ==== Sys2Proof/Laws/Calm.lean ====
section
/-!
SUPPORT. Laws/Calm.lean: what keeps a state calm, and the checked memory accesses of a state whose memory is sound.
-/
namespace Sys2Proof.Machine

/-- The fields that a calm state's registers are read for. -/
def calmField (f : Field) : Prop :=
  f.key = F.PC_STATUS_STATE.key ∨ f.key = F.SH_HOME_VALID.key ∨ f.key = F.BW_QUEUE_DEPTH.key ∨
    ∃ k < 64, f.key = (F.CP_RING_STATUS_WAITING k).key

/-- A state that agrees with a calm one on what calm speaks of is calm. -/
theorem State.Calm.congr {s t : State} (h : s.Calm) (pd : t.pd = s.pd) (pwr : t.pwr.resetDue = s.pwr.resetDue)
    (coll : t.coll.runs = s.coll.runs ∧ t.coll.reshard = s.coll.reshard) (uu : t.uu.openCommit = s.uu.openCommit)
    (sh : t.sh.runs = s.sh.runs ∧ t.sh.replay = s.sh.replay) (flights : ∀ f ∈ t.cp.flights, f.phase = .dispatched)
    (noted : t.wrote = s.wrote ∧ t.oxl.failed = s.oxl.failed ∧ t.oxl.missing = s.oxl.missing)
    (regs : ∀ f : Field, calmField f → t.get f = s.get f) : t.Calm := by
  have hst : t.pcState = s.pcState := regs _ (.inl rfl)
  refine ⟨⟨?_, ?_, ?_, ?_, ?_, ⟨?_, ?_, ?_⟩⟩, flights, ?_, fun k hk => ?_⟩
  · exact ⟨noted.1.trans h.noted.1, noted.2.1.trans h.noted.2.1, noted.2.2.trans h.noted.2.2⟩
  · have := h.due
    unfold State.noneDue at *
    rw [pd, pwr]; exact this
  · have hc : ∀ c, t.clauseOpen c = s.clauseOpen c := by
      intro c; unfold State.clauseOpen State.clause; rw [pd]
    rw [hst]
    exact ⟨h.period.1, fun h2 c hc' => by rw [hc]; exact h.period.2 h2 c hc'⟩
  · rw [coll.1, coll.2]; exact h.coll
  · rw [uu]; exact h.commit
  · rw [sh.1]; exact h.shadow.1
  · rw [sh.2]; exact h.shadow.2.1
  · have := h.shadow.2.2
    simp only [State.holds, State.on] at this ⊢
    rw [regs _ (.inr (.inl rfl))]; exact this
  · rw [regs _ (.inr (.inr (.inl rfl)))]; exact h.depth
  · rw [regs _ (.inr (.inr (.inr ⟨k, hk, rfl⟩)))]; exact h.waiting k hk

/-- A field that calm does not speak of may be written. -/
theorem State.Calm.put {s : State} (h : s.Calm) {f : Field} (hf : ¬ calmField f) (v : Nat) : (s.put f v).Calm :=
  h.congr rfl rfl ⟨rfl, rfl⟩ rfl ⟨rfl, rfl⟩ h.flights ⟨rfl, rfl, rfl⟩ fun g hg =>
    State.get_put_other (fun e => hf (by unfold calmField at hg ⊢; rw [← e]; exact hg)) s v

/-- A command that ends leaves a calm state calm. -/
theorem State.Calm.finish {s : State} (h : s.Calm) (c : CmdRef) (d : Done) : (s.finish c d).Calm :=
  h.congr rfl rfl ⟨rfl, rfl⟩ rfl ⟨rfl, rfl⟩ (fun f hf => h.flights f (List.mem_filter.1 hf).1) ⟨rfl, rfl, rfl⟩ fun _ _ => rfl

/-- Other contents of the memories leave a calm state calm. -/
theorem State.Calm.memory {s : State} (h : s.Calm) (m m' : Mem) (p : List Nat) (i : List Injection) :
    ({ s with hbm := m, comp := m', poison := p, inject := i } : State).Calm :=
  h.congr rfl rfl ⟨rfl, rfl⟩ rfl ⟨rfl, rfl⟩ h.flights ⟨rfl, rfl, rfl⟩ fun _ _ => rfl

/-- A field outside the four that calm speaks of, by its key. -/
theorem not_calmField {f : Field} (h1 : f.key ≠ F.PC_STATUS_STATE.key) (h2 : f.key ≠ F.SH_HOME_VALID.key)
    (h3 : f.key ≠ F.BW_QUEUE_DEPTH.key) (h4 : ∀ k < 64, f.key ≠ (F.CP_RING_STATUS_WAITING k).key) : ¬ calmField f := by
  rintro (h | h | h | ⟨k, hk, h⟩)
  · exact h1 h
  · exact h2 h
  · exact h3 h
  · exact h4 k hk h

theorem State.badLines_sound {s : State} (h : s.Sound) (a n : Nat) : s.badLines a n = [] := by
  simp [State.badLines, h.poison, h.inject]

theorem State.stackHeld_sound {s : State} (h : s.Sound) (k : Nat) : s.stackHeld k = false := by
  unfold State.stackHeld
  rw [h.allStacks]
  simp [Nat.zero_div]

/-- A sound memory answers a read with its bytes. -/
theorem State.readHbm_sound {s : State} (h : s.Sound) (a n : Nat) (c : Option CmdRef) :
    s.readHbm a n c = (s, .bytes (s.hbm.read a n)) := by
  unfold State.readHbm
  rw [State.badLines_sound h]
  have : (s.stacksOf a n).any s.stackHeld = false := by
    rw [List.any_eq_false]; intro k _; rw [State.stackHeld_sound h]; simp
  simp [this, State.checkLines]

/-- A sound memory takes a write. -/
theorem State.writeHbm_sound {s : State} (h : s.Sound) (a : Nat) (bs : List Byte) (c : Option CmdRef) :
    s.writeHbm a bs c = ({ s with hbm := s.hbm.write a bs }, none) := by
  unfold State.writeHbm
  dsimp only
  rw [State.badLines_sound h]
  have : (s.stacksOf a bs.length).any s.stackHeld = false := by
    rw [List.any_eq_false]; intro k _; rw [State.stackHeld_sound h]; simp
  simp only [this, List.filter_nil, State.checkLines]
  have hp := h.poison
  have hi := h.inject
  rcases s with ⟨⟩
  simp only at hp hi
  subst hp hi
  rfl

theorem rangeSpace_hbm {a n : Nat} (h : a + n ≤ hbmEnd) (ha : a < hbmEnd) : rangeSpace a n = some .hbm := by
  unfold rangeSpace
  have h0 : spaceOf a = some .hbm := by unfold spaceOf; rw [if_pos ha]
  split
  · exact h0
  · have h1 : spaceOf (a + n - 1) = some .hbm := by unfold spaceOf; rw [if_pos (by omega)]
    rw [h0, h1]; simp

/-- A read of a range of HBM whose memory is sound. -/
theorem State.readAt_sound {s : State} (h : s.Sound) {a n : Nat} (hn : a + n ≤ hbmEnd) (ha : a < hbmEnd) (c : Option CmdRef) :
    s.readAt a n c = (s, .bytes (s.hbm.read a n)) := by
  unfold State.readAt
  rw [rangeSpace_hbm hn ha]
  have : s.physical a = a := by unfold State.physical spaceOf; rw [if_pos ha]
  simp only [this, State.readHbm_sound h]

/-- A step that reads HBM of a sound state gets the bytes and changes nothing. -/
theorem State.readAct_sound {s : State} (h : s.Sound) {a n : Nat} (hn : a + n ≤ hbmEnd) (ha : a < hbmEnd) (c : CmdRef) :
    s.readAct a n c = (s, .ok (s.hbm.read a n)) := by unfold State.readAct; rw [State.readAt_sound h hn ha]

/-- Noting a write changes no more than the list of notes. -/
theorem State.noteWrite_eq (s : State) (a n : Nat) (c : Option CmdRef) :
    s.noteWrite a n c = { s with wrote := (s.noteWrite a n c).wrote } := by unfold State.noteWrite; split <;> rfl

/-- Noting a write leaves a sound memory sound. -/
theorem State.Sound.noteWrite {s : State} (h : s.Sound) (a n : Nat) (c : Option CmdRef) : (s.noteWrite a n c).Sound := by
  rw [State.noteWrite_eq]; exact ⟨h.allStacks, h.poison, h.inject⟩

/-- A write of a range of HBM whose memory is sound: the bytes, and the note of it. -/
theorem State.writeAt_sound {s : State} (h : s.Sound) {a : Nat} {bs : List Byte} (hn : a + bs.length ≤ hbmEnd) (ha : a < hbmEnd)
    (c : Option CmdRef) : s.writeAt a bs c = ({ s.noteWrite a bs.length c with hbm := s.hbm.write a bs }, none) := by
  unfold State.writeAt
  rw [rangeSpace_hbm hn ha]
  dsimp only
  rw [State.writeHbm_sound (h.noteWrite a bs.length c)]
  rw [show (s.noteWrite a bs.length c).hbm = s.hbm by rw [State.noteWrite_eq]]

/-- What a write leaves is what `Stores` says. -/
theorem State.stores_write (s : State) (a : Nat) (bs : List Byte) : s.Stores ({ s with hbm := s.hbm.write a bs }) a bs :=
  ⟨rfl, Mem.read_write _ _ _, fun _ h => Mem.get_write_outside bs h _⟩

theorem State.guard_pass {s : State} {cs : List (Bool × Nat)} {b : State → Body} (h : ∀ c ∈ cs, c.1 = false) : s.guard cs b = b s := by
  have : firstFailure cs = none := by
    induction cs with
    | nil => rfl
    | cons c t ih =>
      obtain ⟨x, y⟩ := c
      have hx : x = false := h (x, y) (List.mem_cons_self ..)
      subst hx
      exact ih fun c hc => h c (List.mem_cons_of_mem _ hc)
  unfold State.guard; rw [this]

/-- A body that need read nothing of companion memory comes to its end, or goes on. -/
theorem State.ran_here {s t : State} {d : Option Done} (h : t.oxl.missing = s.oxl.missing) (c : CmdRef) :
    s.ran c (t, d) = match d with
      | some d => t.finish c d
      | none => t := by
  unfold State.ran; dsimp only; rw [if_pos h]; cases d <;> rfl

/-- A command that its binding allows, whose body ends without companion memory to read, is finished. -/
theorem State.run_ends {s t : State} {h : Hdr} {op : Nat} {b : Binding} {body : CmdRef → State → Body} {d : Done}
    (hb : s.bindingOk h b = true) (he : body (s.refOf h op) s = (t, some d)) (hm : t.oxl.missing = s.oxl.missing) :
    s.run h op b body = t.finish (s.refOf h op) d := by
  unfold State.run; rw [if_pos hb, he, State.ran_here hm]

/-- A command whose binding is broken ends with ST_BAD_PARAM. -/
theorem State.run_unbound {s : State} {h : Hdr} {op : Nat} {b : Binding} {body : CmdRef → State → Body} (hb : s.bindingOk h b = false) :
    s.run h op b body = s.finish (s.refOf h op) (Done.fail ST_BAD_PARAM) := by
  unfold State.run; rw [if_neg (by rw [hb]; decide)]

end Sys2Proof.Machine
end

