-- ==== Sys2Proof/Laws/Events.lean ====
section
/-!
SUPPORT. Laws/Events.lean: everything that the record of an event can change (R428 to R431, R509, R518).
-/
namespace Sys2Proof.Machine

/-- What the record of an event may change, and that nothing else is. -/
structure State.EventFrame (s t : State) : Prop where
  regs : ∀ f : Field, ¬ eventField f → t.get f = s.get f
  rest : t = { s with
    regs := t.regs, hbm := t.hbm, comp := t.comp, poison := t.poison, inject := t.inject
    cp := { s.cp with lost := t.cp.lost, irqArmed := t.cp.irqArmed, coalesce := t.cp.coalesce, evWaits := t.cp.evWaits }
    pd := { s.pd with entries := t.pd.entries, entryCount := t.pd.entryCount, events := t.pd.events }
    mgmt := { s.mgmt with queue := t.mgmt.queue }
    oxl := { s.oxl with
      links := t.oxl.links, pending := t.oxl.pending, waiting := t.oxl.waiting, lines := t.oxl.lines, nextTag := t.oxl.nextTag }
    out := t.out }

theorem State.EventFrame.refl (s : State) : s.EventFrame s := ⟨fun _ _ => rfl, rfl⟩

theorem State.EventFrame.trans {s t u : State} (h1 : s.EventFrame t) (h2 : t.EventFrame u) : s.EventFrame u := by
  refine ⟨fun f hf => (h2.regs f hf).trans (h1.regs f hf), ?_⟩
  have e1 := h1.rest
  have e2 := h2.rest
  rw [e1] at e2
  exact e2

theorem State.EventFrame.put {s : State} {f : Field} (hf : eventField f) (v : Nat) : s.EventFrame (s.put f v) :=
  ⟨fun g hg => State.get_put_other (fun e => hg (by unfold eventField at hf ⊢; rw [e]; exact hf)) s v, rfl⟩

theorem State.EventFrame.bump {s : State} {f : Field} (hf : eventField f) (n : Nat) : s.EventFrame (s.bump f n) := State.EventFrame.put hf _

theorem eventField_mem {f : Field} (h : f.key ∈ eventFields) : eventField f := .inl h

theorem State.frame_lostField (cls : Nat) : eventField (lostField cls) := by
  unfold lostField
  split <;> exact eventField_mem (by decide)

theorem State.frame_loseEvent (s : State) (e : Ev) : s.EventFrame (s.loseEvent e) := by
  have h1 : s.EventFrame ((s.bump (lostField e.cls) 1).put F.CP_STATUS_EVT_OVERFLOW 1) :=
    (State.EventFrame.bump (State.frame_lostField _) 1).trans (.put (eventField_mem (by decide)) 1)
  unfold State.loseEvent
  dsimp only
  split
  · refine h1.trans (.trans ?_ ((State.EventFrame.put (eventField_mem (by decide)) _).trans
      ((State.EventFrame.put (eventField_mem (by decide)) _).trans (.put (eventField_mem (by decide)) _))))
    exact ⟨fun _ _ => rfl, rfl⟩
  · exact h1.trans ⟨fun _ _ => rfl, rfl⟩

theorem bits_lt (n lo len : Nat) : bits n lo len < 2 ^ len := Nat.mod_lt _ (Nat.two_pow_pos _)

/-- A stack's number. -/
theorem State.stackOf_lt (s : State) (a : Nat) : s.stackOf a < 16 := by
  unfold State.stackOf
  dsimp only
  split
  · have h1 := bits_lt (a % 2 ^ 36) 34 2
    have h2 : bits (a % 2 ^ 36 % 2 ^ 34) 12 2 ^^^ bits (a % 2 ^ 36 % 2 ^ 34) 20 2 < 2 ^ 2 :=
      Nat.xor_lt_two_pow (bits_lt _ _ _) (bits_lt _ _ _)
    omega
  · exact Nat.xor_lt_two_pow (n := 4) (bits_lt _ _ _) (bits_lt _ _ _)

theorem State.frame_classCount (s : State) {c : Nat} (h : c < 5) (n : Nat) : s.EventFrame (s.bump (F.ER_CLASS_COUNT c) n) :=
  .bump (.inr (.inl ⟨c, h, rfl⟩)) n

theorem State.frame_checkLine (s : State) (l : Nat) (c : Option CmdRef) : s.EventFrame (s.checkLine l c).1 := by
  have hl := s.stackOf_lt l
  have h1 (s : State) {k : Nat} (h : k < 16) (n : Nat) : s.EventFrame (s.bump (F.HM_ECC_CORRECTED k) n) :=
    .bump (.inr (.inr ⟨k, h, .inl rfl⟩)) n
  have h2 (s : State) {k : Nat} (h : k < 16) (n : Nat) : s.EventFrame (s.bump (F.HM_ECC_UNCORRECTABLE k) n) :=
    .bump (.inr (.inr ⟨k, h, .inr (.inl rfl)⟩)) n
  have h3 (s : State) {k : Nat} (h : k < 16) (n : Nat) : s.EventFrame (s.bump (F.HM_ECC_POISONED k) n) :=
    .bump (.inr (.inr ⟨k, h, .inr (.inr (.inl rfl))⟩)) n
  have h4 (s : State) {k : Nat} (h : k < 16) (n : Nat) : s.EventFrame (s.put (F.HM_ERR_ADDR_ADDR k) n) :=
    .put (.inr (.inr ⟨k, h, .inr (.inr (.inr rfl))⟩)) n
  have h0 (s : State) (i : List Injection) (p : List Nat) : s.EventFrame { s with inject := i, poison := p } := ⟨fun _ _ => rfl, rfl⟩
  unfold State.checkLine
  dsimp only
  split
  · split
    · exact (h0 s _ _).trans (h1 _ hl _)
    · exact (h0 s _ _).trans ((h2 _ hl _).trans ((h3 _ hl _).trans (h4 _ hl _)))
  · exact (h2 _ hl _).trans (h4 _ hl _)

theorem State.checkLine_class (s : State) (l : Nat) (c : Option CmdRef) : (s.checkLine l c).2.1.cls < 3 := by
  unfold State.checkLine
  dsimp only
  split
  · split
    · show 1 < 3; decide
    · show 2 < 3; decide
  · show 2 < 3; decide

/-- The events that a record's write raises are of class CORRECTED or CONTAINED. -/
def RecordFate.small : RecordFate → Prop
  | .failed n => ∀ ev ∈ n, ev.cls < 3
  | .stored n => ∀ ev ∈ n, ev.cls < 3
  | .sent => True

theorem State.frame_storeRecord (s : State) (a : Nat) (bs : List Byte) :
    s.EventFrame (s.storeRecord a bs).1 ∧ (s.storeRecord a bs).2.small := by
  have h0 (s : State) (m : Mem) : s.EventFrame { s with hbm := m } := ⟨fun _ _ => rfl, rfl⟩
  unfold State.storeRecord
  split
  · split
    · exact ⟨.refl s, by intro ev h; simp at h⟩
    · split
      · exact ⟨h0 s _, by intro ev h; simp at h⟩
      · rename_i l _ _
        have h := State.frame_checkLine s l none
        have hc := State.checkLine_class s l none
        split
        · rename_i s' ev he
          rw [he] at h hc
          exact ⟨h, by intro e h'; simp at h'; exact h' ▸ hc⟩
        · rename_i s' ev he
          rw [he] at h hc
          exact ⟨h.trans (h0 _ _), by intro e h'; simp at h'; exact h' ▸ hc⟩
  · split
    · exact ⟨.refl s, trivial⟩
    · exact ⟨.refl s, by intro ev h; simp at h⟩
  · exact ⟨.refl s, by intro ev h; simp at h⟩

theorem State.frame_setLink (s : State) (l : Nat) (v : OxlLink) : s.EventFrame (s.setLink l v) := ⟨fun _ _ => rfl, rfl⟩

theorem State.frame_send (s : State) (m : OutMsg) : s.EventFrame (s.send m) := ⟨fun _ _ => rfl, rfl⟩

theorem State.frame_drainLink (l : Nat) (ms : List OutMsg) : ∀ (s : State) (held : List Nat), s.EventFrame (s.drainLink l held ms).1 := by
  induction ms with
  | nil => exact fun s _ => .refl s
  | cons m ms ih =>
    intro s held
    rw [State.drainLink]
    dsimp only
    split
    · exact ih s _
    · exact (State.frame_setLink s _ _).trans ((State.frame_send _ _).trans (ih _ _))

theorem State.frame_pumpLink (s : State) (l : Nat) : s.EventFrame (s.pumpLink l) := by
  have h := State.frame_drainLink l (s.oxlLink l).queue s []
  unfold State.pumpLink
  split
  rename_i t rest he
  rw [he] at h
  exact State.EventFrame.trans h (State.frame_setLink _ _ _)

theorem State.frame_sendLink (s : State) (l : Nat) (m : OutMsg) : s.EventFrame (s.sendLink l m) :=
  (State.frame_setLink s _ _).trans (State.frame_pumpLink _ _)

theorem State.frame_interrupt (s : State) (v : Nat) : s.EventFrame (s.interrupt v) := by
  unfold State.interrupt
  split
  · exact State.frame_sendLink ..
  · exact .refl s

theorem State.frame_issue (s : State) (r : OxlReq) : s.EventFrame (s.issue r) := by
  have h0 (s : State) (p : List OxlReq) (n : Nat) (ls : List Line) :
      s.EventFrame { s with oxl := { s.oxl with pending := p, nextTag := n, lines := ls } } := ⟨fun _ _ => rfl, rfl⟩
  exact (h0 s _ _ _).trans (State.frame_sendLink _ _ _)

theorem State.frame_issueWaiting (n : Nat) : ∀ s : State, s.EventFrame (s.issueWaiting n) := by
  have h0 (s : State) (w : List OxlReq) : s.EventFrame { s with oxl := { s.oxl with waiting := w } } := ⟨fun _ _ => rfl, rfl⟩
  induction n with
  | zero => exact fun s => .refl s
  | succ n ih =>
    intro s
    rw [State.issueWaiting]
    split
    · exact .refl s
    · split
      · exact (h0 s _).trans ((State.frame_issue _ _).trans (ih _))
      · exact .refl s

theorem State.frame_oxlAsk (s : State) (r : OxlReq) : s.EventFrame (s.oxlAsk r) := by
  have h0 (s : State) (w : List OxlReq) : s.EventFrame { s with oxl := { s.oxl with waiting := w } } := ⟨fun _ _ => rfl, rfl⟩
  exact (h0 s _).trans (State.frame_issueWaiting _ _)

theorem State.frame_writePart (s : State) (o : Option OxlOwner) (sp : Nat × Nat) (i : Option Nat) (r : Option RecordTag) (a : Nat)
    (bs : List Byte) : s.EventFrame (s.writePart o sp i r a bs) := by
  have h0 (s : State) (m : Mem) : s.EventFrame { s with comp := m } := ⟨fun _ _ => rfl, rfl⟩
  unfold State.writePart
  dsimp only
  split
  · exact (h0 s _).trans (State.frame_oxlAsk _ _)
  · exact (h0 s _).trans (State.frame_oxlAsk _ _)

theorem State.frame_coalesced (s : State) (w : EvWait) : s.EventFrame (s.coalesced w) := by
  unfold State.coalesced
  dsimp only
  split
  · exact ⟨fun _ _ => rfl, rfl⟩
  · exact .refl s

theorem State.frame_noteRecorded (s : State) (tag : RecordTag) : s.EventFrame (s.noteRecorded tag) := by
  have ho : s.EventFrame (s.put F.CP_STATUS_EVT_OVERFLOW 0) := .put (eventField_mem (by decide)) _
  have hl (s : State) (c : LostCounts) : s.EventFrame { s with cp := { s.cp with lost := c } } := ⟨fun _ _ => rfl, rfl⟩
  cases tag with
  | event w => exact State.frame_coalesced s w
  | overflow => exact ho.trans (hl _ _)

theorem State.frame_eventInterrupt (s : State) : s.EventFrame s.eventInterrupt := by
  have hi : s.EventFrame { s with cp := { s.cp with irqArmed := false } } := ⟨fun _ _ => rfl, rfl⟩
  exact hi.trans (State.frame_interrupt _ 64)

theorem State.frame_recorded (s : State) (tag : RecordTag) : s.EventFrame (s.recorded tag) := by
  have hq (v : Nat) : s.EventFrame (s.put F.CP_EVT_SEQ_SEQ v) := .put (eventField_mem (by decide)) _
  unfold State.recorded
  dsimp only
  split
  · exact (hq _).trans ((State.frame_noteRecorded _ tag).trans (State.frame_eventInterrupt _))
  · exact (hq _).trans (State.frame_noteRecorded _ tag)

/-- What an attempt to write a record can change, and what it can raise. -/
theorem State.frame_tryRecord (s : State) (tag : RecordTag) (w : EvWait) (n : Nat) :
    s.EventFrame (s.tryRecord tag w n).1 ∧ ∀ ev ∈ (s.tryRecord tag w n).2.next, ev.cls < 3 := by
  have none_ : ∀ ev ∈ ([] : List Ev), ev.cls < 3 := by intro ev h; simp at h
  unfold State.tryRecord
  split
  · exact ⟨State.frame_loseEvent s w.ev, none_⟩
  · dsimp only
    have h := State.frame_storeRecord s s.eventSlot (s.eventBytes w n)
    generalize s.storeRecord s.eventSlot (s.eventBytes w n) = q at h ⊢
    obtain ⟨t, fate⟩ := q
    cases fate with
    | failed m =>
      have h2 : t.EventFrame (t.loseEvent w.ev) := State.frame_loseEvent t w.ev
      exact ⟨State.EventFrame.trans h.1 h2, h.2⟩
    | stored m =>
      have h2 : t.EventFrame (t.recorded tag) := State.frame_recorded t tag
      exact ⟨State.EventFrame.trans h.1 h2, h.2⟩
    | sent =>
      refine ⟨State.EventFrame.trans h.1 ?_, none_⟩
      dsimp only
      generalize s.eventSlot - companionBase = x
      apply State.frame_writePart

theorem State.frame_noteEntry (s : State) (en : RecEntry) : s.EventFrame (s.noteEntry en) := by
  unfold State.noteEntry
  split
  · exact ⟨fun _ _ => rfl, rfl⟩
  · exact .refl s

theorem State.frame_queuePldm (s : State) (e : PldmEvent) (b : Bool) : s.EventFrame (s.queuePldm e b) := by
  have h0 (s : State) (q : List PldmEvent) : s.EventFrame { s with mgmt := { s.mgmt with queue := q } } := ⟨fun _ _ => rfl, rfl⟩
  have h1 (s : State) (v : Nat) : s.EventFrame (s.put F.ER_STATUS_PLDM_QUEUED v) := .put (eventField_mem (by decide)) _
  have h2 (s : State) (v : Nat) : s.EventFrame (s.put F.ER_STATUS_ALERT v) := .put (eventField_mem (by decide)) _
  unfold State.queuePldm
  split
  · exact .refl s
  · split
    · exact .bump (eventField_mem (by decide)) 1
    · dsimp only
      split
      · exact (h0 s _).trans ((h1 _ _).trans (h2 _ _))
      · exact (h0 s _).trans (h1 _ _)

theorem State.EventFrame.foldl {α : Type} (f : State → α → State) (l : List α) (hf : ∀ s : State, ∀ a ∈ l, s.EventFrame (f s a))
    (s : State) : s.EventFrame (l.foldl f s) := by
  induction l generalizing s with
  | nil => exact .refl s
  | cons a l ih =>
    exact (hf s a (List.mem_cons_self ..)).trans (ih (fun s a h => hf s a (List.mem_cons_of_mem _ h)) _)

theorem State.frame_events (s : State) (n : Nat) (p : Prop) [Decidable p] :
    s.EventFrame (if p then { s with pd := { s.pd with events := n } } else s) := by
  split
  · exact ⟨fun _ _ => rfl, rfl⟩
  · exact .refl s

theorem State.frame_report (s : State) (e : PldmEvent) (b : Bool) (p : Prop) [Decidable p] :
    s.EventFrame (if p then s.queuePldm e b else s) := by
  split
  · exact State.frame_queuePldm ..
  · exact .refl s

theorem State.frame_countEvent (s : State) {e : Ev} (he : e.cls < 5) : s.EventFrame (s.countEvent e) := by
  unfold State.countEvent
  extract_lets s1 s2 pd s3
  have h1 : s.EventFrame s1 := s.frame_classCount he 1
  have h2 : s1.EventFrame s2 := State.frame_noteEntry s1 _
  have h3 : s2.EventFrame s3 := State.frame_events s2 _ _
  exact h1.trans (h2.trans (h3.trans (State.frame_report s3 _ _ _)))

theorem State.frame_writeEvent (s : State) (w : EvWait) : s.EventFrame (s.writeEvent w).1 ∧ ∀ ev ∈ (s.writeEvent w).2, ev.cls < 3 :=
  State.frame_tryRecord s _ w _

theorem State.frame_writeOverflow (s : State) (w : EvWait) :
    s.EventFrame (s.writeOverflow w).1 ∧ ∀ ev ∈ (s.writeOverflow w).2, ev.cls < 3 := by
  have h0 (s : State) (q : List EvWait) : s.EventFrame { s with cp := { s.cp with evWaits := q } } := ⟨fun _ _ => rfl, rfl⟩
  have h := State.frame_tryRecord s .overflow (s.evNow s.overflowEv) 0
  unfold State.writeOverflow
  generalize s.tryRecord .overflow (s.evNow s.overflowEv) 0 = q at h ⊢
  obtain ⟨t, fate⟩ := q
  have then_ : t.EventFrame (t.writeEvent w).1 ∧ ∀ ev ∈ fate.next ++ (t.writeEvent w).2, ev.cls < 3 := by
    have h2 := State.frame_writeEvent t w
    refine ⟨h2.1, fun ev hv => ?_⟩
    rcases List.mem_append.1 hv with hv | hv
    · exact h.2 ev hv
    · exact h2.2 ev hv
  cases fate with
  | failed m => exact ⟨State.EventFrame.trans h.1 then_.1, then_.2⟩
  | stored m => exact ⟨State.EventFrame.trans h.1 then_.1, then_.2⟩
  | sent => exact ⟨State.EventFrame.trans h.1 (h0 t _), by intro ev h; simp at h⟩

theorem State.frame_recordNow (s : State) (w : EvWait) : s.EventFrame (s.recordNow w).1 ∧ ∀ ev ∈ (s.recordNow w).2, ev.cls < 3 := by
  unfold State.recordNow
  split
  · exact ⟨⟨fun _ _ => rfl, rfl⟩, by intro ev h; simp at h⟩
  · split
    · have h := State.frame_writeOverflow (s.countEvent s.overflowEv) w
      exact ⟨(State.frame_countEvent s (show 2 < 5 by decide)).trans h.1, h.2⟩
    · exact State.frame_writeEvent s w

theorem State.frame_recordEvent (s : State) (e : Ev) :
    s.EventFrame (s.recordEvent e).1 ∧ ∀ ev ∈ (s.recordEvent e).2, ev.cls < 3 := by
  unfold State.recordEvent
  split
  · exact ⟨⟨fun _ _ => rfl, rfl⟩, by intro ev h; simp at h⟩
  · exact State.frame_recordNow s _

theorem State.frame_emitWithin (n : Nat) : ∀ (s : State) (e : Ev), e.cls < 5 → s.EventFrame (s.emitWithin n e) := by
  induction n with
  | zero =>
    intro s e he
    exact (s.frame_classCount he 1).trans (State.frame_loseEvent _ e)
  | succ n ih =>
    intro s e he
    have h1 := State.frame_recordEvent (s.countEvent e) e
    rw [State.emitWithin]
    split
    rename_i x next hx
    rw [hx] at h1
    refine (State.frame_countEvent s he).trans (State.EventFrame.trans h1.1 (State.EventFrame.foldl _ _ (fun t ev hev => ih t ev ?_) _))
    have := h1.2 ev hev
    omega

/-- Everything that the record of an event can change. -/
theorem State.frame_emit (s : State) {e : Ev} (h : e.cls < 5) : s.EventFrame (s.emit e) := State.frame_emitWithin 3 s e h

/-- An event of class NOTE, CORRECTED or CONTAINED does no more than its record. -/
theorem State.frame_raise {e : Ev} (h : e.cls < 3) (s : State) : s.EventFrame (s.raise e) := by
  unfold State.raise
  dsimp only
  rw [if_neg (by omega), if_neg (by omega)]
  exact State.frame_emit s (by omega)

theorem calm_not_event {f : Field} (h : calmField f) : ¬ eventField f := by
  have fixed : ∀ n ∈ ([F.PC_STATUS_STATE.key, F.SH_HOME_VALID.key, F.BW_QUEUE_DEPTH.key] : List Nat), n ∉ eventFields ∧
      (∀ c < 5, n ≠ (F.ER_CLASS_COUNT c).key) ∧ ∀ k < 16, n ≠ (F.HM_ECC_CORRECTED k).key ∧ n ≠ (F.HM_ECC_UNCORRECTABLE k).key ∧
        n ≠ (F.HM_ECC_POISONED k).key ∧ n ≠ (F.HM_ERR_ADDR_ADDR k).key := by decide
  have w1 : ∀ j < 64, (F.CP_RING_STATUS_WAITING j).key ∉ eventFields := by decide
  have w2 : ∀ j < 64, ∀ c < 5, (F.CP_RING_STATUS_WAITING j).key ≠ (F.ER_CLASS_COUNT c).key := by decide
  have w3 : ∀ j < 64, ∀ k < 16, (F.CP_RING_STATUS_WAITING j).key ≠ (F.HM_ECC_CORRECTED k).key ∧
        (F.CP_RING_STATUS_WAITING j).key ≠ (F.HM_ECC_UNCORRECTABLE k).key ∧
        (F.CP_RING_STATUS_WAITING j).key ≠ (F.HM_ECC_POISONED k).key ∧
        (F.CP_RING_STATUS_WAITING j).key ≠ (F.HM_ERR_ADDR_ADDR k).key := by
    intro j hj k hk
    simp only [Field.key, Reg.CP_RING_STATUS, Reg.HM_ECC, Reg.HM_ERR_ADDR]
    omega
  have waiting := fun j hj => And.intro (w1 j hj) (And.intro (w2 j hj) (w3 j hj))
  have all : f.key ∉ eventFields ∧ (∀ c < 5, f.key ≠ (F.ER_CLASS_COUNT c).key) ∧
      ∀ k < 16, f.key ≠ (F.HM_ECC_CORRECTED k).key ∧ f.key ≠ (F.HM_ECC_UNCORRECTABLE k).key ∧
        f.key ≠ (F.HM_ECC_POISONED k).key ∧ f.key ≠ (F.HM_ERR_ADDR_ADDR k).key := by
    rcases h with h | h | h | ⟨j, hj, h⟩ <;> rw [h]
    · exact fixed _ (by simp)
    · exact fixed _ (by simp)
    · exact fixed _ (by simp)
    · exact waiting j hj
  rintro (he | ⟨c, hc, he⟩ | ⟨k, hk, he | he | he | he⟩)
  · exact all.1 he
  · exact all.2.1 c hc he
  · exact (all.2.2 k hk).1 he
  · exact (all.2.2 k hk).2.1 he
  · exact (all.2.2 k hk).2.2.1 he
  · exact (all.2.2 k hk).2.2.2 he

/-- The record of an event leaves a calm state calm. -/
theorem State.EventFrame.calm {s t : State} (h : s.EventFrame t) (hs : s.Calm) : t.Calm := by
  have e := h.rest
  have flights : t.cp.flights = s.cp.flights := by rw [e]
  have due : t.pd.haltDue = s.pd.haltDue ∧ t.pd.failDue = s.pd.failDue := by rw [e]; exact ⟨rfl, rfl⟩
  have pwr : t.pwr.resetDue = s.pwr.resetDue := by rw [e]
  have cl : t.pd.clauses = s.pd.clauses := by rw [e]
  have coll : t.coll = s.coll := by rw [e]
  have uu : t.uu = s.uu := by rw [e]
  have sh : t.sh = s.sh := by rw [e]
  have regs : ∀ f : Field, calmField f → t.get f = s.get f := fun f hf => h.regs f (calm_not_event hf)
  have noted : t.noneNoted := by
    have h1 : t.wrote = s.wrote := by rw [e]
    have h2 : t.oxl.failed = s.oxl.failed ∧ t.oxl.missing = s.oxl.missing := by rw [e]; exact ⟨rfl, rfl⟩
    exact ⟨h1.trans hs.noted.1, h2.1.trans hs.noted.2.1, h2.2.trans hs.noted.2.2⟩
  refine ⟨⟨noted, ⟨due.1.trans hs.due.1, due.2.trans hs.due.2.1, pwr.trans hs.due.2.2⟩, ?_, coll ▸ hs.coll, uu ▸ hs.commit, ?_⟩, ?_⟩
  · have hc : ∀ c, t.clauseOpen c = s.clauseOpen c := by
      intro c; unfold State.clauseOpen State.clause; rw [cl]
    have hst : t.pcState = s.pcState := regs _ (.inl rfl)
    rw [hst]
    exact ⟨hs.period.1, fun h2 c hc' => by rw [hc]; exact hs.period.2 h2 c hc'⟩
  · have := hs.shadow
    simp only [State.holds, State.on] at this ⊢
    rw [sh, regs _ (.inr (.inl rfl))]; exact this
  · refine ⟨flights ▸ hs.flights, ?_, fun k hk => ?_⟩
    · rw [regs _ (.inr (.inr (.inl rfl)))]; exact hs.depth
    · rw [regs _ (.inr (.inr (.inr ⟨k, hk, rfl⟩)))]; exact hs.waiting k hk

end Sys2Proof.Machine
end

