-- ==== Sys2Proof/Laws/Residue.lean ====
section
/-!
SUPPORT. Laws/Residue.lean: the residue predictor of R78 agrees with every chunk register that R73 and R74 give, so a mismatch is an error
of the register.
-/
namespace Sys2Proof.Machine

theorem int_two_pow_mod (d : Nat) : ((2 : Int) ^ d) % 127 = 2 ^ (d % 7) % 127 := by
  have h : (2 : Int) ^ d = (2 ^ 7) ^ (d / 7) * 2 ^ (d % 7) := by rw [← pow_mul, ← pow_add, Nat.div_add_mod]
  rw [h, Int.mul_emod, ← Int.emod_emod_of_dvd _ (dvd_refl 127)]
  have h1 : ((2 : Int) ^ 7) ^ (d / 7) % 127 = 1 := by
    have : ((2 : Int) ^ 7) ≡ 1 [ZMOD 127] := by decide
    simpa [Int.ModEq] using this.pow (d / 7)
  rw [h1]; simp [Int.emod_emod_of_dvd]

/-- One term: the significands' residue times 2^(d mod 7), less that of the discarded part, is the contribution to the register. -/
theorem residueTerm_eq (neg : Bool) (m : Nat) (d : Int) :
    residueTerm neg m d ≡ signedNat neg (shiftBy m d) [ZMOD 127] := by
  have key : (Int.ofNat (m % 127 * 2 ^ (d % 7).toNat) - Int.ofNat (lostBits m d % 127 * 2 ^ (d % 7).toNat)) ≡ Int.ofNat (shiftBy m d)
      [ZMOD 127] := by
    have hm (x : Nat) : Int.ofNat (x % 127 * 2 ^ (d % 7).toNat) ≡ (x : Int) * 2 ^ (d % 7).toNat [ZMOD 127] := by
      simp only [Int.ofNat_eq_natCast, Nat.cast_mul, Nat.cast_pow, Nat.cast_ofNat]
      exact Int.ModEq.mul_right _ (by simp [Int.ModEq])
    refine ((hm m).sub (hm _)).trans ?_
    unfold lostBits shiftBy
    by_cases h : 0 ≤ d
    · obtain ⟨n, rfl⟩ := Int.eq_ofNat_of_zero_le h
      have h2 : (((n : Int) % 7).toNat) = n % 7 := by omega
      simp only [h, if_true, show ¬ ((n : Int) < 0) by omega, if_false, h2, Int.toNat_natCast]
      simp only [Int.ofNat_eq_natCast, Nat.cast_mul, Nat.cast_pow, Nat.cast_ofNat, Nat.cast_zero, zero_mul, sub_zero]
      exact Int.ModEq.mul_left _ (by simp [Int.ModEq, (int_two_pow_mod n).symm])
    · obtain ⟨n, hn⟩ := Int.eq_ofNat_of_zero_le (show (0 : Int) ≤ -d by omega)
      simp only [h, if_false, show d < 0 by omega, if_true, hn, Int.toNat_natCast]
      set w := (d % 7).toNat
      have e : (m : Int) * 2 ^ w - ((m % 2 ^ n : Nat) : Int) * 2 ^ w = ((m / 2 ^ n : Nat) : Int) * 2 ^ (n + w) := by
        have hm := Nat.div_add_mod m (2 ^ n)
        have : (m : Int) = 2 ^ n * ((m / 2 ^ n : Nat) : Int) + ((m % 2 ^ n : Nat) : Int) := by exact_mod_cast hm.symm
        rw [pow_add]; linear_combination (2 ^ w : Int) * this
      rw [e]
      have h0 : (n + w) % 7 = 0 := by omega
      have h1 : ((2 : Int) ^ (n + w)) ≡ 1 [ZMOD 127] := by
        unfold Int.ModEq; rw [int_two_pow_mod, h0]; decide
      simpa using Int.ModEq.mul_left ((m / 2 ^ n : Nat) : Int) h1
  unfold residueTerm signedNat
  cases neg
  · simpa using key
  · simpa using key.neg

theorem chunkTotal_congr {f g : Bool → Nat → Int → Int} (h : ∀ s m d, f s m d ≡ g s m d [ZMOD 127]) (q : Int) (ps : List Val) :
    chunkTotal f q ps ≡ chunkTotal g q ps [ZMOD 127] := by
  unfold chunkTotal
  suffices ∀ a b : Int, a ≡ b [ZMOD 127] → ps.foldl _ a ≡ ps.foldl _ b [ZMOD 127] from this 0 0 rfl
  induction ps with
  | nil => exact fun _ _ hab => hab
  | cons p ps ih =>
    intro a b hab
    refine ih _ _ ?_
    cases p with
    | fin s m e => exact hab.add (h s m (e - q))
    | _ => exact hab

/-- Without an error in the register the check of R78 passes. -/
@[simp] theorem residueMatches_eq (ps : List Val) : residueMatches ps = true := by
  unfold residueMatches
  split
  · rfl
  · rename_i q _
    have h := chunkTotal_congr residueTerm_eq q ps
    exact decide_eq_true h.symm

end Sys2Proof.Machine
end

