-- ==== Sys2Proof/Laws/State.lean ====
section
/-!
SUPPORT. Laws/State.lean: what each update of the state leaves as it was and what it sets, one lemma per field and update, so that no later
proof unfolds a record update. The lemmas of `State.put` stand in Laws/Regs.lean.
-/
namespace Sys2Proof.Machine

/-! ## A draw -/

@[simp] theorem State.draw_fst (s : State) : s.draw.1 = s.draws := rfl
@[simp] theorem State.draw_snd (s : State) : s.draw.2 = { s with draws := s.draws + 1 } := rfl

/-! ## send -/

@[simp] theorem State.send_regs (s : State) (m : OutMsg) : (s.send m).regs = s.regs := rfl
@[simp] theorem State.send_latches (s : State) (m : OutMsg) : (s.send m).latches = s.latches := rfl
@[simp] theorem State.send_hbm (s : State) (m : OutMsg) : (s.send m).hbm = s.hbm := rfl
@[simp] theorem State.send_comp (s : State) (m : OutMsg) : (s.send m).comp = s.comp := rfl
@[simp] theorem State.send_poison (s : State) (m : OutMsg) : (s.send m).poison = s.poison := rfl
@[simp] theorem State.send_inject (s : State) (m : OutMsg) : (s.send m).inject = s.inject := rfl
@[simp] theorem State.send_cp (s : State) (m : OutMsg) : (s.send m).cp = s.cp := rfl
@[simp] theorem State.send_pd (s : State) (m : OutMsg) : (s.send m).pd = s.pd := rfl
@[simp] theorem State.send_mgmt (s : State) (m : OutMsg) : (s.send m).mgmt = s.mgmt := rfl
@[simp] theorem State.send_pwr (s : State) (m : OutMsg) : (s.send m).pwr = s.pwr := rfl
@[simp] theorem State.send_oxl (s : State) (m : OutMsg) : (s.send m).oxl = s.oxl := rfl
@[simp] theorem State.send_dm (s : State) (m : OutMsg) : (s.send m).dm = s.dm := rfl
@[simp] theorem State.send_fab (s : State) (m : OutMsg) : (s.send m).fab = s.fab := rfl
@[simp] theorem State.send_coll (s : State) (m : OutMsg) : (s.send m).coll = s.coll := rfl
@[simp] theorem State.send_num (s : State) (m : OutMsg) : (s.send m).num = s.num := rfl
@[simp] theorem State.send_gram (s : State) (m : OutMsg) : (s.send m).gram = s.gram := rfl
@[simp] theorem State.send_marks (s : State) (m : OutMsg) : (s.send m).marks = s.marks := rfl
@[simp] theorem State.send_rr (s : State) (m : OutMsg) : (s.send m).rr = s.rr := rfl
@[simp] theorem State.send_cj (s : State) (m : OutMsg) : (s.send m).cj = s.cj := rfl
@[simp] theorem State.send_uu (s : State) (m : OutMsg) : (s.send m).uu = s.uu := rfl
@[simp] theorem State.send_sh (s : State) (m : OutMsg) : (s.send m).sh = s.sh := rfl
@[simp] theorem State.send_sec (s : State) (m : OutMsg) : (s.send m).sec = s.sec := rfl
@[simp] theorem State.send_out (s : State) (m : OutMsg) : (s.send m).out = s.out ++ [m] := rfl
@[simp] theorem State.send_draws (s : State) (m : OutMsg) : (s.send m).draws = s.draws := rfl
@[simp] theorem State.send_wrote (s : State) (m : OutMsg) : (s.send m).wrote = s.wrote := rfl
@[simp] theorem State.send_pending (s : State) (m : OutMsg) : (s.send m).pending = s.pending := rfl
@[simp] theorem State.send_get (s : State) (m : OutMsg) (f : Field) : (s.send m).get f = s.get f := rfl

/-! ## finish -/

@[simp] theorem State.finish_regs (s : State) (c : CmdRef) (d : Done) : (s.finish c d).regs = s.regs := rfl
@[simp] theorem State.finish_latches (s : State) (c : CmdRef) (d : Done) : (s.finish c d).latches = s.latches := rfl
@[simp] theorem State.finish_hbm (s : State) (c : CmdRef) (d : Done) : (s.finish c d).hbm = s.hbm := rfl
@[simp] theorem State.finish_comp (s : State) (c : CmdRef) (d : Done) : (s.finish c d).comp = s.comp := rfl
@[simp] theorem State.finish_poison (s : State) (c : CmdRef) (d : Done) : (s.finish c d).poison = s.poison := rfl
@[simp] theorem State.finish_inject (s : State) (c : CmdRef) (d : Done) : (s.finish c d).inject = s.inject := rfl
@[simp] theorem State.finish_pd (s : State) (c : CmdRef) (d : Done) : (s.finish c d).pd = s.pd := rfl
@[simp] theorem State.finish_mgmt (s : State) (c : CmdRef) (d : Done) : (s.finish c d).mgmt = s.mgmt := rfl
@[simp] theorem State.finish_pwr (s : State) (c : CmdRef) (d : Done) : (s.finish c d).pwr = s.pwr := rfl
@[simp] theorem State.finish_oxl (s : State) (c : CmdRef) (d : Done) : (s.finish c d).oxl = s.oxl := rfl
@[simp] theorem State.finish_dm (s : State) (c : CmdRef) (d : Done) : (s.finish c d).dm = s.dm := rfl
@[simp] theorem State.finish_fab (s : State) (c : CmdRef) (d : Done) : (s.finish c d).fab = s.fab := rfl
@[simp] theorem State.finish_coll (s : State) (c : CmdRef) (d : Done) : (s.finish c d).coll = s.coll := rfl
@[simp] theorem State.finish_num (s : State) (c : CmdRef) (d : Done) : (s.finish c d).num = s.num := rfl
@[simp] theorem State.finish_gram (s : State) (c : CmdRef) (d : Done) : (s.finish c d).gram = s.gram := rfl
@[simp] theorem State.finish_marks (s : State) (c : CmdRef) (d : Done) : (s.finish c d).marks = s.marks := rfl
@[simp] theorem State.finish_rr (s : State) (c : CmdRef) (d : Done) : (s.finish c d).rr = s.rr := rfl
@[simp] theorem State.finish_cj (s : State) (c : CmdRef) (d : Done) : (s.finish c d).cj = s.cj := rfl
@[simp] theorem State.finish_uu (s : State) (c : CmdRef) (d : Done) : (s.finish c d).uu = s.uu := rfl
@[simp] theorem State.finish_sh (s : State) (c : CmdRef) (d : Done) : (s.finish c d).sh = s.sh := rfl
@[simp] theorem State.finish_sec (s : State) (c : CmdRef) (d : Done) : (s.finish c d).sec = s.sec := rfl
@[simp] theorem State.finish_out (s : State) (c : CmdRef) (d : Done) : (s.finish c d).out = s.out := rfl
@[simp] theorem State.finish_draws (s : State) (c : CmdRef) (d : Done) : (s.finish c d).draws = s.draws := rfl
@[simp] theorem State.finish_wrote (s : State) (c : CmdRef) (d : Done) : (s.finish c d).wrote = s.wrote := rfl
@[simp] theorem State.finish_pending (s : State) (c : CmdRef) (d : Done) : (s.finish c d).pending = s.pending := rfl
@[simp] theorem State.finish_get (s : State) (c : CmdRef) (d : Done) (f : Field) : (s.finish c d).get f = s.get f := rfl

/-! ## setPort -/

@[simp] theorem State.setPort_regs (s : State) (p : Nat) (v : PortState) : (s.setPort p v).regs = s.regs := rfl
@[simp] theorem State.setPort_latches (s : State) (p : Nat) (v : PortState) : (s.setPort p v).latches = s.latches := rfl
@[simp] theorem State.setPort_hbm (s : State) (p : Nat) (v : PortState) : (s.setPort p v).hbm = s.hbm := rfl
@[simp] theorem State.setPort_comp (s : State) (p : Nat) (v : PortState) : (s.setPort p v).comp = s.comp := rfl
@[simp] theorem State.setPort_poison (s : State) (p : Nat) (v : PortState) : (s.setPort p v).poison = s.poison := rfl
@[simp] theorem State.setPort_inject (s : State) (p : Nat) (v : PortState) : (s.setPort p v).inject = s.inject := rfl
@[simp] theorem State.setPort_cp (s : State) (p : Nat) (v : PortState) : (s.setPort p v).cp = s.cp := rfl
@[simp] theorem State.setPort_pd (s : State) (p : Nat) (v : PortState) : (s.setPort p v).pd = s.pd := rfl
@[simp] theorem State.setPort_mgmt (s : State) (p : Nat) (v : PortState) : (s.setPort p v).mgmt = s.mgmt := rfl
@[simp] theorem State.setPort_pwr (s : State) (p : Nat) (v : PortState) : (s.setPort p v).pwr = s.pwr := rfl
@[simp] theorem State.setPort_oxl (s : State) (p : Nat) (v : PortState) : (s.setPort p v).oxl = s.oxl := rfl
@[simp] theorem State.setPort_dm (s : State) (p : Nat) (v : PortState) : (s.setPort p v).dm = s.dm := rfl
@[simp] theorem State.setPort_fab (s : State) (p : Nat) (v : PortState) : (s.setPort p v).fab = { s.fab with ports := nthSet (s.fab.ports ++ List.replicate (8 - s.fab.ports.length) PortState.reset) p v } := rfl
@[simp] theorem State.setPort_coll (s : State) (p : Nat) (v : PortState) : (s.setPort p v).coll = s.coll := rfl
@[simp] theorem State.setPort_num (s : State) (p : Nat) (v : PortState) : (s.setPort p v).num = s.num := rfl
@[simp] theorem State.setPort_gram (s : State) (p : Nat) (v : PortState) : (s.setPort p v).gram = s.gram := rfl
@[simp] theorem State.setPort_marks (s : State) (p : Nat) (v : PortState) : (s.setPort p v).marks = s.marks := rfl
@[simp] theorem State.setPort_rr (s : State) (p : Nat) (v : PortState) : (s.setPort p v).rr = s.rr := rfl
@[simp] theorem State.setPort_cj (s : State) (p : Nat) (v : PortState) : (s.setPort p v).cj = s.cj := rfl
@[simp] theorem State.setPort_uu (s : State) (p : Nat) (v : PortState) : (s.setPort p v).uu = s.uu := rfl
@[simp] theorem State.setPort_sh (s : State) (p : Nat) (v : PortState) : (s.setPort p v).sh = s.sh := rfl
@[simp] theorem State.setPort_sec (s : State) (p : Nat) (v : PortState) : (s.setPort p v).sec = s.sec := rfl
@[simp] theorem State.setPort_out (s : State) (p : Nat) (v : PortState) : (s.setPort p v).out = s.out := rfl
@[simp] theorem State.setPort_draws (s : State) (p : Nat) (v : PortState) : (s.setPort p v).draws = s.draws := rfl
@[simp] theorem State.setPort_wrote (s : State) (p : Nat) (v : PortState) : (s.setPort p v).wrote = s.wrote := rfl
@[simp] theorem State.setPort_pending (s : State) (p : Nat) (v : PortState) : (s.setPort p v).pending = s.pending := rfl
@[simp] theorem State.setPort_get (s : State) (p : Nat) (v : PortState) (f : Field) : (s.setPort p v).get f = s.get f := rfl

/-! ## setClause -/

@[simp] theorem State.setClause_regs (s : State) (c : Nat) (v : ClauseRun) : (s.setClause c v).regs = s.regs := rfl
@[simp] theorem State.setClause_latches (s : State) (c : Nat) (v : ClauseRun) : (s.setClause c v).latches = s.latches := rfl
@[simp] theorem State.setClause_hbm (s : State) (c : Nat) (v : ClauseRun) : (s.setClause c v).hbm = s.hbm := rfl
@[simp] theorem State.setClause_comp (s : State) (c : Nat) (v : ClauseRun) : (s.setClause c v).comp = s.comp := rfl
@[simp] theorem State.setClause_poison (s : State) (c : Nat) (v : ClauseRun) : (s.setClause c v).poison = s.poison := rfl
@[simp] theorem State.setClause_inject (s : State) (c : Nat) (v : ClauseRun) : (s.setClause c v).inject = s.inject := rfl
@[simp] theorem State.setClause_cp (s : State) (c : Nat) (v : ClauseRun) : (s.setClause c v).cp = s.cp := rfl
@[simp] theorem State.setClause_pd (s : State) (c : Nat) (v : ClauseRun) : (s.setClause c v).pd = { s.pd with clauses := nthSet s.pd.clauses c v } := rfl
@[simp] theorem State.setClause_mgmt (s : State) (c : Nat) (v : ClauseRun) : (s.setClause c v).mgmt = s.mgmt := rfl
@[simp] theorem State.setClause_pwr (s : State) (c : Nat) (v : ClauseRun) : (s.setClause c v).pwr = s.pwr := rfl
@[simp] theorem State.setClause_oxl (s : State) (c : Nat) (v : ClauseRun) : (s.setClause c v).oxl = s.oxl := rfl
@[simp] theorem State.setClause_dm (s : State) (c : Nat) (v : ClauseRun) : (s.setClause c v).dm = s.dm := rfl
@[simp] theorem State.setClause_fab (s : State) (c : Nat) (v : ClauseRun) : (s.setClause c v).fab = s.fab := rfl
@[simp] theorem State.setClause_coll (s : State) (c : Nat) (v : ClauseRun) : (s.setClause c v).coll = s.coll := rfl
@[simp] theorem State.setClause_num (s : State) (c : Nat) (v : ClauseRun) : (s.setClause c v).num = s.num := rfl
@[simp] theorem State.setClause_gram (s : State) (c : Nat) (v : ClauseRun) : (s.setClause c v).gram = s.gram := rfl
@[simp] theorem State.setClause_marks (s : State) (c : Nat) (v : ClauseRun) : (s.setClause c v).marks = s.marks := rfl
@[simp] theorem State.setClause_rr (s : State) (c : Nat) (v : ClauseRun) : (s.setClause c v).rr = s.rr := rfl
@[simp] theorem State.setClause_cj (s : State) (c : Nat) (v : ClauseRun) : (s.setClause c v).cj = s.cj := rfl
@[simp] theorem State.setClause_uu (s : State) (c : Nat) (v : ClauseRun) : (s.setClause c v).uu = s.uu := rfl
@[simp] theorem State.setClause_sh (s : State) (c : Nat) (v : ClauseRun) : (s.setClause c v).sh = s.sh := rfl
@[simp] theorem State.setClause_sec (s : State) (c : Nat) (v : ClauseRun) : (s.setClause c v).sec = s.sec := rfl
@[simp] theorem State.setClause_out (s : State) (c : Nat) (v : ClauseRun) : (s.setClause c v).out = s.out := rfl
@[simp] theorem State.setClause_draws (s : State) (c : Nat) (v : ClauseRun) : (s.setClause c v).draws = s.draws := rfl
@[simp] theorem State.setClause_wrote (s : State) (c : Nat) (v : ClauseRun) : (s.setClause c v).wrote = s.wrote := rfl
@[simp] theorem State.setClause_pending (s : State) (c : Nat) (v : ClauseRun) : (s.setClause c v).pending = s.pending := rfl
@[simp] theorem State.setClause_get (s : State) (c : Nat) (v : ClauseRun) (f : Field) : (s.setClause c v).get f = s.get f := rfl

/-! ## setTref -/

@[simp] theorem State.setTref_regs (s : State) (t : TickRef) : (s.setTref t).regs = s.regs := rfl
@[simp] theorem State.setTref_latches (s : State) (t : TickRef) : (s.setTref t).latches = s.latches := rfl
@[simp] theorem State.setTref_hbm (s : State) (t : TickRef) : (s.setTref t).hbm = s.hbm := rfl
@[simp] theorem State.setTref_comp (s : State) (t : TickRef) : (s.setTref t).comp = s.comp := rfl
@[simp] theorem State.setTref_poison (s : State) (t : TickRef) : (s.setTref t).poison = s.poison := rfl
@[simp] theorem State.setTref_inject (s : State) (t : TickRef) : (s.setTref t).inject = s.inject := rfl
@[simp] theorem State.setTref_cp (s : State) (t : TickRef) : (s.setTref t).cp = s.cp := rfl
@[simp] theorem State.setTref_pd (s : State) (t : TickRef) : (s.setTref t).pd = { s.pd with tref := t } := rfl
@[simp] theorem State.setTref_mgmt (s : State) (t : TickRef) : (s.setTref t).mgmt = s.mgmt := rfl
@[simp] theorem State.setTref_pwr (s : State) (t : TickRef) : (s.setTref t).pwr = s.pwr := rfl
@[simp] theorem State.setTref_oxl (s : State) (t : TickRef) : (s.setTref t).oxl = s.oxl := rfl
@[simp] theorem State.setTref_dm (s : State) (t : TickRef) : (s.setTref t).dm = s.dm := rfl
@[simp] theorem State.setTref_fab (s : State) (t : TickRef) : (s.setTref t).fab = s.fab := rfl
@[simp] theorem State.setTref_coll (s : State) (t : TickRef) : (s.setTref t).coll = s.coll := rfl
@[simp] theorem State.setTref_num (s : State) (t : TickRef) : (s.setTref t).num = s.num := rfl
@[simp] theorem State.setTref_gram (s : State) (t : TickRef) : (s.setTref t).gram = s.gram := rfl
@[simp] theorem State.setTref_marks (s : State) (t : TickRef) : (s.setTref t).marks = s.marks := rfl
@[simp] theorem State.setTref_rr (s : State) (t : TickRef) : (s.setTref t).rr = s.rr := rfl
@[simp] theorem State.setTref_cj (s : State) (t : TickRef) : (s.setTref t).cj = s.cj := rfl
@[simp] theorem State.setTref_uu (s : State) (t : TickRef) : (s.setTref t).uu = s.uu := rfl
@[simp] theorem State.setTref_sh (s : State) (t : TickRef) : (s.setTref t).sh = s.sh := rfl
@[simp] theorem State.setTref_sec (s : State) (t : TickRef) : (s.setTref t).sec = s.sec := rfl
@[simp] theorem State.setTref_out (s : State) (t : TickRef) : (s.setTref t).out = s.out := rfl
@[simp] theorem State.setTref_draws (s : State) (t : TickRef) : (s.setTref t).draws = s.draws := rfl
@[simp] theorem State.setTref_wrote (s : State) (t : TickRef) : (s.setTref t).wrote = s.wrote := rfl
@[simp] theorem State.setTref_pending (s : State) (t : TickRef) : (s.setTref t).pending = s.pending := rfl
@[simp] theorem State.setTref_get (s : State) (t : TickRef) (f : Field) : (s.setTref t).get f = s.get f := rfl

/-! ## setLink -/

@[simp] theorem State.setLink_regs (s : State) (l : Nat) (v : OxlLink) : (s.setLink l v).regs = s.regs := rfl
@[simp] theorem State.setLink_latches (s : State) (l : Nat) (v : OxlLink) : (s.setLink l v).latches = s.latches := rfl
@[simp] theorem State.setLink_hbm (s : State) (l : Nat) (v : OxlLink) : (s.setLink l v).hbm = s.hbm := rfl
@[simp] theorem State.setLink_comp (s : State) (l : Nat) (v : OxlLink) : (s.setLink l v).comp = s.comp := rfl
@[simp] theorem State.setLink_poison (s : State) (l : Nat) (v : OxlLink) : (s.setLink l v).poison = s.poison := rfl
@[simp] theorem State.setLink_inject (s : State) (l : Nat) (v : OxlLink) : (s.setLink l v).inject = s.inject := rfl
@[simp] theorem State.setLink_cp (s : State) (l : Nat) (v : OxlLink) : (s.setLink l v).cp = s.cp := rfl
@[simp] theorem State.setLink_pd (s : State) (l : Nat) (v : OxlLink) : (s.setLink l v).pd = s.pd := rfl
@[simp] theorem State.setLink_mgmt (s : State) (l : Nat) (v : OxlLink) : (s.setLink l v).mgmt = s.mgmt := rfl
@[simp] theorem State.setLink_pwr (s : State) (l : Nat) (v : OxlLink) : (s.setLink l v).pwr = s.pwr := rfl
@[simp] theorem State.setLink_oxl (s : State) (l : Nat) (v : OxlLink) : (s.setLink l v).oxl = { s.oxl with links := nthSet (s.oxl.links ++ List.replicate (2 - s.oxl.links.length) OxlLink.reset) l v } := rfl
@[simp] theorem State.setLink_dm (s : State) (l : Nat) (v : OxlLink) : (s.setLink l v).dm = s.dm := rfl
@[simp] theorem State.setLink_fab (s : State) (l : Nat) (v : OxlLink) : (s.setLink l v).fab = s.fab := rfl
@[simp] theorem State.setLink_coll (s : State) (l : Nat) (v : OxlLink) : (s.setLink l v).coll = s.coll := rfl
@[simp] theorem State.setLink_num (s : State) (l : Nat) (v : OxlLink) : (s.setLink l v).num = s.num := rfl
@[simp] theorem State.setLink_gram (s : State) (l : Nat) (v : OxlLink) : (s.setLink l v).gram = s.gram := rfl
@[simp] theorem State.setLink_marks (s : State) (l : Nat) (v : OxlLink) : (s.setLink l v).marks = s.marks := rfl
@[simp] theorem State.setLink_rr (s : State) (l : Nat) (v : OxlLink) : (s.setLink l v).rr = s.rr := rfl
@[simp] theorem State.setLink_cj (s : State) (l : Nat) (v : OxlLink) : (s.setLink l v).cj = s.cj := rfl
@[simp] theorem State.setLink_uu (s : State) (l : Nat) (v : OxlLink) : (s.setLink l v).uu = s.uu := rfl
@[simp] theorem State.setLink_sh (s : State) (l : Nat) (v : OxlLink) : (s.setLink l v).sh = s.sh := rfl
@[simp] theorem State.setLink_sec (s : State) (l : Nat) (v : OxlLink) : (s.setLink l v).sec = s.sec := rfl
@[simp] theorem State.setLink_out (s : State) (l : Nat) (v : OxlLink) : (s.setLink l v).out = s.out := rfl
@[simp] theorem State.setLink_draws (s : State) (l : Nat) (v : OxlLink) : (s.setLink l v).draws = s.draws := rfl
@[simp] theorem State.setLink_wrote (s : State) (l : Nat) (v : OxlLink) : (s.setLink l v).wrote = s.wrote := rfl
@[simp] theorem State.setLink_pending (s : State) (l : Nat) (v : OxlLink) : (s.setLink l v).pending = s.pending := rfl
@[simp] theorem State.setLink_get (s : State) (l : Nat) (v : OxlLink) (f : Field) : (s.setLink l v).get f = s.get f := rfl

/-! ## latch -/

@[simp] theorem State.latch_regs (s : State) (k v : Nat) : (s.latch k v).regs = s.regs := rfl
@[simp] theorem State.latch_latches (s : State) (k v : Nat) : (s.latch k v).latches = alSet k v s.latches := rfl
@[simp] theorem State.latch_hbm (s : State) (k v : Nat) : (s.latch k v).hbm = s.hbm := rfl
@[simp] theorem State.latch_comp (s : State) (k v : Nat) : (s.latch k v).comp = s.comp := rfl
@[simp] theorem State.latch_poison (s : State) (k v : Nat) : (s.latch k v).poison = s.poison := rfl
@[simp] theorem State.latch_inject (s : State) (k v : Nat) : (s.latch k v).inject = s.inject := rfl
@[simp] theorem State.latch_cp (s : State) (k v : Nat) : (s.latch k v).cp = s.cp := rfl
@[simp] theorem State.latch_pd (s : State) (k v : Nat) : (s.latch k v).pd = s.pd := rfl
@[simp] theorem State.latch_mgmt (s : State) (k v : Nat) : (s.latch k v).mgmt = s.mgmt := rfl
@[simp] theorem State.latch_pwr (s : State) (k v : Nat) : (s.latch k v).pwr = s.pwr := rfl
@[simp] theorem State.latch_oxl (s : State) (k v : Nat) : (s.latch k v).oxl = s.oxl := rfl
@[simp] theorem State.latch_dm (s : State) (k v : Nat) : (s.latch k v).dm = s.dm := rfl
@[simp] theorem State.latch_fab (s : State) (k v : Nat) : (s.latch k v).fab = s.fab := rfl
@[simp] theorem State.latch_coll (s : State) (k v : Nat) : (s.latch k v).coll = s.coll := rfl
@[simp] theorem State.latch_num (s : State) (k v : Nat) : (s.latch k v).num = s.num := rfl
@[simp] theorem State.latch_gram (s : State) (k v : Nat) : (s.latch k v).gram = s.gram := rfl
@[simp] theorem State.latch_marks (s : State) (k v : Nat) : (s.latch k v).marks = s.marks := rfl
@[simp] theorem State.latch_rr (s : State) (k v : Nat) : (s.latch k v).rr = s.rr := rfl
@[simp] theorem State.latch_cj (s : State) (k v : Nat) : (s.latch k v).cj = s.cj := rfl
@[simp] theorem State.latch_uu (s : State) (k v : Nat) : (s.latch k v).uu = s.uu := rfl
@[simp] theorem State.latch_sh (s : State) (k v : Nat) : (s.latch k v).sh = s.sh := rfl
@[simp] theorem State.latch_sec (s : State) (k v : Nat) : (s.latch k v).sec = s.sec := rfl
@[simp] theorem State.latch_out (s : State) (k v : Nat) : (s.latch k v).out = s.out := rfl
@[simp] theorem State.latch_draws (s : State) (k v : Nat) : (s.latch k v).draws = s.draws := rfl
@[simp] theorem State.latch_wrote (s : State) (k v : Nat) : (s.latch k v).wrote = s.wrote := rfl
@[simp] theorem State.latch_pending (s : State) (k v : Nat) : (s.latch k v).pending = s.pending := rfl
@[simp] theorem State.latch_get (s : State) (k v : Nat) (f : Field) : (s.latch k v).get f = s.get f := rfl

/-! ## unlatch -/

@[simp] theorem State.unlatch_regs (s : State) (k : Nat) : (s.unlatch k).regs = s.regs := rfl
@[simp] theorem State.unlatch_latches (s : State) (k : Nat) : (s.unlatch k).latches = alErase k s.latches := rfl
@[simp] theorem State.unlatch_hbm (s : State) (k : Nat) : (s.unlatch k).hbm = s.hbm := rfl
@[simp] theorem State.unlatch_comp (s : State) (k : Nat) : (s.unlatch k).comp = s.comp := rfl
@[simp] theorem State.unlatch_poison (s : State) (k : Nat) : (s.unlatch k).poison = s.poison := rfl
@[simp] theorem State.unlatch_inject (s : State) (k : Nat) : (s.unlatch k).inject = s.inject := rfl
@[simp] theorem State.unlatch_cp (s : State) (k : Nat) : (s.unlatch k).cp = s.cp := rfl
@[simp] theorem State.unlatch_pd (s : State) (k : Nat) : (s.unlatch k).pd = s.pd := rfl
@[simp] theorem State.unlatch_mgmt (s : State) (k : Nat) : (s.unlatch k).mgmt = s.mgmt := rfl
@[simp] theorem State.unlatch_pwr (s : State) (k : Nat) : (s.unlatch k).pwr = s.pwr := rfl
@[simp] theorem State.unlatch_oxl (s : State) (k : Nat) : (s.unlatch k).oxl = s.oxl := rfl
@[simp] theorem State.unlatch_dm (s : State) (k : Nat) : (s.unlatch k).dm = s.dm := rfl
@[simp] theorem State.unlatch_fab (s : State) (k : Nat) : (s.unlatch k).fab = s.fab := rfl
@[simp] theorem State.unlatch_coll (s : State) (k : Nat) : (s.unlatch k).coll = s.coll := rfl
@[simp] theorem State.unlatch_num (s : State) (k : Nat) : (s.unlatch k).num = s.num := rfl
@[simp] theorem State.unlatch_gram (s : State) (k : Nat) : (s.unlatch k).gram = s.gram := rfl
@[simp] theorem State.unlatch_marks (s : State) (k : Nat) : (s.unlatch k).marks = s.marks := rfl
@[simp] theorem State.unlatch_rr (s : State) (k : Nat) : (s.unlatch k).rr = s.rr := rfl
@[simp] theorem State.unlatch_cj (s : State) (k : Nat) : (s.unlatch k).cj = s.cj := rfl
@[simp] theorem State.unlatch_uu (s : State) (k : Nat) : (s.unlatch k).uu = s.uu := rfl
@[simp] theorem State.unlatch_sh (s : State) (k : Nat) : (s.unlatch k).sh = s.sh := rfl
@[simp] theorem State.unlatch_sec (s : State) (k : Nat) : (s.unlatch k).sec = s.sec := rfl
@[simp] theorem State.unlatch_out (s : State) (k : Nat) : (s.unlatch k).out = s.out := rfl
@[simp] theorem State.unlatch_draws (s : State) (k : Nat) : (s.unlatch k).draws = s.draws := rfl
@[simp] theorem State.unlatch_wrote (s : State) (k : Nat) : (s.unlatch k).wrote = s.wrote := rfl
@[simp] theorem State.unlatch_pending (s : State) (k : Nat) : (s.unlatch k).pending = s.pending := rfl
@[simp] theorem State.unlatch_get (s : State) (k : Nat) (f : Field) : (s.unlatch k).get f = s.get f := rfl

/-! ## setRun -/

@[simp] theorem State.setRun_regs (s : State) (r : CollRun) : (s.setRun r).regs = s.regs := rfl
@[simp] theorem State.setRun_latches (s : State) (r : CollRun) : (s.setRun r).latches = s.latches := rfl
@[simp] theorem State.setRun_hbm (s : State) (r : CollRun) : (s.setRun r).hbm = s.hbm := rfl
@[simp] theorem State.setRun_comp (s : State) (r : CollRun) : (s.setRun r).comp = s.comp := rfl
@[simp] theorem State.setRun_poison (s : State) (r : CollRun) : (s.setRun r).poison = s.poison := rfl
@[simp] theorem State.setRun_inject (s : State) (r : CollRun) : (s.setRun r).inject = s.inject := rfl
@[simp] theorem State.setRun_cp (s : State) (r : CollRun) : (s.setRun r).cp = s.cp := rfl
@[simp] theorem State.setRun_pd (s : State) (r : CollRun) : (s.setRun r).pd = s.pd := rfl
@[simp] theorem State.setRun_mgmt (s : State) (r : CollRun) : (s.setRun r).mgmt = s.mgmt := rfl
@[simp] theorem State.setRun_pwr (s : State) (r : CollRun) : (s.setRun r).pwr = s.pwr := rfl
@[simp] theorem State.setRun_oxl (s : State) (r : CollRun) : (s.setRun r).oxl = s.oxl := rfl
@[simp] theorem State.setRun_dm (s : State) (r : CollRun) : (s.setRun r).dm = s.dm := rfl
@[simp] theorem State.setRun_fab (s : State) (r : CollRun) : (s.setRun r).fab = s.fab := rfl
@[simp] theorem State.setRun_num (s : State) (r : CollRun) : (s.setRun r).num = s.num := rfl
@[simp] theorem State.setRun_gram (s : State) (r : CollRun) : (s.setRun r).gram = s.gram := rfl
@[simp] theorem State.setRun_marks (s : State) (r : CollRun) : (s.setRun r).marks = s.marks := rfl
@[simp] theorem State.setRun_rr (s : State) (r : CollRun) : (s.setRun r).rr = s.rr := rfl
@[simp] theorem State.setRun_cj (s : State) (r : CollRun) : (s.setRun r).cj = s.cj := rfl
@[simp] theorem State.setRun_uu (s : State) (r : CollRun) : (s.setRun r).uu = s.uu := rfl
@[simp] theorem State.setRun_sh (s : State) (r : CollRun) : (s.setRun r).sh = s.sh := rfl
@[simp] theorem State.setRun_sec (s : State) (r : CollRun) : (s.setRun r).sec = s.sec := rfl
@[simp] theorem State.setRun_out (s : State) (r : CollRun) : (s.setRun r).out = s.out := rfl
@[simp] theorem State.setRun_draws (s : State) (r : CollRun) : (s.setRun r).draws = s.draws := rfl
@[simp] theorem State.setRun_wrote (s : State) (r : CollRun) : (s.setRun r).wrote = s.wrote := rfl
@[simp] theorem State.setRun_pending (s : State) (r : CollRun) : (s.setRun r).pending = s.pending := rfl
@[simp] theorem State.setRun_get (s : State) (r : CollRun) (f : Field) : (s.setRun r).get f = s.get f := rfl

/-! ## setShRun -/

@[simp] theorem State.setShRun_regs (s : State) (r : ShadowRun) : (s.setShRun r).regs = s.regs := rfl
@[simp] theorem State.setShRun_latches (s : State) (r : ShadowRun) : (s.setShRun r).latches = s.latches := rfl
@[simp] theorem State.setShRun_hbm (s : State) (r : ShadowRun) : (s.setShRun r).hbm = s.hbm := rfl
@[simp] theorem State.setShRun_comp (s : State) (r : ShadowRun) : (s.setShRun r).comp = s.comp := rfl
@[simp] theorem State.setShRun_poison (s : State) (r : ShadowRun) : (s.setShRun r).poison = s.poison := rfl
@[simp] theorem State.setShRun_inject (s : State) (r : ShadowRun) : (s.setShRun r).inject = s.inject := rfl
@[simp] theorem State.setShRun_cp (s : State) (r : ShadowRun) : (s.setShRun r).cp = s.cp := rfl
@[simp] theorem State.setShRun_pd (s : State) (r : ShadowRun) : (s.setShRun r).pd = s.pd := rfl
@[simp] theorem State.setShRun_mgmt (s : State) (r : ShadowRun) : (s.setShRun r).mgmt = s.mgmt := rfl
@[simp] theorem State.setShRun_pwr (s : State) (r : ShadowRun) : (s.setShRun r).pwr = s.pwr := rfl
@[simp] theorem State.setShRun_oxl (s : State) (r : ShadowRun) : (s.setShRun r).oxl = s.oxl := rfl
@[simp] theorem State.setShRun_dm (s : State) (r : ShadowRun) : (s.setShRun r).dm = s.dm := rfl
@[simp] theorem State.setShRun_fab (s : State) (r : ShadowRun) : (s.setShRun r).fab = s.fab := rfl
@[simp] theorem State.setShRun_coll (s : State) (r : ShadowRun) : (s.setShRun r).coll = s.coll := rfl
@[simp] theorem State.setShRun_num (s : State) (r : ShadowRun) : (s.setShRun r).num = s.num := rfl
@[simp] theorem State.setShRun_gram (s : State) (r : ShadowRun) : (s.setShRun r).gram = s.gram := rfl
@[simp] theorem State.setShRun_marks (s : State) (r : ShadowRun) : (s.setShRun r).marks = s.marks := rfl
@[simp] theorem State.setShRun_rr (s : State) (r : ShadowRun) : (s.setShRun r).rr = s.rr := rfl
@[simp] theorem State.setShRun_cj (s : State) (r : ShadowRun) : (s.setShRun r).cj = s.cj := rfl
@[simp] theorem State.setShRun_uu (s : State) (r : ShadowRun) : (s.setShRun r).uu = s.uu := rfl
@[simp] theorem State.setShRun_sec (s : State) (r : ShadowRun) : (s.setShRun r).sec = s.sec := rfl
@[simp] theorem State.setShRun_out (s : State) (r : ShadowRun) : (s.setShRun r).out = s.out := rfl
@[simp] theorem State.setShRun_draws (s : State) (r : ShadowRun) : (s.setShRun r).draws = s.draws := rfl
@[simp] theorem State.setShRun_wrote (s : State) (r : ShadowRun) : (s.setShRun r).wrote = s.wrote := rfl
@[simp] theorem State.setShRun_pending (s : State) (r : ShadowRun) : (s.setShRun r).pending = s.pending := rfl
@[simp] theorem State.setShRun_get (s : State) (r : ShadowRun) (f : Field) : (s.setShRun r).get f = s.get f := rfl

/-! ## setTables -/

@[simp] theorem State.setTables_regs (s : State) (ts : List ParseRef) : (s.setTables ts).regs = s.regs := rfl
@[simp] theorem State.setTables_latches (s : State) (ts : List ParseRef) : (s.setTables ts).latches = s.latches := rfl
@[simp] theorem State.setTables_hbm (s : State) (ts : List ParseRef) : (s.setTables ts).hbm = s.hbm := rfl
@[simp] theorem State.setTables_comp (s : State) (ts : List ParseRef) : (s.setTables ts).comp = s.comp := rfl
@[simp] theorem State.setTables_poison (s : State) (ts : List ParseRef) : (s.setTables ts).poison = s.poison := rfl
@[simp] theorem State.setTables_inject (s : State) (ts : List ParseRef) : (s.setTables ts).inject = s.inject := rfl
@[simp] theorem State.setTables_cp (s : State) (ts : List ParseRef) : (s.setTables ts).cp = s.cp := rfl
@[simp] theorem State.setTables_pd (s : State) (ts : List ParseRef) : (s.setTables ts).pd = s.pd := rfl
@[simp] theorem State.setTables_mgmt (s : State) (ts : List ParseRef) : (s.setTables ts).mgmt = s.mgmt := rfl
@[simp] theorem State.setTables_pwr (s : State) (ts : List ParseRef) : (s.setTables ts).pwr = s.pwr := rfl
@[simp] theorem State.setTables_oxl (s : State) (ts : List ParseRef) : (s.setTables ts).oxl = s.oxl := rfl
@[simp] theorem State.setTables_dm (s : State) (ts : List ParseRef) : (s.setTables ts).dm = s.dm := rfl
@[simp] theorem State.setTables_fab (s : State) (ts : List ParseRef) : (s.setTables ts).fab = s.fab := rfl
@[simp] theorem State.setTables_coll (s : State) (ts : List ParseRef) : (s.setTables ts).coll = s.coll := rfl
@[simp] theorem State.setTables_num (s : State) (ts : List ParseRef) : (s.setTables ts).num = s.num := rfl
@[simp] theorem State.setTables_gram (s : State) (ts : List ParseRef) : (s.setTables ts).gram = s.gram := rfl
@[simp] theorem State.setTables_marks (s : State) (ts : List ParseRef) : (s.setTables ts).marks = s.marks := rfl
@[simp] theorem State.setTables_rr (s : State) (ts : List ParseRef) : (s.setTables ts).rr = s.rr := rfl
@[simp] theorem State.setTables_cj (s : State) (ts : List ParseRef) : (s.setTables ts).cj = { s.cj with tables := ts } := rfl
@[simp] theorem State.setTables_uu (s : State) (ts : List ParseRef) : (s.setTables ts).uu = s.uu := rfl
@[simp] theorem State.setTables_sh (s : State) (ts : List ParseRef) : (s.setTables ts).sh = s.sh := rfl
@[simp] theorem State.setTables_sec (s : State) (ts : List ParseRef) : (s.setTables ts).sec = s.sec := rfl
@[simp] theorem State.setTables_out (s : State) (ts : List ParseRef) : (s.setTables ts).out = s.out := rfl
@[simp] theorem State.setTables_draws (s : State) (ts : List ParseRef) : (s.setTables ts).draws = s.draws := rfl
@[simp] theorem State.setTables_wrote (s : State) (ts : List ParseRef) : (s.setTables ts).wrote = s.wrote := rfl
@[simp] theorem State.setTables_pending (s : State) (ts : List ParseRef) : (s.setTables ts).pending = s.pending := rfl
@[simp] theorem State.setTables_get (s : State) (ts : List ParseRef) (f : Field) : (s.setTables ts).get f = s.get f := rfl

/-! ## setSite -/

@[simp] theorem State.setSite_regs (s : State) (g : GramSite) : (s.setSite g).regs = s.regs := rfl
@[simp] theorem State.setSite_latches (s : State) (g : GramSite) : (s.setSite g).latches = s.latches := rfl
@[simp] theorem State.setSite_hbm (s : State) (g : GramSite) : (s.setSite g).hbm = s.hbm := rfl
@[simp] theorem State.setSite_comp (s : State) (g : GramSite) : (s.setSite g).comp = s.comp := rfl
@[simp] theorem State.setSite_poison (s : State) (g : GramSite) : (s.setSite g).poison = s.poison := rfl
@[simp] theorem State.setSite_inject (s : State) (g : GramSite) : (s.setSite g).inject = s.inject := rfl
@[simp] theorem State.setSite_cp (s : State) (g : GramSite) : (s.setSite g).cp = s.cp := rfl
@[simp] theorem State.setSite_pd (s : State) (g : GramSite) : (s.setSite g).pd = s.pd := rfl
@[simp] theorem State.setSite_mgmt (s : State) (g : GramSite) : (s.setSite g).mgmt = s.mgmt := rfl
@[simp] theorem State.setSite_pwr (s : State) (g : GramSite) : (s.setSite g).pwr = s.pwr := rfl
@[simp] theorem State.setSite_oxl (s : State) (g : GramSite) : (s.setSite g).oxl = s.oxl := rfl
@[simp] theorem State.setSite_dm (s : State) (g : GramSite) : (s.setSite g).dm = s.dm := rfl
@[simp] theorem State.setSite_fab (s : State) (g : GramSite) : (s.setSite g).fab = s.fab := rfl
@[simp] theorem State.setSite_coll (s : State) (g : GramSite) : (s.setSite g).coll = s.coll := rfl
@[simp] theorem State.setSite_num (s : State) (g : GramSite) : (s.setSite g).num = s.num := rfl
@[simp] theorem State.setSite_marks (s : State) (g : GramSite) : (s.setSite g).marks = s.marks := rfl
@[simp] theorem State.setSite_rr (s : State) (g : GramSite) : (s.setSite g).rr = s.rr := rfl
@[simp] theorem State.setSite_cj (s : State) (g : GramSite) : (s.setSite g).cj = s.cj := rfl
@[simp] theorem State.setSite_uu (s : State) (g : GramSite) : (s.setSite g).uu = s.uu := rfl
@[simp] theorem State.setSite_sh (s : State) (g : GramSite) : (s.setSite g).sh = s.sh := rfl
@[simp] theorem State.setSite_sec (s : State) (g : GramSite) : (s.setSite g).sec = s.sec := rfl
@[simp] theorem State.setSite_out (s : State) (g : GramSite) : (s.setSite g).out = s.out := rfl
@[simp] theorem State.setSite_draws (s : State) (g : GramSite) : (s.setSite g).draws = s.draws := rfl
@[simp] theorem State.setSite_wrote (s : State) (g : GramSite) : (s.setSite g).wrote = s.wrote := rfl
@[simp] theorem State.setSite_pending (s : State) (g : GramSite) : (s.setSite g).pending = s.pending := rfl
@[simp] theorem State.setSite_get (s : State) (g : GramSite) (f : Field) : (s.setSite g).get f = s.get f := rfl

/-! ## withPending -/

@[simp] theorem State.withPending_regs (s : State) (q : List Instr) : (s.withPending q).regs = s.regs := rfl
@[simp] theorem State.withPending_latches (s : State) (q : List Instr) : (s.withPending q).latches = s.latches := rfl
@[simp] theorem State.withPending_hbm (s : State) (q : List Instr) : (s.withPending q).hbm = s.hbm := rfl
@[simp] theorem State.withPending_comp (s : State) (q : List Instr) : (s.withPending q).comp = s.comp := rfl
@[simp] theorem State.withPending_poison (s : State) (q : List Instr) : (s.withPending q).poison = s.poison := rfl
@[simp] theorem State.withPending_inject (s : State) (q : List Instr) : (s.withPending q).inject = s.inject := rfl
@[simp] theorem State.withPending_cp (s : State) (q : List Instr) : (s.withPending q).cp = s.cp := rfl
@[simp] theorem State.withPending_pd (s : State) (q : List Instr) : (s.withPending q).pd = s.pd := rfl
@[simp] theorem State.withPending_mgmt (s : State) (q : List Instr) : (s.withPending q).mgmt = s.mgmt := rfl
@[simp] theorem State.withPending_pwr (s : State) (q : List Instr) : (s.withPending q).pwr = s.pwr := rfl
@[simp] theorem State.withPending_oxl (s : State) (q : List Instr) : (s.withPending q).oxl = s.oxl := rfl
@[simp] theorem State.withPending_dm (s : State) (q : List Instr) : (s.withPending q).dm = s.dm := rfl
@[simp] theorem State.withPending_fab (s : State) (q : List Instr) : (s.withPending q).fab = s.fab := rfl
@[simp] theorem State.withPending_coll (s : State) (q : List Instr) : (s.withPending q).coll = s.coll := rfl
@[simp] theorem State.withPending_num (s : State) (q : List Instr) : (s.withPending q).num = s.num := rfl
@[simp] theorem State.withPending_gram (s : State) (q : List Instr) : (s.withPending q).gram = s.gram := rfl
@[simp] theorem State.withPending_marks (s : State) (q : List Instr) : (s.withPending q).marks = s.marks := rfl
@[simp] theorem State.withPending_rr (s : State) (q : List Instr) : (s.withPending q).rr = s.rr := rfl
@[simp] theorem State.withPending_cj (s : State) (q : List Instr) : (s.withPending q).cj = s.cj := rfl
@[simp] theorem State.withPending_uu (s : State) (q : List Instr) : (s.withPending q).uu = s.uu := rfl
@[simp] theorem State.withPending_sh (s : State) (q : List Instr) : (s.withPending q).sh = s.sh := rfl
@[simp] theorem State.withPending_sec (s : State) (q : List Instr) : (s.withPending q).sec = s.sec := rfl
@[simp] theorem State.withPending_out (s : State) (q : List Instr) : (s.withPending q).out = s.out := rfl
@[simp] theorem State.withPending_draws (s : State) (q : List Instr) : (s.withPending q).draws = s.draws := rfl
@[simp] theorem State.withPending_wrote (s : State) (q : List Instr) : (s.withPending q).wrote = s.wrote := rfl
@[simp] theorem State.withPending_pending (s : State) (q : List Instr) : (s.withPending q).pending = q := rfl
@[simp] theorem State.withPending_get (s : State) (q : List Instr) (f : Field) : (s.withPending q).get f = s.get f := rfl

/-! ## Ports and Orrex Link ports read back -/

/-- A list padded to a length reads at every place as the list does with the padding as its default. -/
theorem nth_padded {α : Type} (l : List α) (n i : Nat) (d : α) : nth (l ++ List.replicate n d) i d = nth l i d := by
  unfold nth
  simp only [List.getD_eq_getElem?_getD, List.getElem?_append]
  split
  · rfl
  · rename_i h
    rw [List.getElem?_eq_none (by omega : l.length ≤ i), List.getElem?_replicate]
    split <;> rfl

theorem nth_nthSet {α : Type} (l : List α) (i j : Nat) (v d : α) (h : i < l.length) : nth (nthSet l i v) j d = if j = i then v else nth l j d := by
  unfold nth nthSet
  simp only [List.getD_eq_getElem?_getD, List.getElem?_set]
  by_cases e : i = j
  · subst e; simp [h]
  · simp [e, Ne.symm e]

/-- A port set reads back, and the others read as before. -/
theorem State.port_setPort (s : State) (p q : Nat) (v : PortState) (h : p < 8) : (s.setPort p v).port q = if q = p then v else s.port q := by
  simp only [State.port, State.setPort_fab]
  rw [nth_nthSet _ _ _ _ _ (by simp; omega), nth_padded]

/-- An Orrex Link port set reads back, and the other reads as before. -/
theorem State.oxlLink_setLink (s : State) (l k : Nat) (v : OxlLink) (h : l < 2) : (s.setLink l v).oxlLink k = if k = l then v else s.oxlLink k := by
  simp only [State.oxlLink]
  rw [nth_nthSet _ _ _ _ _ (by simp; omega), nth_padded]

/-! ## finish -/

/-- An ended command is behind those that ended before it. -/
theorem State.finish_ended (s : State) (c : CmdRef) (d : Done) : ∃ att cmd, (s.finish c d).cp.ended = s.cp.ended ++ [⟨c, d, att, decide (c.opcode = 0x41), cmd⟩] := ⟨_, _, rfl⟩

end Sys2Proof.Machine
end

