-- ==== Sys2Proof/Tests/Slice0.lean ====
section
/-!
SUPPORT. Tests/Slice0.lean: for each statement, concrete states and operands that meet its hypotheses (witness_<statement>), an ill-formed
command for each check of WellFormed.lean, and the spec's worked examples.
-/
namespace Sys2Proof.Tests
open Sys2Proof.Machine
set_option Elab.async false

/-- What makes a state quiet, as a test that can be run. -/
def quietCheck (s : State) : Bool :=
  s.wrote.isEmpty && s.oxl.failed.isEmpty && s.oxl.missing.isNone && s.pd.haltDue.isNone && s.pd.failDue.isNone && s.pwr.resetDue.isEmpty && decide (s.pcState ≠ 3) &&
  (decide (s.pcState ≠ 2) || (List.range 16).all (fun c => !s.clauseOpen c)) && s.coll.runs.isEmpty && s.coll.reshard.isNone &&
  s.uu.openCommit.isNone && s.sh.runs.isEmpty && s.sh.replay.isNone && !s.holds

/-- What makes a state calm, as a test that can be run. -/
def calmCheck (s : State) : Bool :=
  quietCheck s && s.cp.flights.all (fun f => decide (f.phase = .dispatched)) && decide (s.get F.BW_QUEUE_DEPTH = 0) &&
  (List.range 64).all (fun k => decide (s.get (F.CP_RING_STATUS_WAITING k) = 0))

/-- What makes a state's memory sound, as a test that can be run. -/
def soundCheck (s : State) : Bool := decide (s.get F.RS_HELD_HBM = 0) && s.poison.isEmpty && s.inject.isEmpty

theorem quiet_of_check {s : State} (h : quietCheck s = true) : s.Quiet := by
  simp only [quietCheck, Bool.and_eq_true, Bool.or_eq_true, Option.isNone_iff_eq_none, List.isEmpty_iff, Bool.not_eq_true',
    decide_eq_true_eq, List.all_eq_true, List.mem_range] at h
  obtain ⟨⟨⟨⟨⟨⟨⟨⟨⟨⟨⟨⟨⟨n1, n2⟩, n3⟩, h1⟩, h2⟩, h3⟩, h4⟩, h5⟩, h6⟩, h7⟩, h8⟩, h9⟩, h10⟩, h11⟩ := h
  exact ⟨⟨n1, n2, n3⟩, ⟨h1, h2, h3⟩, ⟨h4, fun e c hc => h5.elim (fun n => absurd e n) (fun g => g c hc)⟩, ⟨h6, h7⟩, h8, ⟨h9, h10, h11⟩⟩

theorem calm_of_check {s : State} (h : calmCheck s = true) : s.Calm := by
  simp only [calmCheck, Bool.and_eq_true, decide_eq_true_eq, List.all_eq_true, List.mem_range] at h
  obtain ⟨⟨⟨h1, h2⟩, h3⟩, h4⟩ := h
  exact ⟨quiet_of_check h1, h2, h3, h4⟩

theorem sound_of_check {s : State} (h : soundCheck s = true) : s.Sound := by
  simp only [soundCheck, Bool.and_eq_true, decide_eq_true_eq, List.isEmpty_iff] at h
  exact ⟨h.1.1, h.1.2, h.2⟩

/-- Without a Period, a commit or a loaded table, a write is of no further concern. -/
theorem unwatched_of_check {s : State} (h : s.pcState ≠ 2 ∧ s.pcState ≠ 3 ∧ s.uu.openCommit = none ∧ s.cj.tables = [] ∧ s.cj.jobs = []) (a n : Nat) :
    s.Unwatched a n := ⟨h.1, h.2.1, h.2.2.1, by simp [h.2.2.2.1], by simp [h.2.2.2.2]⟩

/-- What makes a port clear, as a test that can be run. -/
def clearCheck (s : State) (q : Nat) : Bool :=
  s.inject.isEmpty && decide (q < 8) && s.portUp q && (s.port q).queue.isEmpty && decide (0 < (s.port q).shared) &&
  decide ((s.port q).buffer.length < replaySlots q) && (List.range 8).all (fun k => (s.port k).owed.all (fun n => decide (n < 8)))

theorem clear_of_check {s : State} {q : Nat} (h : clearCheck s q = true) : s.Clear q := by
  simp only [clearCheck, Bool.and_eq_true, decide_eq_true_eq, List.isEmpty_iff, List.all_eq_true, List.mem_range] at h
  exact ⟨h.1.1.1.1.1.1, h.1.1.1.1.1.2, h.1.1.1.1.2, h.1.1.1.2, h.1.1.2, h.1.2, fun k hk n hn => h.2 k hk n hn⟩

/-- A state with some fields set. -/
def puts (s : State) (l : List (Field × Nat)) : State := l.foldl (fun s p => s.put p.1 p.2) s

/-- A module that has started: positioned, with every domain ready. -/
def up : State :=
  ({ State.reset with pwr := { State.reset.pwr with held := [], bootDone := true, above10 := true } } : State).put F.PW_STATUS_STATE 6

theorem up_calm : up.Calm := calm_of_check (by decide +kernel)

theorem up_sound : up.Sound := sound_of_check (by decide +kernel)

/-- The header of a command that is bound to no Clause. -/
def hdr : Hdr := ⟨3, 7, 0x55, false, false, false, false, 0, false, 0⟩

/-- A plan with one Clause of each kind from 1 to 9, in the order of the kinds. -/
def plan : Plan := ⟨10000, 1, [⟨0, 100, 1, 0, 1, 0⟩, ⟨100, 200, 2, 0, 1, 0⟩, ⟨200, 300, 3, 0, 1, 0⟩, ⟨0, 300, 4, 0, 1, 0⟩, ⟨300, 400, 5, 0, 1, 0⟩,
  ⟨400, 500, 6, 0, 1, 0⟩, ⟨500, 600, 7, 0, 1, 0⟩, ⟨500, 600, 8, 0, 1, 0⟩, ⟨0, 600, 9, 0, 1, 0⟩]⟩

/-- The header of a command bound to the Clause of a kind. -/
def boundTo (kind : Nat) : Hdr := { hdr with bound := true, clause := Fin.ofNat 16 (kind - 1) }

/-- The next state of an outcome. -/
def after (o : Host.Outcome State Fault Refusal) : State := match o with | .next t => t | _ => State.reset

/-! ## The rings -/

theorem witness_FrontCommandRuns : ({ up with pending := [.nop hdr] } : State).pending = .nop hdr :: [] := rfl

theorem witness_StepTakesItsActions : State.reset.noneDue ∧ step State.reset = .next State.reset := ⟨⟨rfl, rfl, rfl⟩, rfl⟩

theorem witness_ReadAfterWrite : F.PC_GUARD_GUARD_US.key ≠ F.PC_STATUS_STATE.key ∧ State.reset.hbm.wf = true := by decide

/-- A ring being read, 4096 bytes long with 128 bytes waiting. -/
def ringOn : State := puts up [(F.CP_RING_CTRL_ENABLE 3, 1), (F.CP_RING_STATUS_ACTIVE 3, 1), (F.CP_RING_TAIL_TAIL 3, 128)]

theorem witness_DoorbellsMoveTail_moves : ringOn.Calm ∧ ringOn.regOpen (Reg.CP_RING_TAIL 3) = true ∧
    (let n := ringOn.ringBytes 3
     let head := ringOn.get (F.CP_RING_HEAD_HEAD 3)
     (n - 64) % 64 = 0 ∧ n - 64 < n ∧ (ringOn.get (F.CP_RING_TAIL_TAIL 3) + n - head) % n ≤ (n - 64 + n - head) % n) :=
  ⟨calm_of_check (by decide +kernel), by decide +kernel⟩

theorem witness_DoorbellsMoveTail_faults : ringOn.Calm ∧ ringOn.get (F.CP_RING_CTRL_ENABLE 3) = 1 ∧ ringOn.get (F.CP_RING_STATUS_FAULT 3) ≠ 1 ∧
    (let n := ringOn.ringBytes 3
     let head := ringOn.get (F.CP_RING_HEAD_HEAD 3)
     4095 % 64 ≠ 0 ∧ n ≤ 4096 ∧ (64 + n - head) % n < (ringOn.get (F.CP_RING_TAIL_TAIL 3) + n - head) % n) :=
  ⟨calm_of_check (by decide +kernel), by decide +kernel⟩

theorem witness_RingsStartAndStop_start : up.Calm ∧ up.regOpen (Reg.CP_RING_CTRL 3) = true ∧ up.get (F.CP_RING_STATUS_ACTIVE 3) ≠ 1 ∧
    (12#4).toNat ≤ 12 := ⟨up_calm, by decide +kernel⟩

theorem witness_RingsStartAndStop_stop : ringOn.Calm ∧ ringOn.regOpen (Reg.CP_RING_CTRL 3) = true ∧
    ringOn.get (F.CP_RING_STATUS_ACTIVE 3) = 1 := ⟨calm_of_check (by decide +kernel), by decide +kernel⟩

/-- An event ring that is off, with events recorded before. -/
def evtOff : State := puts up [(F.CP_EVT_SEQ_SEQ, 5), (F.CP_EVT_ACKED_ACKED, 2)]

theorem witness_RingsStartAndStop_events : evtOff.Calm ∧ evtOff.regOpen Reg.CP_EVT_CTRL = true ∧ evtOff.get F.CP_EVT_CTRL_ENABLE ≠ 1 ∧
    evtOff.sec.slotFail = false ∧ evtOff.get F.CP_EVT_ACKED_ACKED < evtOff.get F.CP_EVT_SEQ_SEQ := ⟨calm_of_check (by decide +kernel), by decide +kernel⟩

/-- The header of a command bound to Clause 2. -/
def bound : Hdr := { hdr with bound := true, clause := 2 }

theorem witness_NopCompletes : bound.bound = true ∧ up.bindingOk hdr .any = true ∧ up.bindingOk bound .any = true := by decide +kernel

theorem witness_EventAckFreesRecords : evtOff.Calm ∧ evtOff.bindingOk hdr .notBound = true ∧ evtOff.regOpen Reg.CP_EVT_ACK = true ∧
    evtOff.get F.CP_EVT_ACKED_ACKED = 2 ∧ evtOff.get F.CP_EVT_SEQ_SEQ = 5 := ⟨calm_of_check (by decide +kernel), by decide +kernel⟩

/-! ## System commands -/

theorem witness_SystemCommands_fence : up.Calm ∧ up.bindingOk hdr .any = true ∧ (∀ e ∈ [(⟨7, 3⟩ : FenceEntry)], e.ring = hdr.ring → e.seq.toNat ≤ hdr.seq.toNat) ∧
    (∃ e ∈ [(⟨8, 3⟩ : FenceEntry)], e.ring = hdr.ring ∧ hdr.seq.toNat < e.seq.toNat) := ⟨up_calm, by decide +kernel⟩

/-- A module whose Period controller is ARMED. -/
def armed : State := up.put F.PC_STATUS_STATE 1

theorem witness_SystemCommands_config : up.Calm ∧ up.bindingOk hdr .notBound = true ∧ up.idle = true ∧ armed.Calm ∧ armed.bindingOk hdr .notBound = true ∧
    armed.idle = false ∧ (∃ i ∈ [(⟨3, 0⟩ : ConfigItem)], i.item.toNat ≠ 1 ∧ i.item.toNat ≠ 2) :=
  ⟨up_calm, by decide +kernel, by decide +kernel, calm_of_check (by decide +kernel), by decide +kernel⟩

theorem witness_SystemCommands_query : up.Calm ∧ up.Sound ∧ up.bindingOk hdr .any = true ∧ (hbmEnd - 64) % 64 = 0 ∧
    up.fenceHit hdr [(hbmEnd - 64, 64)] = false := ⟨up_calm, up_sound, by decide +kernel⟩

/-! ## The command processor -/

/-- A FILL of 4,096 bytes at 1 MiB, as a command and as its packet. -/
def fillIt : Instr := .fill hdr 0x100000 4096 .eight 0xFFFF

/-- Its packet's 64 bytes. -/
def fillPacket : List Byte := (encodePacket fillIt).getD []

/-- Ring 3 with that packet at its head. -/
def ringFull : State := { ringOn with hbm := ringOn.hbm.write 0 fillPacket }

theorem witness_PacketsAreReadAndDispatched_read : ringFull.Calm ∧ ringFull.Sound ∧ ringFull.readable 3 = true ∧
    (let head := ringFull.get (F.CP_RING_HEAD_HEAD 3)
     let base := ringFull.get (F.CP_RING_BASE_BASE 3)
     let p := PacketHead.parse (ringFull.hbm.read (base + head) 16)
     base + ringFull.ringBytes 3 ≤ hbmEnd ∧ 2 ≤ p.length ∧ p.length ≤ 512 ∧ head + 8 * p.length ≤ ringFull.ringBytes 3 ∧
     8 * p.length ≤ (ringFull.get (F.CP_RING_TAIL_TAIL 3) + ringFull.ringBytes 3 - head) % ringFull.ringBytes 3 ∧
     p.bound = false ∧ p.nbValid = false ∧ p.opcode ≠ 0x04 ∧ p.opcode ≠ 0x20) :=
  ⟨calm_of_check (by decide +kernel), sound_of_check (by decide +kernel), by decide +kernel⟩

/-- The command read from it, waiting on its ring. -/
def waitingFill : Flight := (PacketHead.parse (fillPacket.take 16)).flight 3 0 (fillPacket.drop 16)

/-- Ring 3 with a command waiting. -/
def ringWaiting : State := { ringOn with cp := { ringOn.cp with flights := [waitingFill] } }

theorem witness_PacketsAreReadAndDispatched_dispatch : ringWaiting.Quiet ∧ ringWaiting.inject = [] ∧ ringWaiting.get F.RS_HELD_CP = 0 ∧
    ringWaiting.get F.BW_QUEUE_DEPTH = 0 ∧ (∀ j < 64, ringWaiting.get (F.CP_RING_STATUS_WAITING j) = 0) ∧ ringWaiting.nextRing = some 3 ∧
    ringWaiting.dispatchable 3 = some waitingFill ∧ waitingFill.cmd.isSome = true ∧ (∀ g ∈ ringWaiting.cp.flights, g = waitingFill) :=
  ⟨quiet_of_check (by decide +kernel), by decide +kernel⟩

/-- A packet whose reserved bit is set: it carries no command. -/
def badFlight : Flight := { waitingFill with cmd := none, status := 5 }

def ringBad : State := { ringOn with cp := { ringOn.cp with flights := [badFlight] } }

theorem witness_PacketsAreReadAndDispatched_bad : ringBad.Quiet ∧ ringBad.nextRing = some 3 ∧ ringBad.dispatchable 3 = some badFlight ∧ badFlight.cmd = none :=
  ⟨quiet_of_check (by decide +kernel), by decide +kernel⟩

/-- A command in the deferred queue. -/
def deferredFill : Flight := { waitingFill with phase := .deferred, bound := false }

def queueOne : State := (({ ringOn with cp := { ringOn.cp with flights := [deferredFill] } } : State).put F.BW_QUEUE_DEPTH 1)

theorem witness_PacketsAreReadAndDispatched_deferred : queueOne.Quiet ∧ queueOne.inject = [] ∧ queueOne.get F.RS_HELD_CP = 0 ∧
    (∀ j < 64, queueOne.get (F.CP_RING_STATUS_WAITING j) = 0) ∧ queueOne.nextDeferred = some deferredFill ∧ deferredFill.cmd.isSome = true :=
  ⟨quiet_of_check (by decide +kernel), by decide +kernel⟩

/-- A command that has ended, its ring's completion queue at its last record. -/
def endedNop : Ended := ⟨⟨3, 0, 0x55, 1, false, 0⟩, ⟨ST_OK, 0, 0⟩, none, false, none⟩

def cqLast : State := puts { ringOn with cp := { ringOn.cp with ended := [endedNop] } } [(F.CP_CQ_CTRL_ENTRIES_LOG2 3, 6), (F.CP_CQ_TAIL_TAIL 3, 63)]

theorem witness_CompletionRecordWritten : cqLast.Calm ∧ cqLast.Sound ∧ cqLast.get F.RS_HELD_CP = 0 ∧
    cqLast.cp.ended.find? (fun e => decide (e.ref.ring = (3 : Fin 64).val) && !cqLast.awaitsAcks e.ref) = some endedNop ∧ endedNop.attach = none ∧ endedNop.ref.interrupt = false ∧
    cqLast.get (F.CP_CQ_BASE_BASE 3) + 32 * cqLast.get (F.CP_CQ_TAIL_TAIL 3) + 32 ≤ hbmEnd :=
  ⟨calm_of_check (by decide +kernel), sound_of_check (by decide +kernel), by decide +kernel⟩

/-! ## The data mover -/

theorem witness_FillAndCopyWrite_fill : up.Calm ∧ up.Sound ∧ up.bindingOk hdr .any = true ∧ (hbmEnd - 8) % fillBytes .eight = 0 ∧ 8 % fillBytes .eight = 0 ∧
    up.fenceHit hdr [(hbmEnd - 8, 8)] = false ∧ up.Unwatched (hbmEnd - 8) 8 :=
  ⟨up_calm, up_sound, by decide +kernel, by decide +kernel, by decide +kernel, by decide +kernel, unwatched_of_check (by decide +kernel) _ _⟩

/-- A copy between two places, and one onto itself. -/
def copyAway : CopyParams := ⟨0, 64, 64, false, 0⟩

def copyOver : CopyParams := ⟨0, 63, 64, false, 0⟩

theorem witness_FillAndCopyWrite_copy : up.Calm ∧ up.Sound ∧ up.bindingOk hdr .any = true ∧ up.fenceHit hdr [(64, 64)] = false ∧ up.fenceHit hdr [(63, 64)] = false ∧
    overlaps copyAway.src.toNat copyAway.length.toNat copyAway.dst.toNat copyAway.length.toNat = false ∧
    overlaps copyOver.src.toNat copyOver.length.toNat copyOver.dst.toNat copyOver.length.toNat = true := ⟨up_calm, up_sound, by decide +kernel⟩

/-- A module whose FUTURE bank is VERIFIED. -/
def verified : State := puts up [(F.TB_STATE_STATE0, 2), (F.TB_STATE_STATE1, 2)]

theorem witness_SwapTenseArms : verified.Calm ∧ verified.bindingOk hdr .notBound = true ∧ verified.bankState (verified.bankOf .future) = 2 ∧
    verified.tickPassed 1 = false ∧ up.Calm ∧ up.bankState (up.bankOf .future) ≠ 2 :=
  ⟨calm_of_check (by decide +kernel), by decide +kernel, by decide +kernel, by decide +kernel, up_calm, by decide +kernel⟩

/-! ## Shards -/

/-- The manifest of a shard of 64 zero bytes. -/
def manifest : List Byte :=
  leBytes 2 1 ++ leBytes 2 0 ++ leBytes 4 1 ++ leBytes 8 64 ++ List.replicate 48 0 ++
    beBytes 48 0xfeba562faddcd181ff9ea11b287ebd09e5adab44df348eb6b60d137a791cea50acdbf1b8c22461df7bdf73aaa41a1b2f ++
    List.replicate 16 0 ++
    beBytes 48 0xa53e5394c9adbbde8c06d18cb1f54f115832948b7fbed610791150c486677209eb6f69ed0f9a3151dbfa1b957e35a2fc

/-- A module that holds it at 4096. -/
def shardMem : State := { up with hbm := up.hbm.write 4096 manifest }

def loadMem : LoadParams := ⟨.memory 0x3000, 0x100000, 64, 4096⟩

def loadStream : LoadParams := ⟨.stream 0x80000001, 0x100000, 64, 4096⟩

theorem witness_ShardsLoadAndVerify_load : shardMem.Calm ∧ shardMem.Sound ∧ shardMem.bindingOk hdr .notBound = true ∧ loadEncoded loadMem = true ∧
    loadEncoded loadStream = true ∧ shardMem.loadFault loadMem = none ∧ shardMem.loadFault loadStream = none ∧
    leAt (shardMem.hbm.read 4096 128) 8 8 = 64 ∧ leAt (shardMem.hbm.read 4096 128) 4 4 = 1 ∧
    manifestLeaves (shardMem.hbm.read 4096 176) 64 = some [shardLeaf (shardMem.hbm.read 0x3000 64)] ∧ shardMem.Unwatched 0x100000 64 :=
  ⟨calm_of_check (by decide +kernel), sound_of_check (by decide +kernel), by decide +kernel, by decide +kernel, by decide +kernel, by decide +kernel,
    by decide +kernel, by decide +kernel, by decide +kernel, by decide +kernel, unwatched_of_check (by decide +kernel) _ _⟩

theorem witness_ShardsLoadAndVerify_armed : (verified.put F.TB_STATE_ARMED 1).Calm ∧ (verified.put F.TB_STATE_ARMED 1).get F.TB_STATE_ARMED = 1 ∧
    up.bankState (up.bankOf .present) ≠ 2 := ⟨calm_of_check (by decide +kernel), by decide +kernel⟩

theorem witness_ShardsLoadAndVerify_region : shardMem.Calm ∧ shardMem.Sound ∧ shardMem.bindingOk hdr .notBound = true ∧
    shardLeaf (shardMem.hbm.read 0x3000 64) = shardMem.hbm.read (4096 + 128) 48 ∧ shardLeaf (shardMem.hbm.read 0x3000 63) ≠ shardMem.hbm.read (4096 + 128) 48 :=
  ⟨calm_of_check (by decide +kernel), sound_of_check (by decide +kernel), by decide +kernel⟩

/-- A module whose bank 0 is that shard, with re-verification on. -/
def bankMem : State := puts shardMem [(F.TB_STATE_STATE0, 2), (F.TB_BASE_BASE 0, 0x3000), (F.TB_LEN_LENGTH 0, 64), (F.TB_MANIFEST_MANIFEST 0, 4096),
  (F.DM_REVERIFY_ENABLE, 1), (F.DM_REVERIFY_ENGINES, 1)]

theorem witness_ShardsLoadAndVerify_pass : bankMem.Calm ∧ bankMem.Sound ∧ bankMem.get F.DM_REVERIFY_ENABLE = 1 ∧ 0 < bankMem.get F.DM_REVERIFY_ENGINES ∧
    bankMem.bankState 0 = 2 ∧ 1 ≤ bankMem.get (F.TB_LEN_LENGTH 0) ∧ bankMem.get (F.TB_LEN_LENGTH 0) ≤ mebi ∧
    bankMem.get (F.TB_BASE_BASE 0) + bankMem.get (F.TB_LEN_LENGTH 0) ≤ hbmEnd ∧ bankMem.get (F.TB_MANIFEST_MANIFEST 0) + 176 ≤ hbmEnd ∧
    shardLeaf (bankMem.hbm.read (bankMem.get (F.TB_BASE_BASE 0)) (bankMem.get (F.TB_LEN_LENGTH 0))) =
      bankMem.hbm.read (bankMem.get (F.TB_MANIFEST_MANIFEST 0) + 128) 48 :=
  ⟨calm_of_check (by decide +kernel), sound_of_check (by decide +kernel), by decide +kernel⟩

/-! ## The gather window -/

/-- One layer's entry: a piece of 64 bytes from 0x2000 over the X axis, whose ring has two members. -/
def layer : List Byte := leBytes 6 0x2000 ++ leBytes 2 0 ++ leBytes 8 64 ++ leBytes 1 0 ++ leBytes 1 2 ++ List.replicate 14 0

/-- A module at position 0 of a ring of two modules along X, with ports 0 and 1 UP, a layer table at 4096, a remap table at 0 and a plan. -/
def pair : State := puts { up with hbm := (up.hbm.write 0 (leBytes 4 (2 ^ 24) ++ leBytes 4 (2 ^ 24 + 1))).write 4096 layer, pd := { up.pd with plan := some plan } }
  [(F.ZF_PDIM_DIM, 0x010102), (F.ZF_LDIM_DIM, 0x010102), (F.ZF_LOGICAL_VALID, 1), (F.ZP_STATUS_STATE 0, 3), (F.ZP_STATUS_STATE 1, 3)]

/-- It with a gather window set up, slot 1 held. -/
def gathering : State := ({ pair with dm := { pair.dm with gather := some ⟨1, 0x100000, 4096, 4096⟩ } } : State).put F.GW_STATE_HELD 2

theorem witness_GatherWindow_setup : pair.Calm ∧ pair.Sound ∧ pair.bindingOk hdr .notBound = true ∧ pair.idle = true ∧
    layerOk (pair.hbm.read 4096 32) 4096 = true := ⟨calm_of_check (by decide +kernel), sound_of_check (by decide +kernel), by decide +kernel⟩

theorem witness_GatherWindow_release : gathering.Calm ∧ gathering.Sound ∧ gathering.slotHeld 1 = true ∧ gathering.get F.GW_STATE_HELD < 8 ∧
    gathering.bindingOk (boundTo 1) (.kinds [kindForward, kindBackward, kindEvaluate]) = true :=
  ⟨calm_of_check (by decide +kernel), sound_of_check (by decide +kernel), by decide +kernel⟩

theorem witness_GatherWindow_fetch : gathering.Sound ∧ gathering.dm.gather = some ⟨1, 0x100000, 4096, 4096⟩ ∧ gathering.coll.runs = [] ∧ gathering.coll.early = [] ∧
    gathering.bindingOk (boundTo 2) (.kinds [kindForward, kindBackward, kindEvaluate]) = true ∧ gathering.slotHeld 1 = true ∧ gathering.slotHeld 2 = false ∧
    gathering.get F.GW_STATE_HELD < 8 ∧
    (let bs := gathering.hbm.read 4096 32
     let e := LayerEntry.parse bs
     let q := fetchParams e 0 (0x100000 + 2 * 4096)
     let g := gathering.groupOf q.axes.toNat
     let r := newRun (boundTo 2) (gathering.refOf (boundTo 2) 0x14) (gathering.evalBound (boundTo 2)) (.fetch 2) 2 q (gathering.hbm.read e.src e.piece) []
     layerOk bs 4096 = true ∧ e.ring = dimOf (gathering.get F.ZF_LDIM_DIM) e.axis ∧ 0 < e.piece ∧ e.src + e.piece ≤ hbmEnd ∧
     gathering.fenceHit (boundTo 2) [(0x100000 + 2 * 4096, e.ring * e.piece)] = false ∧ r.outPeers g ≠ [] ∧
     (∀ m ∈ r.inPeers g, gathering.route m none ≠ .unroutable)) := ⟨sound_of_check (by decide +kernel), by decide +kernel⟩

/-! ## Memory -/

theorem witness_MemoryUpkeep_scrub : up.Calm ∧ up.Sound ∧ up.get (F.HM_SCRUB_HOURS 0) ≠ 0 ∧ (hbmEnd - 64) % 64 = 0 ∧ up.stackOf (hbmEnd - 64) = 0 :=
  ⟨up_calm, up_sound, by decide +kernel⟩

theorem witness_MemoryUpkeep_temperature : up.Calm ∧ (thresholds (9 + 3)).level 85 = (alGet up.mgmt.levels (9 + 3)).getD 0 ∧
    (∃ s : State, s = { up with mgmt := { up.mgmt with levels := [(12, 1)] } } ∧ s.Calm ∧ (thresholds (9 + 3)).level 86 = (alGet s.mgmt.levels (9 + 3)).getD 0 ∧
      s.get (F.HM_STATUS_HOT 3) ≠ 1) := ⟨up_calm, by decide +kernel, _, rfl, calm_of_check (by decide +kernel), by decide +kernel⟩

theorem witness_MemoryUpkeep_map : up.regOpen Reg.DM_MAP = true ∧ up.idle = true ∧ up.commandRunning = false ∧ up.get F.DM_MAP_LOCK ≠ 1 ∧
    (up.put F.DM_MAP_LOCK 1).regOpen Reg.DM_MAP = true := by decide +kernel

/-! ## The Scale Ledger -/

theorem witness_ScaleLedgerChanges_setup : up.Calm ∧ up.Sound ∧ up.bindingOk hdr .notBound = true ∧ up.idle = true ∧ 4096 % 4096 = 0 ∧
    4096 + ledgerSize 1 ≤ hbmEnd := ⟨up_calm, up_sound, by decide +kernel⟩

/-- A module with a Scale Ledger of two entries that has passed its check. -/
def ledgered : State :=
  match exec (.scaleLedgerSetup hdr false 4096 2) up with
  | .next t => { t with cp := up.cp, num := { t.num with originDue := false } }
  | _ => up

theorem witness_ScaleLedgerChanges_changes : ledgered.Calm ∧ ledgered.Sound ∧ ledgered.bindingOk hdr .notBound = true ∧ ledgered.idle = true ∧
    ledgered.num.attach = some ⟨4096, 2, true⟩ ∧ marginOk 0 = true := ⟨calm_of_check (by decide +kernel), sound_of_check (by decide +kernel), by decide +kernel⟩

theorem witness_ScaleLedgerChanges_read : ledgered.Calm ∧ ledgered.Sound ∧ ledgered.bindingOk hdr .notBound = true ∧ 0x4000 % 64 = 0 ∧
    0x4000 + ledgerSize 2 ≤ hbmEnd ∧ ledgered.num.attach = some ⟨4096, 2, true⟩ ∧ up.num.attach = none ∧ ledgered.Unwatched 0x4000 (ledgerSize 2) :=
  ⟨calm_of_check (by decide +kernel), sound_of_check (by decide +kernel), by decide +kernel, by decide +kernel, by decide +kernel, by decide +kernel,
    by decide +kernel, unwatched_of_check (by decide +kernel) _ _⟩

/-! ## Gram taps, programs, conformance, clusters -/

/-- A site of one block of width 128. -/
def siteDef : GramDef := ⟨false, .activation, 5, 7, 1, 0x100000, 128, 0, 1⟩

/-- A module with that site. -/
def tapped : State := up.addSite (GramSite.ofDef siteDef)

theorem witness_GramTapSites : up.Calm ∧ up.Sound ∧ up.bindingOk hdr .notBound = true ∧ up.idle = true ∧ gramDefOk siteDef = true ∧ siteDef.attach = false ∧
    up.siteClash (GramSite.ofDef siteDef) = false ∧ up.site 5 = none ∧
    tapped.Calm ∧ tapped.Sound ∧ tapped.site 5 = some (GramSite.ofDef siteDef) ∧ (GramSite.ofDef siteDef).id < 2 ^ 16 :=
  ⟨up_calm, up_sound, by decide +kernel, by decide +kernel, by decide +kernel, by decide +kernel, by decide +kernel, by decide +kernel,
    calm_of_check (by decide +kernel), sound_of_check (by decide +kernel), by decide +kernel⟩

/-- An image with one tensor and one stage, which converts 4 INT8 elements at an address in place. -/
def image (at_ : Nat) : List Byte :=
  let tensor (base flags : Nat) : List Byte := leBytes 8 base ++ leBytes 8 0 ++ leBytes 4 (9 + flags) ++ leBytes 4 1 ++ leBytes 4 4 ++ List.replicate 36 0
  let stage : List Byte := leBytes 4 3 ++ leBytes 4 0 ++ leBytes 4 4 ++ List.replicate 52 0
  let head (crc : Nat) : List Byte := leBytes 2 1 ++ leBytes 2 numRev ++ leBytes 4 192 ++ leBytes 2 1 ++ leBytes 2 1 ++ List.replicate 44 0 ++ leBytes 8 crc
  let rest := tensor at_ 32 ++ stage
  head (crc64 (head 0 ++ rest)) ++ rest

/-- A module that holds it at 4096, with four elements to copy. -/
def programmed : State := { up with hbm := (up.hbm.write 4096 (image 0x3000)).write 0x3000 [1, 2, 3, 4] }

def runIt : RunParams := ⟨4096, 192, 0, 0, 1, []⟩

/-- The same program on elements in companion memory, whose line the companion has answered with POISON. -/
def spoilt : State := { (puts { up with hbm := up.hbm.write 4096 (image companionBase) } [(F.OXL_MEM_LIMIT_LIMIT, 4096), (F.OXL_STATUS_LINK0, 3)]) with
  oxl := { up.oxl with seen := [⟨.command 3 7, 0, 64, OXL_POISON⟩] } }

/-- What the statement asks of a program, and the status its stages fail with, if they do. -/
def runsCheck (s : State) (h : Hdr) (p : RunParams) (fails : Option Nat) : Bool :=
  match s.programOf (s.hbm.read p.image.toNat p.imageLen.toNat) p.relocs with
  | none => false
  | some g => decide (s.programFault h p g = none) && g.tensors.all (fun x => !x.digest) && decide (s.marks = []) &&
      !(s.physSet p.clusterFirst.toNat p.clusterCount.toNat).any s.clusterHeld &&
      (match s.runStages ⟨s.refOf h 0x20, h, p.clusterFirst.toNat, p.clusterCount.toNat⟩ g.tensors g.stages with
        | (t, .ok _) => fails.isNone && decide (t.oxl.missing = s.oxl.missing)
        | (t, .fail st) => decide (fails = some st) && decide (t.oxl.missing = s.oxl.missing))

/-- A program is plain, as a test that can be run. -/
def plainCheck (g : Program) : Bool :=
  g.stages.all (fun st => decide (st.kind = 3) && st.epis.isEmpty) &&
  g.tensors.all (fun x => !x.digest && !x.mx && decide (x.fmt ≠ .m40) &&
    (List.range x.rows).all (fun r => decide (x.rowAddr r < hbmEnd) && decide (x.rowAddr r + x.fmt.bytes x.d0 ≤ hbmEnd)))

theorem plain_of_check {g : Program} (h : plainCheck g = true) : g.Plain := by
  simp only [plainCheck, Bool.and_eq_true, decide_eq_true_eq, List.all_eq_true, List.isEmpty_iff, Bool.not_eq_true', List.mem_range] at h
  exact ⟨h.1, fun x hx => ⟨(h.2 x hx).1.1.1, (h.2 x hx).1.1.2, (h.2 x hx).1.2, (h.2 x hx).2⟩⟩

theorem witness_ProgramRunsItsStages : programmed.Sound ∧ programmed.bindingOk hdr .any = true ∧ hdr.bound = false ∧ runParamsOk runIt = true ∧
    runIt.stats = 0 ∧ runIt.image.toNat + runIt.imageLen.toNat ≤ hbmEnd ∧ runsCheck programmed hdr runIt none = true ∧
    ((programmed.programOf (programmed.hbm.read 4096 192) []).map plainCheck) = some true ∧
    (programmed.programOf (programmed.hbm.read 0 64) []).isNone = true ∧
    spoilt.Sound ∧ spoilt.bindingOk hdr .any = true ∧ runsCheck spoilt hdr runIt (some ST_ECC) = true :=
  ⟨sound_of_check (by decide +kernel), by decide +kernel, rfl, by decide +kernel, rfl, by decide +kernel, by decide +kernel, by decide +kernel,
    by decide +kernel, sound_of_check (by decide +kernel), by decide +kernel, by decide +kernel⟩

/-- An image of no vectors at 4096, not signed, and one for another Numerics Revision at 0x2000. -/
def vectors : State := { up with hbm := (up.hbm.write 4096 (leBytes 2 1 ++ leBytes 2 numRev ++ leBytes 4 0 ++ leBytes 8 160)).write 0x2000 (leBytes 2 1 ++ leBytes 2 9) }

theorem witness_ConformanceRunChecks : vectors.Sound ∧ vectors.bindingOk hdr .notBound = true ∧ vectors.idle = true ∧
    leAt (vectors.hbm.read 4096 160) 2 2 = numRev ∧ conformanceSigned (vectors.hbm.read 4096 160) = false ∧
    leAt (vectors.hbm.read 0x2000 160) 2 2 ≠ numRev := ⟨sound_of_check (by decide +kernel), by decide +kernel⟩

/-- Any image that the conformance key has signed, at 4096, meets the third part's hypotheses: the key is the manufacturer's. -/
theorem witness_ConformanceRunChecks_signed (img : List Byte) (_ : leAt img 2 2 = numRev) (_ : conformanceSigned img = true) :
    let s : State := { up with hbm := up.hbm.write 4096 img }
    s.Sound ∧ s.bindingOk hdr .notBound = true ∧ s.idle = true ∧ s.hbm.read 4096 img.length = img :=
  ⟨⟨up_sound.allStacks, up_sound.poison, up_sound.inject⟩, (by decide +kernel : up.bindingOk hdr .notBound = true),
    (by decide +kernel : up.idle = true), Mem.read_write _ _ _⟩

/-- A module whose last quarter serves each of its logical clusters by the physical one of the same number. -/
def mapped : State := puts ((List.range 64).foldl (fun s l => s.put (lmapPhys 3 l) l) up) [(F.QC_STATUS_WORKING 3, 66), (F.QC_STATUS_SPARES 3, 2)]

def marked : State := { mapped with marks := [⟨198, false, none⟩] }

theorem witness_ClusterRetirement : mapped.regOpen (Reg.QC_RETIRE_REQ 3) = true ∧ mapped.retiredBit 3 65 = false ∧ mapped.marks = [] ∧
    marked.Calm ∧ marked.marks = [⟨198, false, none⟩] ∧ marked.served 3 0 = [0] ∧ marked.clusterBusy (64 * 3 + 0) = false ∧ marked.retiredBit 3 0 = false ∧
    marked.freeSpare 3 = some 64 := ⟨by decide +kernel, by decide +kernel, rfl, calm_of_check (by decide +kernel), by decide +kernel⟩

/-! ## The Conjugator -/

/-- The image of a parse table of one phase, for an algorithm over one block of width 128 in FP32: the solve or the factor step, the test, and
the store of what it gave. -/
def parseImage (alg nrhs : Nat) : List Byte :=
  let op (code start len : Nat) : List Byte := leBytes 4 (code + if code = 3 then 2 ^ 14 else 0) ++ leBytes 4 0 ++ leBytes 4 start ++ leBytes 4 len
  let head (crc : Nat) : List Byte := leBytes 2 1 ++ leBytes 2 numRev ++ leBytes 4 0xA0 ++ leBytes 4 1 ++ leBytes 4 (2 + 256 + nrhs * 65536) ++ leBytes 4 3
    ++ leBytes 4 1 ++ leBytes 4 0 ++ leBytes 4 1 ++ leBytes 8 2 ++ leBytes 8 0 ++ leBytes 8 0 ++ leBytes 8 crc ++ leBytes 4 (1 + alg * 256 + 7 * 2 ^ 18)
    ++ leBytes 4 1 ++ leBytes 4 0 ++ leBytes 4 1 ++ List.replicate 16 0 ++ leBytes 4 0 ++ leBytes 4 3 ++ leBytes 4 2 ++ leBytes 2 1 ++ leBytes 2 0
    ++ op (if alg = 3 then 7 else 6) 0 1 ++ op 12 1 1 ++ op 3 2 1
  head (crc64 (head 0))

/-- A module that holds a parse table of TRIANGULAR at 4096, and one that has it loaded as table 7. -/
def parsed : State := { up with hbm := up.hbm.write 4096 (parseImage 3 1) }

def loaded : State := { parsed with cj := { parsed.cj with tables := [⟨7, 4096, 0xA0, false⟩] } }

theorem witness_ParseTablesLoad : parsed.Calm ∧ parsed.Sound ∧ parsed.bindingOk hdr .notBound = true ∧ parsed.idle = true ∧ (7 : BitVec 12) ≠ 0 ∧
    parseOk (parsed.hbm.read 4096 0xA0) 0xA0 = true ∧ parseOk (parsed.hbm.read 0x2000 1) 1 = false ∧ parsed.parseTable 7 = none ∧
    loaded.Calm ∧ loaded.Sound ∧ loaded.parseTable 7 = some ⟨7, 4096, 0xA0, false⟩ :=
  ⟨calm_of_check (by decide +kernel), sound_of_check (by decide +kernel), by decide +kernel, by decide +kernel, by decide, by decide +kernel,
    by decide +kernel, by decide +kernel, calm_of_check (by decide +kernel), sound_of_check (by decide +kernel), by decide +kernel⟩

/-- A root-table entry of a kind, with a source and flags, and sealed. -/
def rootEntry (site kind source flags : Nat) : List Byte :=
  rtSeal (leBytes 2 site ++ leBytes 1 kind ++ leBytes 1 0 ++ leBytes 2 source ++ leBytes 2 (if kind = 5 then 1 else 0) ++ List.replicate 96 0 ++ leBytes 1 flags ++
    List.replicate 7 0 ++ leBytes 6 noPeriod ++ List.replicate 10 0)

/-- A module with a root table of two entries at 0x8000, and an image for an entry at 0x9000. -/
def rooted : State := puts { up with hbm := ((up.hbm.write 0x8000 (rootEntry 0 2 0 4)).write 0x8080 (rootEntry 0 5 0 0)).write 0x9000 (rootEntry 0 2 0 0) }
  [(F.CJ_ROOT_BASE_BASE, 0x8000), (F.CJ_ROOT_COUNT_COUNT, 2)]

theorem witness_RootTable : rooted.Calm ∧ rooted.Sound ∧ rooted.bindingOk hdr .notBound = true ∧ rooted.idle = true ∧ rooted.get F.CJ_ROOT_COUNT_COUNT = 2 ∧
    rooted.get F.CJ_ROOT_BASE_BASE + 128 * 2 ≤ hbmEnd ∧ rooted.cj.snaps = [] ∧
    ((List.range 1).all fun i => rtImageOk (rooted.hbm.read (0x9000 + 128 * i) 128)) = true ∧
    ((List.range 1).all fun i => rtImageOk (rooted.hbm.read (0xA000 + 128 * i) 128)) = false ∧
    rooted.Unwatched 0xA000 256 :=
  ⟨calm_of_check (by decide +kernel), sound_of_check (by decide +kernel), by decide +kernel, by decide +kernel, by decide +kernel, by decide +kernel,
    by decide +kernel, by decide +kernel, by decide +kernel, unwatched_of_check (by decide +kernel) _ _⟩

/-- It with a plan and a loaded parse table of CHOLESKY for entry 0, and one whose core is taken beyond the deadline. -/
def solving : State := { rooted with hbm := rooted.hbm.write 4096 (parseImage 1 0), pd := { rooted.pd with plan := some plan }, cj := { rooted.cj with tables := [⟨7, 4096, 0xA0, false⟩] } }

def solvingLate : State := { solving with cj := { solving.cj with coreFree := 400000 :: solving.cj.coreFree.drop 1 } }

/-- What the statement asks of a job but its deadline. -/
def jobFits (s : State) (e : Nat) (r : ParseRef) : Bool :=
  let b := s.rootBytes e
  let p := Parse.of (s.hbm.read r.address 0x60)
  s.solveAgrees b p && !rtPublished b && rtDigestOk b && decide (p.mask &&& s.cj.withdrawn = 0)

/-- The end of the job's bound. -/
def jobStop (s : State) (r : ParseRef) : Nat :=
  let p := Parse.of (s.hbm.read r.address 0x60)
  let shares := earliest s.cj.shareFree p.shares
  let stores := earliest s.cj.storeFree (cdiv p.sharedKib 1024)
  max s.now (max (latest s.cj.coreFree (coresOf p.mask)) (max (latest s.cj.shareFree shares) (latest s.cj.storeFree stores))) + jobBound p (s.get F.PW_CLOCK_ARITH_MHZ)

theorem witness_SolveAdmitsOrRefuses : solving.Sound ∧ solving.bindingOk (boundTo 4) (.kinds [kindRefresh]) = true ∧ solving.parseTable 8 = none ∧
    solving.parseTable 7 = some ⟨7, 4096, 0xA0, false⟩ ∧ solving.get F.CJ_ROOT_COUNT_COUNT = 2 ∧ solving.conjHeld = false ∧ solving.rootAddr 0 + 128 ≤ hbmEnd ∧
    solving.replaying = false ∧ solving.cj.jobs.length < 255 ∧ solving.jobOf 0 = none ∧ jobFits solving 0 ⟨7, 4096, 0xA0, false⟩ = true ∧
    jobFits solvingLate 0 ⟨7, 4096, 0xA0, false⟩ = true := ⟨sound_of_check (by decide +kernel), by decide +kernel⟩

theorem witness_SolveAdmitsOrRefuses_deadline : jobStop solving ⟨7, 4096, 0xA0, false⟩ ≤ solving.deadlineOf (boundTo 4).clause.val ∧
    solvingLate.deadlineOf (boundTo 4).clause.val < jobStop solvingLate ⟨7, 4096, 0xA0, false⟩ := by decide +kernel

/-- A job of entry 1, a triangular solve whose source is entry 0. -/
def job (running : Bool) : SolveJob := ⟨⟨3, 7, 0x55, 0x41, false, 0⟩, 3, 1, ⟨7, 4096, 0xA0, false⟩, 1, [0], [], 2000, false, running, false, false, false⟩

def jobbed (running : Bool) (flags : Nat) : State :=
  { rooted with hbm := (rooted.hbm.write 4096 (parseImage 3 1)).write 0x8000 (rootEntry 0 2 0 flags), cj := { rooted.cj with jobs := [job running] } }

/-- A job whose site's sums are not finite. -/
def jobNan : State := { jobbed false 0 with
  hbm := (((jobbed false 0).hbm.write 4096 (parseImage 1 0)).write 0x8080 (rootEntry 5 2 0 0)).write 0x100008 [32], gram := [GramSite.ofDef siteDef] }

theorem witness_SolveJobsRun_start : (jobbed false 4).Sound ∧ (jobbed false 4).jobOf 1 = some (job false) ∧ (jobbed false 4).jobFree (job false) = true ∧
    1 ≤ (job false).table.length ∧ (job false).table.address + (job false).table.length ≤ hbmEnd ∧ (jobbed false 4).rootAddr 1 + 128 ≤ hbmEnd ∧
    (Parse.of ((jobbed false 4).hbm.read 4096 0xA0)).alg = 3 ∧
    (∀ v ∈ [true, false], let s := jobbed false (if v then 4 else 0)
      let src := s.rootAt (job false).clause (rtSource (s.rootBytes 1))
      rtValid src (rtCurrent src) = v) ∧
    (jobbed true 4).jobOf 1 = some (job true) ∧ (job true).running = true ∧ (jobbed true 4).replaying = false :=
  ⟨sound_of_check (by decide +kernel), by decide +kernel⟩

theorem witness_SolveJobsRun_nonfinite : jobNan.Sound ∧ jobNan.jobOf 1 = some (job false) ∧ jobNan.jobFree (job false) = true ∧
    (Parse.of (jobNan.hbm.read 4096 0xA0)).alg ≠ 3 ∧ rtSite (jobNan.rootBytes 1) ≠ 0 ∧ jobNan.site (rtSite (jobNan.rootBytes 1)) = some (GramSite.ofDef siteDef) ∧
    bit (jobNan.word ((GramSite.ofDef siteDef).base + 8) 1) 5 = true ∧ jobNan.replaying = false := ⟨sound_of_check (by decide +kernel), by decide +kernel⟩

/-- Jobs whose every block passes, does not pass, and whose operands lie where nothing can be read. -/
def jobPass : State := { jobbed true 4 with hbm := (jobbed true 4).hbm.write 0 [0, 0, 0x80, 0x3F] }

def jobLost : State := { jobbed true 4 with hbm := (jobbed true 4).hbm.write 0x80A0 (leBytes 6 (2 ^ 48 - 8)) }

/-- What a job's outputs come to: 0 not read, 1 not passed, 2 passed and fit to be written. -/
def outcome (s : State) (j : SolveJob) : Nat :=
  let img := s.hbm.read j.table.address j.table.length
  let before := s.bump F.CJ_BUSY_CYCLES_CYCLES (busyCycles (Parse.of img) img j.warm)
  match (before.jobOutputs j img (s.rootBytes j.entry)).2 with
  | .fail _ => 0
  | .ok (o, passed) => if passed then (if o.all (fun w => !w.2.isEmpty && decide (w.1 + w.2.length ≤ hbmEnd)) then 2 else 3) else 1

theorem witness_SolveJobsRun_end : jobPass.Sound ∧ jobPass.jobOf 1 = some (job true) ∧ jobPass.replaying = false ∧ jobPass.rootAddr 1 + 128 ≤ hbmEnd ∧
    outcome jobPass (job true) = 2 ∧ outcome (jobbed true 4) (job true) = 1 ∧ outcome jobLost (job true) = 0 :=
  ⟨sound_of_check (by decide +kernel), by decide +kernel⟩

/-! ## The update unit -/

/-- A module with a parameter table of one tensor that no rule of PREPARE processes, and a sealed, CLOSED ledger; all its records are zeros. -/
def attached : State := { up with uu := { up.uu with tensors := 1, closedAtTick := true }, pd := { up.pd with plan := some plan } }

/-- It with a rule of code 4 for the tensor. -/
def factoredRule : State := { attached with uu := { attached.uu with rules := [(0, leBytes 4 0x204 ++ List.replicate 60 0)] } }

def prep : PrepareParams := ⟨0x10000, 0, 0, 1⟩

/-- It with the noise totals of the Period, so that Q is known. -/
def qKnown (nan : Bool) : State := { attached with coll := { attached.coll with totals := some ⟨attached.currentPeriod, 0, if nan then 0x7FF0000000000000 else 0, nan, false, false⟩ } }

theorem witness_UpdateCommits_prepare : attached.bindingOk (boundTo 5) (.kinds [kindPrecondition]) = true ∧ prep.scratch.toNat % 4096 = 0 ∧
    writable prep.scratch.toNat prep.scratchLen.toNat = true ∧ 1 ≤ prep.clusterCount.toNat ∧ prep.clusterFirst.toNat + prep.clusterCount.toNat ≤ 256 ∧
    attached.uu.prepared ≠ some attached.currentPeriod ∧ factoredRule.Sound ∧ (qKnown true).Sound ∧ (qKnown false).Sound ∧
    (let s' : State := { factoredRule with uu := { factoredRule.uu with prepared := some factoredRule.currentPeriod } }
     s'.prepareOk prep = true ∧ s'.qOf factoredRule.currentPeriod = none) ∧
    (let s' : State := { qKnown true with uu := { attached.uu with prepared := some attached.currentPeriod } }
     s'.prepareOk prep = true ∧ (s'.qOf attached.currentPeriod).map (fun q => (v64 q).isFinite) = some false) ∧
    (let s' : State := { qKnown false with uu := { attached.uu with prepared := some attached.currentPeriod } }
     s'.prepareOk prep = true ∧ (s'.qOf attached.currentPeriod).map (fun q => (v64 q).isFinite) = some true ∧ s'.prepItems.isEmpty = true ∧
      s'.enterClusters 0 1 (attached.refOf (boundTo 5) 0x50) = (s', none)) :=
  ⟨by decide +kernel, by decide +kernel, by decide +kernel, by decide +kernel, by decide +kernel, by decide +kernel, sound_of_check (by decide +kernel),
    sound_of_check (by decide +kernel), sound_of_check (by decide +kernel), by decide +kernel⟩

/-- The commit of Period 0 open, with Q known. -/
def committing : State := { attached with uu := { attached.uu with openCommit := some attached.currentPeriod }, coll := { attached.coll with totals := some ⟨attached.currentPeriod, 0, 0, false, false, false⟩ } }

theorem witness_UpdateCommits_apply : attached.bindingOk (boundTo 6) (.kinds [kindUpdate]) = true ∧ nonNegative (v32 0x3F800000) = true ∧
    nonNegative (v32 0xBF800000) = false ∧ attached.uu.applied ≠ some attached.currentPeriod ∧ up.ledgerLive = false ∧
    ({ up with pd := { up.pd with plan := some plan } } : State).bindingOk (boundTo 6) (.kinds [kindUpdate]) = true ∧
    attached.ledgerLive = true ∧ attached.uu.openCommit = none ∧ committing.ledgerLive = true ∧ committing.uu.openCommit = some committing.currentPeriod ∧
    committing.qOf committing.currentPeriod ≠ none ∧ committing.bindingOk (boundTo 6) (.kinds [kindUpdate]) = true ∧
    attached.uu.failed = none ∧ ({ attached with uu := { attached.uu with failed := some ST_ECC } } : State).ledgerLive = true ∧
    (({ committing with uu := { committing.uu with applied := some committing.currentPeriod } } : State).applyNow ⟨committing.refOf (boundTo 6) 0x50, 0x3F800000⟩
      committing.currentPeriod ((committing.qOf committing.currentPeriod).getD 0)).1.oxl.missing = committing.oxl.missing := by decide +kernel

theorem crc64_zeros {l : List Byte} (h : ∀ b ∈ l, b = 0) : crc64 l = 0 := by
  unfold crc64
  induction l with
  | nil => rfl
  | cons b t ih =>
    obtain rfl := h b (List.mem_cons_self ..)
    rw [List.foldl_cons, show crcByte 0 0 = 0 by decide +kernel]
    exact ih fun x hx => h x (List.mem_cons_of_mem _ hx)

/-- With no rule defined RULES_DIGEST is the CRC-64 of zeros. -/
theorem rulesDigest_none {s : State} (h : s.uu.rules = []) : s.rulesDigest = 0 := by
  unfold State.rulesDigest
  refine crc64_zeros fun b hb => ?_
  obtain ⟨i, -, hb⟩ := List.mem_flatMap.1 hb
  simp only [State.ruleBytes, h, alGet, Option.getD_none] at hb
  exact List.eq_of_mem_replicate hb

/-- Its ledger with a byte that its seal does not cover, in phase 3, and of other rules. -/
def unsealed : State := { attached with hbm := attached.hbm.write 0 [1] }

theorem witness_RecoverAdoptsTheHeader : attached.Calm ∧ attached.Sound ∧ attached.bindingOk hdr .notBound = true ∧ attached.idle = true ∧
    attached.tableAttached = true ∧ attached.shardLedger + 0x80 ≤ hbmEnd ∧ attached.ledSealed = true ∧ attached.ledPhase = 0 ∧
    attached.ledRules = attached.rulesDigest ∧ attached.ledOverride = false ∧ up.tableAttached = false ∧ unsealed.Calm ∧ unsealed.ledSealed = false :=
  ⟨calm_of_check (by decide +kernel), sound_of_check (by decide +kernel), by decide +kernel, by decide +kernel, by decide +kernel, by decide +kernel,
    by decide +kernel, by decide +kernel, (show attached.ledRules = 0 by decide +kernel).trans (rulesDigest_none rfl).symm, by decide +kernel, by decide +kernel,
    calm_of_check (by decide +kernel), by decide +kernel⟩

/-- A table of one tensor of one row and column, without a moment, whose rule is defined. -/
def ruled : State :=
  let b := leBytes 4 0 ++ leBytes 4 1 ++ leBytes 4 1 ++ List.replicate 108 0
  { up with uu := { up.uu with rules := [(0, List.replicate 64 0)] }, hbm := up.hbm.write 0x10000 (b ++ leBytes 8 (crc64 b)) }

theorem witness_SetRuleDefines : up.Calm ∧ up.Sound ∧ up.bindingOk hdr .notBound = true ∧ up.idle = true ∧ up.uu.tensors = 0 ∧ ruleOk (leBytes 64 0) = true ∧
    ruleOk (leBytes 64 7) = false ∧ (∀ i, (up.ruleBytes i).length = 64) ∧ ruled.Calm ∧ ruled.Sound ∧
    (let imgs := pieces 128 (ruled.hbm.read 0x10000 128)
     imgs.all ruled.paramOk = true ∧ firstsOk (imgs.map Param.of) = true ∧
      0x20000 + (0x80 + 16 * (1 + sumList ((imgs.map Param.of).map Param.blocks))) ≤ hbmEnd) ∧
    (pieces 128 (up.hbm.read 0x10000 128)).all up.paramOk = false ∧ up.Unwatched 0x30000 128 :=
  ⟨up_calm, up_sound, by decide +kernel, by decide +kernel, by decide +kernel, by decide +kernel, by decide +kernel, fun _ => rfl,
    calm_of_check (by decide +kernel), sound_of_check (by decide +kernel), by decide +kernel, by decide +kernel,
    unwatched_of_check (by decide +kernel) _ _⟩

/-! ## Collectives -/

/-- A collective of a sub-operation over X in a ring of two: FP32, summed, two elements or 64 bytes, with module 1 as the peer. -/
def coll (k : Nat) : CollParams :=
  { ordered := true, noise := false, axes := 1, inFmt := 2, accFmt := 2, outFmt := 2, round := 0, op := 0, splitX := 1, splitY := 0, splitZ := 0,
    tensorId := 0, matchId := 9, postScale := 0x3F800000, src := 0x10000, dst := 0x20000, count := if k = 5 then 1 else if 6 ≤ k then 64 else 2,
    peer := if k = 4 then 0 else 1, step := 1, streamId := 0 }

/-- What the statement asks of a collective that starts. -/
def startsCheck (s : State) (k : Nat) : Bool :=
  let p := coll k
  let g := s.groupOf p.axes.toNat
  let r := newRun hdr (s.refOf hdr 0x30) (s.evalBound hdr) .command k p (s.hbm.read p.src.toNat (collSource k p g)) []
  s.collParamsOk hdr k p && !s.fenceHit hdr (r.targets g) && decide (p.src.toNat + collSource k p g ≤ hbmEnd) &&
    (r.targets g).all (fun w => decide (0 < w.2 ∧ w.1 + w.2 ≤ hbmEnd)) && (r.inPeers g).all (fun m => decide (m = s.logical ∨ s.route m none ≠ .unroutable)) &&
    (!(r.outPeers g).isEmpty || decide (k = 7 ∧ p.count ≠ 0))

theorem witness_CollectivesStart_refused : pair.bindingOk hdr .any = true ∧ ({ coll 6 with streamId := BitVec.ofNat 32 (2 ^ 31) } : CollParams).streamId.toNat = 2 ^ 31 ∧
    ({ coll 1 with op := 3 } : CollParams).op = 3 ∧ 4 < ({ coll 1 with round := 5 } : CollParams).round.toNat ∧
    (postScale { coll 1 with postScale := 0x7F800000 }).isFinite = false := by decide +kernel

theorem witness_CollectivesStart : pair.Sound ∧ pair.coll.runs = [] ∧ pair.coll.early = [] ∧ pair.bindingOk hdr .any = true ∧
    ([1, 2, 3, 4, 6, 7, 8].all (startsCheck pair)) = true := ⟨sound_of_check (by decide +kernel), by decide +kernel⟩

/-- Moves for a PERMUTE: 64 bytes to module 1. -/
def permuting : State := { pair with hbm := pair.hbm.write 0x10000 (leBytes 4 1 ++ leBytes 4 1 ++ leBytes 8 0x30000 ++ leBytes 8 64 ++ leBytes 8 0) }

theorem witness_CollectivesStart_permute : permuting.Sound ∧ permuting.coll.runs = [] ∧ permuting.coll.early = [] ∧ permuting.collParamsOk hdr 5 (coll 5) = true ∧
    (List.range 1).mapM (fun i => Move.parse (permuting.hbm.read (0x10000 + 32 * i) 32)) = some [⟨true, 1, 0x30000, 64, 0⟩] ∧
    permuting.movesFault hdr [⟨true, 1, 0x30000, 64, 0⟩] = none ∧
    (let g := permuting.groupOf 1
     let r := newRun hdr (permuting.refOf hdr 0x30) (permuting.evalBound hdr) .command 5 (coll 5) (permuting.hbm.read 0x30000 64) [⟨true, 1, 0x30000, 64, 0⟩]
     r.inPeers g = [] ∧ r.outPeers g ≠ []) := ⟨sound_of_check (by decide +kernel), by decide +kernel⟩

/-- A posted RECV of two bytes that have arrived. -/
def recvRun : CollRun := { newRun hdr ⟨3, 7, 0x55, 0x30, false, 0⟩ false .command 7 { coll 7 with count := 2 } [] [] with got := [⟨1, 0, false, 0, [5, 6]⟩] }

def recving : State := { pair with coll := { pair.coll with runs := [recvRun] } }

theorem witness_MessagesArrive_recv : recving.Sound ∧ recving.coll.runs = [recvRun] ∧ recving.coll.reshard = none ∧ recvRun.subop = 7 ∧ recvRun.lastFlit = none ∧
    recvRun.arrived recvRun.p.peer.toNat 0 false 0 recvRun.p.count.toNat = some [5, 6] ∧ recving.pcState ≤ 1 := ⟨sound_of_check (by decide +kernel), by decide +kernel⟩

/-- A message for the module at the far end of port 0, and one for module 1. -/
def here_ : Route := ⟨0xFFFFFF, 1, 2⟩

def toOne : Route := ⟨1, 5, 2⟩

theorem witness_MessagesArrive_noStream : pair.Calm ∧ pair.inject = [] ∧ pair.portRuns 0 = true ∧ here_.dest.toNat = farEnd :=
  ⟨calm_of_check (by decide +kernel), by decide +kernel⟩

/-- With link 0 of X broken and link 1 too no route leads on. -/
def cut : State := (pair.setBroken 0 0 true).setBroken 0 1 true

/-- It with port 3 UP. -/
def cut3 : State := cut.put (F.ZP_STATUS_STATE 3) 3

theorem witness_MessagesArrive_routed : up.portRuns 0 = false ∧ pair.portRuns 0 = true ∧ pair.inject = [] ∧ toOne.dest.toNat ≠ farEnd ∧ pair.get F.PW_STATUS_STATE ≠ 11 ∧
    pair.route 1 (some (0, 2)) = .out 1 true ∧ (pair.arrive 0 1 2).1.routeDown 1 = false ∧
    ((pair.put (F.ZP_STATUS_STATE 1) 0).arrive 0 1 2).1.routeDown 1 = true ∧ cut.route 1 (some (3, 6)) = .unroutable ∧ cut3.portRuns 3 = true ∧
    pair.route 0 (some (0, 6)) = .deliver := by decide +kernel

/-- The run, and it on a port that retries. -/
def slowly : State := recving.put (F.ZP_STATUS_RETRYING 0) 1

theorem witness_WatchdogEndsTransfers : recving.coll.runs = [recvRun] ∧ recvRun.cmd.ring = (3 : Fin 64) ∧ recvRun.cmd.seq = (7#48).toNat ∧ recvRun.got ≠ [] ∧
    recvRun.extended = false ∧
    recving.retriedLately recvRun.cmd (recvRun.outPeers (recving.runGroup recvRun) ++ recvRun.inPeers (recving.runGroup recvRun)) recvRun.hops = false ∧
    slowly.retriedLately recvRun.cmd (recvRun.outPeers (slowly.runGroup recvRun) ++ recvRun.inPeers (slowly.runGroup recvRun)) recvRun.hops = true ∧
    ({ recvRun with got := [] } : CollRun).sent = [] := by decide +kernel

/-- Two noise records. -/
def noisy : State := { up with coll := { up.coll with records := [⟨5, false, false, false, 1, 2, 3, 4⟩, ⟨6, false, false, true, 1, 2, 3, 4⟩] } }

theorem witness_NoiseReportWritesRecords : noisy.Calm ∧ noisy.Sound ∧ noisy.bindingOk hdr .notBound = true ∧
    ((List.range 2).mapM fun i => noisy.coll.records.find? fun r => decide (r.period = (5 + i) % 2 ^ 48)) = some noisy.coll.records ∧
    ((List.range 2).mapM fun i => noisy.coll.records.find? fun r => decide (r.period = (6 + i) % 2 ^ 48)) = none ∧ noisy.Unwatched 0x1000 64 :=
  ⟨calm_of_check (by decide +kernel), sound_of_check (by decide +kernel), by decide +kernel, by decide +kernel, by decide +kernel,
    unwatched_of_check (by decide +kernel) _ _⟩

/-- A re-shard plan of one round, which sends 64 bytes to module 1. -/
def planBytes : List Byte :=
  let head (crc : Nat) : List Byte := leBytes 4 1 ++ leBytes 4 1 ++ leBytes 8 1 ++ leBytes 8 77 ++ leBytes 8 64 ++ List.replicate 24 0 ++ leBytes 8 crc ++
    leBytes 4 0 ++ leBytes 4 1 ++ leBytes 8 0 ++ leBytes 4 1 ++ leBytes 4 1 ++ leBytes 8 0x30000 ++ leBytes 8 64 ++ leBytes 8 0
  head (crc64 (head 0))

/-- A module with that plan at 4096 and a round ledger at 0x8000 with the given states. -/
def resharding (state dir round entry : Nat) : State :=
  { pair with hbm := (pair.hbm.write 4096 planBytes).write 0x8000 (roundHeader 77 (planCrc planBytes) state dir round ++ leBytes 8 entry ++ leBytes 8 0) }

/-- What the statement asks of the plan and of its ledger. -/
def planCheck (s : State) (small : Bool) : Bool :=
  match s.readPlan 4096 (s.refOf hdr 0x65) with
  | (t, .ok p) => decide (t = s) && decide (p.rounds.length = 1) && decide (planSize (s.hbm.read 4096 64) = 112) && !p.clash &&
      (movePeers (p.round 0) false).all (fun q => decide (q = s.logical)) && decide (p.landing = 64) &&
      (small || (let hd := s.hbm.read 0x8000 64
        decide (leAt hd 0x38 8 = crc64 (hd.take 0x38) ∧ leAt hd 8 8 = p.id ∧ leAt hd 0x10 8 = p.crc)))
  | _ => false

theorem witness_ReshardLedger : (resharding 0 0 0 1).Calm ∧ (resharding 0 0 0 1).Sound ∧ (resharding 0 0 0 1).bindingOk hdr .notBound = true ∧
    (resharding 0 0 0 1).idle = true ∧ inHbm 0x40000 64 = true ∧ inHbm 4096 64 = true ∧ planCheck (resharding 0 0 0 1) false = true ∧
    4096 + 112 ≤ 0x8000 ∧ (resharding 0 0 0 1).coll.early = [] ∧ (resharding 0 0 0 1).roundState 0x8000 0 = 1 ∧
    (resharding 0 0 0 4).roundState 0x8000 0 = 4 ∧ (∀ v < 3, (RoundLedger.parse ((resharding v 0 0 1).hbm.read 0x8000 64)).state = v) :=
  ⟨calm_of_check (by decide +kernel), sound_of_check (by decide +kernel), by decide +kernel⟩

/-! ## Links -/

/-- A port with one flit unacknowledged, and it with a retry episode open. -/
def sentOne : State := pair.setPort 0 { pair.port 0 with txNext := 1 }

def retrying : State := sentOne.setPort 0 { sentOne.port 0 with episode := some ⟨0, 1, 1⟩ }

theorem witness_LinkRetries_flits : sentOne.portRuns 0 = true ∧ sentOne.inject = [] ∧ (sentOne.port 0).episode = none ∧ (sentOne.port 0).unacked = 1 ∧
    (sentOne.port 0).unacked ≤ seqDist (sentOne.port 0).txAcked (1#15).toNat ∧ seqDist (sentOne.port 0).txAcked (0#15).toNat < (sentOne.port 0).unacked ∧
    (sentOne.port 0).unacked < seqDist (sentOne.port 0).txAcked (2#15).toNat ∧ seqDist (sentOne.port 0).txAcked (1#15).toNat ≤ (sentOne.port 0).unacked ∧
    (5#15).toNat ≠ (sentOne.port 0).rxNext ∧ (0#15).toNat = (sentOne.port 0).rxNext ∧ (sentOne.port 0).nakOut = false ∧ (sentOne.port 0).queue = [] ∧
    (sentOne.port 0).buffer.length < replaySlots 0 := by decide +kernel

theorem witness_LinkRetries_lanes : pair.portRuns 0 = true ∧ ¬ (pair.get (F.ZP_STATUS_FIRST_LANE 0) ≤ 8 ∧ 8 < pair.get (F.ZP_STATUS_FIRST_LANE 0) +
      lanesOf ((pair.put (F.ZP_STATUS_WIDTH 0) 1).get (F.ZP_STATUS_WIDTH 0))) ∧
    pair.get (F.ZP_STATUS_FIRST_LANE 0) ≤ 15 ∧ 15 < pair.get (F.ZP_STATUS_FIRST_LANE 0) + lanesOf (pair.get (F.ZP_STATUS_WIDTH 0)) ∧ pair.get (F.ZP_STATUS_WIDTH 0) < 2 ∧
    2 ≤ (pair.put (F.ZP_STATUS_WIDTH 0) 2).get (F.ZP_STATUS_WIDTH 0) ∧ (retrying.port 0).episode.isSome = true ∧ retrying.portRuns 0 = true ∧
    pair.regOpen (Reg.ZP_CTRL 0) = true ∧ pair.idle = true := by decide +kernel

/-- A port in training, and ports that retrain. -/
def training : State := puts up [(F.ZP_CTRL_ENABLE 2, 1), (F.ZP_STATUS_STATE 2, 1)]

def retraining : State := (pair.put (F.ZP_STATUS_STATE 0) 4).setPort 0 { pair.port 0 with discSent := true, discGot := true }

/-- A port that retrains at half its width, with more corrected symbols on its lower half, whose peer has the higher UNIT_ID. -/
def halved : State := (puts retraining [(F.ZP_STATUS_WIDTH 0, 1), (F.ZP_PEER_UNIT_UNIT_ID 0, 9)]).setPort 0 { retraining.port 0 with fec := [(0, 3, 1)] }

def peerPayload : DiscoverPayload := ⟨0x1234, 0x99, 5, 7, 1, true, false, 0, false, 0, false, 0x0103⟩

theorem witness_PortsComeAndGo : training.inject = [] ∧ training.get (F.ZP_STATUS_STATE 2) ≤ 1 ∧ training.portMayTrain 2 = true ∧
    pair.get (F.ZP_STATUS_STATE 0) = 3 ∧ pair.on F.ZF_PHYS_VALID = false ∧ training.regOpen (Reg.ZP_CTRL 2) = true ∧
    (let s := training.put (F.ZP_STATUS_STATE 2) 0
     s.get (F.ZP_STATUS_STATE 2) = 0 ∧ s.on (F.ZP_CTRL_ENABLE 2) = true ∧ bit (s.get F.RS_HELD_PORT) 2 = false ∧ s.get F.PW_STATUS_STATE ≠ 11) ∧
    retraining.get (F.ZP_STATUS_STATE 0) = 4 ∧ retraining.get (F.ZP_STATUS_WIDTH 0) = 0 ∧ (retraining.port 0).unacked = 0 ∧
    (retraining.port 0).discSent = true ∧ (retraining.port 0).discGot = true ∧ retraining.on F.ZF_PHYS_VALID = false := by decide +kernel

theorem witness_LinkRetries_halved : halved.get (F.ZP_STATUS_STATE 0) = 4 ∧ halved.get (F.ZP_STATUS_WIDTH 0) ≠ 0 ∧ (halved.port 0).unacked = 0 ∧
    (halved.port 0).discSent = true ∧ (halved.port 0).discGot = true ∧ halved.on F.ZF_PHYS_VALID = false ∧
    halved.keepsUpper 0 (lanesOf (halved.get (F.ZP_STATUS_WIDTH 0))) false = true ∧
    (halved.setPort 0 { halved.port 0 with fec := [] }).keepsUpper 0 (lanesOf (halved.get (F.ZP_STATUS_WIDTH 0))) true = false := by decide +kernel

/-- A port that waits for its sixteenth echo. -/
def echoing : State := pair.setPort 0 { pair.port 0 with echoes := 15 }

theorem witness_LinkMessages : pair.inject = [] ∧ pair.portRuns 0 = true ∧ pair.portUp 0 = true ∧ echoing.portRuns 0 = true ∧ (echoing.port 0).echoes = 15 ∧
    (2#2).toNat < 3 ∧ (⟨0xFFFFFF, 0xFFFFFF, 0⟩ : Route).dest.toNat = farEnd ∧ (⟨0xFFFFFF, 0xFFFFFF, 0⟩ : Route).src.toNat = farEnd ∧
    (0x0D ≤ (0x0F#5).toNat ∧ (0x0F#5).toNat ≤ 0x0F) ∧ 0x14 ≤ (0x1F#5).toNat ∧ (pair.port 0).queue = [] ∧ (pair.port 0).buffer.length + 16 ≤ replaySlots 0 := by decide +kernel

/-! ## Place and routes -/

/-- A module whose fabric is locked, with port 0 UP. -/
def locked : State := pair.put F.ZF_CTRL_LOCK 1

def place : PositionParams := ⟨1, 0x010102, 1, false, 0x010102⟩

theorem witness_PlaceAndRoutes_position : locked.bindingOk hdr .notBound = true ∧ locked.idle = true ∧ locked.positionOk place = true ∧
    locked.positionOk { place with phys := 2 } = false ∧ locked.inject = [] ∧ armed.idle = false ∧ locked.get F.PW_STATUS_STATE < 10 := by decide +kernel

/-- The CRC-64 of its remap table and of one with two equal entries. -/
def remapCrc (s : State) (a : Nat) : BitVec 64 := BitVec.ofNat 64 (crc64 (s.hbm.read a 8))

def twice : State := { pair with hbm := pair.hbm.write 0x2000 (leBytes 4 (2 ^ 24) ++ leBytes 4 (2 ^ 24)) }

theorem witness_PlaceAndRoutes_routes : twice.Sound ∧ twice.bindingOk hdr .notBound = true ∧ twice.idle = true ∧ 0 < twice.remapEntries ∧ 0x2000 + 4 * twice.remapEntries ≤ hbmEnd ∧
    crc64 (twice.hbm.read 0 (4 * twice.remapEntries)) = (remapCrc twice 0).toNat ∧ twice.remapOk (twice.hbm.read 0 (4 * twice.remapEntries)) = true ∧
    crc64 (twice.hbm.read 0x2000 (4 * twice.remapEntries)) = (remapCrc twice 0x2000).toNat ∧ twice.remapOk (twice.hbm.read 0x2000 (4 * twice.remapEntries)) = false ∧
    crc64 (twice.hbm.read 0 (4 * twice.remapEntries)) ≠ (0#64).toNat ∧
    (dirPorts 0x543210).all (fun q => decide (q < 8)) = true ∧ (dirPorts 0x543210).Nodup ∧ ¬ (dirPorts 0x543211).Nodup ∧
    (dirPorts 0x543218).all (fun q => decide (q < 8)) = false ∧ (hbmEnd - 96) % 8 = 0 := ⟨sound_of_check (by decide +kernel), by decide +kernel⟩

/-! ## The shadow -/

/-- A module with a table, whose peer is module 1 on port 0, and a shadow descriptor of it at 0x8000: three slots of 4,096 bytes at 0x40000, a
table of one tensor at 0x10000, a ledger at 0x20000. -/
def shadowBytes (period state : Nat) : List Byte :=
  leBytes 2 1 ++ leBytes 2 3 ++ leBytes 4 1 ++ leBytes 8 0x10000 ++ leBytes 8 0x20000 ++ List.replicate 32 0 ++ leBytes 8 0x40000 ++ leBytes 8 4096 ++
    leBytes 8 0 ++ leBytes 8 period ++ List.replicate 16 0 ++ leBytes 4 state ++ List.replicate 148 0

def mate : State := { pair.setPort 0 { pair.port 0 with shared := 100 } with
  uu := { pair.uu with rules := [(0, List.replicate 64 0)], tensors := 1 }, num := { pair.num with attach := some ⟨4096, 1, true⟩ },
  hbm := (pair.hbm.write 0x8000 (shadowBytes 0 2)).write 0x10000 (let b := leBytes 4 0 ++ leBytes 4 1 ++ leBytes 4 1 ++ List.replicate 108 0; b ++ leBytes 8 (crc64 b)) }

theorem witness_BuddyRelation_asks : mate.Sound ∧ mate.bindingOk hdr .notBound = true ∧ mate.idle = true ∧ (1#24).toNat ≠ mate.logical ∧ (0#24).toNat = mate.logical ∧
    mate.route 1 none = .out 0 false ∧ mate.Clear 0 ∧ mate.tableAttached = true ∧ cut.route 1 none = .unroutable ∧
    leAt (mate.hbm.read 0x8000 256) 4 4 = 1 ∧ leAt (mate.hbm.read 0x8000 256) 8 6 + 128 ≤ hbmEnd ∧
    mate.descOk (mate.hbm.read 0x8000 256) (mate.hbm.read 0x10000 128) false = true :=
  ⟨sound_of_check (by decide +kernel), by decide +kernel, by decide +kernel, by decide +kernel, by decide +kernel, by decide +kernel,
    clear_of_check (by decide +kernel), by decide +kernel⟩

/-- A SET_BUDDY HOME that waits for module 1 to name itself. -/
def waitHome : IdentWait := ⟨⟨3, 7, 0x55, 0x60, false, 0⟩, true, false, false, false, 1, 0x50000, none, false⟩

def asking : State := { mate with sh := { mate.sh with idents := [waitHome] } }

def sameBoard : DiscoverPayload := { peerPayload with feedTag := 0 }

/-- The relation HOME named, with module 1 as the buddy. -/
def bound1 : State := puts mate [(F.SH_BUDDY_VALID, 1), (F.SH_STATUS_HOME_STATE, 1), (F.SH_BUDDY_BUDDY, 1)]

def bind2 : ShadowHdr := ⟨10, false, 2, 0, 0, 2⟩

def fromOne : Route := ⟨0xFFFFFF, 1, 4⟩

theorem witness_BuddyRelation_answers : asking.portRuns 0 = true ∧ asking.inject = [] ∧ fromOne.dest.toNat = farEnd ∧ asking.sh.idents = [waitHome] ∧
    waitHome.peer = fromOne.src.toNat ∧ waitHome.promote = none ∧ asking.sh.runs = [] ∧ waitHome.override = false ∧ waitHome.home = true ∧
    ({ waitHome with override := true } : IdentWait).override = true ∧ bound1.portRuns 0 = true ∧ bound1.get F.SH_BUDDY_VALID = 1 ∧
    bound1.get F.SH_BUDDY_BUDDY = fromOne.src.toNat ∧ bind2.kind = 10 ∧ bind2.item = 2 := by decide +kernel

theorem witness_BuddyRelation_board : asking.sharesBoard sameBoard = true := by simp [State.sharesBoard, sameBoard, peerPayload]

/-- A home whose holder takes nothing, one that may seed, one whose re-shard is open, and a module that only holds. -/
def home : State := puts mate [(F.SH_BUDDY_VALID, 1), (F.SH_STATUS_HOME_STATE, 2), (F.SH_BUDDY_BUDDY, 1)]

def homeFrozen : State := { home with coll := { home.coll with frozen := true } }

def holder : State := puts mate [(F.SH_HOME_VALID, 1), (F.SH_STATUS_HOLD_STATE, 4), (F.SH_HOME_HOME, 1), (F.SH_DESC_BASE, 0x8000)]

theorem witness_ShadowSync_home : holder.notHome = true ∧ holder.bindingOk (boundTo 5) (.kinds [kindExchange, kindPrecondition]) = true ∧ home.notHome = false ∧
    home.coll.frozen = false ∧ home.bindingOk (boundTo 3) home.forwardBinding = true ∧ home.sh.forwarded ≠ some home.currentPeriod ∧ home.holderTakes = false ∧
    home.bindingOk (boundTo 5) (.kinds [kindPrecondition]) = true ∧ home.sh.rooted ≠ some home.currentPeriod ∧ home.get F.CJ_ROOT_COUNT_COUNT = 0 ∧
    home.bindingOk (boundTo 7) (.kinds [kindShadow]) = true ∧ home.bindingOk hdr .notBound = true ∧ home.idle = true ∧ home.homeActive = true ∧
    home.tableAttached = true ∧ home.ledPhase = 0 ∧ home.inject = [] ∧ home.route home.buddy none = .out 0 false ∧
    homeFrozen.notHome = false ∧ homeFrozen.coll.frozen = true ∧ homeFrozen.bindingOk (boundTo 7) (.kinds [kindShadow]) = true := by decide +kernel

theorem witness_ShadowSync_seed : home.Clear 0 := clear_of_check (by decide +kernel)

/-- A holder whose slot of the next Period is there. -/
def slotted : State := { holder.put F.SH_SHADOW_PERIOD_PERIOD 0 with hbm := holder.hbm.write 0x41000 (leBytes 6 1), sh := { holder.sh with landed := some 1 } }.put F.PC_COMMITTED_COMMITTED 0

/-- It with another Period's image in the slot of Period 0. -/
def unslotted : State := { slotted with hbm := slotted.hbm.write 0x40000 (leBytes 6 3) }

def replayP : ReplayParams := ⟨0x60000, 0, 0, 1⟩

theorem witness_ShadowSync_replay : slotted.Sound ∧ slotted.bindingOk (boundTo 7) (.kinds [kindShadow]) = true ∧ slotted.bindingOk hdr .notBound = true ∧
    slotted.holds = true ∧ slotted.replayParamsOk replayP = true ∧ slotted.coll.frozen = false ∧ slotted.descState = 2 ∧
    nextPeriod slotted.shadowPeriod = slotted.currentPeriod ∧ slotted.word (slotted.slotOf slotted.currentPeriod) 6 = slotted.currentPeriod ∧ slotted.sh.landed = some slotted.currentPeriod ∧
    slotted.qOf slotted.currentPeriod = none ∧ ({ slotted with coll := { slotted.coll with totals := some ⟨1, 0, 0, false, false, false⟩ } } : State).qOf 1 = some 0 ∧
    nextPeriod (slotted.put F.SH_SHADOW_PERIOD_PERIOD 5).shadowPeriod ≠ slotted.currentPeriod ∧
    home.holds = false ∧ slotted.idle = true ∧ slotted.descLedger + 0x48 ≤ hbmEnd ∧ (slotted.shadowView 0).ledSealed = true ∧ (slotted.shadowView 0).ledPhase = 0 :=
  ⟨sound_of_check (by decide +kernel), by decide +kernel⟩

/-- A holder whose Q is known and whose first quarter is held in reset: its replay ends in the preparation. -/
def quarterDown : State := { slotted with
  coll := { slotted.coll with totals := some ⟨1, 0, 0, false, false, false⟩ }, uu := { slotted.uu with rules := [] }
  pwr := { slotted.pwr with held := [⟨.quarter 0, .reset, false⟩] } }

/-- A descriptor's state fields put with the CRC-64 of its bytes known. -/
theorem putDesc_crc (s : State) (p sd cu st : Nat) (bs : List Byte) (k : Nat)
    (h : (s.own (s.desc + 0x50) (leBytes 8 p ++ leBytes 8 sd ++ leBytes 8 cu ++ leBytes 4 st)).hbm.read s.desc 0xF8 = bs) (hk : crc64 bs = k) :
    s.putDesc p sd cu st =
      let u := ((s.own (s.desc + 0x50) (leBytes 8 p ++ leBytes 8 sd ++ leBytes 8 cu ++ leBytes 4 st)).ownWord (s.desc + 0xF8) 8 k).put F.SH_SHADOW_PERIOD_PERIOD p
      if u.get F.SH_STATUS_HOLD_STATE ≤ 1 then u else u.put F.SH_STATUS_HOLD_STATE (st + 2) := by
  unfold State.putDesc
  simp only [h, hk]

/-- The start of a replay with the CRC-64 of the descriptor's bytes known. -/
theorem beginReplay_crc (s : State) (n q : Nat) (hd bs : List Byte) (p sd cu st k : Nat)
    (hp : (s.ownWord (s.slotOf n + 8) 8 q).shadowPeriod = p ∧ leAt hd 0x28 8 = sd ∧ (s.ownWord (s.slotOf n + 8) 8 q).descCursor = cu ∧
      (s.ownWord (s.slotOf n + 8) 8 q).descState = st)
    (h : ((s.ownWord (s.slotOf n + 8) 8 q).own ((s.ownWord (s.slotOf n + 8) 8 q).desc + 0x50) (leBytes 8 p ++ leBytes 8 sd ++ leBytes 8 cu ++ leBytes 4 st)).hbm.read
      (s.ownWord (s.slotOf n + 8) 8 q).desc 0xF8 = bs) (hk : crc64 bs = k) :
    s.beginReplay n q hd =
      let s := s.ownWord (s.slotOf n + 8) 8 q
      let u := ((s.own (s.desc + 0x50) (leBytes 8 p ++ leBytes 8 sd ++ leBytes 8 cu ++ leBytes 4 st)).ownWord (s.desc + 0xF8) 8 k).put F.SH_SHADOW_PERIOD_PERIOD p
      if u.get F.SH_STATUS_HOLD_STATE ≤ 1 then u else u.put F.SH_STATUS_HOLD_STATE (st + 2) := by
  obtain ⟨rfl, rfl, rfl, rfl⟩ := hp
  exact putDesc_crc _ _ _ _ _ bs k h hk

theorem replayNow_eq (s : State) (w : ReplayWait) (n q : Nat) :
    s.replayNow w n q = (s.beginReplay n q (s.hbm.read (s.slotOf n) 64)).replaySteps w n q (s.hbm.read (s.slotOf n) 64) := rfl

theorem witness_ShadowSync_replayNow : quarterDown.Sound ∧ quarterDown.bindingOk (boundTo 7) (.kinds [kindShadow]) = true ∧ quarterDown.holds = true ∧
    quarterDown.replayParamsOk replayP = true ∧ quarterDown.coll.frozen = false ∧ quarterDown.descState = 2 ∧ nextPeriod quarterDown.shadowPeriod = 1 ∧
    quarterDown.currentPeriod = 1 ∧ quarterDown.word (quarterDown.slotOf 1) 6 = 1 ∧ quarterDown.sh.landed = some 1 ∧ quarterDown.qOf 1 = some 0 :=
  ⟨sound_of_check (by decide +kernel), by decide +kernel⟩

theorem witness_ShadowSync_replayMissing : (quarterDown.replayNow ⟨quarterDown.refOf (boundTo 7) 0x61, boundTo 7, replayP⟩ 1 0).1.oxl.missing = quarterDown.oxl.missing := by
  rw [replayNow_eq, beginReplay_crc quarterDown 1 0 _ ((shadowBytes 0 2).take 0xF8) 0 0 0 2 3055739626820909821 (by decide +kernel) (by decide +kernel) (by decide +kernel)]
  decide +kernel

theorem witness_ShadowSync_recover : unslotted.Sound ∧ unslotted.bindingOk hdr .notBound = true ∧ unslotted.holds = true ∧ unslotted.replayParamsOk replayP = true ∧
    unslotted.idle = true ∧ unslotted.coll.frozen = false ∧ unslotted.descState ≠ 3 ∧ unslotted.descLedger + 0x48 ≤ hbmEnd ∧
    unslotted.word (unslotted.slotOf (unslotted.shadowView 0).ledTarget) 6 ≠ (unslotted.shadowView 0).ledTarget ∧
    (unslotted.shadowView 0).ledSealed = true ∧ (unslotted.shadowView 0).ledPhase = 0 ∧
    (({ slotted with hbm := slotted.hbm.write 0x20000 [1] } : State).shadowView 0).ledSealed = false ∧
    (({ slotted with hbm := slotted.hbm.write 0x20000 [1] } : State).shadowView 0).ledPhase ≠ 1 :=
  ⟨sound_of_check (by decide +kernel), by decide +kernel, by decide +kernel, by decide +kernel, by decide +kernel, by decide +kernel, by decide +kernel, by decide +kernel, by decide +kernel, by decide +kernel, by decide +kernel, by decide +kernel, by decide +kernel⟩

/-- With a rule of zeros only RULES_DIGEST is still the CRC-64 of zeros. -/
theorem witness_ShadowSync_rules : (unslotted.shadowView 0).ledRules = unslotted.rulesDigest := by
  refine (show (unslotted.shadowView 0).ledRules = 0 by decide +kernel).trans (Eq.symm ?_)
  unfold State.rulesDigest
  refine crc64_zeros fun b hb => ?_
  obtain ⟨i, -, hb⟩ := List.mem_flatMap.1 hb
  simp only [State.ruleBytes, show unslotted.uu.rules = [(0, List.replicate 64 0)] from rfl, alGet] at hb
  split at hb <;> exact List.eq_of_mem_replicate hb

/-- A home with a gloss table of one record, and it when it is armed. -/
def glossed : State := { home.put F.SH_GLOSS_BASE 0x70000 with hbm := home.hbm.write 0x70004 (leBytes 4 1) }

def homeArmed : State := glossed.put F.PC_STATUS_STATE 1

theorem witness_DigestCompare_arbitrate : home.bindingOk hdr .notBound = true ∧ home.holds = false ∧ slotted.Sound ∧ slotted.bindingOk hdr .notBound = true ∧
    slotted.holds = true ∧ slotted.idle = true ∧ slotted.coll.frozen = false ∧ 2 ≤ slotted.get F.SH_STATUS_HOLD_STATE ∧ slotted.descState ≠ 3 ∧
    slotted.route slotted.homeOf none = .out 0 false ∧
    (let u := (slotted.recompute 0 false 0x9000 (slotted.refOf hdr 0x62)).1; u.oxl.missing = slotted.oxl.missing ∧ u.route u.homeOf none ≠ .unroutable) := ⟨by decide +kernel, by decide +kernel, sound_of_check (by decide +kernel), by decide +kernel⟩

theorem witness_DigestCompare_range : homeArmed.notHome = false ∧ homeArmed.idle = false ∧ homeArmed.bindingOk hdr .notBound = true ∧ glossed.Sound ∧
    glossed.bindingOk hdr .notBound = true ∧ glossed.notHome = false ∧ glossed.idle = true ∧ glossed.coll.frozen = false ∧ glossed.homeActive = true ∧
    glossed.recordsOk 0 0 = false ∧ glossed.recordsOk 0 1 = true ∧
    (let u := glossed.computeGloss (glossed.get F.SH_GLOSS_BASE) (glossed.get F.PC_COMMITTED_COMMITTED) (recordList 0 1) (glossed.refOf hdr 0x62)
     u.1.oxl.missing = glossed.oxl.missing ∧ u.1.route u.1.buddy none ≠ .unroutable) ∧
    (let u := glossed.recordMsgs (recordList 0 1) (glossed.refOf hdr 0x62)
     u.1.oxl.missing = glossed.oxl.missing ∧ u.1.route u.1.buddy none ≠ .unroutable) :=
  ⟨by decide +kernel, by decide +kernel, by decide +kernel, sound_of_check (by decide +kernel), by decide +kernel⟩

/-- A module that may restore, and a SPARE whose physical coordinate is (1, 0, 0). -/
def restorer : State := mate.put F.CJ_ROOT_COUNT_COUNT 1

def spare : State := puts restorer [(F.ZF_LOGICAL_SPARE, 1), (F.ZF_LOGICAL_VALID, 0), (F.ZF_PHYS_VALID, 1), (F.ZF_PHYS_PHYS, 0), (F.PW_STATUS_STATE, 8), (F.ZF_CTRL_LOCK, 1)]

/-- The position of logical (0, 0, 0) of the same job. -/
def promoted : PositionParams := ⟨BitVec.ofNat 24 spare.here, BitVec.ofNat 24 (spare.get F.ZF_PDIM_DIM), 0, false, 0x010102⟩

theorem witness_RestoresAsk : restorer.mayRestore = true ∧ restorer.bindingOk hdr .notBound = true ∧ restorer.inject = [] ∧ restorer.route 1 none = .out 0 false ∧
    mate.bindingOk hdr .notBound = true ∧ mate.mayRestore = false ∧ mate.get F.ZF_LOGICAL_SPARE = 0 ∧
    spare.bindingOk hdr .notBound = true ∧ spare.get F.ZF_LOGICAL_SPARE = 1 ∧ spare.mayRestore = true ∧ spare.positionOk promoted = true ∧
    (spare.setPosition promoted).route 1 none ≠ .unroutable ∧ (0x50000 % 4096 = 0 ∧ 0x50000 < hbmEnd) := by decide +kernel

theorem witness_RestoresAsk_clear : restorer.Clear 0 := clear_of_check (by decide +kernel)

/-- The sections that CHECKPOINT_OUT of a module with an empty tensor writes. -/
def sections (s : State) : List Section := match (s.sections (s.refOf hdr 0x66)).2 with | .ok xs => xs | .fail _ => []

theorem witness_CheckpointsTravel_out : mate.Calm ∧ mate.Sound ∧ mate.bindingOk hdr .notBound = true ∧ mate.idle = true ∧ mate.tableAttached = true ∧ mate.ledPhase = 0 ∧
    mate.keySlot 1 = none ∧ mate.keySlot 64 = none ∧ (∀ a n : Nat, mate.Unwatched a n) :=
  ⟨calm_of_check (by decide +kernel), sound_of_check (by decide +kernel), by decide +kernel, by decide +kernel, by decide +kernel, by decide +kernel, by decide +kernel,
    by decide +kernel, unwatched_of_check (by decide +kernel)⟩

theorem witness_CheckpointsTravel_sections : mate.sections (mate.refOf hdr 0x66) = (mate, .ok (sections mate)) ∧ imageSize false (sections mate) ≤ 20000 ∧
    0x100000 + imageSize false (sections mate) ≤ hbmEnd := by
  have h : (mate.sections (mate.refOf hdr 0x66)).1 = mate ∧ (match (mate.sections (mate.refOf hdr 0x66)).2 with | .ok _ => true | .fail _ => false) = true := by decide +kernel
  refine ⟨?_, ?_⟩
  · unfold sections
    revert h
    rcases mate.sections (mate.refOf hdr 0x66) with ⟨t, d⟩
    rintro ⟨h1, h2⟩
    cases d <;> simp_all
  · decide +kernel

theorem witness_CheckpointsTravel_in : mate.mayRestore = false ∧ restorer.Calm ∧ restorer.Sound ∧ restorer.bindingOk hdr .notBound = true ∧ restorer.mayRestore = true ∧
    restorer.keySlot 1 = none ∧ leAt (restorer.hbm.read 0x100000 128) 0 2 ≠ 1 ∧ 0x100000 + 128 < hbmEnd :=
  ⟨by decide +kernel, calm_of_check (by decide +kernel), sound_of_check (by decide +kernel), by decide +kernel⟩

/-- The image of a module that has committed Period 77, with the one section of its one tensor: header, directory and section. -/
def imageHead : List Byte := leBytes 2 1 ++ leBytes 2 259 ++ leBytes 4 1 ++ leBytes 8 296 ++ leBytes 8 77 ++ leBytes 8 0 ++ leBytes 8 88 ++
  leBytes 8 0x10102000000 ++ leBytes 8 0 ++ List.replicate 64 0

def imageDir : List Byte := leBytes 2 2 ++ leBytes 2 0 ++ leBytes 4 0 ++ leBytes 8 160 ++ leBytes 8 128 ++ leBytes 8 288

def imageData : List Byte := leBytes 4 (2 ^ 24) ++ leBytes 4 (2 ^ 24 + 1) ++ List.replicate 120 0

/-- A module that may restore, with that image. -/
def imaged : State := { restorer with hbm := restorer.hbm.write 0x100000 (imageHead ++ leBytes 8 16702680713238034800 ++ imageDir ++ imageData ++ leBytes 8 3291549787039228760) }

theorem imaged_sound : imaged.Sound := sound_of_check (by decide +kernel)

theorem imaged_head : imaged.hbm.read 0x100000 128 = imageHead ++ leBytes 8 16702680713238034800 := by decide +kernel

theorem imaged_dir : imaged.hbm.read (0x100000 + 128) 32 = imageDir := by decide +kernel

theorem imaged_data : imaged.hbm.read (0x100000 + 160) 128 = imageData ∧ imaged.hbm.read (0x100000 + 288) 8 = leBytes 8 3291549787039228760 := by decide +kernel

theorem witness_CheckpointsTravel_sectionsRead :
    imaged.readSections 0x100000 none (pieces 32 imageDir) (imaged.refOf hdr 0x67) = (imaged, .ok [⟨2, 0, imageData, none⟩]) := by
  have hd : pieces 32 imageDir = [imageDir] := by decide +kernel
  have h1 : leAt imageDir 0x10 8 = 128 ∧ leAt imageDir 8 8 = 160 ∧ leAt imageDir 0x18 8 = 288 ∧ leAt imageDir 0 1 = 2 ∧ leAt imageDir 2 2 = 0 ∧
    storedSize (none : Option (List Byte)).isSome 128 = 128 ∧ 8 * cdiv 128 mebi = 8 := by decide +kernel
  have h2 : openSection none 0 imageDir imageData ((pieces 8 (leBytes 8 3291549787039228760)).map ofLE) = (imageData, none) := by decide +kernel
  unfold State.readSections
  simp only [hd, List.zipIdx_cons, List.zipIdx_nil, actAll, h1.1, h1.2.1, h1.2.2.1, h1.2.2.2.1, h1.2.2.2.2.1, h1.2.2.2.2.2.1, h1.2.2.2.2.2.2]
  rw [State.readAct_sound imaged_sound (by decide) (by decide)]
  simp only [Act.bind]
  rw [State.readAct_sound imaged_sound (by decide) (by decide)]
  simp only [imaged_data.1, imaged_data.2, h2]

theorem witness_CheckpointsTravel_restores : imaged.Calm ∧ imaged.Sound ∧ imaged.bindingOk hdr .notBound = true ∧ imaged.mayRestore = true ∧ 0x100000 + 296 < hbmEnd ∧
    (let head := imaged.hbm.read 0x100000 128
     leAt head 0 2 = 1 ∧ leAt head 2 2 = numRev ∧ bit (leAt head 0x30 8) 1 = false ∧ 128 + 32 * leAt head 4 4 ≤ 296 ∧
      imaged.hbm.read (0x100000 + 128) (32 * leAt head 4 4) = imageDir ∧ crc64 (head.take 0x78 ++ imageDir) = leAt head 0x78 8) ∧
    (∀ d ∈ pieces 32 imageDir, leAt d 8 8 + leAt d 0x10 8 ≤ 296 ∧ leAt d 0x18 8 + 8 * cdiv (leAt d 0x10 8) mebi ≤ 296) ∧
    imaged.sectionFits ⟨2, 0, imageData, none⟩ = true ∧ imaged.uu.tensors = 1 ∧ 0 ≤ imaged.get F.CJ_ROOT_COUNT_COUNT := by
  refine ⟨calm_of_check (by decide +kernel), imaged_sound, by decide +kernel, by decide +kernel, by decide +kernel, ?_, by decide +kernel, by decide +kernel, by decide +kernel, by decide +kernel⟩
  rw [imaged_head]
  have h : 32 * leAt (imageHead ++ leBytes 8 16702680713238034800) 4 4 = 32 := by decide +kernel
  simp only [h, imaged_dir]
  decide +kernel

/-! ## The Period -/

/-- Another plan of the same Clauses, and one with a Period of zero. -/
def plan2 : Plan := { plan with generation := 2 }

def planBad : Plan := { plan with periodUs := 0, generation := 3 }

def running : State := puts pair [(F.PC_STATUS_STATE, 2), (F.PC_PERIOD_PERIOD, 1), (F.PC_CTRL_ENABLE, 1)]

def halted : State := pair.put F.PC_STATUS_STATE 4

def armOne : ArmParams := ⟨0, 0, 5, 6, false, false⟩

theorem witness_PeriodCommands : pair.inject = [] ∧ pair.tickref = false ∧ pair.bindingOk hdr .notBound = true ∧ pair.pd.plan ≠ some plan2 ∧ pair.pd.plan ≠ some planBad ∧
    planOk planBad (pair.get F.PC_GUARD_GUARD_US) = false ∧ planOk plan2 (pair.get F.PC_GUARD_GUARD_US) = true ∧ (∀ q, pair.pd.plan = some q → q.generation ≠ plan2.generation) ∧
    pair.pd.plan = some plan ∧ ({ plan with periodUs := 10001 } : Plan).generation = plan.generation ∧ pair.pd.plan ≠ some { plan with periodUs := 10001 } ∧
    running.bindingOk hdr .notBound = true ∧ running.inject = [] ∧ running.tickref = false ∧ running.pcState = 2 ∧ running.pd.plan ≠ some plan2 ∧
    planOk plan2 (running.get F.PC_GUARD_GUARD_US) = true ∧ pair.pcState ≠ 2 ∧ pair.pcState ≠ 3 ∧
    armOne.firstPeriod.toNat = nextPeriod (pair.get F.PC_COMMITTED_COMMITTED) ∧ (1#48).toNat ≠ nextPeriod (pair.get F.PC_COMMITTED_COMMITTED) ∧
    pair.pd.plan.isSome = true ∧ pair.idle = true ∧ armOne.replay = false ∧ halted.pcState = 4 ∧ pair.pcState = 0 ∧ pair.pd.waiters = [] ∧
    running.get F.PC_STATUS_DONE = 0 := by
  have h (q : Plan) (hq : pair.pd.plan = some q) : q.generation ≠ plan2.generation := by
    rw [show pair.pd.plan = some plan from rfl] at hq; cases hq; decide
  refine ⟨?_, ?_, ?_, ?_, ?_, ?_, ?_, h, ?_⟩ <;> decide +kernel

/-- A record of Period 1 without entries, and a recorder whose ring at 0x80000 holds it. -/
def record : List Byte :=
  let b := leBytes 2 1 ++ leBytes 2 0 ++ leBytes 4 128 ++ leBytes 6 1 ++ List.replicate 106 0
  b ++ leBytes 8 (crc64 b)

def recording : State := puts { up with hbm := up.hbm.write 0x80000 record, pd := { up.pd with scanned := true }, rr := ⟨[⟨1, 0, 128⟩], false⟩ }
  [(F.RR_BASE_BASE, 0x80000), (F.RR_CTRL_ENABLE, 1), (F.PC_STATUS_STATE, 4), (F.PC_COMMITTED_COMMITTED, 0)]

def before : State := { recording with pd := { recording.pd with scanned := false }, rr := ⟨[], false⟩ }

theorem witness_ReplayControl : recording.Calm ∧ recording.Sound ∧ recording.pd.scanned = true ∧ recording.bindingOk hdr .notBound = true ∧
    recording.rr.records.length < (2#32).toNat ∧ recording.recordsOf 2 1 = none ∧ recording.recordsOf 1 1 = some record ∧
    (1#32).toNat ≤ recording.rr.records.length ∧ record.length = 128 ∧ up.pcState ≠ 4 ∧ recording.pcState = 4 ∧
    (1#48).toNat = nextPeriod (recording.get F.PC_COMMITTED_COMMITTED) ∧ (recording.findRecord 1).isSome = true ∧
    before.regOpen Reg.RR_CTRL = true ∧ before.pd.scanned = false := ⟨calm_of_check (by decide +kernel), sound_of_check (by decide +kernel), by decide +kernel⟩

theorem witness_ReplayControl_unwatched : recording.Unwatched 0x90000 128 := unwatched_of_check (by decide +kernel) _ _

/-- The tick master, one that follows TICKREF, and a module below it. -/
def chief : State := puts ((pair.setPort 0 { pair.port 0 with shared := 100 }).setPort 1 { pair.port 1 with shared := 100 }) [(F.PC_CTRL_ENABLE, 1), (F.PC_CTRL_MASTER, 1)]

def disciplined : State := { chief.put F.PC_CTRL_TSRC 1 with pd := { chief.pd with tref := ⟨some 1000, none, 0⟩ } }

def locked2 : State := ({ disciplined with pd := { disciplined.pd with tref := ⟨none, some 10000000, 0⟩ } } : State).put F.PC_TREF_LOCKED 1

def follower : State := { puts pair [(F.PC_CTRL_ENABLE, 1), (F.PC_STATUS_SYNCED, 1)] with pd := { pair.pd with masterId := some 5 } }

def hello : TimePayload := ⟨5, 1000000, 0, 0, 1⟩

theorem witness_TimeAndTicks_time : chief.pcOn = true ∧ chief.inject = [] ∧ chief.isMaster = true ∧ follower.pcOn = true ∧ follower.inject = [] ∧ follower.isMaster = false ∧
    follower.portUp 0 = true ∧ follower.pd.masterId.isSome = true ∧ follower.pd.masterId ≠ some ({ hello with masterId := 6 } : TimePayload).masterId.toNat ∧
    follower.pd.masterId = some hello.masterId.toNat ∧ follower.get F.PC_STATUS_HOLDOVER = 0 ∧ disciplined.pcOn = true ∧ disciplined.inject = [] ∧
    disciplined.tickref = true ∧ disciplined.get F.PC_TREF_LOCKED = 0 ∧ disciplined.pd.tref.edge = some 1000 ∧
    1 ≤ ((1001000#64).toNat - 1000 + 500000) / 1000000 ∧ ((1001000#64).toNat - 1000 + 500000) / 1000000 ≤ 1000 ∧
    ((999501000#64).toNat - 1000 + 500000) / 1000000 ≤ 1000 ∧ (chief.put F.PC_CTRL_TSRC 1).tickref = true ∧ (chief.put F.PC_CTRL_TSRC 1).pd.tref.edge = none ∧
    locked2.tickref = true ∧ locked2.pd.tref.mark = some 10000000 := by decide +kernel

theorem witness_TimeAndTicks_clear : ∀ q ∈ chief.upPorts, chief.Clear q := by
  intro q h
  rw [show chief.upPorts = [0, 1] by decide +kernel] at h
  simp only [List.mem_cons, List.not_mem_nil, or_false] at h
  obtain rfl | rfl := h <;> exact clear_of_check (by decide +kernel)

/-- The master armed, with a child on port 1; a follower armed, with its parent on port 0. -/
def chiefArmed : State := ({ chief with pd := { chief.pd with arm := some ⟨1, 200000, 5, 6, false, false, none⟩ } } : State).put F.PC_STATUS_STATE 1 |>.put F.ZF_TREE_CHILDREN 2

def followerArmed : State := ({ follower with pd := { follower.pd with arm := some ⟨1, 200000, 5, 6, false, false, none⟩ } } : State).put F.PC_STATUS_STATE 1 |>.put F.ZF_TREE_PARENT 0

def firstTick : TickSched := ⟨1, 200000, 1, false, false, false⟩

def followerSet : State := { followerArmed with pd := { followerArmed.pd with sched := some firstTick } }

def followerLost : State := { followerArmed with pd := { followerArmed.pd with sched := some { firstTick with generation := 9 } } }

theorem witness_TimeAndTicks_ticks : chiefArmed.pcOn = true ∧ chiefArmed.inject = [] ∧ chiefArmed.isMaster = true ∧ chiefArmed.nextTick = some firstTick ∧
    chiefArmed.portUp 0 = true ∧ followerArmed.pcOn = true ∧ followerArmed.inject = [] ∧ followerArmed.isMaster = false ∧ followerArmed.portUp 1 = true ∧
    followerArmed.parent ≠ some (1 : Fin 8).val ∧ followerArmed.parent = some (0 : Fin 8).val ∧ followerArmed.portUp 0 = true ∧
    followerArmed.takesTick (tickPayload firstTick) = true ∧ followerArmed.children = [] ∧ followerArmed.now ≤ (tickPayload firstTick).start.toNat ∧
    followerSet.pcOn = true ∧ followerSet.pd.sched = some firstTick ∧ followerSet.pcState = 1 ∧ followerSet.planOf firstTick.generation ≠ none ∧ followerSet.get F.PC_STATUS_SYNCED = 1 ∧ followerLost.get F.PC_STATUS_SYNCED = 1 ∧
    followerSet.get F.SO_CTRL_ENABLE = 0 ∧ followerLost.pcOn = true ∧ followerLost.pcState = 1 ∧ followerLost.planOf 9 = none := by decide +kernel

theorem witness_TimeAndTicks_child : chiefArmed.children.filter chiefArmed.portUp = [1] ∧ chiefArmed.Clear 1 := ⟨by decide +kernel, clear_of_check (by decide +kernel)⟩

/-- A running Period in which ring 3 serves every Clause and only Clause `c` runs. -/
def inClause (c : Nat) (v : ClauseRun) : State :=
  { running.put (F.CP_RING_CTRL_CLAUSES 3) 0xFFFF with pd := { running.pd with
    run := some ⟨5, 6, false, false, false⟩, clauses := (List.range 16).map (fun j => if j = c then v else ⟨false, false, false, none, false⟩) } }

def waits : ClauseRun := ⟨true, false, false, none, false⟩

def open_ : ClauseRun := ⟨true, true, false, none, false⟩

def ended : ClauseRun := ⟨true, true, false, some 77, false⟩

def clauseCheck (c : Nat) (s : State) : Bool :=
  s.inPeriod && s.pd.haltDue.isNone && s.pd.failDue.isNone && s.pwr.resetDue.isEmpty && s.inject.isEmpty && s.cj.due.isEmpty && s.cj.jobs.isEmpty && !s.replaying &&
    (s.clause c).runs && (List.range 16).all (fun j => !s.clauseReady j) && (planEntry s.pd.plan c).isSome && (List.range 16).all (fun j => decide (j = c) || !(s.clause j).runs)

theorem before_of {s : State} {c : Nat} {e : ClauseEntry} (hc : (List.range 16).all (fun j => decide (j = c) || !(s.clause j).runs) = true) (hp : planEntry s.pd.plan c = some e)
    (n : Nat) (hs : (s.clause c).started = true ∨ n ≤ e.startUs.toNat) (hd : n ≤ e.deadlineUs.toNat) :
    ∀ v < n, ∀ j < 16, s.startFalls v j = false ∧ s.deadlineFalls v j = false := by
  intro v hv j hj
  by_cases hn : j = c
  · subst hn
    unfold State.startFalls State.deadlineFalls
    rw [hp]
    rcases hs with h | h
    · simp [h]; intros; omega
    · simp; constructor <;> intros <;> omega
  · have := List.all_eq_true.1 hc j (List.mem_range.2 hj)
    simp [hn] at this
    simp [State.startFalls, State.deadlineFalls, this]

theorem witness_ClauseBoundaries : clauseCheck 1 (inClause 1 waits) = true ∧ clauseCheck 3 (inClause 3 open_) = true ∧ clauseCheck 0 (inClause 0 open_) = true ∧
    clauseCheck 0 (inClause 0 ended) = true ∧ (List.range 16).all (fun j => !(inClause 1 waits).deadlineFalls 100 j) = true ∧
    (inClause 3 open_).kindOf 3 = 4 ∧ (inClause 0 open_).kindOf 0 = 1 ∧ (inClause 0 open_).barrier = false ∧
    ((inClause 0 open_).put F.PC_CTRL_MODE 1).barrier = true ∧ clauseCheck 0 ((inClause 0 open_).put F.PC_CTRL_MODE 1) = true ∧
    (inClause 0 open_).get F.PC_CTRL_BDL = 0 ∧ ((inClause 0 open_).clause 0).complete = none ∧ ((inClause 0 ended).clause 0).complete.isSome = true := by decide +kernel

theorem witness_ClauseBoundaries_before : (∀ v < 100, ∀ j < 16, (inClause 1 waits).startFalls v j = false ∧ (inClause 1 waits).deadlineFalls v j = false) ∧
    (∀ v < 300, ∀ j < 16, (inClause 3 open_).startFalls v j = false ∧ (inClause 3 open_).deadlineFalls v j = false) :=
  ⟨before_of (c := 1) (e := ⟨100, 200, 2, 0, 1, 0⟩) (by decide +kernel) (by decide +kernel) 100 (.inr (by decide)) (by decide),
    before_of (c := 3) (e := ⟨0, 300, 4, 0, 1, 0⟩) (by decide +kernel) (by decide +kernel) 300 (.inl (by decide +kernel)) (by decide)⟩

/-- A state whose ports 0 and 1 may send at once. -/
def sending (s : State) : State := (s.setPort 0 { s.port 0 with shared := 100 }).setPort 1 { s.port 1 with shared := 100 }

/-- A running Period below a parent on port 0: without children, and with one on port 1. -/
def alone : State := { sending (running.put F.RR_CTRL_ENABLE 0) with pd := { running.pd with upPort := some 0, run := some ⟨5, 6, false, false, false⟩ } }

def above : State := { alone with pd := { alone.pd with downPorts := [1] } }

def ready : ReducePayload := plainReport 1 1 0

def aboveReady : State := { above with pd := { above.pd with reduceIn := [⟨8, ready⟩] } }

def go : GrantPayload := ⟨1, 1, 0, 0, 0, false, false, false⟩

theorem witness_ReportsCommitHalt_reports : alone.inject = [] ∧ alone.pcState = 2 ∧ alone.hubReady = true ∧ alone.isMaster = false ∧ alone.isSpare = false ∧
    alone.pd.upPort = some (0 : Fin 8).val ∧ alone.portUp 0 = true ∧ alone.pd.downPorts = [] ∧ alone.pd.reduceIn = [] ∧ alone.pd.reduceSent = [] ∧
    alone.readyToCommit = true ∧ alone.pd.readySent = false ∧ alone.allClausesEnded = true ∧ alone.get F.PC_STATUS_DONE = 0 ∧ alone.holds = false ∧
    alone.get F.RR_CTRL_ENABLE = 0 ∧ alone.pd.haltAtEnd = false ∧ alone.pd.run.any (·.replay) = false ∧
    (alone.runningClauses [kindExchange]).all (fun c => (alone.clause c).complete.isSome) = true := by decide +kernel

theorem witness_ReportsCommitHalt_children : above.inject = [] ∧ above.pcState = 2 ∧ above.hubReady = true ∧ above.isMaster = false ∧ above.isSpare = false ∧
    above.pd.upPort = some (0 : Fin 8).val ∧ above.portUp 0 = true ∧ above.portUp 1 = true ∧ above.pd.downPorts = [(1 : Fin 8).val] ∧ ready.kind.toNat ≠ 4 ∧
    above.pd.reduceSent = [] ∧ above.pd.reduceIn = [] ∧ aboveReady.pd.reduceIn = [⟨8, ready⟩] ∧ go.kind = 1 ∧ go.period.toNat = alone.get F.PC_PERIOD_PERIOD ∧
    alone.get F.PC_STATUS_GRANT = 0 ∧ (1 : Fin 8) ≠ 0 := by decide +kernel

theorem witness_ReportsCommitHalt_clear : alone.Clear 0 ∧ (aboveReady.taken 1 1 0).Clear 0 ∧ alone.replaying = false := ⟨clear_of_check (by decide +kernel), clear_of_check (by decide +kernel), by decide +kernel⟩

/-- A granted Period, and the halt of an armed module. -/
def granted : State := alone.put F.PC_STATUS_GRANT 1

def stop : HaltPayload := ⟨1, 7, 0x0B06⟩

def armedPair : State := sending (pair.put F.PC_STATUS_STATE 1)

theorem witness_ReportsCommitHalt_commit : alone.mayCommit = false ∧ granted.mayCommit = true ∧ granted.inject = [] ∧
    (let s : State := { pair with pd := { pair.pd with tokenSent := some 1 } }; s.portUp 0 = true ∧ s.pd.tokenSent = some stop.period.toNat) ∧
    armedPair.portUp 0 = true ∧ armedPair.pd.tokenSent ≠ some stop.period.toNat ∧ armedPair.pcState = 1 ∧ armedPair.isSpare = false := by decide +kernel

theorem witness_ReportsCommitHalt_upPorts : ∀ r ∈ armedPair.upPorts, (armedPair.taken 0 1 0).Clear r := by
  intro r h
  rw [show armedPair.upPorts = [0, 1] by decide +kernel] at h
  simp only [List.mem_cons, List.not_mem_nil, or_false] at h
  obtain rfl | rfl := h <;> exact clear_of_check (by decide +kernel)

/-! ## Security -/

/-- A module with its keys; one at FULL with key slot 5 in use; a revoked one; one that runs SVN 3 from slot 0 with another image of SVN 3. -/
def keyed : State := { up with sec := { up.sec with keys := true } }

def keyedFull : State := puts { keyed with sec := { keyed.sec with slots := [⟨5, List.replicate 32 0, 3⟩] } } [(F.SC_STATUS_DEBUG_LEVEL, 2), (F.SC_KEYS_OCCUPIED, 16)]

def keyedOne : State := keyedFull.put F.SC_STATUS_DEBUG_LEVEL 0

def revokedOne : State := keyed.put F.SC_STATUS_REVOKED 1

def svnThree : State := { keyed with sec := { keyed.sec with svn := 3, flash := [⟨true, 3⟩, ⟨true, 3⟩] } }

theorem chain_short (s : State) : (leBytes 4 (Config.certificateChain s.firmware).length ++ Config.certificateChain s.firmware).length ≤ 65539 := by
  simp only [List.length_append, leBytes, List.length_cons, List.length_nil, Config.certificateChain, List.length_take]
  omega

theorem witness_AttestAndKeys_chain : keyed.Calm ∧ keyed.Sound ∧ keyed.bindingOk hdr .notBound = true ∧ keyed.keyless = false ∧ keyed.get F.SC_STATUS_DEBUG_LEVEL ≠ 2 ∧
    (leBytes 4 (Config.certificateChain keyed.firmware).length ++ Config.certificateChain keyed.firmware).length ≤ (65539#32).toNat ∧
    0 + (leBytes 4 (Config.certificateChain keyed.firmware).length ++ Config.certificateChain keyed.firmware).length ≤ hbmEnd ∧
    up.keyless = true ∧ up.Calm ∧ up.Sound ∧ up.bindingOk hdr .notBound = true :=
  ⟨calm_of_check (by decide +kernel), sound_of_check (by decide +kernel), by decide +kernel, by decide +kernel, by decide +kernel, chain_short keyed,
    by rw [Nat.zero_add]; exact Nat.le_trans (chain_short keyed) (by decide), by decide +kernel, up_calm, up_sound, by decide +kernel⟩

theorem witness_AttestAndKeys_short : (0#32).toNat < (leBytes 4 (Config.certificateChain keyed.firmware).length ++ Config.certificateChain keyed.firmware).length ∧
    keyedFull.Calm ∧ keyedFull.Sound ∧ keyedFull.get F.SC_STATUS_DEBUG_LEVEL = 2 ∧ (hbmEnd - 256) % 64 = 0 :=
  ⟨by simp only [List.length_append, leBytes, List.length_cons]; exact Nat.lt_of_lt_of_le (by decide : (0 : Nat) < 4) (Nat.le_add_right _ _),
    calm_of_check (by decide +kernel), sound_of_check (by decide +kernel), by decide +kernel, by decide +kernel⟩

theorem witness_AttestAndKeys_slots : keyedOne.Calm ∧ keyedOne.Sound ∧ keyedOne.bindingOk hdr .notBound = true ∧ keyedOne.keyless = false ∧
    keyedOne.get F.SC_STATUS_DEBUG_LEVEL ≠ 2 ∧ keyedOne.sec.slots.any (fun x => x.handle = (5#16).toNat) = true ∧
    keyedOne.sec.slots.any (fun x => x.handle = (64#16).toNat) = false ∧ keyedOne.revoked = false ∧ revokedOne.Calm ∧ revokedOne.Sound ∧ revokedOne.revoked = true ∧
    revokedOne.keyless = true ∧ revokedOne.bindingOk hdr .notBound = true :=
  ⟨calm_of_check (by decide +kernel), sound_of_check (by decide +kernel), by decide +kernel, by decide +kernel, by decide +kernel, by decide +kernel, by decide +kernel,
    by decide +kernel, calm_of_check (by decide +kernel), sound_of_check (by decide +kernel), by decide +kernel⟩

theorem witness_AttestAndKeys_kex : keyed.keyless = false ∧ 0 < hbmEnd ∧ 0 + (Config.kexCertificate keyed.firmware).length ≤ hbmEnd := by
  refine ⟨by decide +kernel, by decide, ?_⟩
  simp only [Config.kexCertificate, List.length_take, hbmEnd]
  omega

theorem witness_AttestAndKeys_svn : svnThree.Calm ∧ svnThree.Sound ∧ svnThree.bindingOk hdr .notBound = true ∧ svnThree.revoked = false ∧ svnThree.pwr.bootDone = true ∧
    (svnThree.sec.flash.getD (1 - svnThree.get F.SC_STATUS_SLOT) ⟨false, 0⟩).ok = true ∧
    svnThree.sec.svn ≤ (svnThree.sec.flash.getD (1 - svnThree.get F.SC_STATUS_SLOT) ⟨false, 0⟩).svn ∧ svnThree.get F.SC_STATUS_SVN < svnThree.sec.svn ∧
    svnThree.sec.svn ≤ 64 ∧ keyed.pwr.bootDone = true ∧ (keyed.sec.flash.getD (1 - keyed.get F.SC_STATUS_SLOT) ⟨false, 0⟩).ok = false ∧
    keyed.sec.svn ≤ keyed.get F.SC_STATUS_SVN := ⟨calm_of_check (by decide +kernel), sound_of_check (by decide +kernel), by decide +kernel⟩

/-- The base point of P-384, as the ephemeral point of a wrapped key (R490). -/
def baseX : Nat := 0xaa87ca22be8b05378eb1c71ef320ad746e1d3b628ba79b9859f741e082542a385502f25dbf55296c3a545e3872760ab7

def baseY : Nat := 0x3617de4a96262c6f5d9e98bf9292dc29f8f41dbd289a147ce9da3113b5f0b8c00a60b1ce1d7e819d7a431d7c90ea0e5f

def wrapHead : List Byte := [4] ++ beBytes 48 baseX ++ beBytes 48 baseY ++ List.replicate 7 0 ++ List.replicate 12 0 ++ List.replicate 32 0

/-- The tag that agrees with it, whatever secret the module's own key gives. -/
def wrapTag (s : State) : List Byte :=
  let key := hkdf384 (bytes48 (Config.kexSecret s.firmware (BitVec.ofNat 384 baseX) (BitVec.ofNat 384 baseY))) s.unitBytes []
  let keys := aesKeys (key.map BitVec.toNat)
  beBytes 16 (ghash (ofBE ((aesBlock keys (List.replicate 16 0)).map (BitVec.ofNat 8))) (wrapHead.take 0x68) ((wrapHead.drop 0x74).take 32) ^^^
    ofBE ((aesBlock keys ((((wrapHead.drop 0x68).take 12) ++ beBytes 4 1).map BitVec.toNat)).map (BitVec.ofNat 8)))

/-- A module with that wrapped key at 0x1000. -/
def wrapped : State := { keyed with hbm := keyed.hbm.write 0x1000 (wrapHead ++ wrapTag keyed ++ List.replicate 12 0) }

theorem part_left (h t : List Byte) (a n : Nat) (k : a + n ≤ h.length) : ((h ++ t).drop a).take n = (h.drop a).take n := by
  rw [List.drop_append_of_le_length (by omega), List.take_append_of_le_length (by simp only [List.length_drop]; omega)]

theorem wrapHead_length : wrapHead.length = 0x94 := by decide +kernel

theorem leBytes_length (n v : Nat) : (leBytes n v).length = n := by
  induction n generalizing v with
  | zero => rfl
  | succ n ih => simp [leBytes, ih]

theorem wrapTag_length (s : State) : (wrapTag s).length = 16 := by simp only [wrapTag, beBytes, List.length_reverse, leBytes_length]

theorem unit_of_hbm (s : State) (m : Mem) : ({ s with hbm := m } : State).unitBytes = s.unitBytes ∧ ({ s with hbm := m } : State).firmware = s.firmware := ⟨rfl, rfl⟩

theorem wrapped_blob : wrapped.hbm.read 0x1000 176 = wrapHead ++ wrapTag keyed ++ List.replicate 12 0 := by
  have h := Mem.read_write keyed.hbm 0x1000 (wrapHead ++ wrapTag keyed ++ List.replicate 12 0)
  have e : (wrapHead ++ wrapTag keyed ++ List.replicate 12 (0 : Byte)).length = 176 := by
    rw [List.length_append, List.length_append, wrapHead_length, wrapTag_length, List.length_replicate]
  rw [e] at h
  exact h

theorem witness_AttestAndKeys_importState : wrapped.Calm ∧ wrapped.Sound ∧ wrapped.bindingOk hdr .notBound = true ∧ wrapped.keyless = false ∧
    wrapped.get F.SC_STATUS_DEBUG_LEVEL ≠ 2 ∧ wrapped.sec.slots = [] ∧ 0x1000 + 176 ≤ hbmEnd ∧ keyed.unwrap (keyed.hbm.read 0x1000 176) = none :=
  ⟨calm_of_check (by decide +kernel), sound_of_check (by decide +kernel), by decide +kernel, by decide +kernel, by decide +kernel, by decide +kernel, by decide,
    by simp only [State.unwrap]; rw [if_pos (by decide +kernel)]⟩

theorem witness_AttestAndKeys_import : ∃ key usage, wrapped.unwrap (wrapped.hbm.read 0x1000 176) = some (key, usage) := by
  have hl := wrapHead_length
  have ht := wrapTag_length keyed
  have p (a n : Nat) (k : a + n ≤ 0x94) : ((wrapHead ++ wrapTag keyed ++ List.replicate 12 0).drop a).take n = (wrapHead.drop a).take n := by
    rw [List.append_assoc]; exact part_left wrapHead _ a n (hl ▸ k)
  have hx : ofBE ((wrapHead.drop 1).take 48) = baseX ∧ ofBE ((wrapHead.drop 49).take 48) = baseY ∧ ofLE ((wrapHead.drop 0).take 1) = 4 ∧
    onCurve baseX baseY = true := by decide +kernel
  rw [wrapped_blob]
  have hg : ((wrapHead ++ wrapTag keyed ++ List.replicate 12 0).drop 0x94).take 16 = wrapTag keyed := by
    rw [List.append_assoc, ← hl, List.drop_left, List.take_append_of_le_length (Nat.le_of_eq ht.symm), List.take_of_length_le (Nat.le_of_eq ht)]
  have h0 : (wrapHead ++ wrapTag keyed ++ List.replicate 12 0).take 0x68 = wrapHead.take 0x68 := by
    have := p 0 0x68 (by decide); rwa [List.drop_zero, List.drop_zero] at this
  unfold State.unwrap leAt
  simp only [p 1 48 (by decide), p 49 48 (by decide), p 0 1 (by decide), p 0x68 12 (by decide), p 0x74 32 (by decide), hg, h0, hx.1, hx.2.1, hx.2.2.1, hx.2.2.2]
  rw [if_neg (by decide)]
  unfold gcmDecrypt
  dsimp only
  rw [show wrapped.unitBytes = keyed.unitBytes from (unit_of_hbm keyed _).1, show wrapped.firmware = keyed.firmware from (unit_of_hbm keyed _).2]
  split
  · exact ⟨_, _, rfl⟩
  · rename_i h
    exact absurd (by unfold wrapTag; with_reducible rfl) h

theorem witness_AttestAndKeys_unwatched (a n : Nat) : keyed.Unwatched a n := unwatched_of_check (by decide +kernel) a n

/-- Fuses whose debug key is the one that signed `token`. -/
def fuses (h : BitVec 384) : FuseImage := ⟨true, false, 0, 0, 0, 0, h, h⟩

/-- A token for UNIT_ID 0 and nonce `n` at a level, with its signature. -/
def token (n level sig : Nat) : List Byte := leBytes 8 0 ++ leBytes 32 n ++ leBytes 8 level ++ beBytes 48 sig ++ beBytes 48 sig

def sig0 : Nat := 0xdce8cbd965c2d0335eb99ad747db0249f5172d3c8bdb56a9d976a51fe4ee23884841078c975dc8d8b118169a5cabf862

def sig1 : Nat := 0x140f6f895af2060a7b9ce5230ef51827ee20108e042613b3387487752454eed0a5433b3dbcf94c4300aa99ab0ab24c82

def sig2 : Nat := 0xef0374506b397ec337bf36d6c1f0749602c5fbfef56f7cedb2ffc46c02c03a6bdfc682f8d8ff85c98ebb2c6039c1e8f7

def unlocking (n level sig : Nat) (h : BitVec 384) : State :=
  { keyed with hbm := keyed.hbm.write 0x1000 (token n level sig), sec := { keyed.sec with nonce := some (BitVec.ofNat 256 n), fuses := some (fuses h) } }

def hash0 : BitVec 384 := 0x03f988df50893ea458de2ebef9c554087e294f9e2b883a7c4606e563b196a2d7ddbc7ee028cd3e798f6d59a3295e0c39

def hash1 : BitVec 384 := 0xa9d6447f1ce88b371e99b8039bc8f9b0bcb8b2a7c670a9e85d3a859dd93e790643251e260b0dfe79b38d0b01a7bd2062

def hash2 : BitVec 384 := 0x9c498991f89beac33b4c09856b0547081eb52f2e23190abe8a27803123f92beb54a84a8230ebc3c9117ee11ccfb57032

def unlock0 : State := unlocking 2 0 sig0 hash0

def unlock1 : State := unlocking 1 1 sig1 hash1

def unlock2 : State := unlocking 1 2 sig2 hash2

theorem witness_DebugAccess_level0 : unlock0.tokenOk (unlock0.hbm.read 0x1000 0x90) = true := by decide +kernel

theorem witness_DebugAccess_level1 : unlock1.tokenOk (unlock1.hbm.read 0x1000 0x90) = true := by decide +kernel

theorem witness_DebugAccess_level2 : unlock2.tokenOk (unlock2.hbm.read 0x1000 0x90) = true := by decide +kernel

theorem witness_DebugAccess_unlock : unlock0.Calm ∧ unlock0.Sound ∧ unlock1.Calm ∧ unlock1.Sound ∧ unlock2.Calm ∧ unlock2.Sound ∧
    unlock1.bindingOk hdr .notBound = true ∧ leAt (unlock0.hbm.read 0x1000 0x90) 0x28 1 % 4 = 0 ∧ leAt (unlock1.hbm.read 0x1000 0x90) 0x28 1 % 4 = 1 ∧
    leAt (unlock2.hbm.read 0x1000 0x90) 0x28 1 % 4 = 2 ∧ keyed.tokenOk (keyed.hbm.read 0x1000 0x90) = false :=
  ⟨calm_of_check (by decide +kernel), sound_of_check (by decide +kernel), calm_of_check (by decide +kernel), sound_of_check (by decide +kernel),
    calm_of_check (by decide +kernel), sound_of_check (by decide +kernel), by decide +kernel⟩

theorem witness_DebugAccess_port : up.get F.SC_STATUS_DEBUG_LEVEL = 0 ∧ 1 ≤ keyedFull.get F.SC_STATUS_DEBUG_LEVEL ∧ keyedFull.get F.SC_STATUS_DEBUG_LEVEL = 2 ∧
    keyedFull.Sound ∧ Domain.cluster 263 ≠ .frame ∧ keyedFull.pwr.lidFailed = false ∧ (regAt Reg.PC_STATUS).isSome = true :=
  ⟨by decide +kernel, by decide +kernel, by decide +kernel, sound_of_check (by decide +kernel), by decide +kernel⟩

/-- A flash slot that verifies under the firmware key, and one whose FORMAT is wrong. -/
def slotKey : BitVec 384 := 0x762ba182fe465036513142c141fbd5dcbc6be02f4beaac258e67e85b89c3a0d1571d5e964cf0fa689b23346698d1881c

def slotSig : BitVec 384 := 0xb269bcb73b92328197bd29098860a0e5f4ccba893898a010e4c1be3fe9e054c1d9dd539db2d12ca5e1b70149c29f73d5

def goodSlot : FlashSlot := ⟨1, 3, 1, 0x40cd056bb48d25cacb34e2b1b1e81c53ef4d210b57597bfa323ca2d430d133af9aa70b5db0b40937561bf5e7e1942053, slotSig, slotSig,
  0x9cd4fe7426feaf2506650a64f487ea5b401e81e2fbb88441fb91146c942b388cb8af51e8b2f7e7e67d94b6cc613428f7,
  0xb2dd9c9789d2c546a1713f1cd6aa1992644ee01450e391b9bb01873945c9f45c05f05250565f4358b8a292246ac0c77b, [0x5A]⟩

def badSlot : FlashSlot := { goodSlot with format := 0 }

def booting : State := puts { up with pwr := { up.pwr with bootDone := false }, sec := { up.sec with fuses := some (fuses slotKey) } } [(F.PW_STATUS_STATE, 3), (F.PW_STATUS_TRIM_VALID, 1)]

theorem witness_BootLidAndSpdm_slot : slotAccepted goodSlot slotKey 0 = true := by decide +kernel

theorem witness_BootLidAndSpdm_boot : booting.sec.fuses = some (fuses slotKey) ∧ booting.get F.PW_STATUS_TRIM_VALID = 1 ∧ booting.pwr.bootDone = false ∧
    booting.hubReady = true ∧ booting.get F.SC_STATUS_SVN = 0 ∧ slotAccepted badSlot slotKey 0 = false ∧ booting.get F.PW_STATUS_STATE = 3 ∧ goodSlot.svn.toNat ≤ goodSlot.svn.toNat := by decide +kernel

theorem witness_BootLidAndSpdm_lid : keyedFull.get F.PW_STATUS_STATE ≠ 0 ∧ keyedFull.noneDue :=
  ⟨by decide +kernel, (calm_of_check (by decide +kernel)).due⟩

/-- A module whose endpoint answers, and it with both connections negotiated. -/
def answering : State := keyed

def talking : State := { answering with sec := { answering.sec with mctp := 3, mailbox := 3 } }

theorem witness_BootLidAndSpdm_spdm : answering.endpointUp = true ∧ answering.sec.mctp = 0 ∧ spdmNeeds .getVersion = some (0, 1) ∧ spdmNeeds .getDigests = some (3, 3) ∧
    talking.endpointUp = true ∧ talking.sec.mctp = 3 ∧ talking.keyless = false ∧ spdmNeedsKeys (.challenge 0 0) = true ∧
    ({ talking with sec := { talking.sec with keys := false } } : State).keyless = true ∧ ({ talking with sec := { talking.sec with keys := false } } : State).endpointUp = true ∧
    answering.mailboxOpen = true ∧ answering.regOpen Reg.SC_SPDM_CTRL = true ∧ answering.sec.mailbox = 0 ∧ talking.mailboxOpen = true ∧ talking.sec.mailbox = 3 := by decide +kernel

/-! ## Diagnosis and resets -/

/-- A module whose Conjugator is in reset, and one in which errors may be injected. -/
def cjHeld : State := { up with pwr := { up.pwr with held := [⟨.conjugator, .reset, false⟩] } }

def injecting : State := up.put F.ER_CTRL_INJECT_EN 1

theorem witness_TestsAndBlockResets_test : up.bindingOk hdr .notBound = true ∧ armed.bindingOk hdr .notBound = true ∧ armed.idle = false ∧ up.idle = true ∧
    cjHeld.bindingOk hdr .notBound = true ∧ cjHeld.idle = true ∧ cjHeld.testIsolated (4#6).toNat = true ∧ up.testIsolated (63#6).toNat = false ∧
    0x1000 % 64 = 0 ∧ 0x1000 + 64 ≤ hbmEnd := by decide +kernel

theorem witness_TestsAndBlockResets_inject : up.bindingOk hdr .any = true ∧ injectable (8#8).toNat (0#4).toNat (1#16).toNat (0#48).toNat = false ∧
    injectable (7#8).toNat (3#4).toNat (8#16).toNat (0#48).toNat = true ∧ up.get F.ER_CTRL_INJECT_EN ≠ 1 ∧ injecting.get F.ER_CTRL_INJECT_EN = 1 := by decide +kernel

theorem witness_TestsAndBlockResets_reset : blockDomainOf .quarter (4#16).toNat = none ∧ blockDomainOf .quarter (3#16).toNat = some (.quarter 3) ∧ blockReach .quarter ≠ .b ∧
    blockReach .quarter = .d ∧ (10000#32).toNat ≤ 10000 ∧ 10000 < (10001#32).toNat ∧ blockDomainOf .module (0#16).toNat = some .frame ∧ up.pwr.lidFailed = false := by decide +kernel

/-! ## Orrex Link -/

/-- A module with both Orrex Link ports UP, with port 0 UP only, and with port 0 in training. -/
def joined : State := puts { up with oxl := { up.oxl with links := List.replicate 2 ⟨256, 256, 256, true, true, false, []⟩ } } [(F.OXL_STATUS_LINK0, 3), (F.OXL_STATUS_LINK1, 3), (F.PW_STATUS_STATE, 6)]

def oneUp : State := joined.put F.OXL_STATUS_LINK1 0

def linking : State := { joined.put F.OXL_STATUS_LINK0 1 with oxl := up.oxl }

def inited : State := { joined.put F.OXL_STATUS_LINK0 2 with oxl := up.oxl }

/-- A line that the module asks for, to merge a completion record into it; a WRITEBACK of it; and a bulk write with an interrupt. -/
def owning : OxlReq := ⟨9, 0, .readOwn, 0x1000, 64, [], none, some (32, [1, 2]), List.replicate 64 0, (0x800000001000, 64), some 5, none⟩

def backing : OxlReq := ⟨9, 0, .writeback, 0x1000, 64, List.replicate 64 7, none, none, List.replicate 64 0, (0x800000001000, 64), some 5, none⟩

/-- A read for a command that is in flight. -/
def fetching : OxlReq := ⟨9, 0, .readCur, 0x1000, 64, [], some (.command 3 7), none, [], (0x800000001000, 64), none, none⟩

/-- The header of a flit that returns nothing, and of one that returns 12 slots of class 1. -/
def plainFlit : BitVec 96 := BitVec.ofNat 96 (OxlFlitHdr.word ⟨0, 0, 3, 0⟩)

def creditFlit : BitVec 96 := BitVec.ofNat 96 (OxlFlitHdr.word ⟨0, 0, 1, 12⟩)

def waiting (r : OxlReq) : State := { joined with oxl := { joined.oxl with pending := [r] } }

def lined (st : LineState) : State := { joined with oxl := { joined.oxl with lines := [⟨0x1000, st, List.replicate 64 3⟩] } }

theorem witness_OrrexPorts_init : linking.get (linkField 0) ≤ 1 ∧ linking.endpointUp = true ∧ inited.get (linkField 0) = 2 ∧ (255#16).toNat < 256 ∧ 256 ≤ (256#16).toNat ∧
    joined.oxlUp (0 : Fin 2) = true := by decide +kernel

theorem witness_OrrexPorts_loss : (waiting owning).noneDue ∧ (waiting owning).oxlUp (0 : Fin 2) = true ∧ (waiting owning).oxlUp (1 - (0 : Fin 2).val) = true ∧
    owning.link = (0 : Fin 2).val ∧ owning ∈ (waiting owning).oxl.pending ∧ oneUp.noneDue ∧ oneUp.oxlUp (0 : Fin 2) = true ∧ oneUp.oxlUp (1 - (0 : Fin 2).val) = false ∧
    (waiting owning).oxlRequestOf (9#12).toNat = some owning ∧ (waiting owning).oxlRequestOf (8#12).toNat = none := by
  unfold State.noneDue; decide +kernel

theorem witness_CompanionAccesses_hbm : joined.oxlUp (0 : Fin 2) = true ∧ joined.hbmBusy = false ∧ hbmShaped (0x40 : BitVec 48).toNat (64#11).toNat = true ∧
    hbmShaped (0x41 : BitVec 48).toNat (64#11).toNat = false ∧ rangeSpace 0x40 64 = some .hbm ∧ joined.Sound ∧
    (let s := joined.put F.PW_STATUS_STATE 4; s.oxlUp (0 : Fin 2) = true ∧ s.hbmBusy = true) ∧ 2 ≤ (2#2).toNat ∧
    joined.regOpen (Reg.CP_RING_TAIL 63) = true ∧
    (let s : State := { joined with pwr := { joined.pwr with held := [⟨.commandProcessor, .reset, false⟩] } }; s.oxlUp (0 : Fin 2) = true ∧ s.regOpen (Reg.CP_RING_TAIL 63) = false) :=
  ⟨by decide +kernel, by decide +kernel, by decide +kernel, by decide +kernel, by decide +kernel, sound_of_check (by decide +kernel), by decide +kernel⟩

theorem witness_CompanionAccesses_flits : NormalFlit plainFlit ∧ NormalFlit creditFlit ∧ bits creditFlit.toNat 16 2 < 3 ∧ (joined.oxlLink 0).queue = [] ∧
    bits (BitVec.ofNat 96 (3 * 2 ^ 14)).toNat 14 2 = 3 ∧
    (OutMsg.oxlData 0 3 0 (List.replicate 64 0)).oxlCost ≤ (joined.oxlLink 0).credit (OutMsg.oxlData 0 3 0 (List.replicate 64 0)).oxlClass := by decide +kernel

theorem witness_CompanionAccesses_alias : rangeSpace 0x6000000000 64 = some .present ∧ rangeSpace (0x8000000000 - 64) 64 = some .future ∧
    rangeSpace 0x8000000000 4 = none ∧ rangeSpace 0x800000000000 4 = some .companion ∧ joined.bankState (joined.bankOf .present) ≠ 2 ∧
    hbmShaped 0x6000000000 64 = true ∧ hbmShaped (0x8000000000 - 64) 64 = true := by decide +kernel

theorem witness_CompanionAccesses_snoop : (lined .m).oxlUp (0 : Fin 2) = true ∧ (lined .m).lineAt ((0x1001 : BitVec 48).toNat / 64 * 64) = some ⟨0x1000, .m, List.replicate 64 3⟩ ∧
    (lined .m).lineAt ((0x1040 : BitVec 48).toNat / 64 * 64) = none ∧ (lined .wb).oxlUp (0 : Fin 2) = true ∧
    (lined .wb).lineAt ((0x1000 : BitVec 48).toNat / 64 * 64) = some ⟨0x1000, .wb, List.replicate 64 3⟩ := by decide +kernel

theorem witness_CompanionAccesses_data : (waiting owning).oxlUp (0 : Fin 2) = true ∧ (waiting owning).oxlRequestOf (9#12).toNat = some owning ∧ owning.kind = .readOwn ∧
    (waiting owning).oxlRequestOf (8#12).toNat = none ∧ 7 ≤ (7#4).toNat ∧ (0 < (6#4).toNat ∧ (6#4).toNat < 7) ∧ (List.replicate 64 (0 : BitVec 8)).length = 64 ∧
    (∀ off w, owning.merge = some (off, w) → off + w.length ≤ 64) ∧ owning.kind.reads = true ∧
    (waiting fetching).oxlUp (0 : Fin 2) = true ∧ (waiting fetching).oxlRequestOf (9#12).toNat = some fetching ∧ fetching.kind = .readCur ∧
    (List.replicate 64 (0 : BitVec 8)).length = fetching.len ∧ fetching.owner = some (.command 3 7) := by
  refine ⟨by decide +kernel, by decide +kernel, by decide +kernel, by decide +kernel, by decide +kernel, by decide +kernel, by decide +kernel, ?_, by decide +kernel⟩
  rintro off w h; cases h; decide

theorem witness_CompanionAccesses_acks : (waiting backing).oxlUp (0 : Fin 2) = true ∧ (waiting backing).oxlRequestOf (9#12).toNat = some backing ∧
    backing.kind = .writeback ∧ backing.record = none ∧ backing.irq = some 5 ∧
    (let v := (waiting backing).heard 0 plainFlit 1 0
     v.oxlPort 0 = some 0 ∧ (v.oxlLink 0).queue = [] ∧ 1 ≤ (v.oxlLink 0).req) := by decide +kernel

/-- A message as the module puts it into slots reads back as the row it is, its last slot filled with zeros (R443 to R446). -/
theorem test_orrex_slots_read_back :
    oxlMessage ⟨0, plainFlit⟩ ((OutMsg.oxlData 0 3 0 [1, 2, 3]).oxlStream.map (·.2)) =
      (some (.oxlData ⟨0, plainFlit⟩ 3 0 ([1, 2, 3] ++ List.replicate 13 0)), 2) := by decide +kernel

/-! ## Power, reset and start -/

/-- A module that is OFF, with its input above 10 V; and one in FUSE_LOAD. -/
def offOne : State := { State.reset with pwr := { State.reset.pwr with above10 := true } }.put F.PW_STATUS_STATE 0

def loading : State := up.put F.PW_STATUS_STATE 2

theorem witness_PowerAndClock_power : up.pwr.above10 = true ∧ ({ offOne with pwr := { offOne.pwr with above10 := false } } : State).get F.PW_STATUS_STATE = 0 ∧
    offOne.get F.PW_STATUS_STATE = 0 ∧ offOne.pwr.above10 = true ∧ offOne.pwr.thermLatch = false ∧ (offOne.put F.PW_STATUS_STATE 1).get F.PW_STATUS_STATE = 1 ∧
    up.get F.PW_STATUS_STATE ≠ 0 := by decide +kernel

theorem witness_PowerAndClock_clock : up.powered = true ∧ up.get F.PW_CLOCK_ARITH_MHZ ≤ 3600 ∧ (up.put F.PW_STATUS_WARN 1).powered = true ∧
    (up.put F.PW_STATUS_WARN 1).get F.PW_STATUS_WARN = 1 ∧ (0xFFFF#16).toNat > 20000 ∧ (20000#16).toNat ≤ 20000 := by decide +kernel

/-- Measurements of nearly 2 ms: 1 W in each of the older millisecond, `n` deciwatts in each of the 999 since. -/
def rising (n : Nat) : State := { up with pwr := { up.pwr with samples := List.replicate 999 ⟨36000, 0, n⟩ ++ List.replicate 1000 ⟨36000, 0, 10⟩ } }

/-- R466: at a RAMP_MS of 20 a rise of 100 W from one millisecond to the next is within the ramp, and one of 0.1 W more is not (R24's cap holds). -/
theorem test_ramp_steps_clock_down : up.get F.PW_CFG_RAMP_MS = 20 ∧
    ((rising 1010).sampled ⟨36000, 0, 1010⟩).overRamp = false ∧ ((rising 1011).sampled ⟨36000, 0, 1011⟩).overRamp = true ∧
    ((rising 1011).sampled ⟨36000, 0, 1011⟩).overCap = false := by decide +kernel

/-- A module with quarter 1 held by its reset, one whose quarter 1 is being released, and one whose command processor has locked up within the second. -/
def quarterHeld : State := { up with pwr := { up.pwr with held := [⟨.quarter 1, .reset, false⟩], waits := [⟨⟨3, 7, 0x55, 0x93, false, 0⟩, .quarter 1⟩] } }

def quarterFree : State := { quarterHeld with pwr := { quarterHeld.pwr with held := [⟨.quarter 1, .releasing, false⟩] } }

def lockedUp : State := { up with pwr := { up.pwr with escalations := [⟨1, 0, 1⟩] } }

theorem witness_ResetSourcesAndRelease_sources : up.powered = true ∧ up.pwr.mrstDriven = false ∧ ({ up with pwr := { up.pwr with mrstDriven := true } } : State).powered = true ∧
    up.hubReady = true ∧ up.ready (.quarter 1) = true ∧ quarterHeld.powered = true ∧ ⟨.quarter 1, .reset, false⟩ ∈ quarterHeld.pwr.held ∧
    up.ready .commandProcessor = true ∧ (up.escalate 1).escalations 1 = 1 ∧ lockedUp.powered = true ∧ lockedUp.ready .commandProcessor = true ∧
    (lockedUp.escalate 1).escalations 1 ≠ 1 := by decide +kernel

theorem witness_ResetSourcesAndRelease_release : (match parentOf (.quarter 1) with | some p => quarterHeld.ready p | none => !quarterHeld.pwr.stopped) = true ∧
    ⟨.quarter 1, .reset, false⟩ ∈ quarterHeld.pwr.held ∧ (∀ h ∈ quarterFree.pwr.held, h.dom = .quarter 1 → h.phase = .releasing ∨ h.debug = true) ∧
    quarterFree.releaseDone (.quarter 1) = true ∧ (∃ h ∈ quarterFree.pwr.held, h.dom = .quarter 1 ∧ h.phase = .releasing) ∧
    ⟨⟨3, 7, 0x55, 0x93, false, 0⟩, .quarter 1⟩ ∈ quarterFree.pwr.waits := by decide +kernel

def again (s t : State) := (decide (t.hbm = s.hbm), decide (t.cp = CpState.reset), decide (t.sec.fuses = s.sec.fuses), t.get F.RS_MRST_LEVEL, t.get F.PW_STATUS_STATE, decide (t.get F.PC_COMMITTED_COMMITTED = noPeriod), (domainsUnder .frame).all (fun d => !t.ready d))

theorem witness_ResetSourcesAndRelease_not : up.releaseDone .frame = false ∧ ({ up with pwr := { up.pwr with bootDone := false } } : State).releaseDone .hub = false := by decide +kernel

/-- A module that has failed two fuse loads, one that initialises its stacks, and one whose stacks are trained. -/
def triedTwice : State := { loading with pwr := { loading.pwr with trimTries := 2 } }

def hbmInit : State := up.put F.PW_STATUS_STATE 4

def trained : State := puts hbmInit ((List.range 16).map (fun k => (F.HM_STATUS_STATE k, 2)))

theorem witness_ModuleStarts : loading.mayLoad = true ∧ (fuses 0).crcOk = true ∧ loading.get F.PW_STATUS_STATE < 10 ∧ loading.sec.fuses.isNone = true ∧ loading.pwr.trimTries < 2 ∧
    triedTwice.mayLoad = true ∧ 2 ≤ triedTwice.pwr.trimTries ∧ hbmInit.get F.PW_STATUS_STATE = 4 ∧ (∀ k < 16, hbmInit.get (F.HM_STATUS_STATE k) ≤ 1) ∧
    trained.get F.PW_STATUS_STATE = 4 ∧ (∀ k < 16, 2 ≤ trained.get (F.HM_STATUS_STATE k)) ∧ (∃ k < 16, hbmInit.get (F.HM_STATUS_STATE k) < 2) := by decide +kernel

/-! ## Management -/

/-- A module with one PLDM event queued, and one that is OFF. -/
def alerting : State := { up.put F.ER_STATUS_ALERT 1 with mgmt := { up.mgmt with queue := [.sensor 1 2] } }.put F.ER_STATUS_PLDM_QUEUED 1

theorem witness_ManagementAnswers : alerting.endpointUp = true ∧ (∀ t c : BitVec 8, PldmReq.pollForEvents true ≠ .unsupported t c) ∧ alerting.mgmt.queue.tail = [] ∧
    ({ alerting with mgmt := { alerting.mgmt with queue := [.sensor 1 2, .sensor 1 3] } } : State).mgmt.queue.tail ≠ [] ∧ offOne.endpointUp = false ∧
    alerting.regOpen Reg.ER_STATUS = true ∧ ({ alerting with pwr := { alerting.pwr with held := [⟨.hub, .reset, false⟩] } } : State).regOpen Reg.ER_STATUS = false :=
  ⟨by decide +kernel, (by intro t c h; cases h), by decide +kernel⟩

/-! ## Registers -/

/-- An access of `n` bytes at an offset reaches that part of the register of the row at `base`, and the register may be accessed. -/
def opens (s : State) (a n base : Nat) (p : Part) : Bool :=
  !s.busy a && (match aimOf a n with | .at_ t => decide (t.row.base = base ∧ t.part = p ∧ t.addr = (if p = .high then a - 4 else a)) && s.ready (domainOf t.row.domain t.i) | _ => false)

/-- An access names a register whose domain is in reset; it names nothing; it is malformed. -/
def shut (s : State) (a n : Nat) : Bool := match aimOf a n with | .at_ t => !s.ready (domainOf t.row.domain t.i) | _ => false

def unmapped (a n : Nat) : Bool := match aimOf a n with | .unmapped => true | _ => false

def malformed (a n : Nat) : Bool := match aimOf a n with | .malformed => true | _ => false

/-- The high word of UNIT_ID is latched. -/
def latched : State := up.latch (highKey Reg.ZF_UNIT_ID) 77

theorem witness_RegisterAccesses_refused : State.reset.busy Reg.PC_STATUS = true ∧ unmapped 0x1FFFF8 8 = true ∧ shut quarterHeld (Reg.QC_RETIRED 1) 8 = true ∧
    up.busy 2 = false ∧ malformed 2 4 = true := by decide +kernel

theorem witness_RegisterAccesses_whole : opens up Reg.PC_GUARD 4 Reg.PC_GUARD .whole = true ∧ opens up Reg.ZF_UNIT_ID 8 Reg.ZF_UNIT_ID .whole = true ∧
    opens up (Reg.TM_SLACK 15) 4 (Reg.TM_SLACK 0) .whole = true ∧ opens latched (Reg.ZF_UNIT_ID + 4) 4 Reg.ZF_UNIT_ID .high = true ∧
    alGet latched.latches (highKey Reg.ZF_UNIT_ID) = some 77 ∧ opens up (Reg.ZF_UNIT_ID / 8 * 8) 4 Reg.ZF_UNIT_ID .low = true ∧ up.regOpen (Reg.ZF_BREAK 2 0) = true ∧
    up.regOpen (Reg.TM_SLACK 15) = true ∧ alGet up.latches (breakKey (Reg.TM_SLACK 15)) = none := by decide +kernel

/-! ## Events -/

/-- An event ring of 64 records at 0x20000, empty, of which the next is the last place of its first turn; and full. -/
def eventing : State := puts { up with oxl := { up.oxl with links := [⟨256, 256, 256, true, true, false, []⟩] } } [(F.CP_EVT_CTRL_ENABLE, 1), (F.CP_EVT_CTRL_ENTRIES_LOG2, 6), (F.CP_EVT_BASE_BASE, 0x20000), (F.CP_EVT_SEQ_SEQ, 63), (F.CP_EVT_ACKED_ACKED, 63),
  (F.OXL_STATUS_LINK0, 3)]

def eventFull : State := puts eventing [(F.CP_EVT_SEQ_SEQ, 64), (F.CP_EVT_ACKED_ACKED, 0)]

/-- An event of the Period's watchdog. -/
def fatal : Ev := ⟨0x0B06, 3, 11, 2, 0x77, true, none⟩

theorem witness_EventsAreRecorded : eventing.Sound ∧ fatal.code < 2 ^ 16 ∧ fatal.cls ≤ 4 ∧ fatal.sub < 256 ∧ eventing.withholds (eventing.evNow fatal) = false ∧
    eventing.get F.CP_STATUS_EVT_OVERFLOW = 0 ∧ fatal.cls = 3 ∧ eventing.pd.haltDue = none ∧ eventing.pd.failDue = none ∧ eventing.get F.CP_EVT_CTRL_ENABLE ≠ 0 ∧
    ¬ eventing.evtSize ≤ (eventing.get F.CP_EVT_SEQ_SEQ + 2 ^ 48 - eventing.get F.CP_EVT_ACKED_ACKED) % 2 ^ 48 ∧ eventing.eventSlot + 64 ≤ hbmEnd ∧
    eventing.get F.CP_CTRL_IRQ_CLASS ≤ fatal.cls ∧ ({ eventing with cp := { eventing.cp with irqArmed := true } } : State).cp.irqArmed = true ∧ eventing.oxlPort 0 = some 0 ∧ eventing.recordBusy = false ∧
    (eventing.oxlLink 0).queue = [] ∧ (OutMsg.interrupt 0 64).oxlCost ≤ (eventing.oxlLink 0).req :=
  ⟨sound_of_check (by decide +kernel), by decide +kernel⟩

theorem witness_EventsAreRecorded_lost : eventFull.Sound ∧ eventFull.withholds (eventFull.evNow fatal) = false ∧ eventFull.get F.CP_STATUS_EVT_OVERFLOW = 0 ∧
    eventFull.evtSize ≤ (eventFull.get F.CP_EVT_SEQ_SEQ + 2 ^ 48 - eventFull.get F.CP_EVT_ACKED_ACKED) % 2 ^ 48 ∧ up.get F.CP_EVT_CTRL_ENABLE = 0 ∧
    up.withholds (up.evNow fatal) = false ∧ up.get F.CP_STATUS_EVT_OVERFLOW = 0 ∧ eventFull.get F.CP_EVT_FATAL_VALID = 0 ∧
    eventFull.recordBusy = false ∧ up.recordBusy = false := ⟨sound_of_check (by decide +kernel), by decide +kernel⟩

/-- After a loss, with places free again; and while a record is on its way to companion memory. -/
def eventLost : State := { eventing.put F.CP_STATUS_EVT_OVERFLOW 1 with cp := { eventing.cp with lost := ⟨0, 1, 2, 3, 0⟩ } }

def eventBusy : State := { eventing with oxl := { eventing.oxl with pending := [⟨0, 0, .writeBulk, 0x20000, 64, List.replicate 64 0, none, none, List.replicate 64 0, (0x800000020000, 64), none, some .overflow⟩] } }

theorem witness_EventsAreRecorded_overflow : eventLost.Sound ∧ eventLost.withholds (eventLost.evNow fatal) = false ∧ eventLost.recordBusy = false ∧
    eventLost.get F.CP_STATUS_EVT_OVERFLOW = 1 ∧ eventLost.get F.CP_EVT_CTRL_ENABLE ≠ 0 ∧
    ¬ eventLost.evtSize ≤ (eventLost.get F.CP_EVT_SEQ_SEQ + 2 ^ 48 - eventLost.get F.CP_EVT_ACKED_ACKED) % 2 ^ 48 ∧ eventLost.eventSlot + 64 ≤ hbmEnd ∧
    eventLost.get F.CP_EVT_SEQ_SEQ < 2 ^ 48 ∧ eventLost.get F.CP_EVT_ACKED_ACKED < 2 ^ 48 ∧ eventBusy.Sound ∧ eventBusy.recordBusy = true ∧
    eventBusy.withholds (eventBusy.evNow fatal) = false := by
  refine ⟨sound_of_check (by decide +kernel), by decide +kernel, by decide +kernel, by decide +kernel, by decide +kernel, by decide +kernel, by decide +kernel, by decide +kernel,
    by decide +kernel, sound_of_check (by decide +kernel), by decide +kernel, by decide +kernel⟩

/-! ## Packets -/

theorem witness_PacketsReadBack : packetParts fillIt = some (hdr, 0x15, (packetParts fillIt).elim 0 (fun p => p.2.2)) ∧ encodePacket fillIt = some fillPacket := by decide +kernel

/-- A flit's header with every field at its largest, and the same of Orrex Link. -/
def fullHeader : FlitHeader := ⟨31, 3, true, true, true, 15, 2 ^ 15 - 1, 2 ^ 15 - 1, 15, 2 ^ 24 - 1, 2 ^ 24 - 1⟩

theorem test_flit_headers : FlitHeader.ofWord fullHeader.word = fullHeader ∧ fullHeader.word < 2 ^ 96 ∧
    OxlFlitHdr.ofWord (OxlFlitHdr.word ⟨2 ^ 14 - 1, 2, 3, 2 ^ 10 - 1⟩) = some ⟨2 ^ 14 - 1, 2, 3, 2 ^ 10 - 1⟩ ∧ (List.replicate 240 (7 : Byte)).length = 240 := by decide +kernel

/-! ## Ill-formed commands -/

/-- Lists that are longer than their count field or their message can say. -/
theorem test_ill_formed_lists (a : List ConfigItem) (b : List FenceEntry) (p : RunParams) (q : Plan) (ha : 255 < a.length) (hb : 15 < b.length)
    (hp : 255 < p.relocs.length) (hq : 255 < q.clauses.length) : (Instr.setConfig hdr a).wellFormed = false ∧ (Instr.fence hdr b).wellFormed = false ∧
    (Instr.runProgram hdr p).wellFormed = false ∧ (Instr.periodPlan hdr q).wellFormed = false :=
  ⟨decide_eq_false (by omega), decide_eq_false (by omega), decide_eq_false (by omega), decide_eq_false (by omega)⟩

theorem test_ill_formed_messages (r : Route) (c : CollHdr) (m : ShadowHdr) (p : P2pHdr) (d : List Byte) (h : 65744 < d.length) :
    (Instr.collectiveMessage 0 r c d).wellFormed = false ∧ (Instr.shadowMessage 0 r m d).wellFormed = false ∧ (Instr.p2pMessage 0 r p d).wellFormed = false ∧
    (Instr.bulkMessage 0 r d).wellFormed = false ∧ (Instr.oxlWrite ⟨0, plainFlit⟩ 0 1 0 d).wellFormed = false ∧ (Instr.oxlData ⟨0, plainFlit⟩ 0 0 d).wellFormed = false ∧
    (Instr.p2pMessage 0 r p []).wellFormed = false :=
  ⟨decide_eq_false (by simp only [messageMax]; omega), decide_eq_false (by simp only [messageMax]; omega), decide_eq_false (by omega), decide_eq_false (by omega),
    decide_eq_false (by omega), decide_eq_false (by omega), rfl⟩

theorem test_ill_formed_addresses : (Instr.patrolScrub 0 [⟨1, false⟩]).wellFormed = false ∧ (Instr.snpInv ⟨0, plainFlit⟩ 0 63).wellFormed = false ∧
    (Instr.snpShared ⟨0, plainFlit⟩ 0 1).wellFormed = false ∧ (Instr.lowWordReadLatch 4).wellFormed = false := ⟨rfl, rfl, rfl, rfl⟩

theorem test_ill_formed_slot (f : FlashSlot) (h : 2 ^ 27 ≤ f.body.length) : f.wellFormed = false ∧ (Instr.secureBoot f f).wellFormed = false := by
  have h' : f.wellFormed = false := decide_eq_false (by omega)
  exact ⟨h', (congrArg (· && f.wellFormed) h').trans rfl⟩

/-! ## Worked examples of the spec -/

/-- R92's example: H = 1,000 for FP8-E4M3 with MARGIN 0 gives s = 2. -/
theorem test_scale_example : scaleExponent 0x447A0000 (.fin false 448 0) 0 = some 2 := by decide +kernel

/-- R33's example: a 1 Hz TICKREF takes a Period of 2 s and refuses one of 2.5 s. -/
def oneHertz : State := puts chief [(F.PC_CTRL_TSRC, 1), (F.PC_TREF_LOCKED, 1), (F.PC_TREF_INTERVAL_MS, 1000)]

theorem test_tickref_example : ((after (exec (.periodPlan hdr { plan2 with periodUs := 2000000 }) oneHertz)).pd.plan.map (·.generation)) = some 2 ∧
    (after (exec (.periodPlan hdr { plan2 with periodUs := 2500000 }) oneHertz)).cp.ended.map (·.done.status) = [ST_BAD_PARAM] := by decide +kernel

end Sys2Proof.Tests
end

/-!
PROOF. What a register field and a byte read as after reset and after a write of them (statements ResetState and ReadAfterWrite).
-/
namespace Sys2Proof.Machine

/-! ## The state right after reset -/

/-- No field is listed after reset, so every one reads its Reset column (R11). -/
@[simp] theorem State.get_reset (f : Field) : State.reset.get f = f.reset := rfl

theorem State.noneDue_reset : State.reset.noneDue := ⟨rfl, rfl, rfl⟩

/-- Nothing waits after reset: no list of the state holds anything, and the registers that say what waits read 0. -/
theorem State.calm_reset : State.reset.Calm where
  noted := ⟨rfl, rfl, rfl⟩
  due := State.noneDue_reset
  period := by simp [State.pcState]
  coll := ⟨rfl, rfl⟩
  commit := rfl
  shadow := ⟨rfl, rfl, rfl⟩
  flights := fun _ hf => nomatch hf
  depth := rfl
  waiting := fun _ _ => rfl

/-- Settles O3: the register file and the lists of the state after reset are empty, so fields and memories read their defaults. -/
theorem resetState : Obligations.ResetState := by
  unfold Obligations.ResetState
  have lists : State.reset.hbm.cells = [] ∧ State.reset.comp.cells = [] ∧ State.reset.pending = [] := ⟨rfl, rfl, rfl⟩
  refine ⟨⟨State.noneDue_reset, State.calm_reset, Mem.wf_reset.1, Mem.wf_reset.2, lists⟩, State.get_reset, ?_⟩
  simp

/-! ## A write, and what reads as before -/

/-- Settles O4: the laws of `State.put` and of `Mem.write`, put together. -/
theorem readAfterWrite : Obligations.ReadAfterWrite := by
  unfold Obligations.ReadAfterWrite
  refine ⟨fun s f v => ⟨State.get_put_same s f v, fun g hg => State.get_put_other hg s v, rfl⟩, fun m a bs => ⟨?_, ?_, ?_⟩⟩
  · exact Mem.read_write m a bs
  · exact fun x hx => Mem.get_write_outside bs hx m
  · exact fun hm => ⟨Mem.wf_write hm a bs, fun hi d => Mem.wf_forget hm a hi d⟩

end Sys2Proof.Machine

/-!
PROOF. Accesses of the control window (statement RegisterAccesses): which register they reach, what a read clears and latches, and what a
write gives each field.
-/
namespace Sys2Proof.Machine

/-! ## The register map -/

/-- A distance is a whole number of strides and the rest; with stride 0 it is all rest. -/
theorem stride_add_rest (d w : Nat) : w * (if w = 0 then 0 else d / w) + (if w = 0 then d else d % w) = d := by
  split
  · omega
  · exact Nat.div_add_mod d w

/-- A row's register stands where its base, strides and indices say. -/
theorem RegRow.addr_of_indexOf {r : RegRow} {a i j : Nat} (h : r.indexOf a = some (i, j)) : a = r.base + r.stride1 * i + r.stride2 * j := by
  unfold RegRow.indexOf at h
  dsimp only at h
  simp only [Option.ite_none_left_eq_some, Option.ite_none_right_eq_some, Option.some.injEq, Prod.mk.injEq] at h
  obtain ⟨ha, ⟨h0, -, -⟩, rfl, rfl⟩ := h
  have e1 := stride_add_rest (a - r.base) r.stride1
  have e2 := stride_add_rest (if r.stride1 = 0 then a - r.base else (a - r.base) % r.stride1) r.stride2
  omega

theorem findRow_some {rows : List RegRow} {a i j : Nat} {r : RegRow} (h : findRow rows a = some (r, i, j)) :
    r ∈ rows ∧ r.indexOf a = some (i, j) := by
  induction rows with
  | nil => cases h
  | cons r' rs ih =>
    unfold findRow at h
    split at h
    · rename_i hi
      cases h
      exact ⟨List.mem_cons_self .., hi⟩
    · exact ⟨List.mem_cons_of_mem _ (ih h).1, (ih h).2⟩

theorem mem_rows_of_regAt {a i j : Nat} {r : RegRow} (h : regAt a = some (r, i, j)) : r ∈ Reg.rows := (findRow_some h).1

theorem addr_of_regAt {a i j : Nat} {r : RegRow} (h : regAt a = some (r, i, j)) : a = r.base + r.stride1 * i + r.stride2 * j :=
  RegRow.addr_of_indexOf (findRow_some h).2

/-- The fields of a row stand in the order of their lowest bits, which are below 64, and none is empty. -/
def RegRow.fieldsInOrder (r : RegRow) : Bool :=
  decide (r.fields.Pairwise (fun f g => f.lo < g.lo)) && r.fields.all (fun f => decide (0 < f.len ∧ f.lo < 64))

theorem rows_fieldsInOrder : ∀ r ∈ Reg.rows, r.fieldsInOrder = true := by decide +kernel

theorem fields_sorted {r : RegRow} (h : r ∈ Reg.rows) : r.fields.Pairwise (fun f g => f.lo < g.lo) := by
  have := rows_fieldsInOrder r h
  simp only [RegRow.fieldsInOrder, Bool.and_eq_true, decide_eq_true_eq] at this
  exact this.1

theorem field_bounds {r : RegRow} (h : r ∈ Reg.rows) {f : FieldRow} (hf : f ∈ r.fields) : 0 < f.len ∧ f.lo < 64 := by
  have := rows_fieldsInOrder r h
  simp only [RegRow.fieldsInOrder, Bool.and_eq_true, List.all_eq_true, decide_eq_true_eq] at this
  exact this.2 f hf

/-- An access that reaches a register reaches one of the map, at the address that the map gives it. -/
theorem regAt_of_aimOf {a n : Nat} {t : Target} (h : aimOf a n = .at_ t) : ∃ j, regAt t.addr = some (t.row, t.i, j) := by
  unfold aimOf at h
  dsimp only at h
  split at h
  · cases h
  · split at h
    · split at h
      · rename_i r i j hr
        split at h
        · cases h
          exact ⟨j, hr⟩
        · simp only [Option.getD_none] at h
          split at h <;> cases h
      · simp only [Option.getD_none] at h
        split at h <;> cases h
    · split at h
      · rename_i r i j hr
        split at h <;> cases h <;> exact ⟨j, hr⟩
      · split at h
        · split at h
          · rename_i r i j hr
            split at h
            · cases h
              exact ⟨j, hr⟩
            · cases h
          · cases h
        · cases h

theorem aimOf_word {a i j : Nat} {r : RegRow} (ha : a % 4 = 0) (hr : regAt a = some (r, i, j)) (hb : r.bytes = 4) :
    aimOf a 4 = .at_ ⟨r, i, a, .whole⟩ := by
  unfold aimOf
  simp [ha, hr, hb]

theorem aimOf_doubleWord {a i j : Nat} {r : RegRow} (ha : a % 8 = 0) (hr : regAt a = some (r, i, j)) (hb : r.bytes = 8) :
    aimOf a 8 = .at_ ⟨r, i, a, .whole⟩ := by
  unfold aimOf
  simp [ha, hr, hb]

theorem regOpen_iff {s : State} {a i j : Nat} {r : RegRow} (hr : regAt a = some (r, i, j)) :
    s.regOpen a = true ↔ s.busy a = false ∧ s.ready (domainOf r.domain i) = true := by
  unfold State.regOpen
  rw [hr]
  simp

/-! ## What an access comes to -/

theorem reach_of_ready {s : State} {a n : Nat} {t : Target} (hb : s.busy a = false) (ha : aimOf a n = .at_ t)
    (hr : s.ready (domainOf t.row.domain t.i) = true) : s.reach a n = .ok t := by
  simp [State.reach, hb, ha, hr]

/-- An access that meets BUSY, names no register or names one that is held in reset is turned away with a status other than ACCESS. -/
theorem reach_turnedAway {s : State} {a n : Nat}
    (h : s.busy a = true ∨ aimOf a n = .unmapped ∨ ∃ t, aimOf a n = .at_ t ∧ s.ready (domainOf t.row.domain t.i) = false) :
    ∃ st, st ≠ OXL_ACCESS ∧ s.reach a n = .error st := by
  unfold State.reach
  cases hb : s.busy a with
  | true => exact ⟨OXL_BUSY, by decide, rfl⟩
  | false =>
    rw [hb] at h
    obtain h | ha | ⟨t, ha, hr⟩ := h
    · cases h
    · exact ⟨OXL_UNMAPPED, by decide, by rw [ha]; rfl⟩
    · exact ⟨OXL_ISOLATED, by decide, by simp [ha, hr]⟩

theorem reach_malformed {s : State} {a n : Nat} (hb : s.busy a = false) (ha : aimOf a n = .malformed) :
    s.reach a n = .error OXL_ACCESS := by
  simp [State.reach, hb, ha]

theorem answerRead_of_ok {s u : State} {a n v : Nat} {t : Target} (h : s.reach a n = .ok t) (hr : s.readReg t = (u, v)) :
    s.answerRead a n = u.send (.regRead a v) := by
  unfold State.answerRead State.controlRead
  rw [h]
  dsimp only
  rw [hr]

theorem answerRead_of_error {s : State} {a n st : Nat} (h : s.reach a n = .error st) :
    s.answerRead a n = (s.noteAccess st).send (.regRead a (2 ^ (8 * n) - 1)) := by
  unfold State.answerRead State.controlRead
  rw [h]

theorem controlWrite_of_ok {s : State} {a n : Nat} {t : Target} (h : s.reach a n = .ok t) (v : Nat) :
    (s.controlWrite a n v).1 = s.writeReg t v := by
  unfold State.controlWrite
  rw [h]

theorem controlWrite_of_error {s : State} {a n st : Nat} (h : s.reach a n = .error st) (v : Nat) :
    (s.controlWrite a n v).1 = s.noteAccess st := by
  unfold State.controlWrite
  rw [h]

theorem noteAccess_of_ne {st : Nat} (h : st ≠ OXL_ACCESS) (s : State) : s.noteAccess st = s := if_neg h

theorem noteAccess_malformed (s : State) :
    s.noteAccess OXL_ACCESS = (s.bump F.OXL_ERRS_BAD_ACCESS 1).raise ⟨0x0E05, 0, 14, 0, 0, false, none⟩ := if_pos rfl

/-! ## Writes of one field after the other -/

/-- `t` is `s` with no more changed than the fields listed. -/
def State.WritesOnly (s t : State) (fs : List Field) : Prop := t = { s with regs := t.regs } ∧ s.sameRegs t fs

theorem State.WritesOnly.refl (s : State) (fs : List Field) : s.WritesOnly s fs := ⟨rfl, fun _ _ => rfl⟩

theorem State.WritesOnly.put (s : State) (f : Field) (v : Nat) : s.WritesOnly (s.put f v) [f] :=
  ⟨rfl, fun _ hg => State.get_put_other (by simpa using hg) s v⟩

theorem State.WritesOnly.trans {s t u : State} {fs gs : List Field} (h : s.WritesOnly t fs) (h' : t.WritesOnly u gs) :
    s.WritesOnly u (fs ++ gs) := by
  refine ⟨h'.1.trans (by rw [h.1]), fun g hg => ?_⟩
  rw [List.map_append, List.mem_append, not_or] at hg
  rw [h'.2 g hg.2, h.2 g hg.1]

section
variable {a : Nat} {step : State → FieldRow → State} (hstep : ∀ (s : State) (f : FieldRow), s.WritesOnly (step s f) [f.at a])
include hstep

theorem foldl_writesOnly (l : List FieldRow) (s : State) : s.WritesOnly (l.foldl step s) (l.map (fun f => f.at a)) := by
  induction l generalizing s with
  | nil => exact .refl s _
  | cons f l ih => exact (hstep s f).trans (ih (step s f))

/-- A field of a register reads what its own step gave it; before that step only fields below it had been written. -/
theorem foldl_get {l : List FieldRow} (hl : l.Pairwise (fun f g => f.lo < g.lo)) {f : FieldRow} (hf : f ∈ l) (s : State) :
    ∃ u : State, (∀ g : Field, (∀ e ∈ l, e.lo < f.lo → g.key ≠ (e.at a).key) → u.get g = s.get g) ∧
      (l.foldl step s).get (f.at a) = (step u f).get (f.at a) := by
  obtain ⟨below, above, rfl⟩ := List.append_of_mem hf
  obtain ⟨-, hpair, hbelow⟩ := List.pairwise_append.1 hl
  have habove := (List.pairwise_cons.1 hpair).1
  refine ⟨below.foldl step s, fun g hg => (foldl_writesOnly hstep below s).2 g ?_, ?_⟩
  · simp only [List.map_map, List.mem_map, Function.comp_apply, not_exists, not_and]
    exact fun e he hk => hg e (List.mem_append_left _ he) (hbelow e he f (List.mem_cons_self ..)) hk.symm
  · rw [List.foldl_append, List.foldl_cons]
    refine (foldl_writesOnly hstep above _).2 _ ?_
    simp only [List.map_map, List.mem_map, Function.comp_apply, not_exists, not_and]
    intro e he hk
    have := habove e he
    simp only [Field.key, FieldRow.at] at hk
    omega

end

/-! ## Reads (R7, R9, R340, R515) -/

/-- The fields of a register that a read clears. -/
abbrev RegRow.cleared (r : RegRow) : List FieldRow := r.fields.filter (fun f => f.access = .rc)

theorem clearRead_eq_foldl {r : RegRow} (hr : r ∈ Reg.rows) (s : State) (a : Nat) :
    s.clearRead r a 0 = r.cleared.foldl (fun s f => s.put (f.at a) (clearedTo r)) s := by
  unfold State.clearRead
  congr 1
  refine List.filter_congr fun f hf => ?_
  have := (field_bounds hr hf).1
  simp [show 0 < f.lo + f.len by omega]

theorem clearRead_writesOnly {r : RegRow} (hr : r ∈ Reg.rows) (s : State) (a : Nat) :
    s.WritesOnly (s.clearRead r a 0) (r.cleared.map (fun f => f.at a)) := by
  rw [clearRead_eq_foldl hr]
  exact foldl_writesOnly (fun s f => .put s (f.at a) _) _ s

theorem clearRead_get {r : RegRow} (hr : r ∈ Reg.rows) {f : FieldRow} (hf : f ∈ r.fields) (hrc : f.access = .rc) (s : State) (a : Nat) :
    (s.clearRead r a 0).get (f.at a) = clearedTo r % 2 ^ f.len := by
  have sorted : r.cleared.Pairwise (fun f g => f.lo < g.lo) := (fields_sorted hr).sublist List.filter_sublist
  have hf' : f ∈ r.cleared := List.mem_filter.2 ⟨hf, by simpa using hrc⟩
  obtain ⟨u, -, hu⟩ := foldl_get (fun s f => State.WritesOnly.put s (f.at a) (clearedTo r)) sorted hf' s
  rw [clearRead_eq_foldl hr, hu, State.get_put_same]
  rfl

theorem clearRead_of_none {r : RegRow} (h : ∀ f ∈ r.fields, f.access ≠ .rc) (s : State) (a n : Nat) : s.clearRead r a n = s := by
  unfold State.clearRead
  rw [List.filter_eq_nil_iff.2 fun f hf => by simp [h f hf]]
  rfl

theorem latchBreaks_eq (s : State) (t : Target) : s.latchBreaks t = { s with latches := (s.latchBreaks t).latches } := by
  unfold State.latchBreaks
  split <;> rfl

@[simp] theorem latchBreaks_get (s : State) (t : Target) (f : Field) : (s.latchBreaks t).get f = s.get f := by
  rw [latchBreaks_eq]
  rfl

/-- A read of word 0 latches each other word of the axis as it stands. -/
theorem latchBreaks_latched (s : State) {t : Target} (hb : t.row.base = Reg.ZF_BREAK 0 0) (ha : t.addr = Reg.ZF_BREAK t.i 0) {w : Nat}
    (hw : w ∈ [1, 2, 3]) : alGet (s.latchBreaks t).latches (breakKey (Reg.ZF_BREAK t.i w)) = some (s.get (F.ZF_BREAK_BREAKS t.i w)) := by
  have apart {x y : Nat} (h : x ≠ y) : breakKey (Reg.ZF_BREAK t.i x) ≠ breakKey (Reg.ZF_BREAK t.i y) := by
    simp only [breakKey, Reg.ZF_BREAK]
    omega
  unfold State.latchBreaks
  rw [if_pos ⟨hb, ha⟩]
  simp only [List.foldl_cons, List.foldl_nil, State.latch_get]
  simp only [List.mem_cons, List.not_mem_nil, or_false] at hw
  obtain rfl | rfl | rfl := hw
  · rw [alGet_alSet_other (apart (by decide)), alGet_alSet_other (apart (by decide)), alGet_alSet_same]
  · rw [alGet_alSet_other (apart (by decide)), alGet_alSet_same]
  · rw [alGet_alSet_same]

/-- The state after a read of a whole register. -/
def State.afterRead (s : State) (r : RegRow) (i a : Nat) : State :=
  ((s.unlatch (breakKey a)).clearRead r a 0).latchBreaks ⟨r, i, a, .whole⟩

theorem readReg_whole (s : State) (r : RegRow) (i a : Nat) :
    s.readReg ⟨r, i, a, .whole⟩ = (s.afterRead r i a, (alGet s.latches (breakKey a)).getD (s.regValue r a)) := rfl

/-- A read of a whole register touches the latches and the RC fields of that register alone. -/
theorem afterRead_frame {r : RegRow} (hr : r ∈ Reg.rows) (s : State) (i a : Nat) :
    s.afterRead r i a = { s with regs := (s.afterRead r i a).regs, latches := (s.afterRead r i a).latches } ∧
    s.sameRegs (s.afterRead r i a) (r.cleared.map (fun f => f.at a)) := by
  obtain ⟨hu, hs⟩ := clearRead_writesOnly hr (s.unlatch (breakKey a)) a
  unfold State.afterRead
  constructor
  · rw [latchBreaks_eq, hu]
  · intro f hf
    rw [latchBreaks_get, hs f hf, State.unlatch_get]

theorem afterRead_cleared {r : RegRow} (hr : r ∈ Reg.rows) {f : FieldRow} (hf : f ∈ r.fields) (hrc : f.access = .rc) (s : State)
    (i a : Nat) : (s.afterRead r i a).get (f.at a) = clearedTo r % 2 ^ f.len := by
  unfold State.afterRead
  rw [latchBreaks_get, clearRead_get hr hf hrc]

/-- The high word that a read of the low one left is what the next read of the high word gives, once. -/
theorem readReg_high_latched (s : State) (r : RegRow) (i : Nat) {a h : Nat} (hl : alGet s.latches (highKey a) = some h) :
    s.readReg ⟨r, i, a, .high⟩ = (s.unlatch (highKey a), h) := by
  simp [State.readReg, hl]

/-- The row of `ZF_BREAK`, found at word 0 of each axis. -/
theorem regAt_break (axis : Fin 3) : ∃ r : RegRow, regAt (Reg.ZF_BREAK axis 0) = some (r, axis.val, 0) ∧ r.base = Reg.ZF_BREAK 0 0 ∧ r.bytes = 8 ∧
    r.fields = [⟨0, 64, .ro, 0⟩] := by
  fin_cases axis <;> exact ⟨_, rfl, rfl, rfl, rfl⟩

/-- The row of `TM_SLACK`, found at each Clause's register. -/
theorem regAt_slack (c : Fin 16) : ∃ r : RegRow, regAt (Reg.TM_SLACK c) = some (r, c.val, 0) ∧ r.base = Reg.TM_SLACK 0 ∧ r.bytes = 4 ∧
    r.fields = [⟨0, 32, .rc, 0xffffffff⟩] := by
  fin_cases c <;> exact ⟨_, rfl, rfl, rfl, rfl⟩

/-! ## Writes (R7, R10, R12) -/

/-- The field whose value decides whether a field takes writes now, where one does. -/
def lockField (base i lo : Nat) : Option Field :=
  if base = Reg.RR_BASE ∨ (base = Reg.RR_CTRL ∧ lo = 2) then some F.RR_CTRL_LOCK
  else if base = Reg.ER_CTRL ∧ lo = 6 then some F.ER_CTRL_LOCK
  else if base = Reg.ZF_BOARD_ID then some F.ZF_CTRL_LOCK
  else if base = Reg.CP_EVT_BASE then some F.CP_EVT_CTRL_ENABLE
  else if base = Reg.CP_RING_BASE 0 ∨ base = Reg.CP_CQ_BASE 0 ∨ base = Reg.CP_CQ_CTRL 0 then some (F.CP_RING_STATUS_ACTIVE i)
  else if base = Reg.PC_CTRL ∧ 1 ≤ lo ∧ lo ≤ 3 then some F.PC_STATUS_STATE
  else if 0x20200 ≤ base ∧ base < 0x30000 then some F.PC_STATUS_STATE
  else none

theorem takes_congr {s u : State} {base i lo : Nat} (h : ∀ l ∈ lockField base i lo, u.get l = s.get l) :
    u.takes base i lo = s.takes base i lo := by
  unfold lockField at h
  unfold State.takes
  split_ifs at h ⊢ <;> simp_all [State.on, State.idle, State.pcState]

/-- The registers that a lock elsewhere governs have one field each. -/
theorem locked_rows_single : ∀ r ∈ Reg.rows, r.base ∈ [Reg.RR_BASE, Reg.ZF_BOARD_ID, Reg.CP_EVT_BASE, Reg.CP_RING_BASE 0, Reg.CP_CQ_BASE 0,
    Reg.CP_CQ_CTRL 0] → r.fields.length = 1 := by decide +kernel

/-- What decides on a field is no field below it in the same register: a lock bit stands above the fields that it locks. -/
theorem lockField_apart {a i j : Nat} {r : RegRow} (hr : regAt a = some (r, i, j)) (hpc : r.base ≠ Reg.PC_CTRL) {e f : FieldRow}
    (he : e ∈ r.fields) (hf : f ∈ r.fields) (hlt : e.lo < f.lo) {l : Field} (hl : l ∈ lockField r.base i f.lo) :
    l.key ≠ (e.at a).key := by
  have haddr := addr_of_regAt hr
  have hmem := mem_rows_of_regAt hr
  have hlo := (field_bounds hmem he).2
  have several : r.fields.length ≠ 1 := by
    intro h1
    obtain ⟨x, hx⟩ := List.length_eq_one_iff.1 h1
    rw [hx, List.mem_singleton] at he hf
    rw [he, hf] at hlt
    exact lt_irrefl _ hlt
  have hbase := mt (locked_rows_single r hmem) several
  simp only [List.mem_cons, List.not_mem_nil, or_false, not_or] at hbase
  obtain ⟨h1, h2, h3, h4, h5, h6⟩ := hbase
  unfold lockField at hl
  simp only [h1, h2, h3, h4, h5, h6, hpc, false_or, false_and, if_false] at hl
  simp only [Field.key, FieldRow.at]
  split_ifs at hl with hrr her hpe <;> simp only [Option.mem_def, Option.some.injEq, reduceCtorEq] at hl <;> subst hl <;> dsimp only
  · omega
  · omega
  · simp only [Reg.PC_STATUS]
    omega

/-- What a field reads after a write of `w` to it, by its access code; `old` is what it read before (R7). -/
def fieldAfter (takes : Bool) (base : Nat) (f : FieldRow) (old w : Nat) : Nat :=
  match f.access with
  | .rw => if takes && !reserved base f.lo w then w else old
  | .rwl => if takes && !reserved base f.lo w then w else old
  | .w1c => (old - (old &&& w)) % 2 ^ f.len
  | .w1s => (old ||| w) % 2 ^ f.len
  | _ => old

theorem writeField_writesOnly (s : State) (t : Target) (f : FieldRow) (w : Nat) : s.WritesOnly (s.writeField t f w) [f.at t.addr] := by
  unfold State.writeField
  cases f.access <;> dsimp only
  case rw | rwl =>
    split
    · exact .put ..
    · exact .refl ..
  case w1c | w1s => exact .put ..
  case ro | rc | wo => exact .refl ..

theorem writeField_get (s : State) (t : Target) (f : FieldRow) {w : Nat} (hw : w < 2 ^ f.len) :
    (s.writeField t f w).get (f.at t.addr) = fieldAfter (s.takes t.row.base t.i f.lo) t.row.base f (s.get (f.at t.addr)) w := by
  have put (v : Nat) : (s.put (f.at t.addr) v).get (f.at t.addr) = v % 2 ^ f.len := State.get_put_same ..
  unfold State.writeField fieldAfter
  cases f.access <;> dsimp only
  case rw | rwl =>
    split
    · rw [put, Nat.mod_eq_of_lt hw]
    · rfl
  case w1c | w1s => rw [put]

theorem writeFields_writesOnly (s : State) (t : Target) (v : Nat) :
    s.WritesOnly (s.writeFields t v) (t.row.fields.map (fun f => f.at t.addr)) :=
  foldl_writesOnly (fun s f => writeField_writesOnly s t f _) _ s

/-- Each field of a register written takes its own bits of the value, as the state before the write decides. -/
theorem writeFields_get {t : Target} {j : Nat} (ht : regAt t.addr = some (t.row, t.i, j)) (hpc : t.row.base ≠ Reg.PC_CTRL) {f : FieldRow}
    (hf : f ∈ t.row.fields) (s : State) (v : Nat) : (s.writeFields t v).get (f.at t.addr) =
      fieldAfter (s.takes t.row.base t.i f.lo) t.row.base f (s.get (f.at t.addr)) (bits v f.lo f.len) := by
  obtain ⟨u, hu, hget⟩ := foldl_get (fun s f => writeField_writesOnly s t f (bits v f.lo f.len)) (fields_sorted (mem_rows_of_regAt ht)) hf s
  have htakes : u.takes t.row.base t.i f.lo = s.takes t.row.base t.i f.lo :=
    takes_congr fun l hl => hu l fun e he hlt => lockField_apart ht hpc he hf hlt hl
  have hold : u.get (f.at t.addr) = s.get (f.at t.addr) := by
    refine hu _ fun e _ hlt hk => ?_
    simp only [Field.key, FieldRow.at] at hk
    omega
  have hw : bits v f.lo f.len < 2 ^ f.len := Nat.mod_lt _ (Nat.two_pow_pos _)
  unfold State.writeFields
  rw [hget, writeField_get u t f hw, htakes, hold]

/-- The registers on whose value the module acts at once, as their own rows say. -/
abbrev actingRegs : List Nat := [Reg.CP_RING_CTRL 0, Reg.CP_RING_TAIL 0, Reg.CP_EVT_CTRL, Reg.CP_EVT_ACK, Reg.DM_MAP, Reg.QC_RETIRE_REQ 0,
  Reg.PC_CTRL, Reg.RR_CTRL, Reg.BW_TIE 0, Reg.ZP_CTRL 0, Reg.ZF_BOARD_ID, Reg.SC_SPDM_CTRL]

/-- A write of any other register sets its fields and no more. -/
theorem putReg_of_not_acting {t : Target} (h : t.row.base ∉ actingRegs) (s : State) (v : Nat) : s.putReg t v = s.writeFields t v := by
  simp only [actingRegs, List.mem_cons, List.not_mem_nil, or_false, not_or] at h
  obtain ⟨h1, h2, h3, h4, h5, h6, h7, h8, h9, h10, h11, h12⟩ := h
  unfold State.putReg State.written
  simp only [h1, h2, h3, h4, h5, h6, h7, h8, h9, h10, h11, h12, if_false]

/-! ## The rows -/

/-- Every access ends its step with the state that it comes to. -/
theorem next_settle_congr {s t : State} (h : s = t) : done s.settle = done t.settle := by rw [h]

section
variable {s u : State} {a : BitVec 24} {wide : Bool} {t : Target} {st : Nat}

theorem execReadClearAccess_of_ok (h : s.reach a.toNat (if wide then 8 else 4) = .ok t) {v : Nat} (hr : s.readReg t = (u, v)) :
    exec (.readClearAccess a wide) s = .next (u.send (.regRead a.toNat v)).settle :=
  next_settle_congr (answerRead_of_ok h hr)

theorem execReadClearAccess_of_error (h : s.reach a.toNat (if wide then 8 else 4) = .error st) (hn : s.noteAccess st = u) :
    exec (.readClearAccess a wide) s = .next (u.send (.regRead a.toNat (2 ^ (8 * if wide then 8 else 4) - 1))).settle := by
  subst hn
  exact next_settle_congr (answerRead_of_error h)

theorem execRegisterWrite_of_ok (h : s.reach a.toNat (if wide then 8 else 4) = .ok t) {v : BitVec 64}
    (hw : s.writeReg t (v.toNat % 2 ^ (8 * if wide then 8 else 4)) = u) : exec (.registerWrite a wide v) s = .next u.settle :=
  next_settle_congr ((controlWrite_of_ok h _).trans hw)

theorem execRegisterWrite_of_error (h : s.reach a.toNat (if wide then 8 else 4) = .error st) (hn : s.noteAccess st = u) (v : BitVec 64) :
    exec (.registerWrite a wide v) s = .next u.settle :=
  next_settle_congr ((controlWrite_of_error h _).trans hn)

theorem execLowWordReadLatch_of_ok (h : s.reach (a.toNat / 8 * 8) 4 = .ok t) {v : Nat} (hr : s.readReg t = (u, v)) :
    exec (.lowWordReadLatch a) s = .next (u.send (.regRead (a.toNat / 8 * 8) v)).settle :=
  next_settle_congr (answerRead_of_ok h hr)

end

/-- BREAK_MAP_WORD0_READ changes no more than the latches, and fills those of words 1 to 3 (R340). -/
theorem breakMapWord0Read_latches {s : State} {axis : Fin 3} (ho : s.regOpen (Reg.ZF_BREAK axis 0) = true) : ∃ (u : State) (v : Nat),
    exec (.breakMapWord0Read axis) s = .next (u.send (.regRead (Reg.ZF_BREAK axis 0) v)).settle ∧ u = { s with latches := u.latches } ∧
      ∀ w ∈ [1, 2, 3], alGet u.latches (breakKey (Reg.ZF_BREAK axis w)) = some (s.get (F.ZF_BREAK_BREAKS axis w)) := by
  obtain ⟨r, hr, hbase, hbytes, hfields⟩ := regAt_break axis
  obtain ⟨hb, hready⟩ := (regOpen_iff hr).1 ho
  have hreach := reach_of_ready hb (aimOf_doubleWord (by simp only [Reg.ZF_BREAK]; omega) hr hbytes) hready
  refine ⟨_, _, next_settle_congr (answerRead_of_ok hreach (readReg_whole s r axis _)), ?_⟩
  unfold State.afterRead
  rw [clearRead_of_none (by simp [hfields])]
  exact ⟨by rw [latchBreaks_eq], fun w hw => latchBreaks_latched _ hbase rfl hw⟩

/-- TM_SLACK_READ gives the least slack and starts it anew (R515). -/
theorem tmSlackRead_restarts {s : State} {c : Fin 16} (ho : s.regOpen (Reg.TM_SLACK c) = true)
    (hl : alGet s.latches (breakKey (Reg.TM_SLACK c)) = none) : ∃ u : State,
    exec (.tmSlackRead c) s = .next (u.send (.regRead (Reg.TM_SLACK c) (s.get (F.TM_SLACK_MIN_US c)))).settle ∧
      u.get (F.TM_SLACK_MIN_US c) = 0xFFFFFFFF ∧ s.sameRegs u [F.TM_SLACK_MIN_US c] := by
  obtain ⟨r, hr, hbase, hbytes, hfields⟩ := regAt_slack c
  obtain ⟨hb, hready⟩ := (regOpen_iff hr).1 ho
  have hmem := mem_rows_of_regAt hr
  have hreach := reach_of_ready hb (aimOf_word (by simp only [Reg.TM_SLACK]; omega) hr hbytes) hready
  have hread : s.readReg ⟨r, c, Reg.TM_SLACK c, .whole⟩ = (s.afterRead r c (Reg.TM_SLACK c), s.get (F.TM_SLACK_MIN_US c)) := by
    rw [readReg_whole, hl]
    simp [State.regValue, hfields, sumList, FieldRow.at]
  refine ⟨_, next_settle_congr (answerRead_of_ok hreach hread), ?_, ?_⟩
  · have := afterRead_cleared hmem (f := ⟨0, 32, .rc, 0xffffffff⟩) (by simp [hfields]) rfl s c (Reg.TM_SLACK c)
    rw [clearedTo, if_pos hbase] at this
    exact this
  · have := (afterRead_frame hmem s c (Reg.TM_SLACK c)).2
    rw [RegRow.cleared, hfields] at this
    exact this

/-- Settles O58, access by access: turned away, malformed, a whole register read or written, the two halves of a register, and the two
registers whose reads do more. -/
theorem registerAccesses : Obligations.RegisterAccesses := by
  unfold Obligations.RegisterAccesses
  intro s a wide n x reads writes open_ acting
  have reached {t : Target} (h : open_ t) : s.reach x n = .ok t := by
    obtain ⟨hb, ha, hready⟩ := h
    exact reach_of_ready hb ha hready
  refine ⟨fun h => ?_, fun hb ha => ?_, fun r i h => ?_, fun r i b high h hhigh => ?_, fun r i hb ha hready => ?_,
    fun axis => breakMapWord0Read_latches, fun c => tmSlackRead_restarts⟩
  · obtain ⟨st, hst, hreach⟩ := reach_turnedAway h
    have hnote := noteAccess_of_ne hst s
    exact ⟨execReadClearAccess_of_error hreach hnote, execRegisterWrite_of_error hreach hnote⟩
  · have hreach := reach_malformed hb ha
    have hnote := noteAccess_malformed s
    exact ⟨execReadClearAccess_of_error hreach hnote, execRegisterWrite_of_error hreach hnote⟩
  · obtain ⟨j, hrow⟩ : ∃ j, regAt x = some (r, i, j) := regAt_of_aimOf h.2.1
    have hr := mem_rows_of_regAt hrow
    refine ⟨?_, fun hacting v => ?_⟩
    · obtain ⟨hframe, hregs⟩ := afterRead_frame hr s i x
      refine ⟨_, execReadClearAccess_of_ok (reached h) (readReg_whole s r i x), hframe, hregs, fun hbase f hf hrc => ?_⟩
      rw [afterRead_cleared hr hf hrc, clearedTo, if_neg hbase, Nat.zero_mod]
    · obtain ⟨hframe, hregs⟩ := writeFields_writesOnly s ⟨r, i, x, .whole⟩ (v.toNat % 2 ^ (8 * n))
      refine ⟨_, execRegisterWrite_of_ok (reached h) (putReg_of_not_acting hacting s _), hframe, hregs, fun f hf => ?_⟩
      exact writeFields_get hrow (fun e => hacting (by rw [e]; decide)) hf s _
  · exact execReadClearAccess_of_ok (reached h) (readReg_high_latched s r i hhigh)
  · exact ⟨_, execLowWordReadLatch_of_ok (reach_of_ready hb ha hready) rfl, alGet_alSet_same ..⟩

end Sys2Proof.Machine

/-!
PROOF. Every step ends with no action of a fatal event due (statement StepTakesItsActions): the rows that settle take the actions, and those
that do not settle call for none.
-/
namespace Sys2Proof.Machine

/-! ## What sending on a link changes -/

/-- From `s` to `t` no more has changed than the ports, the armed errors and what has been sent. -/
def State.SendFrame (s t : State) : Prop := t = { s with inject := t.inject, fab := t.fab, out := t.out }

theorem State.SendFrame.refl (s : State) : s.SendFrame s := rfl

theorem State.SendFrame.trans {s t u : State} (h : s.SendFrame t) (h' : t.SendFrame u) : s.SendFrame u := by
  unfold State.SendFrame at h h' ⊢
  rw [h] at h'
  exact h'

theorem State.SendFrame.foldl {α : Type} {f : State → α → State} (hf : ∀ (s : State) (a : α), s.SendFrame (f s a)) (l : List α) (s : State) :
    s.SendFrame (l.foldl f s) := by
  induction l generalizing s with
  | nil => exact .refl s
  | cons a l ih => exact (hf s a).trans (ih _)

theorem State.sendFrame_send (s : State) (m : OutMsg) : s.SendFrame (s.send m) := rfl

theorem State.sendFrame_setPort (s : State) (p : Nat) (v : PortState) : s.SendFrame (s.setPort p v) := rfl

theorem State.sendFrame_owe (s : State) (p target n : Nat) : s.SendFrame (s.owe p target n) := rfl

theorem State.sendFrame_injectCrc (s : State) (p : Nat) : s.SendFrame (s.injectCrc p) := by
  unfold State.injectCrc
  split <;> rfl

theorem State.sendFrame_sendFlit (s : State) (p : Nat) (x : Nat × TxMsg) (turn : Nat) : s.SendFrame (s.sendFlit p x turn) := by
  unfold State.sendFlit
  extract_lets s1 v t h v1 v2 queue s2 s3
  have h2 : s.SendFrame s2 := (s.sendFrame_injectCrc p).trans (State.sendFrame_setPort ..)
  have h3 : s2.SendFrame s3 := by
    unfold s3
    split
    · exact State.sendFrame_owe ..
    · exact .refl _
  split
  · exact h2.trans (h3.trans (State.sendFrame_send ..))
  · exact h2.trans h3

theorem State.sendFrame_drain (n : Nat) : ∀ (s : State) (p : Nat), s.SendFrame (s.drain n p) := by
  induction n with
  | zero => exact fun s _ => .refl s
  | succ n ih =>
    intro s p
    unfold State.drain
    dsimp only
    split
    · exact .refl s
    · split
      · exact (State.sendFrame_sendFlit ..).trans (ih _ _)
      · exact .refl s

theorem State.sendFrame_flush (s : State) (p : Nat) : s.SendFrame (s.flush p) := State.sendFrame_drain _ s p

theorem State.sendFrame_enqueue (s : State) (p : Nat) (t : TxMsg) : s.SendFrame (s.enqueue p t) := rfl

theorem State.sendFrame_sendOn (s : State) (p n : Nat) (sub : Option Nat) (m : OutMsg) : s.SendFrame (s.sendOn p n sub m) :=
  (State.sendFrame_enqueue ..).trans (State.sendFrame_flush ..)

theorem State.sendFrame_sendEach (s : State) (ports : List Nat) (m : Nat → OutMsg) : s.SendFrame (s.sendEach ports m) :=
  .foldl (fun s _ => s.sendFrame_sendOn ..) ports s

theorem State.sendFrame_announce (s : State) : s.SendFrame s.announce := .foldl (fun s _ => s.sendFrame_sendOn ..) _ s

/-! ## Steps on a port that goes DOWN -/

/-- What the Period controller and the power controller hold beside the Period's own record. -/
def State.held (s : State) : PdState × PwrState := ({ s.pd with entries := [], entryCount := 0, events := 0 }, s.pwr)

theorem State.SendFrame.held {s t : State} (h : s.SendFrame t) : t.held = s.held := by rw [h]; rfl

theorem State.EventFrame.held {s t : State} (h : s.EventFrame t) : t.held = s.held := by rw [h.rest]; rfl

/-- A record update of anything but the two. -/
theorem State.held_mk (s : State) (regs latches hbm comp poison inject cp mgmt oxl dm fab coll num gram marks rr cj uu sh sec out draws wrote pending) :
    State.held ⟨regs, latches, hbm, comp, poison, inject, cp, s.pd, mgmt, s.pwr, oxl, dm, fab, coll, num, gram, marks, rr, cj, uu, sh, sec, out, draws,
      wrote, pending⟩ = s.held := rfl

theorem State.held_foldl {α : Type} {f : State → α → State} (l : List α) (hf : ∀ (s : State), ∀ a ∈ l, (f s a).held = s.held) (s : State) :
    (l.foldl f s).held = s.held := by
  induction l generalizing s with
  | nil => rfl
  | cons a l ih => exact (ih (fun s a ha => hf s a (List.mem_cons_of_mem _ ha)) _).trans (hf s a (List.mem_cons_self ..))

@[simp] theorem State.held_put (s : State) (f : Field) (v : Nat) : (s.put f v).held = s.held := rfl

@[simp] theorem State.held_raise {e : Ev} (h : e.cls < 3) (s : State) : (s.raise e).held = s.held := (State.frame_raise h s).held

@[simp] theorem State.held_sendOn (s : State) (p n : Nat) (sub : Option Nat) (m : OutMsg) : (s.sendOn p n sub m).held = s.held :=
  (State.sendFrame_sendOn ..).held

@[simp] theorem State.held_announce (s : State) : s.announce.held = s.held := (State.sendFrame_announce s).held

@[simp] theorem State.held_setPort (s : State) (p : Nat) (v : PortState) : (s.setPort p v).held = s.held := rfl

@[simp] theorem State.held_strand (s : State) (lost : List OutMsg) : (s.strand lost).held = s.held := rfl

theorem State.held_setChild (s : State) (p : Nat) (b : Bool) : (s.setChild p b).held = s.held := by
  unfold State.setChild
  dsimp only
  split <;> rfl

theorem State.held_setParent (s : State) (p : Option Nat) : (s.setParent p).held = s.held := by
  unfold State.setParent
  dsimp only
  rw [State.held_put, State.held_foldl _ (fun s q _ => State.held_put ..)]

theorem State.held_dropQueue (s : State) (p : Nat) : (s.dropQueue p).held = s.held := by
  have freed (l : List TxMsg) (s : State) : (l.foldl (fun (s : State) t => match t.origin with
      | some o => (s.owe o.port 8 (o.shared - t.next)).owe o.port o.sub (t.total - t.next - (o.shared - t.next))
      | none => s) s).held = s.held :=
    State.held_foldl l (fun s t _ => by split <;> rfl) s
  unfold State.dropQueue
  dsimp only
  split
  · exact freed _ _
  · exact freed _ _

theorem State.held_remeasure (s : State) : s.remeasure.held = s.held := by
  unfold State.remeasure
  dsimp only
  split
  · split
    · rfl
    · rw [State.held_mk, State.held_raise (by decide), State.held_put]
  · rfl

theorem State.held_setBroken (s : State) (axis k : Nat) (b : Bool) : (s.setBroken axis k b).held = s.held := by
  unfold State.setBroken
  dsimp only
  split <;> rfl

theorem State.held_markLink (s : State) (p : Nat) (b : Bool) : (s.markLink p b).held = s.held := by
  unfold State.markLink
  split
  · rfl
  · split
    · dsimp only
      rw [State.held_remeasure]
      split
      · rw [State.held_sendOn, State.held_setBroken]
      · exact State.held_setBroken ..
    · rfl

theorem State.held_reparent (s : State) (old : Nat) : (s.reparent old).held = s.held := by
  unfold State.reparent
  dsimp only
  rw [State.held_raise (Nat.zero_lt_succ 2), State.held_announce]
  split <;> rw [State.held_put, State.held_setParent]

theorem State.held_portDown (s : State) (p : Nat) (c : Option CmdRef) : (s.portDown p c).held = s.held := by
  unfold State.portDown
  dsimp only
  split
  · rw [State.held_reparent, State.held_put, State.held_markLink, State.held_raise (Nat.lt_succ_self 2), State.held_setChild, State.held_setPort,
      State.held_strand, State.held_dropQueue]
    rfl
  · rw [State.held_markLink, State.held_raise (Nat.lt_succ_self 2), State.held_setChild, State.held_setPort,
      State.held_strand, State.held_dropQueue]
    rfl

theorem State.held_allPortsDown (s : State) : s.allPortsDown.held = s.held :=
  State.held_foldl _ (fun s p _ => by
    split
    · rfl
    · exact State.held_portDown ..) s

/-! ## The rows that end without settling -/

/-- What stands due, as a function of what is held. -/
theorem State.noneDue_of_held {s t : State} (h : t.held = s.held) (hs : s.noneDue) : t.noneDue := by
  have halt := congrArg (fun x => x.1.haltDue) h
  have fail := congrArg (fun x => x.1.failDue) h
  have reset := congrArg (fun x => x.2.resetDue) h
  exact ⟨halt.trans hs.1, fail.trans hs.2.1, reset.trans hs.2.2⟩

theorem State.noneDue_put {s : State} (h : s.noneDue) (f : Field) (v : Nat) : (s.put f v).noneDue := h

theorem State.noneDue_driveMrst {s : State} (h : s.noneDue) : s.driveMrst.noneDue := h

theorem State.noneDue_foldl {α : Type} {f : State → α → State} (hf : ∀ (s : State) (a : α), s.noneDue → (f s a).noneDue) (l : List α)
    {s : State} (h : s.noneDue) : (l.foldl f s).noneDue := by
  induction l generalizing s with
  | nil => exact h
  | cons a l ih => exact ih (hf s a h)

theorem State.noneDue_putBit {s : State} (h : s.noneDue) (f : Field) (i : Nat) (b : Bool) : (s.putBit f i b).noneDue := by
  unfold State.putBit
  dsimp only
  split <;> exact h

theorem State.noneDue_holdDomain {s : State} (h : s.noneDue) (debug : Bool) (d : Domain) : (s.holdDomain debug d).noneDue := by
  unfold State.holdDomain
  dsimp only
  split
  · refine State.noneDue_putBit ?_ _ _ _
    exact h
  · exact h

theorem State.noneDue_fuseStatus {s : State} (h : s.noneDue) : s.fuseStatus.noneDue := by
  unfold State.fuseStatus
  split <;> exact h

/-- A reset of reach M drops every action that was due (R473). -/
theorem State.noneDue_resetM (s : State) : s.resetM.noneDue := by
  unfold State.resetM
  dsimp only
  refine State.noneDue_driveMrst (State.noneDue_fuseStatus (State.noneDue_foldl (fun _ _ h => State.noneDue_put h _ _) _
    (State.noneDue_put (State.noneDue_foldl (fun _ d h => State.noneDue_holdDomain h false d) _ ?_) _ _)))
  exact ⟨rfl, rfl, rfl⟩

theorem State.noneDue_resetOwnM (s : State) (cause : Field) : (s.resetOwnM cause).noneDue := s.noneDue_resetM

/-- A reset of reach P drops every action that was due (R464). -/
theorem State.noneDue_resetP (s : State) : s.resetP.noneDue := by
  unfold State.resetP
  dsimp only
  refine State.noneDue_driveMrst (State.noneDue_put (State.noneDue_put (State.noneDue_foldl (fun _ d h => State.noneDue_holdDomain h false d) _ ?_) _ _) _ _)
  exact ⟨rfl, rfl, rfl⟩

theorem State.noneDue_setModule {s : State} (h : s.noneDue) (v : Nat) : (s.setModule v).noneDue := by
  unfold State.setModule
  split <;> exact h

theorem State.noneDue_loadMap {s : State} (h : s.noneDue) (q : Nat) (retired : List Nat) : (s.loadMap q retired).noneDue := by
  have kept : (s.loadMap q retired).held = s.held := by
    unfold State.loadMap
    simp only [State.held_put]
    exact State.held_foldl _ (fun s l _ => by rw [State.held_put, State.held_put]) s
  exact State.noneDue_of_held kept h

theorem State.noneDue_firstLoad {s : State} (h : s.noneDue) (f : FuseImage) : (s.firstLoad f).noneDue := by
  have released (s : State) (h : s.noneDue) :
      ({ (s.put F.RS_MRST_LEVEL 1) with pwr := { s.pwr with mrstDriven := false } } : State).noneDue := h
  unfold State.firstLoad
  dsimp only
  refine released _ (State.noneDue_fuseStatus (State.noneDue_foldl (fun _ q h => State.noneDue_loadMap h q _) _ ?_))
  split <;> exact h

theorem State.noneDue_badLoad {s : State} (h : s.noneDue) : s.badLoad.noneDue := by
  unfold State.badLoad
  dsimp only
  split
  · exact State.noneDue_of_held (State.held_allPortsDown _) h
  · exact h

theorem State.noneDue_requestRetirement {s : State} (h : s.noneDue) (q i : Nat) (persist : Bool) : (s.requestRetirement q i persist).noneDue := by
  unfold State.requestRetirement State.blowRetirement State.markCluster
  split_ifs <;> exact h

theorem State.noneDue_spdmAnswer {s : State} (h : s.noneDue) (mailbox : Bool) (r : SpdmReq) : (s.spdmAnswer mailbox r).1.noneDue := by
  unfold State.spdmAnswer
  split
  · exact h
  · split_ifs <;> exact h

theorem State.noneDue_mailboxGo {s : State} (h : s.noneDue) (r : SpdmReq) : (s.mailboxGo r).noneDue :=
  State.noneDue_put (State.noneDue_put (State.noneDue_foldl (fun _ _ h => State.noneDue_put h _ _) _
    (State.noneDue_spdmAnswer h true r)) _ _) _ _

theorem State.noneDue_retrainPort {s : State} (h : s.noneDue) (p : Nat) : (s.retrainPort p).noneDue := by
  unfold State.retrainPort
  split <;> exact h

theorem State.noneDue_measureLatency {s : State} (h : s.noneDue) (p : Nat) : (s.measureLatency p).noneDue := by
  unfold State.measureLatency
  refine State.noneDue_foldl (fun s _ h => State.noneDue_of_held (State.held_sendOn _ _ _ _ _) ?_) _ ?_
  · exact h
  · exact h

theorem State.noneDue_writeMap {s : State} (h : s.noneDue) (map : Nat) (lock : Bool) : (s.writeMap map lock).noneDue := by
  have forget (s : State) (lo hi : Nat) (h : s.noneDue) : (s.forgetHbm lo hi).noneDue := by
    unfold State.forgetHbm
    split <;> exact h
  have remap : (s.remapRegions map).noneDue := State.noneDue_foldl (fun _ _ h => forget _ _ _ h) _ (State.noneDue_put h _ _)
  have locked (t : State) (h : t.noneDue) : (if lock then t.put F.DM_MAP_LOCK 1 else t).noneDue := by
    split <;> exact h
  unfold State.writeMap
  refine locked _ ?_
  split
  · exact remap
  · exact h

theorem State.noneDue_ackWrite {s : State} (h : s.noneDue) (a : Nat) : (s.ackWrite a).noneDue := by
  unfold State.ackWrite State.ackTo
  split_ifs <;> exact h

theorem State.noneDue_sensor {s : State} (h : s.noneDue) (id reading : Nat) : (s.sensor id reading).noneDue := by
  unfold State.sensor
  dsimp only
  split
  · exact h
  · exact State.noneDue_of_held (State.frame_queuePldm _ _ _).held h

theorem State.noneDue_setClock {s : State} (h : s.noneDue) (mhz : Nat) : (s.setClock mhz).noneDue := by
  unfold State.setClock
  split
  · exact h
  · exact State.noneDue_sensor (State.noneDue_put h _ _) _ _

theorem State.noneDue_noteThrottle {s : State} (h : s.noneDue) (lowered : Bool) : (s.noteThrottle lowered).noneDue := by
  unfold State.noteThrottle
  split_ifs <;> exact h

theorem State.noneDue_manageClock {s : State} (h : s.noneDue) : s.manageClock.noneDue := by
  have drawn : ({ s with draws := s.draws + 1 } : State).noneDue := h
  unfold State.manageClock
  split
  · exact State.noneDue_noteThrottle (State.noneDue_setClock h _) _
  · dsimp only
    split
    · exact State.noneDue_noteThrottle drawn _
    · split
      · refine State.noneDue_noteThrottle ?_ _
        unfold State.clockUp
        split
        · exact drawn
        · exact State.noneDue_setClock drawn _
      · exact State.noneDue_noteThrottle (State.noneDue_setClock drawn _) _

theorem State.noneDue_pldmEffect {s : State} (h : s.noneDue) (r : PldmReq) : (s.pldmEffect r).noneDue := by
  unfold State.pldmEffect State.pldmAck
  dsimp only
  split
  · exact h
  · split_ifs <;> exact h
  · exact h

/-! ## Every row -/

/-- Whatever state the outcome goes on in, no action stands due in it. -/
def LeavesNoneDue (o : Host.Outcome State Fault Refusal) : Prop := ∀ t, o = .next t → t.noneDue

theorem leavesNoneDue_done {u : State} (h : u.noneDue) : LeavesNoneDue (done u) := by
  intro t ht
  cases ht
  exact h

theorem leavesNoneDue_settle (u : State) : LeavesNoneDue (done u.settle) := leavesNoneDue_done u.noneDue_settle

/-- A row that settles where its condition holds and does nothing elsewhere. -/
theorem leavesNoneDue_guarded {s : State} (h : s.noneDue) (c : Prop) [Decidable c] (u : State) :
    LeavesNoneDue (done (if c then u.settle else s)) := by
  split
  · exact leavesNoneDue_settle u
  · exact leavesNoneDue_done h

section Rows
variable {s : State} (h : s.noneDue)
include h

/-- A row that does not settle: each state that it may end in has no action due. -/
theorem leavesNoneDue_unsettled (c : Prop) [Decidable c] {u : State} (hu : u.noneDue) : LeavesNoneDue (done (if c then u else s)) := by
  split
  · exact leavesNoneDue_done hu
  · exact leavesNoneDue_done h

theorem leavesNoneDue_tickSend : LeavesNoneDue (execTickSend s) := by
  unfold execTickSend
  split
  · split
    · exact leavesNoneDue_settle _
    · exact leavesNoneDue_done h
  · exact leavesNoneDue_done h

theorem leavesNoneDue_periodStart : LeavesNoneDue (execPeriodStart s) := by
  unfold execPeriodStart
  split
  · exact leavesNoneDue_guarded h _ _
  · exact leavesNoneDue_done h

theorem leavesNoneDue_clauseStart (c : Fin 16) : LeavesNoneDue (execClauseStart c s) := by
  unfold execClauseStart
  split
  · exact leavesNoneDue_guarded h _ _
  · exact leavesNoneDue_done h

theorem leavesNoneDue_clauseDeadline (c : Fin 16) : LeavesNoneDue (execClauseDeadline c s) := by
  unfold execClauseDeadline
  split
  · exact leavesNoneDue_guarded h _ _
  · exact leavesNoneDue_done h

theorem leavesNoneDue_recorderEnable : LeavesNoneDue (execRecorderEnable s) := by
  unfold execRecorderEnable
  split
  · exact leavesNoneDue_settle _
  · exact leavesNoneDue_guarded h _ _

theorem leavesNoneDue_clusterRetirementEffect (cluster : Fin 264) : LeavesNoneDue (execClusterRetirementEffect cluster s) := by
  unfold execClusterRetirementEffect
  dsimp only
  split
  · split
    · exact leavesNoneDue_done h
    · exact leavesNoneDue_settle _
  · exact leavesNoneDue_done h

theorem leavesNoneDue_solveJobStart (entry : BitVec 16) : LeavesNoneDue (execSolveJobStart entry s) := by
  unfold execSolveJobStart
  split
  · exact leavesNoneDue_guarded h _ _
  · exact leavesNoneDue_done h

theorem leavesNoneDue_solveJobEnd (entry : BitVec 16) : LeavesNoneDue (execSolveJobEnd entry s) := by
  unfold execSolveJobEnd
  split
  · exact leavesNoneDue_guarded h _ _
  · exact leavesNoneDue_done h

theorem leavesNoneDue_patrolScrub (stack : Fin 16) (findings : List ScrubFinding) : LeavesNoneDue (execPatrolScrub stack findings s) := by
  unfold execPatrolScrub
  split
  · exact leavesNoneDue_done h
  · exact leavesNoneDue_settle _

theorem leavesNoneDue_retryEpisodeTimeout (port : Fin 8) : LeavesNoneDue (execRetryEpisodeTimeout port s) := by
  unfold execRetryEpisodeTimeout
  split
  · exact leavesNoneDue_guarded h _ _
  · exact leavesNoneDue_done h

theorem leavesNoneDue_collectiveWatchdogExpiry (ring : Fin 64) (seq : BitVec 48) : LeavesNoneDue (execCollectiveWatchdogExpiry ring seq s) := by
  unfold execCollectiveWatchdogExpiry
  dsimp only
  split
  · exact leavesNoneDue_settle _
  · exact leavesNoneDue_settle _
  · exact leavesNoneDue_settle _
  · exact leavesNoneDue_guarded h _ _
  · exact leavesNoneDue_done h

theorem leavesNoneDue_oxlTimeout (tag : BitVec 12) : LeavesNoneDue (execOxlTimeout tag s) := by
  unfold execOxlTimeout
  split
  · exact leavesNoneDue_settle _
  · exact leavesNoneDue_done h

theorem leavesNoneDue_secureBoot (slot0 slot1 : FlashSlot) : LeavesNoneDue (execSecureBoot slot0 slot1 s) := by
  unfold execSecureBoot
  split
  · exact leavesNoneDue_guarded h _ _
  · exact leavesNoneDue_done h

theorem leavesNoneDue_lidBreach : LeavesNoneDue (execLidBreach s) := by
  unfold execLidBreach
  split
  · exact leavesNoneDue_done h
  · exact leavesNoneDue_settle _

theorem leavesNoneDue_oxlPortTrained (link : Fin 2) : LeavesNoneDue (execOxlPortTrained link s) := leavesNoneDue_unsettled h _ (u := s.linkTrained _) h

/-- A loss of the input is a reset of reach P, where the module had power (R464, R487). -/
theorem leavesNoneDue_overvoltageStop : LeavesNoneDue (execOvervoltageStop s) := by
  unfold execOvervoltageStop
  split
  · exact leavesNoneDue_done h
  · exact leavesNoneDue_done s.noneDue_resetP

theorem leavesNoneDue_brownOut : LeavesNoneDue (execBrownOut s) := leavesNoneDue_overvoltageStop h

theorem leavesNoneDue_thermtrip : LeavesNoneDue (execThermtrip s) := by
  have latched (u : State) (hu : u.noneDue) : ({ u with pwr := { u.pwr with thermLatch := true } } : State).noneDue := hu
  unfold execThermtrip
  split
  · exact leavesNoneDue_done h
  · exact leavesNoneDue_done (latched _ s.noneDue_resetP)

theorem leavesNoneDue_powerMeasurement (mv ma dw : BitVec 16) : LeavesNoneDue (execPowerMeasurement mv ma dw s) := by
  have shown (x : InputSample) (v i p : Nat) : ((((s.sampled x).put F.PW_INPUT_VIN v).put F.PW_INPUT_IIN i).put F.PW_INPUT_PIN p).noneDue := h
  unfold execPowerMeasurement
  refine leavesNoneDue_unsettled h _ ?_
  exact State.noneDue_manageClock (State.noneDue_sensor (State.noneDue_sensor (State.noneDue_sensor (shown ..) _ _) _ _) _ _)

theorem leavesNoneDue_mrstAssertion : LeavesNoneDue (execMrstAssertion s) := by
  unfold execMrstAssertion
  split
  · exact leavesNoneDue_done h
  · exact leavesNoneDue_done (State.noneDue_put (State.noneDue_put s.noneDue_resetM _ _) _ _)

theorem leavesNoneDue_fuseLoadDone (image : FuseImage) : LeavesNoneDue (execFuseLoadDone image s) := by
  have loaded (u : State) (hu : u.noneDue) : (({ u with pwr := { u.pwr with trimTries := 0, fuseLoaded := true } } : State).put
      F.PW_STATUS_TRIM_VALID 1).noneDue := hu
  unfold execFuseLoadDone
  split
  · exact leavesNoneDue_done h
  · split
    · exact leavesNoneDue_done (State.noneDue_badLoad h)
    · refine leavesNoneDue_done (State.noneDue_setModule (loaded _ ?_) _)
      split
      · exact State.noneDue_firstLoad h _
      · exact h

theorem leavesNoneDue_inputCrosses10V (rising : Bool) : LeavesNoneDue (execInputCrosses10V rising s) := by
  have dropped (u : State) (hu : u.noneDue) : ({ (u.put F.RS_MRST_LEVEL 1) with
      pwr := { u.pwr with above10 := false, thermLatch := false, mrstDriven := false } } : State).noneDue := hu
  unfold execInputCrosses10V
  refine leavesNoneDue_done ?_
  split
  · split
    · exact h
    · dsimp only
      split <;> exact h
  · refine dropped _ ?_
    split
    · exact h
    · exact s.noneDue_resetP

theorem leavesNoneDue_spdmMailboxGo (len : BitVec 13) (req : SpdmReq) : LeavesNoneDue (execSpdmMailboxGo len req s) := by
  refine leavesNoneDue_unsettled h _ (State.noneDue_mailboxGo ?_ req)
  split <;> exact h

theorem leavesNoneDue_spdmMctpRequest (req : SpdmReq) : LeavesNoneDue (execSpdmMctpRequest req s) :=
  leavesNoneDue_unsettled h _ (u := (s.spdmAnswer false req).1.send (.spdm false (s.spdmAnswer false req).2)) (State.noneDue_spdmAnswer h false req)

theorem leavesNoneDue_mctpControlMessage (m : MctpControl) : LeavesNoneDue (execMctpControlMessage m s) := by
  refine leavesNoneDue_unsettled h _ ?_
  cases m <;> exact h

theorem leavesNoneDue_pldmRequest (r : PldmReq) : LeavesNoneDue (execPldmRequest r s) := by
  have drawn : ({ s with draws := s.draws + 1 } : State).noneDue := h
  exact leavesNoneDue_unsettled h _ (State.noneDue_pldmEffect drawn r)

theorem leavesNoneDue_jtagAccess (op : JtagOp) : LeavesNoneDue (execJtagAccess op s) := by
  cases op with
  | bypass | samplePreload | extest | idcode | halt => exact leavesNoneDue_done h
  | observe a => exact leavesNoneDue_unsettled h _ (u := s.send _) h
  | memoryRead a => exact leavesNoneDue_guarded h _ _
  | memoryWrite a v => exact leavesNoneDue_guarded h _ _
  | resetAssert d => exact leavesNoneDue_guarded h _ _
  | resetAssertModule => exact leavesNoneDue_unsettled h _ (s.noneDue_resetOwnM _)
  | resetRelease => exact leavesNoneDue_unsettled h _ (u := s.dropDebug) h

/-- Every row leaves no action to be taken: it settles, or it does nothing that calls for one. -/
theorem leavesNoneDue_exec (i : Instr) : LeavesNoneDue (exec i s) := by
  cases i with
  | nop | query | setConfig | fence | eventAck | loadParseLoad | loadParseUnload | solve | rootTableSetup | rootTableWrite | rootTableRead |
    rootTableInvalidate | updatePrepare | updateApply | updateRecover | setRuleRule | setRuleTable | setRuleRead | dmaCopy | fill |
    loadShard | swapTense | verifyShard | gatherSetup | gatherFetch | gatherRelease | runProgram | setGramTapDefine | setGramTapClear |
    setGramTapRelease | scaleLedgerSetup | scaleLedgerSetMode | scaleLedgerDefine | scaleLedgerRead | scaleLedgerWarmup | reduceScatter |
    allGather | allReduce | broadcast | permute | send | recv | ringExchange | setPosition | setRoutesMap | setRoutesDirmap |
    setRoutesBreaks | setRoutesPort | noiseReport | reshardStart | reshardResume | reshardReverse | reshardCommit | setBuddyHome |
    setBuddyHold | setBuddyReleaseHome | setBuddyReleaseHold | shadowForward | shadowRoots | shadowReplay | shadowClose | shadowSeed |
    shadowRecover | digestRange | digestArbitrate | digestRecopy | promote | restoreFromShadow | checkpointOut | checkpointIn | periodPlan |
    periodArm | periodHalt | replayFreeze | replayThaw | replayCopyOut | replayReplay | replayClear | attestChain | attestQuote | keyImport
    | keyDestroy | keyKexCert | keyAdvanceSvn | debugChallenge | debugUnlock | selfTest | conformanceRun | injectError | resetBlock |
    tmSlackRead | lowWordReadLatch | commandDispatch | deferredDispatch | commandCompletion | hbmTemperatureRead | reverifyPass |
    resetRelease | readClearAccess | breakMapWord0Read | registerWrite =>
    exact leavesNoneDue_settle _
  | ringDoorbell | ringEnable | ringDisable | eventRingEnable | timeSend | timeMessage | holdover | timebaseLost | tickrefEdge |
    tickrefEdgeMissing | tickMessage | readyToCommitReport | doneReport | reduceMessage | grantMessage | noiseReduceSend | commit |
    haltMessage | idleFlit | flitError | nak | ackTimeout | laneLockLoss | portRetrainDone | zpCtrlForceDown | portTrainingDone | discover |
    echoReq | echoRsp | linkState | reservedTypeFlit | oxlInit | oxlTrainingTimeout | powerWarning | powerRecovered | overvoltage |
    junctionTemperatureSample | quarterWatchdog | pllLockLoss | cpLockup | domainReady | commandRead | identReq | identRsp |
    collectiveMessage | shadowMessage | p2pMessage | bulkMessage | hbmInitDone =>
    exact leavesNoneDue_guarded h _ _
  | oxlRead | oxlWrite | oxlDoorbell | snpInv | snpShared | oxlData | oxlAck | oxlL0Loss | l0ExitToRecovery =>
    exact leavesNoneDue_guarded h _ _
  | qcRetireReqWrite q i p => exact leavesNoneDue_unsettled h _ (State.noneDue_requestRetirement h _ _ _)
  | cpEvtAckWrite ack => exact leavesNoneDue_unsettled h _ (State.noneDue_ackWrite h _)
  | dmMapWrite map lock => exact leavesNoneDue_unsettled h _ (State.noneDue_writeMap h _ _)
  | zpCtrlRetrain p => exact leavesNoneDue_unsettled h _ (State.noneDue_retrainPort h _)
  | latencyMeasurement p => exact leavesNoneDue_unsettled h _ (State.noneDue_measureLatency h _)
  | inputQualified => exact leavesNoneDue_unsettled h _ (State.noneDue_put h _ _)
  | railsInRegulation => exact leavesNoneDue_unsettled h _ h
  | moduleWatchdog => exact leavesNoneDue_unsettled h _ (s.noneDue_resetOwnM _)
  | refclkLoss => exact leavesNoneDue_unsettled h _ (s.noneDue_resetOwnM _)
  | powerOnSelfChecksDone => exact leavesNoneDue_unsettled h _ (State.noneDue_put h _ _)
  | alertClearWrite => exact leavesNoneDue_unsettled h _ (State.noneDue_put h _ _)
  | tickSend => exact leavesNoneDue_tickSend h
  | periodStart => exact leavesNoneDue_periodStart h
  | clauseStart c => exact leavesNoneDue_clauseStart h c
  | clauseDeadline c => exact leavesNoneDue_clauseDeadline h c
  | recorderEnable => exact leavesNoneDue_recorderEnable h
  | clusterRetirementEffect cluster => exact leavesNoneDue_clusterRetirementEffect h cluster
  | solveJobStart entry => exact leavesNoneDue_solveJobStart h entry
  | solveJobEnd entry => exact leavesNoneDue_solveJobEnd h entry
  | patrolScrub stack findings => exact leavesNoneDue_patrolScrub h stack findings
  | retryEpisodeTimeout port => exact leavesNoneDue_retryEpisodeTimeout h port
  | collectiveWatchdogExpiry ring seq => exact leavesNoneDue_collectiveWatchdogExpiry h ring seq
  | oxlTimeout tag => exact leavesNoneDue_oxlTimeout h tag
  | secureBoot slot0 slot1 => exact leavesNoneDue_secureBoot h slot0 slot1
  | lidBreach => exact leavesNoneDue_lidBreach h
  | oxlPortTrained link => exact leavesNoneDue_oxlPortTrained h link
  | overvoltageStop => exact leavesNoneDue_overvoltageStop h
  | brownOut => exact leavesNoneDue_brownOut h
  | thermtrip => exact leavesNoneDue_thermtrip h
  | powerMeasurement mv ma dw => exact leavesNoneDue_powerMeasurement h mv ma dw
  | mrstAssertion => exact leavesNoneDue_mrstAssertion h
  | fuseLoadDone image => exact leavesNoneDue_fuseLoadDone h image
  | inputCrosses10V rising => exact leavesNoneDue_inputCrosses10V h rising
  | spdmMailboxGo len req => exact leavesNoneDue_spdmMailboxGo h len req
  | spdmMctpRequest req => exact leavesNoneDue_spdmMctpRequest h req
  | mctpControlMessage m => exact leavesNoneDue_mctpControlMessage h m
  | pldmRequest r => exact leavesNoneDue_pldmRequest h r
  | jtagAccess op => exact leavesNoneDue_jtagAccess h op

end Rows

/-- Settles O2: the rows that settle take what is due, and the others call for no action. -/
theorem stepTakesItsActions : Obligations.StepTakesItsActions := by
  unfold Obligations.StepTakesItsActions
  intro s t h ht
  unfold step at ht
  cases hp : s.pending with
  | nil =>
    rw [hp] at ht
    cases ht
    exact h
  | cons c rest =>
    rw [hp] at ht
    have dropped : (s.withPending rest).noneDue := h
    exact leavesNoneDue_exec dropped c t ht

end Sys2Proof.Machine

/-!
PROOF. REPLAY_CONTROL freezes, copies, clears and re-runs the records of the recorder (statement ReplayControl).
-/
namespace Sys2Proof.Machine

/-! ## A write that no watcher is concerned with -/

/-- A write in a range that nothing watches spoils nothing (R41, R157, R186, R196, R237, R271). -/
theorem State.spoilBy_unwatched {s : State} {w : WriteNote} (h : s.Unwatched w.addr w.len) : s.spoilBy w = s := by
  obtain ⟨not2, not3, closed, tables, jobs⟩ := h
  have idle : ¬ (s.pcState = 2 ∨ s.pcState = 3) := not_or.2 ⟨not2, not3⟩
  have h1 : s.noteEvaluation w = s := by
    unfold State.noteEvaluation
    split
    · exact if_neg fun h => idle h.1
    · rfl
  have h2 : s.spoilMasks w = s := if_neg fun h => idle h.1
  have h3 : s.spoilSites w = s := if_neg not2
  have h4 : s.spoilRoots w = s := if_neg not2
  have h5 : s.spoilTables w = s := by
    have ht : s.cj.tables.map (fun t => if overlaps w.addr w.len t.address t.length then { t with spoiled := true } else t) = s.cj.tables :=
      List.map_congr_left (fun t m => if_neg (by simp [tables t m])) |>.trans (List.map_id _)
    have hj : s.cj.jobs.map (fun j => if overlaps w.addr w.len j.table.address j.table.length then { j with spoiled := true } else j) =
        s.cj.jobs :=
      List.map_congr_left (fun j m => if_neg (by simp [jobs j m])) |>.trans (List.map_id _)
    unfold State.spoilTables
    dsimp only
    rw [ht, hj]
  have h6 : s.spoilCommit w = s := if_neg (by simp [closed])
  unfold State.spoilBy
  rw [h1, h2, h3, h4, h5, h6]

/-- At the end of a step, what a calm state has written where nothing watches is looked at and forgotten. -/
theorem State.settle_unwatched {s : State} (h : s.Calm) (ws : List WriteNote) (hw : ∀ w ∈ ws, s.Unwatched w.addr w.len) :
    ({ s with wrote := ws } : State).settle = s := by
  have emptied : ({ s with wrote := [] } : State) = s := by
    have hn : s.wrote = [] := h.noted.1
    rw [← hn]
  have met : ({ s with wrote := ws } : State).meetFailures = { s with wrote := ws } := by
    obtain ⟨-, failed, missing⟩ := h.noted
    unfold State.meetFailures
    dsimp only
    rw [failed, List.foldl_nil, ← failed, ← missing]
  have spoilt : ({ s with wrote := ws } : State).spoil = s := by
    unfold State.spoil
    cases ws with
    | nil => exact emptied
    | cons w ws =>
      dsimp only
      rw [emptied]
      exact State.foldl_id _ _ s fun w m => State.spoilBy_unwatched (hw w m)
  calc ({ s with wrote := ws } : State).settle = ((((((s.act).pump).act).pump).act).pumpQueues).act := by
        unfold State.settle
        rw [met, spoilt]
    _ = s.settle := by
        unfold State.settle
        rw [State.meetFailures_none h.noted, State.spoil_none h.noted.1]
    _ = s := State.settle_calm h

/-- A command of a calm state that ends with bytes stored where nothing watches has stored them and no more. -/
theorem State.settle_stored {s : State} (h : s.Calm) {a : Nat} {bs : List Byte} (hu : s.Unwatched a bs.length) (note : Option CmdRef)
    (c : CmdRef) (d : Done) : ((s.stored a bs note).finish c d).settle = ({ s with hbm := s.hbm.write a bs } : State).finish c d := by
  have noted : ∃ ws : List WriteNote, s.noteWrite a bs.length note = { s with wrote := ws } ∧ ∀ w ∈ ws, w.addr = a ∧ w.len = bs.length := by
    have none : s.wrote = [] := h.noted.1
    unfold State.noteWrite
    split
    · exact ⟨[], by rw [← none], by simp⟩
    · exact ⟨_, rfl, by simp [none]⟩
  obtain ⟨ws, hws, at_a⟩ := noted
  unfold State.stored
  rw [hws]
  refine State.settle_unwatched (s := ({ s with hbm := s.hbm.write a bs } : State).finish c d)
    (State.Calm.finish (h.memory _ s.comp s.poison s.inject) c d) ws fun w m => ?_
  obtain ⟨ha, hl⟩ := at_a w m
  rw [ha, hl]
  exact hu

/-! ## Commands of a calm state -/

/-- A command whose body ends in a calm state ends there. -/
theorem State.run_settle_calm {s t : State} {h : Hdr} {op : Nat} {b : Binding} {body : CmdRef → State → Body} {d : Done}
    (hb : s.bindingOk h b = true) (he : body (s.refOf h op) s = (t, some d)) (hm : t.oxl.missing = s.oxl.missing) (ht : t.Calm) :
    (s.run h op b body).settle = t.finish (s.refOf h op) d := by
  rw [State.run_ends hb he hm, State.settle_calm (ht.finish _ _)]

/-- What REPLAY_CONTROL is to re-run is of no concern to the end of a step. -/
theorem State.Calm.replay {s : State} (h : s.Calm) (r : Option ReplayRun) : ({ s with pd := { s.pd with replay := r } } : State).Calm :=
  ⟨⟨h.noted, h.due, h.period, h.coll, h.commit, h.shadow⟩, h.flights, h.depth, h.waiting⟩

/-- Nor are the recorder's records. -/
theorem State.Calm.recorder {s : State} (h : s.Calm) (r : RecorderState) : ({ s with rr := r } : State).Calm :=
  ⟨⟨h.noted, h.due, h.period, h.coll, h.commit, h.shadow⟩, h.flights, h.depth, h.waiting⟩

theorem recorderFields_not_calm {f : Field} (hf : f ∈ [F.RR_CTRL_FREEZE, F.RR_WPTR_WPTR, F.RR_OLDEST_OLDEST, F.PC_STATUS_REPLAY]) :
    ¬ calmField f := by
  have keys : ∀ f ∈ [F.RR_CTRL_FREEZE, F.RR_WPTR_WPTR, F.RR_OLDEST_OLDEST, F.PC_STATUS_REPLAY], f.key ≠ F.PC_STATUS_STATE.key ∧
      f.key ≠ F.SH_HOME_VALID.key ∧ f.key ≠ F.BW_QUEUE_DEPTH.key ∧ ∀ k < 64, f.key ≠ (F.CP_RING_STATUS_WAITING k).key := by decide
  obtain ⟨h1, h2, h3, h4⟩ := keys f hf
  exact not_calmField h1 h2 h3 h4

theorem State.scanRing_scanned {s : State} (h : s.pd.scanned = true) : s.scanRing = s := if_pos (by rw [h]; rfl)

/-- A register that is listed as changed may be written. -/
theorem State.sameRegs_put {s t : State} {changed : List Field} (h : s.sameRegs t changed) {f : Field} (hf : f.key ∈ changed.map Field.key)
    (v : Nat) : s.sameRegs (t.put f v) changed :=
  fun g hg => (State.get_put_other (fun e => hg (e.symm ▸ hf)) t v).trans (h g hg)

/-! ## The recorder -/

/-- Where the ring lies does not depend on whether the recorder is enabled. -/
theorem State.recordsFound_enable (s : State) (v : Nat) : (s.put F.RR_CTRL_ENABLE v).recordsFound = s.recordsFound := by
  have base : (s.put F.RR_CTRL_ENABLE v).get F.RR_BASE_BASE = s.get F.RR_BASE_BASE := State.get_put_other (by decide) s v
  have size : (s.put F.RR_CTRL_ENABLE v).get F.RR_CTRL_SIZE = s.get F.RR_CTRL_SIZE := State.get_put_other (by decide) s v
  have places : (s.put F.RR_CTRL_ENABLE v).headerPlaces = s.headerPlaces := by
    unfold State.headerPlaces State.ringSize
    rw [base, size]
    rfl
  unfold State.recordsFound State.ringSize
  rw [places, base, size]
  rfl

/-- The scan of an enabled recorder takes the records that it finds, and writes no memory. -/
theorem State.scanRing_scans {s : State} (h : s.pd.scanned = false) (on : s.get F.RR_CTRL_ENABLE = 1) :
    s.scanRing.get F.RR_CTRL_ENABLE = 1 ∧ s.scanRing.pd.scanned = true ∧ s.scanRing.hbm = s.hbm ∧ s.scanRing.rr.records = s.recordsFound := by
  have scans : ¬ (s.pd.scanned || !s.on F.RR_CTRL_ENABLE) = true := by simp [h, on]
  have enabled : F.RR_CTRL_ENABLE.key ≠ F.RR_OLDEST_OLDEST.key ∧ F.RR_CTRL_ENABLE.key ≠ F.RR_WPTR_WPTR.key := by decide
  unfold State.scanRing State.putOldest
  rw [if_neg scans]
  dsimp only
  rw [State.get_put_other enabled.1]
  split
  · rw [State.get_put_other enabled.2]
    exact ⟨on, rfl, rfl, rfl⟩
  · exact ⟨on, rfl, rfl, rfl⟩

section Commands
variable {h : Hdr} {s : State} (calm : s.Calm) (scanned : s.pd.scanned = true) (bound : s.bindingOk h .notBound = true)
include calm bound

theorem execReplayFreeze_calm : exec (.replayFreeze h) s = .next ((s.freezeRing true).finish (s.refOf h 0x73) ⟨ST_OK, 0, 0⟩) :=
  congrArg done (State.run_settle_calm bound rfl rfl ((calm.put (recorderFields_not_calm (by simp)) _).recorder _))

theorem execReplayThaw_calm : exec (.replayThaw h) s = .next ((s.freezeRing false).finish (s.refOf h 0x73) ⟨ST_OK, 0, 0⟩) :=
  congrArg done (State.run_settle_calm bound rfl rfl (calm.put (recorderFields_not_calm (by simp)) _))

include scanned

theorem execReplayClear_calm : exec (.replayClear h) s =
    .next (((({ s with rr := { s.rr with records := [] } } : State).put F.RR_WPTR_WPTR 0).put F.RR_OLDEST_OLDEST noPeriod).finish
      (s.refOf h 0x73) ⟨ST_OK, 0, 0⟩) := by
  refine congrArg done (State.run_settle_calm bound ?_ rfl
    (((calm.recorder _).put (recorderFields_not_calm (by simp)) _).put (recorderFields_not_calm (by simp)) _))
  unfold State.clearRing
  rw [State.scanRing_scanned scanned]
  rfl

/-- COPY_OUT of Periods whose records are not all there is refused. -/
theorem execReplayCopyOut_refused {n : BitVec 48} {k : BitVec 32} {a len : BitVec 64} (some_ : 1 ≤ k.toNat) (aligned : a.toNat % 64 = 0)
    (lacking : s.rr.records.length < k.toNat ∨ s.recordsOf n.toNat k.toNat = none) :
    exec (.replayCopyOut h n k a len) s = .next (s.finish (s.refOf h 0x73) ⟨ST_BAD_PARAM, 0, 0⟩) := by
  refine congrArg done (State.run_settle_calm bound ?_ rfl calm)
  unfold State.copyRecords
  rw [State.scanRing_scanned scanned]
  dsimp only
  rw [if_neg (by omega)]
  split
  · rfl
  · rw [lacking.resolve_left (by assumption)]

omit calm in
/-- COPY_OUT of Periods whose records are there stores them at its destination. -/
theorem run_copyRecords (sound : s.Sound) {n k a len : Nat} {bs : List Byte} (some_ : 1 ≤ k) (aligned : a % 64 = 0)
    (there : k ≤ s.rr.records.length) (records : s.recordsOf n k = some bs) (fits : bs.length ≤ len) (pos : 0 < bs.length)
    (inHbm : a + bs.length ≤ hbmEnd) : s.run h 0x73 .notBound (fun c s => s.copyRecords n k a len c) =
      (s.stored a bs (some (s.refOf h 0x73))).finish (s.refOf h 0x73) ⟨ST_OK, 0, crc64 bs % 2 ^ 64⟩ := by
  have takes : writable a bs.length = true := by
    unfold writable
    rw [rangeSpace_hbm inHbm (by omega)]
  have unarmed : s.useCritical 8 0 (some (s.refOf h 0x73)) = (s, false) := by
    unfold State.useCritical
    rw [sound.inject]
    rfl
  refine State.run_ends bound ?_ (by rw [State.stored, State.noteWrite_eq])
  unfold State.copyRecords
  rw [State.scanRing_scanned scanned]
  dsimp only
  rw [if_neg (by omega), if_neg (by omega), records]
  dsimp only
  rw [if_neg (not_or.2 ⟨by omega, not_not.2 takes⟩), unarmed]
  dsimp only
  unfold State.writing
  rw [State.writeAt_sound sound inHbm (by omega)]
  rfl

/-- REPLAY on a module that is not HALTED is refused. -/
theorem execReplayReplay_refused {n : BitVec 48} {a len : BitVec 64} (aligned : a.toNat % 64 = 0) (running : s.pcState ≠ 4) :
    exec (.replayReplay h n a len) s = .next (s.finish (s.refOf h 0x73) ⟨ST_NOT_READY, 0, 0⟩) := by
  refine congrArg done (State.run_settle_calm bound ?_ rfl calm)
  unfold State.armReplay
  rw [State.scanRing_scanned scanned]
  simp only [State.guard, firstFailure, aligned, running, ne_eq, not_true_eq_false, not_false_eq_true, decide_false, decide_true,
    Bool.false_eq_true, if_false, if_true]

/-- REPLAY of the next Period, whose record is there, on a HALTED module notes what the next PERIOD_ARM is to re-run. -/
theorem execReplayReplay_calm {n : BitVec 48} {a len : BitVec 64} (aligned : a.toNat % 64 = 0) (halted : s.pcState = 4)
    (next : n.toNat = nextPeriod (s.get F.PC_COMMITTED_COMMITTED)) (found : (s.findRecord n.toNat).isSome = true)
    (room : 0x100000 ≤ len.toNat) (inHbm : a.toNat + 0x100000 ≤ hbmEnd) : exec (.replayReplay h n a len) s =
      .next ((({ s with pd := { s.pd with replay := some ⟨n.toNat, a.toNat⟩ } } : State).put F.PC_STATUS_REPLAY 1).finish
        (s.refOf h 0x73) ⟨ST_OK, 0, 0⟩) := by
  have takes : writable a.toNat 0x100000 = true := by
    unfold writable
    rw [rangeSpace_hbm inHbm (by omega)]
  refine congrArg done (State.run_settle_calm bound ?_ rfl ((calm.replay _).put (recorderFields_not_calm (by simp)) _))
  unfold State.armReplay
  rw [State.scanRing_scanned scanned]
  have large : ¬ len.toNat < 0x100000 := by omega
  have recorded : (s.findRecord n.toNat).isNone = false := by
    rw [← Option.not_isSome, found]
    rfl
  refine State.guard_pass fun c m => ?_
  simp only [List.mem_cons, List.not_mem_nil, or_false] at m
  rcases m with rfl | rfl | rfl
  · simp [aligned]
  · simp [halted]
  · simp only [next] at recorded
    simp [next, recorded, large, takes]

end Commands

/-- Settles O44: the commands' bodies on a calm state, and the scan of a recorder that is enabled. -/
theorem replayControl : Obligations.ReplayControl := by
  unfold Obligations.ReplayControl
  intro h s calm sound scanned bound
  dsimp only
  have refl (changed : List Field) : s.sameRegs s changed := fun _ _ => rfl
  have frozen (v : Nat) : s.sameRegs (s.put F.RR_CTRL_FREEZE v) [F.RR_CTRL_FREEZE] := State.sameRegs_put (refl _) (by simp) v
  have cleared : s.sameRegs ((s.put F.RR_WPTR_WPTR 0).put F.RR_OLDEST_OLDEST noPeriod) [F.RR_WPTR_WPTR, F.RR_OLDEST_OLDEST] :=
    State.sameRegs_put (State.sameRegs_put (refl _) (by simp) 0) (by simp) noPeriod
  refine ⟨⟨_, execReplayFreeze_calm calm bound, State.get_put_same s F.RR_CTRL_FREEZE 1, rfl, rfl, frozen 1⟩,
    ⟨_, execReplayThaw_calm calm bound, State.get_put_same s F.RR_CTRL_FREEZE 0, rfl, frozen 0⟩,
    ⟨_, execReplayClear_calm calm scanned bound, ?_, State.get_put_same .., rfl, cleared⟩,
    fun n k a len some_ aligned => ⟨execReplayCopyOut_refused calm scanned bound some_ aligned, fun bs there records fits pos inHbm => ?_⟩,
    fun n a len aligned => ⟨execReplayReplay_refused calm scanned bound aligned, fun halted next found room inHbm =>
      ⟨_, execReplayReplay_calm calm scanned bound aligned halted next found room inHbm, State.get_put_same .., rfl,
        State.sameRegs_put (f := F.PC_STATUS_REPLAY) (refl _) (by simp) 1⟩⟩, ?_⟩
  · rw [State.get_put_other (by decide), State.get_put_same]
    rfl
  · have run := run_copyRecords scanned bound sound some_ aligned there records fits pos inHbm
    refine ⟨congrArg (fun u : State => done u.settle) run, fun unwatched => ⟨_, State.stores_write s a.toNat bs, ?_⟩⟩
    exact (congrArg (fun u : State => done u.settle) run).trans (congrArg done (State.settle_stored calm unwatched _ _ _))
  · intro s openReg unscanned
    by_cases on : (s.on F.RR_CTRL_ENABLE && s.hubReady) = true
    · refine ⟨s.scanRing, ?_, ?_⟩
      · exact congrArg done (if_pos on)
      · rw [State.recordsFound_enable]
        exact State.scanRing_scans unscanned (by simp at on; exact on.1)
    · refine ⟨(s.put F.RR_CTRL_ENABLE 1).scanRing, ?_, State.scanRing_scans unscanned (State.get_put_same ..)⟩
      exact congrArg done ((if_neg on).trans (if_pos openReg))

end Sys2Proof.Machine

/-!
PROOF. What the Period controller holds and shows, and the operations that leave it as it is (for the statements of the Period).
-/
namespace Sys2Proof.Machine

/-! ## The Period controller's part of the state -/

/-- A register of the Period controller, by its key: the page of the map that starts at 0x20000. -/
abbrev pcKey (k : Nat) : Bool := decide (0x800000 ≤ k ∧ k < 0x801000)

/-- What the Period controller holds, beside the entries of the Period's record; its registers; and the companion memory that a body found to
be missing. -/
def State.ctrl (s : State) : PdState × (Field → Nat) × Option (Nat × Nat) :=
  ({ s.pd with entries := [], entryCount := 0, events := 0 }, fun f => if pcKey f.key then s.get f else 0, s.oxl.missing)

theorem State.ctrl_eq {s t : State} (pd : { t.pd with entries := [], entryCount := 0, events := 0 } = { s.pd with entries := [], entryCount := 0, events := 0 })
    (regs : ∀ f : Field, pcKey f.key = true → t.get f = s.get f) (missing : t.oxl.missing = s.oxl.missing) : t.ctrl = s.ctrl := by
  unfold State.ctrl
  rw [pd, missing]
  congr 2
  funext f
  split
  · exact regs f (by assumption)
  · rfl

theorem State.get_of_ctrl {s t : State} (h : t.ctrl = s.ctrl) (f : Field) (hf : pcKey f.key = true := by decide) : t.get f = s.get f := by
  have hr := congrFun (congrArg (fun x => x.2.1) h) f
  simpa only [State.ctrl, hf, if_true] using hr

theorem State.pd_of_ctrl {s t : State} (h : t.ctrl = s.ctrl) :
    t.pd = { s.pd with entries := t.pd.entries, entryCount := t.pd.entryCount, events := t.pd.events } := by
  have hp := congrArg (fun x => { x.1 with entries := t.pd.entries, entryCount := t.pd.entryCount, events := t.pd.events }) h
  exact hp

theorem State.missing_of_ctrl {s t : State} (h : t.ctrl = s.ctrl) : t.oxl.missing = s.oxl.missing := congrArg (fun x => x.2.2) h

/-- A record update of none of the three. -/
@[simp] theorem State.ctrl_mk (s : State) (latches hbm comp poison inject cp mgmt pwr dm fab coll num gram marks rr cj uu sh sec out draws wrote pending) :
    State.ctrl ⟨s.regs, latches, hbm, comp, poison, inject, cp, s.pd, mgmt, pwr, s.oxl, dm, fab, coll, num, gram, marks, rr, cj, uu, sh, sec, out,
      draws, wrote, pending⟩ = s.ctrl := rfl

theorem State.ctrl_put {f : Field} (hf : pcKey f.key = false) (s : State) (v : Nat) : (s.put f v).ctrl = s.ctrl :=
  State.ctrl_eq rfl (fun g hg => State.get_put_other (fun e => by rw [e, hf] at hg; cases hg) s v) rfl

theorem State.ctrl_bump {f : Field} (hf : pcKey f.key = false) (s : State) (n : Nat) : (s.bump f n).ctrl = s.ctrl := State.ctrl_put hf s _

theorem State.ctrl_foldl {α : Type} {f : State → α → State} (l : List α) (hf : ∀ (s : State), ∀ a ∈ l, (f s a).ctrl = s.ctrl) (s : State) :
    (l.foldl f s).ctrl = s.ctrl := by
  induction l generalizing s with
  | nil => rfl
  | cons a l ih => exact (ih (fun s a ha => hf s a (List.mem_cons_of_mem _ ha)) _).trans (hf s a (List.mem_cons_self ..))

theorem State.SendFrame.ctrl {s t : State} (h : s.SendFrame t) : t.ctrl = s.ctrl := by rw [h]; rfl

/-- No register of the Period controller is one that an event's record changes. -/
theorem pcKey_not_event {f : Field} (hf : pcKey f.key = true) : ¬ eventField f := by
  have listed : ∀ k ∈ eventFields, pcKey k = false := by decide
  have counts : ∀ c < 5, pcKey (F.ER_CLASS_COUNT c).key = false := by decide
  have errors : ∀ k < 16, pcKey (F.HM_ECC_CORRECTED k).key = false ∧ pcKey (F.HM_ECC_UNCORRECTABLE k).key = false ∧
      pcKey (F.HM_ECC_POISONED k).key = false ∧ pcKey (F.HM_ERR_ADDR_ADDR k).key = false := by decide
  have other {k : Nat} (h : pcKey k = false) : f.key ≠ k := fun e => by rw [e, h] at hf; cases hf
  rintro (h | ⟨c, hc, h⟩ | ⟨k, hk, h | h | h | h⟩)
  · exact other (listed _ h) rfl
  · exact other (counts c hc) h
  · exact other (errors k hk).1 h
  · exact other (errors k hk).2.1 h
  · exact other (errors k hk).2.2.1 h
  · exact other (errors k hk).2.2.2 h

theorem State.EventFrame.ctrl {s t : State} (h : s.EventFrame t) : t.ctrl = s.ctrl := by
  refine State.ctrl_eq ?_ (fun f hf => h.regs f (pcKey_not_event hf)) ?_
  · rw [h.rest]
  · rw [h.rest]

theorem State.ctrl_raise {e : Ev} (he : e.cls < 3) (s : State) : (s.raise e).ctrl = s.ctrl := (State.frame_raise he s).ctrl

theorem State.ctrl_emit {e : Ev} (he : e.cls < 5) (s : State) : (s.emit e).ctrl = s.ctrl := (State.frame_emit s he).ctrl

@[simp] theorem State.ctrl_noteEntry (s : State) (en : RecEntry) : (s.noteEntry en).ctrl = s.ctrl := (State.frame_noteEntry s en).ctrl

@[simp] theorem State.ctrl_finishAs (s : State) (noted : Bool) (c : CmdRef) (d : Done) : (s.finishAs noted c d).ctrl = s.ctrl := rfl

/-! ## Memory -/

@[simp] theorem State.ctrl_checkLines (s : State) (c : Option CmdRef) (ls : List Nat) : (s.checkLines c ls).1.ctrl = s.ctrl := by
  induction ls generalizing s with
  | nil => rfl
  | cons l ls ih =>
    have line : (s.checkLine l c).1.ctrl = s.ctrl := (State.frame_checkLine s l c).ctrl
    have small := State.checkLine_class s l c
    rw [State.checkLines]
    split
    · rename_i t ev he
      rw [he] at line small
      rw [State.ctrl_emit (Nat.lt_trans small (by decide)), line]
    · rename_i t ev he
      rw [he] at line small
      rw [ih, State.ctrl_emit (Nat.lt_trans small (by decide)), line]

@[simp] theorem State.ctrl_writeHbm (s : State) (a : Nat) (bs : List Byte) (c : Option CmdRef) : (s.writeHbm a bs c).1.ctrl = s.ctrl := by
  have checked (ls : List Nat) := s.ctrl_checkLines c ls
  unfold State.writeHbm
  dsimp only
  split
  · rfl
  · split
    · exact checked _
    · exact checked _

@[simp] theorem State.ctrl_own (s : State) (a : Nat) (bs : List Byte) : (s.own a bs).ctrl = s.ctrl := s.ctrl_writeHbm a bs none

theorem State.ctrl_noteWrite (s : State) (a n : Nat) (c : Option CmdRef) : (s.noteWrite a n c).ctrl = s.ctrl := by
  rw [State.noteWrite_eq, State.ctrl_mk]

theorem State.ctrl_writeCompanion (s : State) (o : Option OxlOwner) (a : Nat) (bs : List Byte) : (s.writeCompanion o a bs).ctrl = s.ctrl := by
  have parts (l : List (Nat × Nat)) (s : State) : (l.foldl (fun (s : State) p =>
      s.writePart o (a + companionBase, bs.length) none none p.1 ((bs.drop (p.1 - a)).take p.2)) s).ctrl = s.ctrl :=
    State.ctrl_foldl l (fun s p _ => (State.frame_writePart s o _ none none p.1 _).ctrl) s
  unfold State.writeCompanion
  dsimp only
  rw [parts]
  split <;> rfl

@[simp] theorem State.ctrl_writeAt (s : State) (a : Nat) (bs : List Byte) (c : Option CmdRef) : (s.writeAt a bs c).1.ctrl = s.ctrl := by
  unfold State.writeAt
  dsimp only
  split
  · rw [State.ctrl_writeHbm, State.ctrl_noteWrite]
  · split
    · exact s.ctrl_noteWrite a bs.length c
    · split
      · exact s.ctrl_noteWrite a bs.length c
      · exact (State.ctrl_writeCompanion ..).trans (s.ctrl_noteWrite a bs.length c)
  · exact s.ctrl_noteWrite a bs.length c

@[simp] theorem State.ctrl_forgetHbm (s : State) (lo hi : Nat) : (s.forgetHbm lo hi).ctrl = s.ctrl := by
  unfold State.forgetHbm
  split <;> rfl

@[simp] theorem State.ctrl_forgetAt (s : State) (a n : Nat) : (s.forgetAt a n).ctrl = s.ctrl := by
  unfold State.forgetAt
  split
  · exact State.ctrl_forgetHbm ..
  · split <;> rfl
  · rfl

@[simp] theorem State.ctrl_forgetAll (s : State) (ts : List (Nat × Nat)) : (s.forgetAll ts).ctrl = s.ctrl :=
  State.ctrl_foldl ts (fun s t _ => s.ctrl_forgetAt t.1 t.2) s

/-! ## Commands in flight -/

theorem State.ctrl_forgetProgram (s : State) (p : RunParams) (st : Nat) : (s.forgetProgram p st).ctrl = s.ctrl := by
  unfold State.forgetProgram
  split
  · unfold State.forgetOutputs
    split
    · rfl
    · exact State.ctrl_foldl _ (fun s r _ => s.ctrl_forgetAt r.1 r.2) s
  · rfl

@[simp] theorem State.ctrl_endFlight (s : State) (f : Flight) (st : Nat) : (s.endFlight f st).ctrl = s.ctrl := by
  unfold State.endFlight
  dsimp only
  rw [State.ctrl_finishAs]
  split
  · exact State.ctrl_noteEntry ..
  · unfold State.spoilFlight
    split
    · exact State.ctrl_forgetProgram ..
    · rfl

theorem State.ctrl_endFlights (l : List Flight) (st : Flight → Nat) (s : State) :
    (l.foldl (fun (s : State) f => s.endFlight f (st f)) s).ctrl = s.ctrl :=
  State.ctrl_foldl l (fun s f _ => s.ctrl_endFlight f (st f)) s

theorem State.ctrl_submit (s : State) (period entry : Nat) : (s.submit period entry).ctrl = s.ctrl := by
  unfold State.submit
  dsimp only
  split <;> rfl

theorem State.ctrl_attachFlight (s : State) (f : Flight) : (s.attachFlight f).ctrl = s.ctrl := by
  have closed (s : State) (p : Bool) (l : List Closed) : (if p then { s with cp := { s.cp with closes := l } } else s : State).ctrl = s.ctrl := by
    split <;> rfl
  have attached (p : Nat) : (s.attachTo f p).ctrl = s.ctrl := by
    unfold State.attachTo
    dsimp only
    split
    · rw [State.ctrl_submit, closed]
      rfl
    · rw [closed]
      rfl
  unfold State.attachFlight
  split
  · exact attached _
  · rfl
  · exact State.ctrl_endFlight ..

@[simp] theorem State.ctrl_attachWaiting (s : State) : s.attachWaiting.ctrl = s.ctrl :=
  State.ctrl_foldl _ (fun s f _ => s.ctrl_attachFlight f) s

/-! ## The scale ledger and the sample order -/

theorem State.ctrl_startWarmup (s : State) (a : LedgerAttach) (first : Nat) : (s.startWarmup a first).ctrl = s.ctrl := by
  have entries (l : List Nat) (s : State) : (l.foldl (fun s t => s.ownWord (a.entry t + 0x44) 2 0) s).ctrl = s.ctrl :=
    State.ctrl_foldl l (fun s t _ => s.ctrl_own _ _) s
  unfold State.startWarmup State.sealLedger
  dsimp only
  rw [State.ctrl_own, State.ctrl_own, State.ctrl_own, entries]

theorem State.ctrl_armLedger (s : State) (first : Nat) : (s.armLedger first).ctrl = s.ctrl := by
  have warm (s : State) : (s.raise scaleWarmup).ctrl = s.ctrl := State.ctrl_raise (by decide) s
  have rebuilt (s : State) (ok : Bool) (a : LedgerAttach) : (if ok then s else s.rebuildLedger a first).ctrl = s.ctrl := by
    split
    · rfl
    · exact State.ctrl_own ..
  have renewed (s : State) (due : Bool) (a : LedgerAttach) :
      (if due then (s.ownWord (a.address + 0x10) 6 first).sealLedger a else s).ctrl = s.ctrl := by
    split
    · exact (State.ctrl_own ..).trans (State.ctrl_own ..)
    · rfl
  have warmed (s : State) (p : Prop) [Decidable p] (a : LedgerAttach) : (if p then (s.startWarmup a first).raise scaleWarmup else s).ctrl = s.ctrl := by
    split
    · rw [warm, State.ctrl_startWarmup]
    · rfl
  unfold State.armLedger
  dsimp only
  split
  · rw [warm, State.ctrl_mk]
  · rw [warmed, renewed, State.ctrl_mk, rebuilt, State.ctrl_mk]

theorem State.ctrl_writeSampleList (s : State) (p c : Nat) : (s.writeSampleList p c).ctrl = s.ctrl := by
  unfold State.writeSampleList
  split
  · rw [State.ctrl_put (by decide), State.ctrl_writeAt]
  · rfl

/-! ## Collectives and halts -/

theorem State.ctrl_collStatus (s : State) : s.collStatus.ctrl = s.ctrl := by
  unfold State.collStatus
  dsimp only
  rw [State.ctrl_put (by decide), State.ctrl_put (by decide), State.ctrl_put (by decide)]

theorem State.ctrl_endColl (s : State) (r : CollRun) (d : Done) : (s.endColl r d).ctrl = s.ctrl := by
  have forgotten (ts : List (Nat × Nat)) : (if d.status = ST_OK then s else s.forgetAll ts).ctrl = s.ctrl := by
    split
    · rfl
    · exact State.ctrl_forgetAll ..
  unfold State.endColl State.closeColl
  dsimp only
  rw [State.ctrl_finishAs, State.ctrl_collStatus, State.ctrl_noteEntry, State.ctrl_mk, forgotten]

@[simp] theorem State.ctrl_stopColl (s : State) (st : Nat) (pick : CmdRef → Bool) : (s.stopColl st pick).ctrl = s.ctrl :=
  State.ctrl_foldl _ (fun s r _ => s.ctrl_endColl r _) s

theorem State.ctrl_haltEngines (s : State) (n : Nat) (carry : Nat → Bool) : (s.haltEngines n carry).ctrl = s.ctrl := by
  unfold State.haltEngines
  dsimp only
  rw [State.ctrl_mk, State.ctrl_stopColl]

theorem State.ctrl_dropUpdate (s : State) : s.dropUpdate.ctrl = s.ctrl := by
  have waiting (l : List Nat) (h : ∀ q ∈ l, q < 4) (b : Bool) (s : State) :
      (l.foldl (fun (s : State) q => s.put (F.UU_STATUS_WAITING_NORM q) (flag b)) s).ctrl = s.ctrl :=
    State.ctrl_foldl l (fun s q m => State.ctrl_put ((by decide : ∀ q < 4, pcKey (F.UU_STATUS_WAITING_NORM q).key = false) q (h q m)) s _) s
  unfold State.dropUpdate State.waitingNorm
  rw [waiting _ (fun q m => List.mem_range.1 m), State.ctrl_mk]

theorem State.ctrl_haltFlights (s : State) (n : Nat) (carry : Nat → Bool) : (s.haltFlights n carry).ctrl = s.ctrl := by
  unfold State.haltFlights
  dsimp only
  rw [State.ctrl_endFlights, State.ctrl_mk]

theorem State.ctrl_setModule (s : State) (v : Nat) : (s.setModule v).ctrl = s.ctrl := by
  unfold State.setModule
  split
  · rfl
  · exact State.ctrl_put (by decide) s v

/-- A halt before the Period's grant, of a module that is not running, ends what is in flight and then enters HALTED (R60, R61). -/
theorem State.haltBefore_notRunning {s : State} (h : s.pcState ≠ 2) : ∃ u : State, u.ctrl = s.ctrl ∧ s.haltBefore = u.enterHalted := by
  have notRunning : decide (s.pcState = 2) = false := decide_eq_false h
  unfold State.haltBefore
  dsimp only
  rw [notRunning, if_neg Bool.false_ne_true, if_neg Bool.false_ne_true]
  refine ⟨_, ?_, rfl⟩
  rw [State.ctrl_mk]
  unfold State.dropLanded State.dropForwarded
  rw [State.ctrl_mk, State.ctrl_mk, State.ctrl_haltFlights, State.ctrl_dropUpdate, State.ctrl_haltEngines]

theorem State.ctrl_finishes (l : List CmdRef) (d : Done) (s : State) : (l.foldl (fun (s : State) c => s.finish c d) s).ctrl = s.ctrl :=
  State.ctrl_foldl l (fun s c _ => State.ctrl_finishAs s _ c d) s

/-- Commands that are finished one after another are among those that have ended. -/
theorem State.finishes_ended (l : List CmdRef) (d : Done) (s : State) :
    (∀ x ∈ s.cp.ended, x ∈ (l.foldl (fun (s : State) c => s.finish c d) s).cp.ended) ∧
      ∀ c ∈ l, ∃ x ∈ (l.foldl (fun (s : State) c => s.finish c d) s).cp.ended, x.ref = c ∧ x.done = d := by
  induction l generalizing s with
  | nil => exact ⟨fun _ h => h, fun _ h => absurd h List.not_mem_nil⟩
  | cons c l ih =>
    obtain ⟨kept, ended⟩ := ih (s.finish c d)
    refine ⟨fun x hx => kept x (List.mem_append_left _ hx), fun c' hc' => ?_⟩
    rcases List.mem_cons.1 hc' with rfl | hc'
    · exact ⟨_, kept _ (List.mem_append_right _ (List.mem_singleton_self _)), rfl, rfl⟩
    · exact ended c' hc'

/-- A module whose Period is not running enters HALTED: those that wait for it are finished (R60). -/
theorem State.enterHalted_notRunning {s : State} (h : s.pcState ≠ 2) (h' : s.pcState ≠ 3) :
    s.enterHalted.get F.PC_STATUS_STATE = 4 ∧ s.enterHalted.oxl.missing = s.oxl.missing ∧ s.enterHalted.pd.tokenSent = s.pd.tokenSent ∧
      s.enterHalted.pd.waiters = [] ∧ ∀ c ∈ s.pd.waiters, ∃ x ∈ s.enterHalted.cp.ended, x.ref = c ∧ x.done = ⟨ST_OK, 0, 0⟩ := by
  have record : ¬ ((s.pcState = 2 ∨ s.pcState = 3) ∧ s.get F.PC_STATUS_DONE = 0) := fun hr => hr.1.elim h h'
  have moved := State.ctrl_setModule (((s.put F.PC_STATUS_STATE 4).put F.PC_STATUS_ACTIVE 0).put F.PC_STATUS_REPLAY 0) 9
  have halted : ((((s.put F.PC_STATUS_STATE 4).put F.PC_STATUS_ACTIVE 0).put F.PC_STATUS_REPLAY 0).setModule 9).get F.PC_STATUS_STATE = 4 := by
    rw [State.get_of_ctrl moved F.PC_STATUS_STATE, State.get_put_other (by decide), State.get_put_other (by decide), State.get_put_same]
    rfl
  have pd := State.pd_of_ctrl moved
  have missing := State.missing_of_ctrl moved
  unfold State.enterHalted
  dsimp only
  rw [if_neg record]
  generalize (((s.put F.PC_STATUS_STATE 4).put F.PC_STATUS_ACTIVE 0).put F.PC_STATUS_REPLAY 0).setModule 9 = m at halted pd missing ⊢
  generalize hu : ({ m with pd := _ } : State) = u
  have ended := (State.finishes_ended m.pd.waiters (Done.ok 0) u).2
  have ctrl := State.ctrl_finishes m.pd.waiters (Done.ok 0) u
  refine ⟨?_, ?_, ?_, ?_, fun c hc => ended c (by rw [pd]; exact hc)⟩
  · rw [State.get_of_ctrl ctrl F.PC_STATUS_STATE, ← hu]
    exact halted
  · rw [State.missing_of_ctrl ctrl, ← hu]
    exact missing
  · rw [State.pd_of_ctrl ctrl, ← hu, pd]
    rfl
  · rw [State.pd_of_ctrl ctrl, ← hu]

end Sys2Proof.Machine

/-!
PROOF. PERIOD_PLAN, PERIOD_ARM and PERIOD_HALT (statement PeriodCommands).
-/
namespace Sys2Proof.Machine

/-! ## The commands of the Period -/

/-- With no error armed, a critical structure is used without one. -/
theorem State.useCritical_unarmed {s : State} (h : s.inject = []) (structure_ inst : Nat) (c : Option CmdRef) :
    s.useCritical structure_ inst c = (s, false) := by
  unfold State.useCritical
  rw [h]
  rfl

theorem State.touchCritical_unarmed {s : State} (h : s.inject = []) (structure_ inst : Nat) : s.touchCritical structure_ inst = s := by
  unfold State.touchCritical
  rw [State.useCritical_unarmed h]

theorem planOk_encoded {p : Plan} {guard : Nat} (h : planOk p guard = true) : p.clauses.all entryEncoded = true := by
  unfold planOk at h
  simp only [Bool.and_eq_true] at h
  tauto

/-- PERIOD_PLAN's body where no tick reference bounds the Period's length (R36, R58). -/
theorem State.takePlan_free {s : State} (h : s.tickref = false) (p : Plan) : s.takePlan p =
    if p.clauses.all entryEncoded = false then s.fail ST_BAD_PARAM
    else if s.pd.plan = some p then ({ s with pd := { s.pd with pendingPlan := none } } : State).ok 0
    else if (match s.pd.plan with | some q => decide (q.generation = p.generation) | none => false) then s.fail ST_BAD_PARAM
    else if !planOk p (s.get F.PC_GUARD_GUARD_US) then s.fail ST_BAD_PARAM
    else if s.pcState = 2 ∨ s.pcState = 3 then (({ s with pd := { s.pd with pendingPlan := some p } } : State).attachWaiting).ok 0
    else ((s.activate p).attachWaiting).ok 0 := by
  unfold State.takePlan State.guard
  dsimp only
  rw [h]
  cases hp : p.clauses.all entryEncoded
  · rfl
  · rfl

section Plan
variable {s : State} {p : Plan} (free : s.tickref = false) (other : s.pd.plan ≠ some p)
include free other

/-- A plan that R36 does not allow, or of the active plan's generation, is refused. -/
theorem State.takePlan_refused (h : planOk p (s.get F.PC_GUARD_GUARD_US) = false ∨ ∃ q, s.pd.plan = some q ∧ q.generation = p.generation) :
    s.takePlan p = s.fail ST_BAD_PARAM := by
  rw [State.takePlan_free free]
  split
  · rfl
  · rcases h with h | ⟨q, hq, hg⟩
    · rw [h]
      exact ite_self _
    · rw [hq]
      dsimp only
      rw [if_pos (decide_eq_true hg)]

variable (allowed : planOk p (s.get F.PC_GUARD_GUARD_US) = true) (fresh : ∀ q, s.pd.plan = some q → q.generation ≠ p.generation)
include allowed fresh

/-- A new plan that R36 allows is pending while a Period runs, and active at once while none does (R58). -/
theorem State.takePlan_taken : s.takePlan p =
    if s.pcState = 2 ∨ s.pcState = 3 then (({ s with pd := { s.pd with pendingPlan := some p } } : State).attachWaiting).ok 0
    else ((s.activate p).attachWaiting).ok 0 := by
  rw [State.takePlan_free free, if_neg (by rw [planOk_encoded allowed]; decide), if_neg other, allowed]
  cases hp : s.pd.plan with
  | none => rfl
  | some q =>
    dsimp only
    rw [if_neg fun h => fresh q hp (of_decide_eq_true h)]
    rfl

end Plan

/-- PERIOD_ARM of the Period after the committed one, on a module that has a plan and runs no Period, arms it (R59). -/
theorem State.armPeriod_arms {s : State} {p : ArmParams} (free : s.tickref = false)
    (next : p.firstPeriod.toNat = nextPeriod (s.get F.PC_COMMITTED_COMMITTED)) (planned : s.pd.plan.isSome = true) (idle : s.idle = true) :
    s.armPeriod p = (s.arm p).ok 0 := by
  unfold State.armPeriod
  refine State.guard_pass fun c m => ?_
  have some_ : s.pd.plan.isNone = false := by
    rw [← Option.not_isSome, planned]
    rfl
  simp only [List.mem_cons, List.not_mem_nil, or_false] at m
  rcases m with rfl | rfl | rfl
  · exact decide_eq_false (not_not.2 next)
  · dsimp only
    rw [some_, idle]
    rfl
  · dsimp only
    rw [free]
    rfl

theorem State.armPeriod_refused {s : State} {p : ArmParams} (h : p.firstPeriod.toNat ≠ nextPeriod (s.get F.PC_COMMITTED_COMMITTED)) :
    s.armPeriod p = s.fail ST_BAD_PARAM := by
  unfold State.armPeriod State.guard firstFailure
  dsimp only
  rw [decide_eq_true h]
  rfl

/-- What an arming leaves in the Period controller (R59). -/
theorem State.arm_armed {s : State} {p : ArmParams} (free : s.tickref = false) (live : p.replay = false) :
    (s.arm p).get F.PC_STATUS_STATE = 1 ∧ (s.arm p).oxl.missing = s.oxl.missing ∧ (s.arm p).pd.arm = some ⟨p.firstPeriod.toNat,
      if p.startTime = 0 then s.now + 200000 else p.startTime.toNat, p.cursor.toNat, p.seed.toNat, p.retry, false, none⟩ := by
  have inputs : s.armInputs p = (p.cursor.toNat, p.seed.toNat, none) := by
    unfold State.armInputs
    rw [live]
    rfl
  have start (t : Nat) : s.startAt t = t := by
    unfold State.startAt
    rw [free]
    rfl
  unfold State.arm
  dsimp only
  rw [inputs, start, live]
  generalize ({ s with pd := _ } : State).dpRank = rank
  generalize hu : (({ s with pd := _ } : State).put F.PC_STATUS_STATE 1).put F.SO_RANK_RANK rank = u
  have kept : ((u.armLedger p.firstPeriod.toNat).writeSampleList p.firstPeriod.toNat p.cursor.toNat).ctrl = u.ctrl :=
    (State.ctrl_writeSampleList ..).trans (State.ctrl_armLedger ..)
  refine ⟨?_, ?_, ?_⟩
  · rw [State.get_of_ctrl kept F.PC_STATUS_STATE, ← hu, State.get_put_other (by decide), State.get_put_same]
    rfl
  · rw [State.missing_of_ctrl kept, ← hu]
    rfl
  · rw [State.pd_of_ctrl kept, ← hu]
    rfl

/-- PERIOD_HALT of an IDLE module halts it, and ends (R60, R61). -/
theorem State.haltNow_idle {s : State} (idle : s.pcState = 0) (machine : Bool) :
    (s.haltNow machine).get F.PC_STATUS_STATE = 4 ∧ (s.haltNow machine).oxl.missing = s.oxl.missing ∧ (s.haltNow machine).pd.waiters = [] ∧
      ∀ c ∈ s.pd.waiters, ∃ x ∈ (s.haltNow machine).cp.ended, x.ref = c ∧ x.done = ⟨ST_OK, 0, 0⟩ := by
  have token : ∃ u : State, (s.haltNow machine) = u.takeHalt ∧ u.pcState = 0 ∧ u.oxl.missing = s.oxl.missing ∧ u.pd.waiters = s.pd.waiters := by
    refine ⟨_, rfl, ?_⟩
    split
    · unfold State.sendToken State.passToken
      split
      · exact ⟨idle, rfl, rfl⟩
      · have sent := (s.sendFrame_sendEach s.upPorts (fun q => .halt q
          { period := BitVec.ofNat 48 s.haltPeriod, origin := BitVec.ofNat 24 s.logical, code := BitVec.ofNat 16 0 })).ctrl
        have state := State.get_of_ctrl sent F.PC_STATUS_STATE
        have missing := State.missing_of_ctrl sent
        exact ⟨state.trans idle, missing, rfl⟩
    · exact ⟨idle, rfl, rfl⟩
  obtain ⟨u, halts, state, missing, waiters⟩ := token
  have taken : u.takeHalt = ({ u with pd := { u.pd with haltHeld := true } } : State).haltBefore := by
    unfold State.takeHalt
    rw [if_neg (by omega)]
    exact if_neg fun h => absurd h.1 (show ¬ u.pcState = 2 by omega)
  have notRunning : ({ u with pd := { u.pd with haltHeld := true } } : State).pcState ≠ 2 := show u.pcState ≠ 2 by omega
  obtain ⟨v, ctrl, enters⟩ := State.haltBefore_notRunning notRunning
  have vState : v.pcState = 0 := (State.get_of_ctrl ctrl F.PC_STATUS_STATE).trans state
  obtain ⟨halted, vMissing, -, none_, ended⟩ := State.enterHalted_notRunning (s := v) (by omega) (by omega)
  rw [halts, taken, enters]
  refine ⟨halted, vMissing.trans ((State.missing_of_ctrl ctrl).trans missing), none_, fun c hc => ended c ?_⟩
  rw [State.pd_of_ctrl ctrl]
  exact waiters ▸ hc

/-- Settles O43: each command's body, and what it leaves in the Period controller. -/
theorem periodCommands : Obligations.PeriodCommands := by
  unfold Obligations.PeriodCommands
  intro h s unarmed free bound
  have ends {op : Nat} {body : CmdRef → State → Body} {t : State} {d : Done} (he : body (s.refOf h op) s = (t, some d))
      (hm : t.oxl.missing = s.oxl.missing) : done (s.run h op .notBound body).settle = .next (t.finish (s.refOf h op) d).settle :=
    congrArg (fun u : State => done u.settle) (State.run_ends bound he hm)
  have waits {op : Nat} {body : CmdRef → State → Body} {t : State} (he : body (s.refOf h op) s = (t, none))
      (hm : t.oxl.missing = s.oxl.missing) : done (s.run h op .notBound body).settle = .next t.settle := by
    unfold State.run
    dsimp only
    rw [if_pos bound, he, State.ran_here hm]
  have plan (p : Plan) {b : Body} (hb : s.takePlan p = b) : (match s.useCritical 4 0 (some (s.refOf h 0x70)) with
      | (s, true) => s.fail ST_ISOLATED
      | (s, false) => s.takePlan p) = b := by
    rw [State.useCritical_unarmed unarmed]
    exact hb
  refine ⟨fun p other => ⟨fun refused => ends (plan p (State.takePlan_refused free other refused)) rfl, fun allowed fresh =>
    ⟨fun running => ?_, fun not2 not3 => ?_⟩⟩, fun p => ⟨fun notNext => ends (State.armPeriod_refused notNext) rfl, fun next planned idle live => ?_⟩,
    fun m e => ⟨fun halted => ?_, fun idle none_ => ?_, fun running notDone atEnd => ?_⟩⟩
  · have taken := (State.takePlan_taken free other allowed fresh).trans (if_pos running)
    have kept := State.ctrl_attachWaiting { s with pd := { s.pd with pendingPlan := some p } }
    have missing := State.missing_of_ctrl kept
    refine ⟨_, ends (plan p taken) missing, ?_, ?_⟩ <;> rw [State.pd_of_ctrl kept]
  · have taken := (State.takePlan_taken free other allowed fresh).trans (if_neg (not_or.2 ⟨not2, not3⟩))
    have kept := State.ctrl_attachWaiting (s.activate p)
    have missing := State.missing_of_ctrl kept
    refine ⟨_, ends (plan p taken) missing, ?_, ?_, ?_⟩
    · rw [State.pd_of_ctrl kept]
      rfl
    · rw [State.pd_of_ctrl kept]
      rfl
    · rw [State.get_of_ctrl kept F.PC_PERIOD_GENERATION]
      exact (State.get_put_same _ F.PC_PERIOD_GENERATION _).trans (Nat.mod_eq_of_lt p.generation.isLt)
  · obtain ⟨armed, missing, info⟩ := State.arm_armed (s := s) free live
    exact ⟨_, ends (State.armPeriod_arms free next planned idle) missing, armed, info⟩
  · refine ends ?_ rfl
    unfold State.haltPeriodBody
    exact if_pos halted
  · obtain ⟨halted, missing, left, ended⟩ :=
      State.haltNow_idle (s := { s with pd := { s.pd with waiters := s.pd.waiters ++ [s.refOf h 0x72] } }) idle m
    refine ⟨_, waits ?_ missing, halted, left, ended _ (List.mem_append_right _ (List.mem_singleton_self _))⟩
    unfold State.haltPeriodBody
    have not4 : ¬ s.pcState = 4 := by omega
    have not3 : ¬ s.pcState = 3 := by omega
    have not2 : ¬ s.pcState = 2 := by omega
    exact (if_neg not4).trans ((if_neg not3).trans (if_neg fun h => not2 h.2.1))
  · refine waits ?_ rfl
    unfold State.haltPeriodBody
    have not4 : ¬ s.pcState = 4 := by omega
    have not3 : ¬ s.pcState = 3 := by omega
    exact (if_neg not4).trans ((if_neg not3).trans (if_pos ⟨atEnd, running, notDone⟩))

end Sys2Proof.Machine

/-!
PROOF. A Clause starts at its boundary and is held to its deadline (statement ClauseBoundaries).
-/
namespace Sys2Proof.Machine

/-! ## Bits of a field -/

theorem bit_eq_testBit (n i : Nat) : bit n i = n.testBit i := by
  rw [Nat.testBit_eq_decide_div_mod_eq]
  exact beq_eq_decide _ _

/-- Adding a power of two where its bit is clear sets that bit only. -/
theorem testBit_add_two_pow {w c : Nat} (clear : w.testBit c = false) (j : Nat) : (w + 2 ^ c).testBit j = if j = c then true else w.testBit j := by
  have low : w % 2 ^ c < 2 ^ c := Nat.mod_lt _ (Nat.two_pow_pos c)
  have split_ : w = 2 ^ c * (w / 2 ^ c) + w % 2 ^ c := (Nat.div_add_mod _ _).symm
  have even : w / 2 ^ c = 2 * (w / 2 ^ c / 2) := by
    rw [Nat.testBit_eq_decide_div_mod_eq, decide_eq_false_iff_not] at clear
    omega
  generalize w / 2 ^ c / 2 = q at even
  rw [even] at split_
  have sum : w + 2 ^ c = 2 ^ c * (2 * q + 1) + w % 2 ^ c := by
    rw [Nat.mul_add_one]
    omega
  generalize w % 2 ^ c = r at low split_ sum
  rw [sum, split_, Nat.testBit_two_pow_mul_add _ low, Nat.testBit_two_pow_mul_add _ low]
  split
  · rw [if_neg (by omega)]
  · split
    · rename_i e
      rw [e, Nat.sub_self, Nat.testBit_zero, decide_eq_true (by omega)]
    · obtain ⟨k, hk⟩ : ∃ k, j - c = k + 1 := ⟨j - c - 1, by omega⟩
      rw [hk, Nat.testBit_succ, Nat.testBit_succ]
      congr 1
      omega

/-- Subtracting a power of two where its bit is set clears that bit only. -/
theorem testBit_sub_two_pow {w c : Nat} (set : w.testBit c = true) (j : Nat) : (w - 2 ^ c).testBit j = if j = c then false else w.testBit j := by
  have sum : w = (w - 2 ^ c) + 2 ^ c := (Nat.sub_add_cancel (Nat.ge_two_pow_of_testBit set)).symm
  have clear : (w - 2 ^ c).testBit c = false := by
    rw [sum, Nat.add_comm, Nat.testBit_two_pow_add_eq] at set
    exact Bool.not_eq_true' _ ▸ set
  split
  · rename_i e
    rw [e, clear]
  · rename_i e
    conv_rhs => rw [sum, testBit_add_two_pow clear, if_neg e]

/-- A bit of a field that has been put. -/
theorem State.bit_putBit {f : Field} {i j : Nat} (hj : j < f.len) (s : State) (b : Bool) :
    bit ((s.putBit f i b).get f) j = if j = i then b else bit (s.get f) j := by
  unfold State.putBit
  dsimp only
  split
  · split
    · rename_i e
      rw [e]
      assumption
    · rfl
  · rename_i differs
    rw [State.get_put_same, bit_eq_testBit, bit_eq_testBit, Nat.testBit_mod_two_pow, decide_eq_true hj, Bool.true_and]
    rw [bit_eq_testBit] at differs
    cases b with
    | true => exact testBit_add_two_pow (Bool.not_eq_true _ ▸ differs) j
    | false => exact testBit_sub_two_pow (Bool.not_eq_false _ ▸ differs) j

theorem State.putBit_other {f g : Field} (h : g.key ≠ f.key) (s : State) (i : Nat) (b : Bool) : (s.putBit f i b).get g = s.get g := by
  unfold State.putBit
  dsimp only
  split
  · rfl
  · exact State.get_put_other h s _

@[simp] theorem State.putBit_pd (s : State) (f : Field) (i : Nat) (b : Bool) : (s.putBit f i b).pd = s.pd := by
  unfold State.putBit
  dsimp only
  split <;> rfl

/-! ## The instants of a Period -/

/-- The distinct entries of a sorted list end with its greatest one. -/
theorem eraseDups_of_sorted {u : Nat} : ∀ {l : List Nat}, l.Pairwise (· ≤ ·) → (∀ v ∈ l, v ≤ u) → u ∈ l →
    ∃ pre, l.eraseDups = pre ++ [u] ∧ ∀ v ∈ pre, v < u
  | [], _, _, mem => absurd mem List.not_mem_nil
  | a :: l, sorted, below, mem => by
    obtain ⟨first, rest⟩ := List.pairwise_cons.1 sorted
    rw [List.eraseDups_cons]
    by_cases e : a = u
    · have none_ : l.filter (fun b => !b == a) = [] := by
        rw [List.filter_eq_nil_iff]
        intro b hb
        have hle := below b (List.mem_cons_of_mem _ hb)
        have hge := first b hb
        simp
        omega
      exact ⟨[], by rw [none_, e]; rfl, fun v hv => absurd hv List.not_mem_nil⟩
    · have mem' : u ∈ l.filter (fun b => !b == a) := by
        rw [List.mem_filter]
        exact ⟨(List.mem_cons.1 mem).resolve_left fun h => e h.symm, by simp; omega⟩
      have shorter : (l.filter (fun b => !b == a)).length ≤ l.length := List.length_filter_le _ _
      obtain ⟨pre, hpre, lt⟩ := eraseDups_of_sorted (rest.filter _)
        (fun v hv => below v (List.mem_cons_of_mem _ (List.mem_of_mem_filter hv))) mem'
      refine ⟨a :: pre, by rw [hpre]; rfl, fun v hv => ?_⟩
      rcases List.mem_cons.1 hv with rfl | hv
      · have := below v (List.mem_cons_self ..)
        omega
      · exact lt v hv
termination_by l => l.length
decreasing_by simp; omega

/-- The boundaries up to an instant of a running Clause end at that instant. -/
theorem State.boundaryTimes_ends {s : State} {c us : Nat} {e : ClauseEntry} (hc : c < 16) (entry : planEntry s.pd.plan c = some e)
    (runs : (s.clause c).runs = true) (at_ : us = e.startUs.toNat ∨ us = e.deadlineUs.toNat) :
    ∃ pre, s.boundaryTimes us = pre ++ [us] ∧ ∀ v ∈ pre, v < us := by
  unfold State.boundaryTimes
  dsimp only
  refine eraseDups_of_sorted ?_ ?_ ?_
  · refine (sortBy_sorted ?_ ?_ _).imp of_decide_eq_true
    · intro a b h
      rw [decide_eq_false_iff_not] at h
      exact decide_eq_true (by omega)
    · intro a b d h h'
      exact decide_eq_true (Nat.le_trans (of_decide_eq_true h) (of_decide_eq_true h'))
  · intro v hv
    rw [mem_sortBy, List.mem_filter] at hv
    exact of_decide_eq_true hv.2
  · rw [mem_sortBy, List.mem_filter]
    refine ⟨List.mem_flatMap.2 ⟨e, ?_, ?_⟩, decide_eq_true (Nat.le_refl us)⟩
    · exact List.mem_filterMap.2 ⟨_, List.mem_map.2 ⟨c, List.mem_filter.2 ⟨List.mem_range.2 hc, runs⟩, rfl⟩, entry⟩
    · rcases at_ with rfl | rfl <;> simp

/-- From `s` to `t` no more than fabric time has moved. -/
def State.TimeFrame (s t : State) : Prop := t = { s with regs := t.regs } ∧ ∀ f : Field, f.key ≠ F.PC_FTIME_FTIME.key → t.get f = s.get f

theorem State.timeFrame_advance (s : State) (t : Nat) : s.TimeFrame (s.advance t) := by
  unfold State.advance
  split
  · exact ⟨rfl, fun f hf => State.get_put_other hf s t⟩
  · exact ⟨rfl, fun _ _ => rfl⟩

theorem State.TimeFrame.trans {s t u : State} (h : s.TimeFrame t) (h' : t.TimeFrame u) : s.TimeFrame u := by
  refine ⟨?_, fun f hf => (h'.2 f hf).trans (h.2 f hf)⟩
  have e := h'.1
  rw [h.1] at e
  exact e

section
variable {s t : State} (h : s.TimeFrame t)
include h

theorem State.TimeFrame.pd : t.pd = s.pd := by rw [h.1]

theorem State.TimeFrame.cj : t.cj = s.cj := by rw [h.1]

theorem State.TimeFrame.clause (c : Nat) : t.clause c = s.clause c := by rw [State.clause, h.pd, State.clause]

theorem State.TimeFrame.replaying : t.replaying = s.replaying := by rw [State.replaying, h.pd, State.replaying]

theorem State.TimeFrame.kindOf (c : Nat) : t.kindOf c = s.kindOf c := by
  unfold State.kindOf State.clauseKind
  rw [h.pd]

/-- Whether a Clause is complete does not depend on the time. -/
theorem State.TimeFrame.clauseReady (c : Nat) : t.clauseReady c = s.clauseReady c := by
  have cp : t.cp = s.cp := by rw [h.1]
  have rings : t.ringsOf c = s.ringsOf c := by
    have key : ∀ k < 64, (F.CP_RING_CTRL_CLAUSES k).key ≠ F.PC_FTIME_FTIME.key := by decide
    unfold State.ringsOf
    exact List.filter_congr fun k hk => by rw [h.2 _ (key k (List.mem_range.1 hk))]
  unfold State.clauseReady State.instanceComplete State.closed State.attachedOpen
  rw [h.clause, h.2 F.PC_PERIOD_PERIOD (by decide), h.2 F.PC_COMMITTED_COMMITTED (by decide), rings, cp, h.kindOf]

theorem State.TimeFrame.startFalls (us c : Nat) : t.startFalls us c = s.startFalls us c := by
  unfold State.startFalls
  rw [h.clause, h.pd]

theorem State.TimeFrame.deadlineFalls (us c : Nat) : t.deadlineFalls us c = s.deadlineFalls us c := by
  unfold State.deadlineFalls
  rw [h.clause, h.pd]

end

/-- With nothing due to be published, nothing is. -/
theorem State.publish_none {s : State} (h : s.cj.due = []) : s.publish = s := by
  unfold State.publish
  rw [h, List.foldl_nil]
  dsimp only
  rw [← h]

theorem State.pumpClauses_none {s : State} (h : ∀ j < 16, s.clauseReady j = false) : s.pumpClauses = s := by
  have none_ : (List.range 16).filter s.clauseReady = [] := List.filter_eq_nil_iff.2 fun j hj => by rw [h j (List.mem_range.1 hj)]; decide
  unfold State.pumpClauses
  rw [none_]
  exact ite_self s

/-- A boundary at which no Clause starts and none reaches its deadline is no more than an instant that passes. -/
theorem State.boundary_quiet {s : State} (calm : s.noneDue) (unpublished : s.cj.due = []) (unready : ∀ j < 16, s.clauseReady j = false) {us : Nat}
    (quiet : ∀ j < 16, s.startFalls us j = false ∧ s.deadlineFalls us j = false) : s.TimeFrame (s.boundary us) := by
  have passes := s.timeFrame_advance (s.instant us)
  have none_ {p : Nat → Bool} (h : ∀ j < 16, p j = false) : (List.range 16).filter p = [] :=
    List.filter_eq_nil_iff.2 fun j hj => by rw [h j (List.mem_range.1 hj)]; decide
  unfold State.boundary
  rw [calm.1, calm.2.1, if_neg (by decide)]
  dsimp only
  rw [none_ fun j hj => (passes.deadlineFalls us j).trans (quiet j hj).2, List.foldl_nil, State.publish_none (passes.cj ▸ unpublished),
    none_ fun j hj => (passes.startFalls us j).trans (quiet j hj).1, List.foldl_nil,
    State.pumpClauses_none fun j hj => (passes.clauseReady j).trans (unready j hj)]
  exact passes

/-- The boundaries before the first at which something falls are instants that pass. -/
theorem State.boundaries_quiet {s : State} (calm : s.noneDue) (unpublished : s.cj.due = []) (unready : ∀ j < 16, s.clauseReady j = false) {us : Nat}
    (before : ∀ v < us, ∀ j < 16, s.startFalls v j = false ∧ s.deadlineFalls v j = false) (pre : List Nat) (below : ∀ v ∈ pre, v < us) :
    s.TimeFrame (pre.foldl State.boundary s) := by
  have each (pre : List Nat) (below : ∀ v ∈ pre, v < us) (t : State) (h : s.TimeFrame t) : s.TimeFrame (pre.foldl State.boundary t) := by
    induction pre generalizing t with
    | nil => exact h
    | cons v pre ih =>
      refine ih (fun w hw => below w (List.mem_cons_of_mem _ hw)) _ (h.trans (State.boundary_quiet ?_ (h.cj ▸ unpublished) ?_ fun j hj => ?_))
      · exact State.noneDue_of_held (by rw [h.1]; rfl) calm
      · exact fun j hj => (h.clauseReady j).trans (unready j hj)
      · rw [h.startFalls, h.deadlineFalls]
        exact before v (below v (List.mem_cons_self ..)) j hj
  exact each pre below s ⟨rfl, fun _ _ => rfl⟩

/-! ## What goes on at a boundary -/

theorem State.ctrl_publish (s : State) : s.publish.ctrl = s.ctrl := by
  have snapped (s : State) (e : Nat) : (s.snapRoot e).ctrl = s.ctrl := by
    unfold State.snapRoot
    split <;> rfl
  have put (s : State) (e : Nat) (b : List Byte) : ((s.putRoot e b).bump F.CJ_COUNT_OK_COUNT 1).ctrl = s.ctrl :=
    (State.ctrl_bump (by decide) _ _).trans (s.ctrl_own _ _)
  unfold State.publish
  dsimp only
  rw [State.ctrl_mk, State.ctrl_foldl]
  intro s p _
  rw [put]
  exact (State.ctrl_mk ..).trans (snapped s p.entry)

theorem State.ctrl_writeEvaluation (s : State) (n : Nat) : (s.writeEvaluation n).ctrl = s.ctrl := by
  unfold State.writeEvaluation
  dsimp only
  split
  · split
    · rfl
    · exact State.ctrl_writeAt ..
  · rfl

theorem State.ctrl_lateSlack (s : State) {c : Nat} (hc : c < 16) : (s.lateSlack c).ctrl = s.ctrl := by
  unfold State.lateSlack
  dsimp only
  split
  · exact State.ctrl_put ((by decide : ∀ c < 16, pcKey (F.TM_SLACK_MIN_US c).key = false) c hc) s _
  · rfl

/-- From `s` to `t` the Clauses of `p` start, and no more changes of what the Period controller holds and shows than which of its Clauses
have started or are complete, and its record. -/
structure State.GoOn (p : Nat → Bool) (s t : State) : Prop where
  pd : t.pd = { s.pd with
    clauses := t.pd.clauses, entries := t.pd.entries, entryCount := t.pd.entryCount, events := t.pd.events, evaluated := t.pd.evaluated }
  regs : ∀ f : Field, pcKey f.key = true → f.key ≠ F.PC_STATUS_ACTIVE.key → t.get f = s.get f
  runs : ∀ c, (t.clause c).runs = (s.clause c).runs
  passed : ∀ c, (t.clause c).passed = (s.clause c).passed
  missed : ∀ c, (t.clause c).missed = (s.clause c).missed
  started : ∀ c, (t.clause c).started = ((s.clause c).started || p c)
  active : ∀ c < 16, bit (t.get F.PC_STATUS_ACTIVE) c = if p c then !(s.clause c).passed else bit (s.get F.PC_STATUS_ACTIVE) c

theorem State.GoOn.trans {p q : Nat → Bool} {s t u : State} (h : State.GoOn p s t) (h' : State.GoOn q t u) : State.GoOn (fun c => p c || q c) s u where
  pd := by
    have e := h'.pd
    rw [h.pd] at e
    exact e
  regs f hf hne := (h'.regs f hf hne).trans (h.regs f hf hne)
  runs c := (h'.runs c).trans (h.runs c)
  passed c := (h'.passed c).trans (h.passed c)
  missed c := (h'.missed c).trans (h.missed c)
  started c := by rw [h'.started, h.started, Bool.or_assoc]
  active c hc := by
    rw [h'.active c hc, h.active c hc, h.passed]
    cases p c <;> cases q c <;> rfl

/-- What leaves the Period controller as it is lets its Clauses go on. -/
theorem State.goOn_of_ctrl {s t : State} (h : t.ctrl = s.ctrl) : State.GoOn (fun _ => false) s t := by
  have pd := State.pd_of_ctrl h
  have clause (c : Nat) : t.clause c = s.clause c := by rw [State.clause, pd, State.clause]
  refine ⟨?_, fun f hf _ => State.get_of_ctrl h f hf, fun c => by rw [clause], fun c => by rw [clause], fun c => by rw [clause],
    fun c => by rw [clause, Bool.or_false], fun c _ => by rw [if_neg (by decide), State.get_of_ctrl h F.PC_STATUS_ACTIVE]⟩
  conv_lhs => rw [pd]
  rw [pd]

/-- A Clause that runs, once set. -/
theorem State.clause_setClause {s : State} {c : Nat} (runs : (s.clause c).runs = true) (v : ClauseRun) (j : Nat) :
    (s.setClause c v).clause j = if j = c then v else s.clause j := by
  have inside : c < s.pd.clauses.length := by
    by_contra beyond
    unfold State.clause nth at runs
    rw [List.getD_eq_default _ _ (by omega)] at runs
    cases runs
  exact nth_nthSet _ _ _ _ _ inside

theorem State.startClause_eq {s : State} (live : s.replaying = false) (c : Nat) :
    s.startClause c = (s.setClause c { s.clause c with started := true }).putBit F.PC_STATUS_ACTIVE c (!(s.clause c).passed) := by
  unfold State.startClause
  dsimp only
  rw [live]
  rfl

theorem State.goOn_startClause {s : State} (live : s.replaying = false) {c : Nat} (runs : (s.clause c).runs = true) :
    State.GoOn (fun j => decide (j = c)) s (s.startClause c) := by
  rw [State.startClause_eq live]
  have clause (j : Nat) : ((s.setClause c { s.clause c with started := true }).putBit F.PC_STATUS_ACTIVE c (!(s.clause c).passed)).clause j =
      if j = c then { s.clause c with started := true } else s.clause j := by
    rw [State.clause, State.putBit_pd]
    exact State.clause_setClause runs _ j
  refine ⟨?_, fun f _ hne => State.putBit_other hne _ _ _, fun j => ?_, fun j => ?_, fun j => ?_, fun j => ?_, fun j hj => ?_⟩
  · rw [State.putBit_pd]
    rfl
  · rw [clause]
    split <;> simp [*]
  · rw [clause]
    split <;> simp [*]
  · rw [clause]
    split <;> simp [*]
  · rw [clause]
    split <;> simp [*]
  · rw [State.bit_putBit (by exact hj)]
    by_cases e : j = c
    · simp [e]
    · simp [e]

theorem State.GoOn.replaying {p : Nat → Bool} {s t : State} (h : State.GoOn p s t) : t.replaying = s.replaying := by
  unfold State.replaying
  rw [h.pd]

theorem State.goOn_startClauses (l : List Nat) {s : State} (live : s.replaying = false) (h : ∀ c ∈ l, (s.clause c).runs = true) :
    State.GoOn l.contains s (l.foldl State.startClause s) := by
  induction l generalizing s with
  | nil => exact State.goOn_of_ctrl rfl
  | cons c l ih =>
    have first := State.goOn_startClause live (h c (List.mem_cons_self ..))
    have rest := ih (first.replaying.trans live) fun j hj => (first.runs j).trans (h j (List.mem_cons_of_mem _ hj))
    have both := first.trans rest
    have same : (fun j => decide (j = c) || l.contains j) = (c :: l).contains := by
      funext j
      simp
    rwa [same] at both

/-- A Clause that ends is complete (R35). -/
theorem State.goOn_endClause {s : State} {c : Nat} (hc : c < 16) (runs : (s.clause c).runs = true) : State.GoOn (fun _ => false) s (s.endClause c) := by
  have set : State.GoOn (fun _ => false) s (s.setClause c { s.clause c with complete := some s.now }) := by
    have clause := State.clause_setClause runs { s.clause c with complete := some s.now }
    refine ⟨rfl, fun _ _ _ => rfl, fun j => ?_, fun j => ?_, fun j => ?_, fun j => ?_, fun _ _ => rfl⟩
    · rw [clause]
      split <;> simp [*]
    · rw [clause]
      split <;> simp [*]
    · rw [clause]
      split <;> simp [*]
    · rw [clause]
      split <;> simp [*]
  have complete : State.GoOn (fun _ => false) s (s.completeClause c) :=
    set.trans (State.goOn_of_ctrl ((State.ctrl_lateSlack _ hc).trans (State.ctrl_noteEntry ..)))
  unfold State.endClause
  dsimp only
  split
  · have written := State.goOn_of_ctrl (State.ctrl_writeEvaluation (s.completeClause c) ((s.completeClause c).get F.PC_PERIOD_PERIOD))
    refine complete.trans (q := fun _ => false) (written.trans (q := fun _ => false) ?_)
    exact ⟨rfl, fun _ _ _ => rfl, fun _ => rfl, fun _ => rfl, fun _ => rfl, fun _ => (Bool.or_false _).symm, fun _ _ => rfl⟩
  · exact complete

theorem State.goOn_pumpClauses (s : State) : State.GoOn (fun _ => false) s s.pumpClauses := by
  have each (l : List Nat) (s : State) (h : ∀ c ∈ l, c < 16 ∧ (s.clause c).runs = true) :
      State.GoOn (fun _ => false) s (l.foldl State.endClause s) := by
    induction l generalizing s with
    | nil => exact State.goOn_of_ctrl rfl
    | cons c l ih =>
      have first := State.goOn_endClause (h c (List.mem_cons_self ..)).1 (h c (List.mem_cons_self ..)).2
      exact first.trans (ih _ fun j hj => ⟨(h j (List.mem_cons_of_mem _ hj)).1, (first.runs j).trans (h j (List.mem_cons_of_mem _ hj)).2⟩)
  unfold State.pumpClauses
  split
  · refine each _ s fun c hc => ?_
    rw [List.mem_filter, List.mem_range] at hc
    refine ⟨hc.1, ?_⟩
    have ready := hc.2
    unfold State.clauseReady at ready
    simp only [Bool.and_eq_true] at ready
    tauto
  · exact State.goOn_of_ctrl rfl

/-! ## Deadlines -/

theorem State.ctrl_stopJob (s : State) (j : SolveJob) (status : Nat) : (s.stopJob j status).ctrl = s.ctrl := by
  have discarded (s : State) : (s.discardSlot j).ctrl = s.ctrl := State.ctrl_foldl _ (fun s r _ => s.ctrl_forgetHbm _ _) s
  have counted (s : State) : (s.partCycles j).ctrl = s.ctrl := by
    unfold State.partCycles
    dsimp only
    rw [State.ctrl_bump (by decide), State.ctrl_mk]
  have opened (s : State) : (s.openSlot j.entry).ctrl = s.ctrl := by
    unfold State.openSlot State.putRoot State.snapRoot
    dsimp only
    rw [State.ctrl_own]
    split <;> rfl
  have status_ (s : State) : s.solverStatus.ctrl = s.ctrl := by
    unfold State.solverStatus
    dsimp only
    rw [State.ctrl_put (by decide), State.ctrl_put (by decide), State.ctrl_put (by decide)]
  have submitted (s : State) (p : Prop) [Decidable p] (n e : Nat) : (if p then s.submit n e else s).ctrl = s.ctrl := by
    split
    · exact State.ctrl_submit ..
    · rfl
  have cold (s : State) (p : Prop) [Decidable p] : (if p then s.bump F.CJ_COUNT_COLD_COUNT 1 else s).ctrl = s.ctrl := by
    split
    · exact State.ctrl_bump (by decide) _ _
    · rfl
  have running : (if j.running then (s.partCycles j).discardSlot j else s).ctrl = s.ctrl := by
    split
    · rw [discarded, counted]
    · rfl
  unfold State.stopJob State.endJob State.noteSolve
  dsimp only
  rw [State.ctrl_finishAs, status_, State.ctrl_noteEntry, cold, submitted, State.ctrl_mk, opened, running]

theorem State.ctrl_abandonWork (s : State) (c : Nat) : (s.abandonWork c).ctrl = s.ctrl := by
  have jobs : (s.jobDeadline c).ctrl = s.ctrl := by
    refine State.ctrl_foldl _ (fun s j _ => ?_) s
    rw [State.ctrl_stopJob, State.ctrl_raise (Nat.lt_succ_self 2), State.ctrl_bump (by decide)]
  unfold State.abandonWork
  dsimp only
  rw [State.ctrl_endFlights, State.ctrl_stopColl, jobs]

theorem State.ctrl_discardEvaluation (s : State) (c : Nat) : (s.discardEvaluation c).ctrl = s.ctrl := by
  unfold State.discardEvaluation
  dsimp only
  rw [State.ctrl_mk, State.ctrl_foldl _ fun s o _ => s.ctrl_forgetAt _ _]

/-- What follows the deadlines at a boundary: what is due is published, and Clauses start and end. -/
def State.afterDeadlines (s : State) (us : Nat) : State :=
  (((List.range 16).filter (s.publish.startFalls us)).foldl State.startClause s.publish).pumpClauses

theorem State.goOn_afterDeadlines {s : State} (live : s.replaying = false) (us : Nat) :
    State.GoOn (fun c => decide (c < 16) && s.startFalls us c) s (s.afterDeadlines us) := by
  have published := State.goOn_of_ctrl s.ctrl_publish
  have starts : ((List.range 16).filter (s.publish.startFalls us)).contains = fun c => decide (c < 16) && s.startFalls us c := by
    funext c
    have same : s.publish.startFalls us c = s.startFalls us c := by
      have pd := State.pd_of_ctrl s.ctrl_publish
      unfold State.startFalls State.clause
      rw [pd]
    rw [← same]
    by_cases h : c < 16 <;> simp [h]
  have started := State.goOn_startClauses ((List.range 16).filter (s.publish.startFalls us)) (published.replaying.trans live) fun c hc => by
    have falls := (List.mem_filter.1 hc).2
    unfold State.startFalls at falls
    simp only [Bool.and_eq_true] at falls
    tauto
  rw [starts] at started
  have all_ := (published.trans started).trans (State.goOn_pumpClauses _)
  have sum : (fun c => (false || (decide (c < 16) && s.startFalls us c)) || false) = fun c => decide (c < 16) && s.startFalls us c := by
    funext c
    rw [Bool.false_or, Bool.or_false]
  rwa [sum] at all_

/-- Up to the first boundary at which something falls time passes, and there the deadlines fall first. -/
theorem State.reachBoundary_eq {s : State} {c us : Nat} {e : ClauseEntry} (hc : c < 16) (entry : planEntry s.pd.plan c = some e)
    (runs : (s.clause c).runs = true) (at_ : us = e.startUs.toNat ∨ us = e.deadlineUs.toNat) (unarmed : s.inject = []) (calm : s.noneDue)
    (unpublished : s.cj.due = []) (unready : ∀ j < 16, s.clauseReady j = false)
    (before : ∀ v < us, ∀ j < 16, s.startFalls v j = false ∧ s.deadlineFalls v j = false) :
    ∃ u : State, s.TimeFrame u ∧
      s.reachBoundary us = (((List.range 16).filter (s.deadlineFalls us)).foldl State.clauseDeadline u).afterDeadlines us := by
  obtain ⟨pre, times, below⟩ := State.boundaryTimes_ends hc entry runs at_
  have quiet := State.boundaries_quiet calm unpublished unready before pre below
  unfold State.reachBoundary
  rw [State.touchCritical_unarmed unarmed, times, List.foldl_append, List.foldl_cons, List.foldl_nil]
  generalize pre.foldl State.boundary s = v at quiet ⊢
  have passes := quiet.trans (v.timeFrame_advance (v.instant us))
  refine ⟨_, passes, ?_⟩
  have falls : v.deadlineFalls us = s.deadlineFalls us := funext fun j => quiet.deadlineFalls us j
  have falls' : (v.advance (v.instant us)).deadlineFalls us = s.deadlineFalls us := funext fun j => passes.deadlineFalls us j
  unfold State.boundary State.afterDeadlines
  rw [quiet.pd, calm.1, calm.2.1, if_neg (by decide)]
  dsimp only
  rw [falls']

/-- What an event of class PERIOD_FATAL changes of the Period controller: it calls for a halt (R399). -/
theorem State.raise_periodFatal {e : Ev} (h : e.cls = 3) (s : State) : ∃ u : State, u.ctrl = s.ctrl ∧
    s.raise e = { u with pd := { u.pd with haltDue := if u.pd.haltDue.isNone then some e.code else u.pd.haltDue } } := by
  refine ⟨s.emit e, State.ctrl_emit (by omega) s, ?_⟩
  unfold State.raise
  exact if_pos h

section Deadline
variable {s : State} {c : Nat} (hc : c < 16) (runs : (s.clause c).runs = true)

/-- The state at a Clause's deadline, the Clause passed and no longer active. -/
abbrev State.passClause (s : State) (c : Nat) : State :=
  (s.setClause c { s.clause c with passed := true }).setActive c false

/-- The state in which an overdue soft Clause's work has been abandoned, and the Clause noted as missed. -/
abbrev State.overdue (s : State) (c : Nat) : State :=
  ((s.passClause c).abandonWork c).setClause c { s.clause c with passed := true, missed := true }

include runs in
theorem State.passClause_clause : (s.passClause c).clause c = { s.clause c with passed := true } := by
  refine Eq.trans ?_ ((State.clause_setClause runs _ c).trans (if_pos rfl))
  unfold State.passClause State.setActive
  dsimp only
  split <;> rfl

theorem State.passClause_pd : (s.passClause c).pd = { s.pd with clauses := (s.passClause c).pd.clauses } := by
  unfold State.passClause State.setActive
  dsimp only
  split <;> rfl

theorem State.passClause_get {f : Field} (hf : f.key ≠ F.PC_STATUS_ACTIVE.key) : (s.passClause c).get f = s.get f :=
  State.putBit_other hf _ c false

include hc in
theorem State.passClause_inactive : bit ((s.passClause c).get F.PC_STATUS_ACTIVE) c = false :=
  (State.bit_putBit (f := F.PC_STATUS_ACTIVE) hc _ false).trans (if_pos rfl)

theorem State.passClause_kindOf : (s.passClause c).kindOf c = s.kindOf c := by
  unfold State.kindOf State.clauseKind
  rw [State.passClause_pd]

/-- A state that agrees with it on what the Period controller holds. -/
theorem State.replaying_of_passed {t : State} (h : t.ctrl = (s.passClause c).ctrl) : t.replaying = s.replaying := by
  unfold State.replaying
  rw [State.pd_of_ctrl h, State.passClause_pd]

theorem State.haltDue_of_passed {t : State} (h : t.ctrl = (s.passClause c).ctrl) : t.pd.haltDue = s.pd.haltDue := by
  rw [State.pd_of_ctrl h, State.passClause_pd]

include runs in
theorem State.passed_of_passed {t : State} (h : t.ctrl = (s.passClause c).ctrl) : (t.clause c).passed = true := by
  rw [State.clause, State.pd_of_ctrl h]
  exact congrArg ClauseRun.passed (State.passClause_clause runs)

/-- A complete Clause passes its deadline. -/
theorem State.clauseDeadline_complete (done : (s.clause c).complete.isSome = true) : s.clauseDeadline c = s.passClause c := by
  unfold State.clauseDeadline
  exact if_pos done

variable (open_ : (s.clause c).complete = none)
include open_

/-- At the deadline of a Clause that is not complete, what happens is its kind's (R37, R40, R41). -/
theorem State.clauseDeadline_open : s.clauseDeadline c =
    if softKind (s.kindOf c) && (s.passClause c).waitsForMarked c then s.passClause c
    else if softKind (s.kindOf c) then
      if (((((s.overdue c).putBit F.PC_MISS_SOFT c true).clauseEnd c false).lateSlack c).kindOf c) = kindEvaluate then
        (((((s.overdue c).putBit F.PC_MISS_SOFT c true).clauseEnd c false).lateSlack c).discardEvaluation c).raise
          ⟨0x0B08, 2, 11, 0, c, false, none⟩
      else (((s.overdue c).putBit F.PC_MISS_SOFT c true).clauseEnd c false).lateSlack c
    else if (s.passClause c).barrier && !(s.passClause c).on F.PC_CTRL_BDL then (s.passClause c).raise ⟨0x0B07, 0, 11, 0, c, false, none⟩
    else ((s.passClause c).putBit F.PC_MISS_HARD c true).raise ⟨0x0B06, 3, 11, 0, c, false, none⟩ := by
  have incomplete : ¬ (s.clause c).complete.isSome = true := by
    rw [open_]
    exact Bool.false_ne_true
  rw [← State.passClause_kindOf]
  exact if_neg incomplete

omit open_ in
theorem State.waitsForMarked_none (unmarked : ∀ j ∈ s.cj.jobs, j.marked = false) : s.waitsForMarked c = false := by
  have none_ (r : CmdRef) : s.cj.jobs.any (fun j => j.marked && decide (j.clause = c) && sameCmd j.cmd r) = false := by
    rw [List.any_eq_false]
    intro j hj
    rw [unmarked j hj]
    exact Bool.false_ne_true
  unfold State.waitsForMarked
  dsimp only
  cases hf : s.cp.flights.filter (fun f => decide (f.attach = some (s.get F.PC_PERIOD_PERIOD, c))) with
  | nil => rfl
  | cons f l => rw [List.all_cons, none_, Bool.false_and, Bool.and_false]

include hc runs in
/-- A soft Clause that no job marked to go on holds is abandoned at its deadline, and shown in PC_MISS.SOFT (R40, R41). -/
theorem State.clauseDeadline_soft (soft : softKind (s.kindOf c) = true) (unmarked : ∀ j ∈ s.cj.jobs, j.marked = false) :
    ∃ m : State, (s.clauseDeadline c).ctrl = m.ctrl ∧ m.clause c = { s.clause c with passed := true, missed := true } ∧
      bit (m.get F.PC_MISS_SOFT) c = true ∧
      m.pd = { s.pd with clauses := m.pd.clauses, entries := m.pd.entries, entryCount := m.pd.entryCount, events := m.pd.events } := by
  have abandoned := (s.passClause c).ctrl_abandonWork c
  have pd := State.pd_of_ctrl abandoned
  have set : (s.overdue c).clause c = { s.clause c with passed := true, missed := true } := by
    refine (State.clause_setClause ?_ _ c).trans (if_pos rfl)
    rw [State.clause, pd]
    exact (congrArg ClauseRun.runs (State.passClause_clause runs)).trans runs
  refine ⟨(s.overdue c).putBit F.PC_MISS_SOFT c true, ?_, ?_, ?_, ?_⟩
  · have waits : (s.passClause c).waitsForMarked c = false := State.waitsForMarked_none (s := s.passClause c) (by
      have cj : (s.passClause c).cj = s.cj := by
        unfold State.passClause State.setActive
        dsimp only
        split <;> rfl
      rw [cj]
      exact unmarked)
    rw [State.clauseDeadline_open open_, soft, waits, if_neg (by decide), if_pos rfl]
    split
    · rw [State.ctrl_raise (Nat.lt_succ_self 2), State.ctrl_discardEvaluation, State.ctrl_lateSlack _ hc]
      exact State.ctrl_noteEntry ..
    · exact (State.ctrl_lateSlack _ hc).trans (State.ctrl_noteEntry ..)
  · rw [State.clause, State.putBit_pd]
    exact set
  · exact (State.bit_putBit hc _ true).trans (if_pos rfl)
  · have passed := State.passClause_pd (s := s) (c := c)
    rw [State.putBit_pd, State.setClause_pd, pd, passed]

/-- A hard Clause at its deadline in Barrier mode without BDL is noted only (R37, R40). -/
theorem State.clauseDeadline_noted (hard : softKind (s.kindOf c) = false) (noted : s.barrier = true) (bdl : s.get F.PC_CTRL_BDL = 0) :
    (s.clauseDeadline c).ctrl = (s.passClause c).ctrl := by
  have barrier : (s.passClause c).barrier = true := by
    unfold State.barrier State.on
    rw [State.passClause_get (by decide)]
    exact noted
  have off : (s.passClause c).on F.PC_CTRL_BDL = false := by
    unfold State.on
    rw [State.passClause_get (by decide), bdl]
    rfl
  rw [State.clauseDeadline_open open_, hard, barrier, off, Bool.false_and, if_neg Bool.false_ne_true, if_neg Bool.false_ne_true,
    if_pos (show (true && !false) = true from rfl), State.ctrl_raise (Nat.zero_lt_succ 2)]

include runs in
/-- A hard Clause at its deadline otherwise is shown in PC_MISS.HARD and calls for a halt (R40, R41). -/
theorem State.clauseDeadline_hard (hc : c < 16) (hard : softKind (s.kindOf c) = false) (held : s.barrier = false ∨ s.get F.PC_CTRL_BDL = 1)
    (calm : s.pd.haltDue = none) : ((s.clauseDeadline c).clause c).passed = true ∧ bit ((s.clauseDeadline c).get F.PC_MISS_HARD) c = true ∧
      (s.clauseDeadline c).pd.haltDue = some 0x0B06 ∧ (s.clauseDeadline c).replaying = s.replaying := by
  have holds : ((s.passClause c).barrier && !(s.passClause c).on F.PC_CTRL_BDL) = false := by
    unfold State.barrier State.on at held ⊢
    rw [State.passClause_get (by decide), State.passClause_get (by decide)]
    rcases held with h | h
    · rw [h]
      rfl
    · rw [h]
      exact Bool.and_false _
  obtain ⟨u, ctrl, raised⟩ := State.raise_periodFatal (e := ⟨0x0B06, 3, 11, 0, c, false, none⟩) rfl ((s.passClause c).putBit F.PC_MISS_HARD c true)
  have fatal : s.clauseDeadline c = ((s.passClause c).putBit F.PC_MISS_HARD c true).raise ⟨0x0B06, 3, 11, 0, c, false, none⟩ := by
    rw [State.clauseDeadline_open open_, hard, holds]
    rfl
  have pd := State.pd_of_ctrl ctrl
  rw [State.putBit_pd, State.passClause_pd] at pd
  have clauses : u.pd.clauses = (s.passClause c).pd.clauses := by rw [pd]
  have none_ : u.pd.haltDue = none := by
    rw [pd]
    exact calm
  rw [fatal, raised]
  refine ⟨?_, ?_, ?_, ?_⟩
  · have clause := State.passClause_clause runs
    unfold State.clause at clause ⊢
    dsimp only
    rw [clauses, clause]
  · exact (congrArg (bit · c) (State.get_of_ctrl ctrl F.PC_MISS_HARD)).trans ((State.bit_putBit hc _ true).trans (if_pos rfl))
  · dsimp only
    rw [none_]
    rfl
  · unfold State.replaying
    dsimp only
    rw [pd]

end Deadline

/-! ## The rows -/

section Rows
variable {s : State} {c : Fin 16} {e : ClauseEntry} (entry : planEntry s.pd.plan c = some e) (inPeriod : s.inPeriod = true)
  (runs : (s.clause c).runs = true)
include entry inPeriod runs

theorem execClauseStart_reaches (waits : (s.clause c).started = false) :
    exec (.clauseStart c) s = .next (s.reachBoundary e.startUs.toNat).settle := by
  show execClauseStart c s = _
  unfold execClauseStart
  rw [entry]
  dsimp only
  rw [if_pos (by rw [inPeriod, runs, waits]; rfl)]

theorem execClauseDeadline_reaches (ahead : (s.clause c).passed = false) :
    exec (.clauseDeadline c) s = .next (s.reachBoundary e.deadlineUs.toNat).settle := by
  show execClauseDeadline c s = _
  unfold execClauseDeadline
  rw [entry]
  dsimp only
  rw [if_pos (by rw [inPeriod, runs, ahead]; rfl)]

end Rows

/-- A Clause whose instant has come starts. -/
theorem State.startFalls_at {s : State} {c us : Nat} {e : ClauseEntry} (entry : planEntry s.pd.plan c = some e) (runs : (s.clause c).runs = true)
    (waits : (s.clause c).started = false) (kept : (s.clause c).missed = false) (at_ : e.startUs.toNat ≤ us) : s.startFalls us c = true := by
  unfold State.startFalls
  rw [runs, waits, kept, entry]
  exact decide_eq_true at_

theorem State.deadlineFalls_at {s : State} {c us : Nat} {e : ClauseEntry} (entry : planEntry s.pd.plan c = some e)
    (runs : (s.clause c).runs = true) (ahead : (s.clause c).passed = false) (at_ : e.deadlineUs.toNat ≤ us) : s.deadlineFalls us c = true := by
  unfold State.deadlineFalls
  rw [runs, ahead, entry]
  exact decide_eq_true at_

/-- Of the Clauses below 16 the ones for which a test that only `c` passes holds. -/
theorem filter_range_single {p : Nat → Bool} {c : Nat} (hc : c < 16) (here : p c = true) (others : ∀ j < 16, j ≠ c → p j = false) :
    (List.range 16).filter p = [c] := by
  have same : (List.range 16).filter p = (List.range 16).filter (fun j => decide (j = c)) := by
    refine List.filter_congr fun j hj => ?_
    by_cases e : j = c
    · rw [e, here, decide_eq_true rfl]
    · rw [others j (List.mem_range.1 hj) e, decide_eq_false e]
  rw [same]
  exact (by decide : ∀ c < 16, (List.range 16).filter (fun j => decide (j = c)) = [c]) c hc

/-- A passed Clause that was not active is not after what follows the deadlines. -/
theorem State.GoOn.inactive {p : Nat → Bool} {s t : State} (h : State.GoOn p s t) {c : Nat} (hc : c < 16) (passed : (s.clause c).passed = true)
    (inactive : bit (s.get F.PC_STATUS_ACTIVE) c = false) : bit (t.get F.PC_STATUS_ACTIVE) c = false := by
  rw [h.active c hc, passed, inactive]
  exact ite_self _

theorem State.GoOn.haltDue {p : Nat → Bool} {s t : State} (h : State.GoOn p s t) : t.pd.haltDue = s.pd.haltDue := by rw [h.pd]

/-- Settles O46: the boundaries before are instants that pass, and at the Clause's own one its start or its deadline falls. -/
theorem clauseBoundaries : Obligations.ClauseBoundaries := by
  unfold Obligations.ClauseBoundaries
  intro c e s entry inPeriod calm unarmed unpublished live unmarked runs unready before
  have hc : c.val < 16 := c.isLt
  refine ⟨fun waits ahead kept quiet none_ => ?_, fun ahead quiet others => ?_⟩
  · obtain ⟨u, passes, reaches⟩ := State.reachBoundary_eq hc entry runs (.inl rfl) unarmed calm unpublished unready quiet
    have noDeadline : (List.range 16).filter (s.deadlineFalls e.startUs.toNat) = [] :=
      List.filter_eq_nil_iff.2 fun j hj => by rw [none_ j (List.mem_range.1 hj)]; exact Bool.false_ne_true
    rw [noDeadline, List.foldl_nil] at reaches
    have uLive : u.replaying = false := passes.replaying.trans live
    have falls : (decide (c.val < 16) && u.startFalls e.startUs.toNat c) = true := by
      rw [decide_eq_true hc, passes.startFalls, State.startFalls_at entry runs waits kept (Nat.le_refl _)]
      rfl
    have goesOn := State.goOn_afterDeadlines uLive e.startUs.toNat
    refine ⟨_, execClauseStart_reaches entry inPeriod runs waits, ?_, ?_⟩
    · rw [reaches, goesOn.started, falls, Bool.or_true]
    · rw [reaches, goesOn.active c hc, if_pos falls, passes.clause, ahead]
      rfl
  · obtain ⟨u, passes, reaches⟩ := State.reachBoundary_eq hc entry runs (.inr rfl) unarmed calm unpublished unready quiet
    rw [filter_range_single hc (State.deadlineFalls_at entry runs ahead (Nat.le_refl _)) others, List.foldl_cons, List.foldl_nil] at reaches
    have row := execClauseDeadline_reaches entry inPeriod runs ahead
    rw [reaches] at row
    have uLive : u.replaying = false := passes.replaying.trans live
    have uRuns : (u.clause c).runs = true := by rw [passes.clause, runs]
    have uKind := passes.kindOf c
    have uDue : u.pd.haltDue = none := by rw [passes.pd, calm.1]
    refine ⟨fun complete => ?_, fun open_ => ⟨fun soft => ?_, fun hard held => ?_, fun hard noted bdl => ?_⟩⟩
    · have deadline := State.clauseDeadline_complete (s := u) (c := c) (by rw [passes.clause]; exact complete)
      have ctrl := congrArg State.ctrl deadline
      have goesOn := State.goOn_afterDeadlines ((State.replaying_of_passed ctrl).trans uLive) e.deadlineUs.toNat
      have passed := State.passed_of_passed uRuns ctrl
      exact ⟨_, row, (goesOn.passed c).trans passed, goesOn.haltDue.trans ((State.haltDue_of_passed ctrl).trans uDue),
        goesOn.inactive hc passed (by rw [deadline]; exact State.passClause_inactive hc)⟩
    · obtain ⟨m, ctrl, clause, shown, pd⟩ := State.clauseDeadline_soft hc uRuns (by rw [passes.clause]; exact open_) (by rw [uKind]; exact soft)
        (by rw [passes.cj]; exact unmarked)
      have mLive : (u.clauseDeadline c).replaying = false := by
        unfold State.replaying
        rw [State.pd_of_ctrl ctrl, pd]
        exact uLive
      have mClause : (u.clauseDeadline c).clause c = { u.clause c with passed := true, missed := true } := by
        rw [State.clause, State.pd_of_ctrl ctrl]
        exact clause
      have mDue : (u.clauseDeadline c).pd.haltDue = none := by
        rw [State.pd_of_ctrl ctrl, pd]
        exact uDue
      have goesOn := State.goOn_afterDeadlines mLive e.deadlineUs.toNat
      refine ⟨_, row, ?_, ?_, ?_, goesOn.haltDue.trans mDue⟩
      · rw [goesOn.passed, mClause]
      · rw [goesOn.missed, mClause]
      · rw [goesOn.regs F.PC_MISS_SOFT (by decide) (by decide), State.get_of_ctrl ctrl F.PC_MISS_SOFT]
        exact shown
    · have uHeld : u.barrier = false ∨ u.get F.PC_CTRL_BDL = 1 := by
        unfold State.barrier State.on
        rw [passes.2 F.PC_CTRL_MODE (by decide), passes.2 F.PC_CTRL_BDL (by decide)]
        exact held
      obtain ⟨passed, shown, due, same⟩ := State.clauseDeadline_hard uRuns (by rw [passes.clause]; exact open_) hc (by rw [uKind]; exact hard) uHeld uDue
      have goesOn := State.goOn_afterDeadlines (same.trans uLive) e.deadlineUs.toNat
      refine ⟨_, row, (goesOn.passed c).trans passed, ?_, goesOn.haltDue.trans due⟩
      rw [goesOn.regs F.PC_MISS_HARD (by decide) (by decide)]
      exact shown
    · have ctrl := State.clauseDeadline_noted (s := u) (c := c) (by rw [passes.clause]; exact open_) (by rw [uKind]; exact hard)
        (by unfold State.barrier State.on; rw [passes.2 F.PC_CTRL_MODE (by decide)]; exact noted) ((passes.2 F.PC_CTRL_BDL (by decide)).trans bdl)
      have goesOn := State.goOn_afterDeadlines ((State.replaying_of_passed ctrl).trans uLive) e.deadlineUs.toNat
      refine ⟨_, row, (goesOn.passed c).trans (State.passed_of_passed uRuns ctrl), goesOn.haltDue.trans ((State.haltDue_of_passed ctrl).trans uDue), ?_⟩
      rw [goesOn.regs F.PC_MISS_HARD (by decide) (by decide), State.get_of_ctrl ctrl F.PC_MISS_HARD, State.passClause_get (by decide),
        passes.2 F.PC_MISS_HARD (by decide)]

end Sys2Proof.Machine

/-!
PROOF. Fabric time and the ticks that start Periods (statement TimeAndTicks).
-/
namespace Sys2Proof.Machine

/-! ## A message on a port that is clear -/

/-- With no slots owed in a whole unit, a flit returns none. -/
theorem PortState.returns_none {v : PortState} (h : ∀ n ∈ v.owed, n < 8) : v.returns = (15, 0) := by
  have none_ : (List.range 9).find? (fun c => decide (8 ≤ nth v.owed c 0)) = none := by
    rw [List.find?_eq_none]
    intro c _ owed
    have := of_decide_eq_true owed
    unfold nth at this
    rw [List.getD_eq_getElem?_getD] at this
    cases he : v.owed[c]? with
    | none =>
      rw [he] at this
      exact absurd this (by decide)
    | some n =>
      rw [he] at this
      exact absurd this (Nat.not_le.2 (h n (List.mem_of_getElem? he)))
  unfold PortState.returns
  rw [none_]

/-- Of a queue of one message of VC 0, for which the port has a credit, that message goes next. -/
theorem PortState.choose_single {v : PortState} {t : TxMsg} (queue : v.queue = [t]) (sub : t.sub = some 0) (credit : 0 < v.shared) :
    v.choose true = some ((0, t), v.turn) := by
  have linkLocal : v.head none = none := by
    unfold PortState.head
    rw [queue]
    simp [sub]
  have first : v.head (some 0) = some (0, t) := by
    unfold PortState.head
    rw [queue]
    by_cases begun : t.next = 0
    · by_cases peers : t.origin.isSome = true
      · simp [sub, begun, peers]
      · simp [sub, begun, peers]
    · simp [sub, begun]
  have second : v.head (some 1) = none := by
    unfold PortState.head
    rw [queue]
    simp [sub]
  unfold PortState.choose PortState.ofClass PortState.credited
  rw [linkLocal]
  simp only [Nat.mul_zero, Nat.zero_add, credit, true_or, if_true, first, second]

theorem PortState.waiting_single {v : PortState} {t : TxMsg} (queue : v.queue = [t]) (total : t.total = 1) (next : t.next = 0) : v.waiting = 1 := by
  unfold PortState.waiting sumList
  rw [queue]
  simp [total, next]

/-- What one message on a clear port changes: the message is sent, and the other ports are as they were. -/
structure State.SentOn (s t : State) (q : Nat) (m : OutMsg) : Prop where
  frame : s.SendFrame t
  out : t.out = s.out ++ [m]
  inject : t.inject = s.inject
  others : ∀ r, r ≠ q → t.port r = s.port r
  owed : (t.port q).owed = (s.port q).owed

/-- A message of one flit, for which the port has a credit, goes out as a flit that returns no slots. -/
theorem State.sendFlit_single {s : State} {q turn : Nat} {t : TxMsg} (unarmed : s.inject = []) (credit : 0 < (s.port q).shared)
    (owed : ∀ n ∈ (s.port q).owed, n < 8) (sub : t.sub = some 0) (total : t.total = 1) (own : t.origin = none) (loud : t.m.flitType ≠ some 0) :
    ∃ v : PortState, s.sendFlit q (0, t) turn = (s.setPort q v).send t.m ∧ v.owed = (s.port q).owed := by
  have crc : s.injectCrc q = s := by
    unfold State.injectCrc
    rw [unarmed]
    rfl
  have last : (s.flitHeader q t).last = true := by
    unfold State.flitHeader
    rw [total]
    exact decide_eq_true (show 1 ≤ t.next + 1 by omega)
  have none_ : (s.port q).returned (s.flitHeader q t).cr (s.flitHeader q t).credits = s.port q := by
    unfold State.flitHeader
    dsimp only
    rw [PortState.returns_none owed]
    rfl
  unfold State.sendFlit
  dsimp only
  rw [crc, own, sub, last, none_]
  dsimp only
  rw [if_pos credit, if_pos rfl, if_pos rfl]
  split
  · rename_i p h e
    rw [e] at loud
    exact absurd rfl loud
  · exact ⟨_, rfl, rfl⟩

theorem State.sentOn_of_clear {s : State} {q : Nat} (h : s.Clear q) {m : OutMsg} (loud : m.flitType ≠ some 0) :
    s.SentOn (s.sendOn q 1 (some 0) m) q m := by
  have queued : (s.enqueue q ⟨m, some 0, 1, 0, none⟩).port q = { s.port q with queue := [⟨m, some 0, 1, 0, none⟩] } := by
    refine (State.port_setPort _ _ _ _ h.port).trans ((if_pos rfl).trans ?_)
    rw [h.idle]
    rfl
  have runs : (s.enqueue q ⟨m, some 0, 1, 0, none⟩).portRuns q = true := by
    have up := of_decide_eq_true h.up
    show [2, 3, 5].contains (s.get (F.ZP_STATUS_STATE q)) = true
    rw [up]
    rfl
  have up : (s.enqueue q ⟨m, some 0, 1, 0, none⟩).portUp q = true := h.up
  obtain ⟨v, sent, owed⟩ := State.sendFlit_single (s := s.enqueue q ⟨m, some 0, 1, 0, none⟩) (q := q) (turn := (s.port q).turn)
    (t := ⟨m, some 0, 1, 0, none⟩) h.inject (by rw [queued]; exact h.credit) (by rw [queued]; exact h.owed q h.port) rfl rfl rfl loud
  have waits : ((s.enqueue q ⟨m, some 0, 1, 0, none⟩).port q).waiting = 1 := by
    rw [queued]
    exact PortState.waiting_single rfl rfl rfl
  have chosen : ((s.enqueue q ⟨m, some 0, 1, 0, none⟩).port q).choose true = some ((0, ⟨m, some 0, 1, 0, none⟩), (s.port q).turn) := by
    rw [queued]
    exact PortState.choose_single rfl rfl h.credit
  have room : ¬ replaySlots q ≤ ((s.enqueue q ⟨m, some 0, 1, 0, none⟩).port q).buffer.length := by
    rw [queued]
    exact Nat.not_le.2 h.room
  have flushed : s.sendOn q 1 (some 0) m = (s.enqueue q ⟨m, some 0, 1, 0, none⟩).sendFlit q (0, ⟨m, some 0, 1, 0, none⟩) (s.port q).turn := by
    unfold State.sendOn State.flush
    rw [waits]
    unfold State.drain
    dsimp only
    rw [runs, up, chosen, decide_eq_false room]
    rfl
  have frame := s.sendFrame_sendOn q 1 (some 0) m
  rw [flushed, sent] at frame ⊢
  refine ⟨frame, rfl, rfl, fun r hr => ?_, ?_⟩
  · have second : ((s.enqueue q ⟨m, some 0, 1, 0, none⟩).setPort q v).port r = _ := State.port_setPort _ _ _ _ h.port
    exact second.trans ((if_neg hr).trans ((State.port_setPort _ _ _ _ h.port).trans (if_neg hr)))
  · have second : ((s.enqueue q ⟨m, some 0, 1, 0, none⟩).setPort q v).port q = v := (State.port_setPort _ _ _ _ h.port).trans (if_pos rfl)
    show (((s.enqueue q ⟨m, some 0, 1, 0, none⟩).setPort q v).port q).owed = _
    rw [second, owed, queued]

/-- A message on one port leaves another as clear as it was. -/
theorem State.SentOn.clear {s t : State} {q r : Nat} {m : OutMsg} (h : s.SentOn t q m) (hr : r ≠ q) (clear : s.Clear r) : t.Clear r := by
  have regs : t.regs = s.regs := by rw [h.frame]
  refine ⟨h.inject.trans clear.inject, clear.port, ?_, ?_, ?_, ?_, fun k hk => ?_⟩
  · unfold State.portUp State.get
    rw [regs]
    exact clear.up
  · rw [h.others r hr]
    exact clear.idle
  · rw [h.others r hr]
    exact clear.credit
  · rw [h.others r hr]
    exact clear.room
  · by_cases e : k = q
    · rw [e, h.owed]
      exact clear.owed q (e ▸ hk)
    · rw [h.others k e]
      exact clear.owed k hk

/-- Messages on ports that are clear leave at once, in the ports' order. -/
theorem State.sendEach_clear {m : Nat → OutMsg} (loud : ∀ q, (m q).flitType ≠ some 0) (ports : List Nat) (distinct : ports.Nodup) {s : State}
    (clear : ∀ q ∈ ports, s.Clear q) : (s.sendEach ports m).out = s.out ++ ports.map m := by
  induction ports generalizing s with
  | nil => exact (List.append_nil _).symm
  | cons q ports ih =>
    obtain ⟨fresh, distinct⟩ := List.nodup_cons.1 distinct
    have sent := State.sentOn_of_clear (clear q (List.mem_cons_self ..)) (loud q)
    have rest := ih distinct (s := s.sendOn q 1 (some 0) (m q)) fun r hr =>
      sent.clear (fun e => fresh (e ▸ hr)) (clear r (List.mem_cons_of_mem _ hr))
    rw [sent.out, List.append_assoc] at rest
    exact rest

/-! ## What a message from the link does first -/

/-- With no error armed, a flit that comes in is taken, and its slots are owed and returned. -/
theorem State.takeControl_unarmed {s : State} (h : s.inject = []) (p : Nat) : s.takeControl p = (s.taken p 1 0, true) := by
  have accepted (q : State) (n : Nat) (h : q.inject = []) : (q.accepted p n).inject = [] := by
    unfold State.accepted
    rw [State.touchCritical_unarmed h]
    exact h
  have arrive : (s.arrive p 1 0).1.inject = [] := accepted s 1 h
  have store : (s.arrive p 1 0).1.useStore .fabric p none = ((s.arrive p 1 0).1, false) := by
    unfold State.useStore
    rw [arrive]
    rfl
  unfold State.takeControl State.arrived
  dsimp only
  rw [store]
  rfl

theorem State.sendFrame_taken {s : State} (h : s.inject = []) (p n sub : Nat) : s.SendFrame (s.taken p n sub) := by
  have arrive : s.SendFrame (s.arrive p n sub).1 := by
    unfold State.arrive State.accepted
    rw [State.touchCritical_unarmed h]
    rfl
  have credits (t : State) (q : Nat) : t.SendFrame (t.returnCredits q) := by
    unfold State.returnCredits
    dsimp only
    split
    · exact .refl t
    · exact (State.SendFrame.foldl (fun t _ => t.sendFrame_enqueue ..) _ t).trans (State.sendFrame_flush ..)
  unfold State.taken State.consume
  exact arrive.trans ((State.sendFrame_owe ..).trans ((State.sendFrame_owe ..).trans (credits _ _)))

section
variable {s t : State} (h : s.SendFrame t)
include h

theorem State.SendFrame.pd : t.pd = s.pd := by rw [h]

theorem State.SendFrame.get (f : Field) : t.get f = s.get f := by rw [h]; rfl

theorem State.SendFrame.parent : t.parent = s.parent := by rw [h]; rfl

theorem State.SendFrame.children : t.children = s.children := by rw [h]; rfl

theorem State.SendFrame.takesTick (p : TickPayload) : t.takesTick p = s.takesTick p := by rw [h]; rfl

end

/-- The state after a change of fabric time or of the Period controller's registers has the ports of the state before. -/
structure State.SamePorts (s t : State) : Prop where
  inject : t.inject = s.inject
  fab : t.fab = s.fab
  out : t.out = s.out
  regs : ∀ f : Field, pcKey f.key = false → t.get f = s.get f

theorem State.SamePorts.upPorts {s t : State} (h : s.SamePorts t) : t.upPorts = s.upPorts := by
  have key : ∀ p < 8, pcKey (F.ZP_STATUS_STATE p).key = false := by decide
  refine List.filter_congr fun p hp => ?_
  unfold State.portUp
  rw [h.regs _ (key p (List.mem_range.1 hp))]

theorem State.SamePorts.clear {s t : State} (h : s.SamePorts t) {q : Nat} (clear : s.Clear q) : t.Clear q := by
  have key : ∀ p < 8, pcKey (F.ZP_STATUS_STATE p).key = false := by decide
  have port (r : Nat) : t.port r = s.port r := by
    unfold State.port
    rw [h.fab]
  refine ⟨h.inject.trans clear.inject, clear.port, ?_, ?_, ?_, ?_, fun k hk => ?_⟩
  · unfold State.portUp
    rw [h.regs _ (key q clear.port)]
    exact clear.up
  · rw [port]
    exact clear.idle
  · rw [port]
    exact clear.credit
  · rw [port]
    exact clear.room
  · rw [port]
    exact clear.owed k hk

theorem State.samePorts_put (s : State) {f : Field} (hf : pcKey f.key = true) (v : Nat) : s.SamePorts (s.put f v) :=
  ⟨rfl, rfl, rfl, fun g hg => State.get_put_other (fun e => by rw [e, hf] at hg; cases hg) s v⟩

theorem State.SamePorts.trans {s t u : State} (h : s.SamePorts t) (h' : t.SamePorts u) : s.SamePorts u :=
  ⟨h'.inject.trans h.inject, h'.fab.trans h.fab, h'.out.trans h.out, fun f hf => (h'.regs f hf).trans (h.regs f hf)⟩

theorem State.samePorts_advance (s : State) (t : Nat) : s.SamePorts (s.advance t) := by
  unfold State.advance
  split
  · exact s.samePorts_put (by decide) t
  · exact ⟨rfl, rfl, rfl, fun _ _ => rfl⟩

theorem State.upPorts_nodup (s : State) : s.upPorts.Nodup := List.Nodup.filter _ List.nodup_range

/-! ## TIME -/

/-- The tick master's TIME (R26, R27). -/
theorem State.sendTime_sends (s : State) : ∃ p : TimePayload,
    ((∀ q ∈ s.upPorts, s.Clear q) → s.sendTime.out = s.out ++ s.upPorts.map (fun q => .time q p)) ∧
      (s.get F.PC_CTRL_TSRC = 0 → s.sendTime.get F.PC_STATUS_SYNCED = 1) ∧ p.sequence = BitVec.ofNat 32 s.pd.nextTimeSeq ∧ p.hops = 0 ∧
      p.correction = 0 ∧ p.masterId = BitVec.ofNat 64 (s.get F.ZF_UNIT_ID_UNIT_ID) ∧ p.origin = BitVec.ofNat 64 s.sendTime.now ∧
      s.sendTime.pd.nextTimeSeq = (s.pd.nextTimeSeq + 1) % 2 ^ 32 := by
  have synced : ∃ u : State, (if s.on F.PC_CTRL_TSRC then s else s.put F.PC_STATUS_SYNCED 1) = u ∧ s.SamePorts u ∧ u.pd = s.pd ∧
      (s.get F.PC_CTRL_TSRC = 0 → u.get F.PC_STATUS_SYNCED = 1) := by
    refine ⟨_, rfl, ?_⟩
    split
    · rename_i external
      exact ⟨⟨rfl, rfl, rfl, fun _ _ => rfl⟩, rfl, fun off => absurd (of_decide_eq_true external) (by rw [off]; decide)⟩
    · exact ⟨s.samePorts_put (by decide) 1, rfl, fun _ => State.get_put_same ..⟩
  obtain ⟨u, hu, ports, pd, set⟩ := synced
  have passes := u.timeFrame_advance (u.pd.lastTime + 100000)
  have samePorts := ports.trans (u.samePorts_advance (u.pd.lastTime + 100000))
  have moved : (u.advance (u.pd.lastTime + 100000)).pd = s.pd := passes.pd.trans pd
  unfold State.sendTime
  dsimp only
  rw [hu]
  generalize u.advance (u.pd.lastTime + 100000) = v at passes samePorts moved ⊢
  generalize hp : ({
    masterId := BitVec.ofNat 64 (v.get F.ZF_UNIT_ID_UNIT_ID), origin := BitVec.ofNat 64 v.now, correction := 0, hops := 0
    sequence := BitVec.ofNat 32 v.pd.nextTimeSeq } : TimePayload) = p
  have sent := v.sendFrame_sendEach v.upPorts (fun q => .time q p)
  have out (clear : ∀ q ∈ s.upPorts, s.Clear q) : (v.sendEach v.upPorts (fun q => .time q p)).out = s.out ++ s.upPorts.map (fun q => .time q p) := by
    rw [State.sendEach_clear (m := fun q => .time q p) (fun _ => (by decide : some 6 ≠ some 0)) v.upPorts v.upPorts_nodup
      fun q hq => samePorts.clear (clear q (samePorts.upPorts ▸ hq)), samePorts.out, samePorts.upPorts]
  generalize v.sendEach v.upPorts (fun q => .time q p) = w at sent out ⊢
  refine ⟨p, out, fun off => ?_, ?_, ?_, ?_, ?_, ?_, ?_⟩
  · exact (sent.get F.PC_STATUS_SYNCED).trans ((passes.2 F.PC_STATUS_SYNCED (by decide)).trans (set off))
  · rw [← hp, moved]
  · rw [← hp]
  · rw [← hp]
  · rw [← hp, samePorts.regs F.ZF_UNIT_ID_UNIT_ID (by decide)]
  · rw [← hp]
    exact congrArg (BitVec.ofNat 64) (sent.get F.PC_FTIME_FTIME).symm
  · rw [sent.pd, moved]

theorem State.ctrl_hopsSeen (s : State) (port hops : Nat) : (s.hopsSeen port hops).ctrl = s.ctrl := by
  have parents (l : List Nat) (h : ∀ q ∈ l, q < 8) (p : Option Nat) (s : State) :
      (l.foldl (fun s q => s.put (F.ZP_STATUS_PARENT q) (flag (p = some q))) s).ctrl = s.ctrl :=
    State.ctrl_foldl l (fun s q m => State.ctrl_put ((by decide : ∀ q < 8, pcKey (F.ZP_STATUS_PARENT q).key = false) q (h q m)) s _) s
  have placed (s : State) (p : Prop) [Decidable p] (best : Option Nat) : (if p then (s.setParent best).announce else s).ctrl = s.ctrl := by
    split
    · rw [(State.sendFrame_announce _).ctrl]
      unfold State.setParent
      dsimp only
      rw [State.ctrl_put (by decide), parents _ fun q m => List.mem_range.1 m]
    · rfl
  have counted (s : State) (p : Prop) [Decidable p] (v : Nat) : (if p then s.put F.ZF_TREE_HOPS v else s).ctrl = s.ctrl := by
    split
    · exact State.ctrl_put (by decide) s v
    · rfl
  unfold State.hopsSeen
  dsimp only
  rw [counted, placed]
  exact (State.sendFrame_setPort ..).ctrl

theorem State.discipline_pd (s : State) (port : Nat) (p : TimePayload) : (s.discipline port p).pd = s.pd := by
  have synchronised (t : Nat) : (s.synchronise t).pd = s.pd := by
    unfold State.synchronise
    split
    · exact (s.timeFrame_advance t).pd
    · rfl
  unfold State.discipline
  dsimp only
  split
  · rfl
  · split
    · exact synchronised _
    · exact synchronised _

/-- TIME that is not another master's ends the holdover, and its master is known (R27, R28). -/
theorem State.timeArrived_known {s : State} (unarmed : s.inject = []) (slave : s.isMaster = false) (q : Nat) (p : TimePayload) (x : Nat)
    (known : s.pd.masterId = none ∨ s.pd.masterId = some p.masterId.toNat) : (s.timeArrived q p x).get F.PC_STATUS_HOLDOVER = 0 ∧
      (s.timeArrived q p x).pd.masterId = some p.masterId.toNat ∧ (s.timeArrived q p x).pd.lastTime = (s.timeArrived q p x).now := by
  have taken := State.sendFrame_taken unarmed q 1 0
  have slave' : (s.taken q 1 0).isMaster = false := by
    unfold State.isMaster State.on
    rw [taken.get]
    exact slave
  have same : ¬ ((s.taken q 1 0).pd.masterId.isSome = true ∧ (s.taken q 1 0).pd.masterId ≠ some p.masterId.toNat) := by
    rw [taken.pd]
    rintro ⟨some_, other⟩
    rcases known with h | h
    · rw [h] at some_
      cases some_
    · exact other h
  have forwarded (u : State) : (u.forwardTime q p x).get F.PC_STATUS_HOLDOVER = u.get F.PC_STATUS_HOLDOVER ∧
      (u.forwardTime q p x).pd.masterId = u.pd.masterId := by
    unfold State.forwardTime
    dsimp only
    split
    · exact ⟨rfl, rfl⟩
    · have sent := State.sendFrame_sendEach u (u.upPorts.filter (· ≠ q)) (fun q' => .time q'
        { p with correction := BitVec.ofNat 64 (p.correction.toNat + u.get (F.ZP_LATENCY_LATENCY q) + x), hops := p.hops + 1 })
      have master := congrArg PdState.masterId sent.pd
      exact ⟨sent.get F.PC_STATUS_HOLDOVER, master⟩
  unfold State.timeArrived
  rw [State.takeControl_unarmed unarmed]
  dsimp only
  rw [slave']
  rw [if_neg (by decide), if_neg Bool.false_ne_true, if_neg same]
  generalize hv : ({ s.taken q 1 0 with pd := _ } : State) = v
  have hops := State.ctrl_hopsSeen v q p.hops.toNat
  generalize v.hopsSeen q p.hops.toNat = w at hops ⊢
  have master : w.pd.masterId = some p.masterId.toNat := by
    rw [State.pd_of_ctrl hops, ← hv]
  have disciplined : (if w.on F.PC_CTRL_ENABLE then w.discipline q p else w).pd = w.pd := by
    split
    · exact State.discipline_pd ..
    · rfl
  generalize (if w.on F.PC_CTRL_ENABLE then w.discipline q p else w) = y at disciplined ⊢
  obtain ⟨holdover, masterId⟩ := forwarded (y.put F.PC_STATUS_HOLDOVER 0)
  exact ⟨holdover.trans (State.get_put_same ..), masterId.trans ((congrArg PdState.masterId disciplined).trans master), rfl⟩

/-! ## TICKREF -/

/-- The second of two edges of TICKREF a whole number of ms apart, 1 to 1,000, locks its interval (R32, R33). -/
theorem State.edge_locks {s : State} {x e : Nat} (unlocked : s.get F.PC_TREF_LOCKED = 0) (first : s.pd.tref.edge = some e)
    (least : 1 ≤ (x - e + 500000) / 1000000) (most : (x - e + 500000) / 1000000 ≤ 1000) :
    (s.edge x).get F.PC_TREF_LOCKED = 1 ∧ (s.edge x).get F.PC_TREF_INTERVAL_MS = (x - e + 500000) / 1000000 := by
  have passes := s.timeFrame_advance x
  have open_ : (s.advance x).on F.PC_TREF_LOCKED = false := by
    unfold State.on
    rw [passes.2 F.PC_TREF_LOCKED (by decide), unlocked]
    rfl
  have edge : (s.advance x).pd.tref.edge = some e := by rw [passes.pd, first]
  unfold State.edge
  dsimp only
  rw [open_, if_pos (by decide), edge]
  dsimp only
  rw [if_pos ⟨least, most⟩]
  generalize (x - e + 500000) / 1000000 = i at least most ⊢
  have interval : (((s.advance x).put F.PC_TREF_INTERVAL_MS i).put F.PC_TREF_LOCKED 1).get F.PC_TREF_INTERVAL_MS = i := by
    rw [State.get_put_other (by decide), State.get_put_same]
    have room : (1000 : Nat) < 2 ^ 11 := by norm_num
    exact Nat.mod_eq_of_lt (Nat.lt_of_le_of_lt most room)
  have locked : (((s.advance x).put F.PC_TREF_INTERVAL_MS i).put F.PC_TREF_LOCKED 1).get F.PC_TREF_LOCKED = 1 := by
    rw [State.get_put_same]
    rfl
  refine ⟨(State.setTref_get _ _ _).trans locked, ?_⟩
  rw [State.setTref_get]
  exact interval

theorem State.edge_first {s : State} (x : Nat) (unlocked : s.get F.PC_TREF_LOCKED = 0) (first : s.pd.tref.edge = none) :
    (s.edge x).pd.tref = { s.pd.tref with edge := some x } := by
  have passes := s.timeFrame_advance x
  have open_ : (s.advance x).on F.PC_TREF_LOCKED = false := by
    unfold State.on
    rw [passes.2 F.PC_TREF_LOCKED (by decide), unlocked]
    rfl
  have edge : (s.advance x).pd.tref.edge = none := by rw [passes.pd, first]
  unfold State.edge
  dsimp only
  rw [open_, if_pos (by decide), edge]
  dsimp only
  rw [passes.pd]

/-- A missing edge of TICKREF puts the module in holdover (R28, R33). -/
theorem State.edgeMissing_holds {s : State} {m : Nat} (marked : s.pd.tref.mark = some m) :
    s.edgeMissing.get F.PC_STATUS_HOLDOVER = 1 ∧ s.edgeMissing.pd.tref.missing = s.pd.tref.missing + 1 := by
  unfold State.edgeMissing
  rw [marked]
  dsimp only
  generalize hu : ((s.advance (m + 10000)).put F.PC_STATUS_HOLDOVER 1).setTref ⟨none, some (m + s.edgeNs), s.pd.tref.missing + 1⟩ = u
  have held : u.get F.PC_STATUS_HOLDOVER = 1 := by
    rw [← hu, State.setTref_get, State.get_put_same]
    rfl
  have missing : u.pd.tref.missing = s.pd.tref.missing + 1 := by rw [← hu, State.setTref_pd]
  have noted := State.ctrl_raise (e := Ev.plain 0x0B02 0 11 0) (by decide) u
  generalize u.raise (Ev.plain 0x0B02 0 11 0) = v at noted ⊢
  have held' := (State.get_of_ctrl noted F.PC_STATUS_HOLDOVER).trans held
  have missing' : v.pd.tref.missing = s.pd.tref.missing + 1 := by rw [State.pd_of_ctrl noted, missing]
  split
  · obtain ⟨w, ctrl, raised⟩ := State.raise_periodFatal (e := Ev.plain 0x0B03 3 11 0) rfl v
    rw [raised]
    refine ⟨(State.get_of_ctrl ctrl F.PC_STATUS_HOLDOVER).trans held', ?_⟩
    dsimp only
    rw [State.pd_of_ctrl ctrl, missing']
  · exact ⟨held', missing'⟩

/-! ## Ticks -/

/-- A TICK for the Period that the module waits for, from its parent, is scheduled (R31). -/
theorem State.tickArrived_scheduled {s : State} (unarmed : s.inject = []) {q : Nat} {p : TickPayload} (slave : s.isMaster = false)
    (parent : s.parent = some q) (takes : s.takesTick p = true) (leaf : s.children = []) (ahead : s.now ≤ p.start.toNat) :
    s.tickArrived q p = { s.taken q 1 0 with
      pd := { s.pd with sched := some ⟨p.period.toNat, p.start.toNat, p.generation.toNat, p.retry, p.replay, p.barrier⟩ } } := by
  have taken := State.sendFrame_taken unarmed q 1 0
  have slave' : (s.taken q 1 0).isMaster = false := by
    unfold State.isMaster State.on
    rw [taken.get]
    exact slave
  have home : s.isSpare = false := by
    cases spare : s.isSpare with
    | false => rfl
    | true =>
      unfold State.takesTick at takes
      rw [spare, Bool.not_true, Bool.and_false, Bool.false_and, Bool.false_and, Bool.false_and] at takes
      cases takes
  have home' : (s.taken q 1 0).isSpare = false := by
    unfold State.isSpare State.on
    rw [taken.get]
    exact home
  have silent : (s.taken q 1 0).tickDown p = s.taken q 1 0 := by
    unfold State.tickDown State.sendEach
    rw [taken.children, leaf, List.filter_nil, List.foldl_nil]
  have parent' : ¬ (s.taken q 1 0).parent ≠ some q := not_not.2 (taken.parent.trans parent)
  have now : (s.taken q 1 0).now = s.now := taken.get F.PC_FTIME_FTIME
  have takes' : (s.taken q 1 0).takesTick p = true := (taken.takesTick p).trans takes
  have pd := taken.pd
  unfold State.tickArrived
  rw [State.takeControl_unarmed unarmed]
  dsimp only
  generalize s.taken q 1 0 = v at slave' home' silent parent' now takes' pd ⊢
  have early : ¬ p.start.toNat < v.now := by omega
  rw [slave', silent, home', takes', if_neg (by decide), if_neg Bool.false_ne_true, if_neg parent', if_neg Bool.false_ne_true,
    if_neg (by decide), pd]
  exact if_neg early

section Start
variable {s : State} (unarmed : s.inject = []) {x : TickSched} (free : s.pcState = 2 → s.get F.PC_STATUS_DONE = 1)
include unarmed free

/-- At a tick that no Period overruns (R31). -/
theorem State.startPeriod_free : s.startPeriod x false =
    if ((s.advance x.start).planOf x.generation).isNone then (s.advance x.start).refuseTick (Ev.plain 0x0B05 3 11 0)
    else if (s.advance x.start).pcState = 1 ∧ (s.advance x.start).on F.SO_CTRL_ENABLE ∧ (s.advance x.start).sampleOrderBad then
      ((s.advance x.start).put F.SO_STATUS_ERROR 1).refuseTick (Ev.plain 0x0B0D 3 11 0)
    else (s.advance x.start).tick x := by
  have passes := s.timeFrame_advance x.start
  have still : (s.advance x.start).inject = [] := by
    rw [passes.1]
    exact unarmed
  have notOver : (decide ((s.advance x.start).pcState = 2) && decide ((s.advance x.start).get F.PC_STATUS_DONE = 0)) = false := by
    unfold State.pcState
    rw [passes.2 F.PC_STATUS_STATE (by decide), passes.2 F.PC_STATUS_DONE (by decide), Bool.and_eq_false_iff, decide_eq_false_iff_not,
      decide_eq_false_iff_not]
    by_cases running : s.pcState = 2
    · right
      have := free running
      omega
    · exact .inl running
  unfold State.startPeriod
  dsimp only
  rw [State.touchCritical_unarmed still, notOver, Bool.false_and, if_neg Bool.false_ne_true, if_neg Bool.false_ne_true]
  rfl

/-- A Period that cannot start, for want of its plan, does not (R31, R39). -/
theorem State.startPeriod_unplanned (unplanned : s.planOf x.generation = none) : s.startPeriod x false =
    ({ s.advance x.start with pd := { s.pd with sched := none } } : State).raise ⟨0x0B05, 3, 11, 0, 0, false, none⟩ := by
  have passes := s.timeFrame_advance x.start
  have none_ : ((s.advance x.start).planOf x.generation).isNone = true := by
    unfold State.planOf at unplanned ⊢
    rw [passes.pd, unplanned]
    rfl
  rw [State.startPeriod_free unarmed free, if_pos none_, State.refuseTick, passes.pd]

/-- A Period whose plan is there starts, where no sample order can forbid it (R31). -/
theorem State.startPeriod_starts (planned : s.planOf x.generation ≠ none) (unordered : s.get F.SO_CTRL_ENABLE = 0) :
    s.startPeriod x false = (s.advance x.start).tick x := by
  have passes := s.timeFrame_advance x.start
  have some_ : ¬ ((s.advance x.start).planOf x.generation).isNone = true := by
    unfold State.planOf at planned ⊢
    rw [passes.pd]
    exact fun h => planned (Option.isNone_iff_eq_none.1 h)
  have off : ¬ ((s.advance x.start).pcState = 1 ∧ (s.advance x.start).on F.SO_CTRL_ENABLE = true ∧ (s.advance x.start).sampleOrderBad = true) := by
    rintro ⟨-, on, -⟩
    have on' := of_decide_eq_true on
    rw [passes.2 F.SO_CTRL_ENABLE (by decide), unordered] at on'
    cases on'
  rw [State.startPeriod_free unarmed free, if_neg some_, if_neg off]

end Start

/-- What runs once a Period has begun leaves the Period controller as it is. -/
theorem State.ctrl_tick (s : State) (t : TickSched) : ∃ u : State, (s.tick t).ctrl = (u.beginPeriod t).ctrl := by
  have dropped (s : State) : s.dropWindows.ctrl = s.ctrl := by
    unfold State.dropWindows
    dsimp only
    split
    · rw [State.ctrl_forgetHbm, State.ctrl_put (by decide)]
    · exact State.ctrl_put (by decide) s 0
  have swapped (s : State) (n : Nat) : (s.tickSwap n).ctrl = s.ctrl := by
    unfold State.tickSwap
    dsimp only
    split
    · rw [State.ctrl_raise (by decide), State.ctrl_mk, State.ctrl_put (by decide), State.ctrl_put (by decide)]
    · rfl
  have checked (s : State) (n : Nat) : (s.checkAttached n).ctrl = s.ctrl := State.ctrl_endFlights _ (fun _ => ST_BAD_PARAM) s
  have begun (s : State) : s.tickUpdate.tickGram.ctrl = s.ctrl := rfl
  unfold State.tick
  dsimp only
  exact ⟨_, by rw [checked, State.ctrl_attachWaiting, dropped, swapped, begun]⟩

/-- At its start a Period runs: its number and its tick are shown, and GRANT and DONE are 0 (R31). -/
theorem State.beginPeriod_runs (s : State) (t : TickSched) : (s.beginPeriod t).get F.PC_PERIOD_PERIOD = t.period % 2 ^ 48 ∧
    (s.beginPeriod t).get F.PC_TICK_TICK = t.start % 2 ^ 64 ∧ (s.beginPeriod t).get F.PC_STATUS_STATE = 2 ∧
      (s.beginPeriod t).get F.PC_STATUS_GRANT = 0 ∧ (s.beginPeriod t).get F.PC_STATUS_DONE = 0 ∧ (s.beginPeriod t).pd.sched = none := by
  unfold State.beginPeriod
  dsimp only
  generalize hu : ({ s with pd := _, cp := _, num := _, coll := _ } : State) = u
  have moved := State.ctrl_setModule ((((((u.put F.PC_PERIOD_PERIOD t.period).put F.PC_TICK_TICK t.start).put F.PC_STATUS_STATE 2).put
    F.PC_STATUS_GRANT 0).put F.PC_STATUS_DONE 0).put F.PC_STATUS_ACTIVE 0) 7
  refine ⟨?_, ?_, ?_, ?_, ?_, ?_⟩
  · rw [State.get_of_ctrl moved F.PC_PERIOD_PERIOD, State.get_put_other (by decide), State.get_put_other (by decide), State.get_put_other (by decide),
      State.get_put_other (by decide), State.get_put_other (by decide), State.get_put_same]
  · rw [State.get_of_ctrl moved F.PC_TICK_TICK, State.get_put_other (by decide), State.get_put_other (by decide), State.get_put_other (by decide),
      State.get_put_other (by decide), State.get_put_same]
  · rw [State.get_of_ctrl moved F.PC_STATUS_STATE, State.get_put_other (by decide), State.get_put_other (by decide), State.get_put_other (by decide),
      State.get_put_same]
    rfl
  · rw [State.get_of_ctrl moved F.PC_STATUS_GRANT, State.get_put_other (by decide), State.get_put_other (by decide), State.get_put_same]
    rfl
  · rw [State.get_of_ctrl moved F.PC_STATUS_DONE, State.get_put_other (by decide), State.get_put_same]
    rfl
  · rw [State.pd_of_ctrl moved, ← hu]
    rfl

/-- TIME from another master than the known one. -/
theorem State.timeArrived_other {s : State} (unarmed : s.inject = []) (slave : s.isMaster = false) {q : Nat} {p : TimePayload} {x : Nat}
    (known : s.pd.masterId.isSome = true) (other : s.pd.masterId ≠ some p.masterId.toNat) :
    s.timeArrived q p x = (s.taken q 1 0).raise ⟨0x0B04, 3, 11, 0, 0, false, none⟩ := by
  have taken := State.sendFrame_taken unarmed q 1 0
  have slave' : (s.taken q 1 0).isMaster = false := by
    unfold State.isMaster State.on
    rw [taken.get]
    exact slave
  have conflict : (s.taken q 1 0).pd.masterId.isSome = true ∧ (s.taken q 1 0).pd.masterId ≠ some p.masterId.toNat := by
    rw [taken.pd]
    exact ⟨known, other⟩
  unfold State.timeArrived
  rw [State.takeControl_unarmed unarmed]
  dsimp only
  generalize s.taken q 1 0 = v at slave' conflict ⊢
  rw [slave', if_neg (by decide), if_neg Bool.false_ne_true, if_pos conflict]

/-- A TICK that comes to the tick master, or from another port than the parent's (R30, R31). -/
theorem State.tickArrived_master {s : State} (unarmed : s.inject = []) (master : s.isMaster = true) (q : Nat) (p : TickPayload) :
    s.tickArrived q p = (s.taken q 1 0).raise ⟨0x0B04, 3, 11, 0, 0, false, none⟩ := by
  have taken := State.sendFrame_taken unarmed q 1 0
  have master' : (s.taken q 1 0).isMaster = true := by
    unfold State.isMaster State.on
    rw [taken.get]
    exact master
  unfold State.tickArrived
  rw [State.takeControl_unarmed unarmed]
  dsimp only
  generalize s.taken q 1 0 = v at master' ⊢
  rw [master', if_neg (by decide), if_pos rfl]

theorem State.tickArrived_stranger {s : State} (unarmed : s.inject = []) (slave : s.isMaster = false) {q : Nat} (stranger : s.parent ≠ some q)
    (p : TickPayload) : s.tickArrived q p = s.taken q 1 0 := by
  have taken := State.sendFrame_taken unarmed q 1 0
  have slave' : (s.taken q 1 0).isMaster = false := by
    unfold State.isMaster State.on
    rw [taken.get]
    exact slave
  have stranger' : (s.taken q 1 0).parent ≠ some q := by
    rw [taken.parent]
    exact stranger
  unfold State.tickArrived
  rw [State.takeControl_unarmed unarmed]
  dsimp only
  generalize s.taken q 1 0 = v at slave' stranger' ⊢
  rw [slave', if_neg (by decide), if_neg Bool.false_ne_true, if_pos stranger']

/-- The row of a Period's start, for a module that waits for it (R31). -/
theorem execPeriodStart_starts {s : State} (on : s.pcOn = true) {x : TickSched} (sched : s.pd.sched = some x) (state : s.pcState = 1 ∨ s.pcState = 2)
    (time : s.get F.PC_STATUS_SYNCED = 1 ∨ x.start ≤ s.now) : exec .periodStart s = .next (s.startPeriod x false).settle := by
  have timely : (s.on F.PC_STATUS_SYNCED || decide (x.start ≤ s.now)) = true := by
    rw [Bool.or_eq_true]
    exact time.imp decide_eq_true decide_eq_true
  have waiting : (decide (s.pcState = 1) || decide (s.pcState = 2)) = true := by
    rw [Bool.or_eq_true]
    exact state.imp decide_eq_true decide_eq_true
  show execPeriodStart s = _
  unfold execPeriodStart
  rw [sched]
  dsimp only
  rw [if_pos (by rw [on, timely, waiting]; rfl)]

/-- Settles O45: each row's body where its condition holds, and what it leaves in the Period controller. -/
theorem timeAndTicks : Obligations.TimeAndTicks := by
  unfold Obligations.TimeAndTicks
  refine ⟨fun s on unarmed => ⟨fun master => ?_, fun slave => ⟨fun q p x up => ⟨fun known other => ?_, fun known => ?_⟩, fun free => ?_, ?_⟩,
      fun reference => ⟨fun x e unlocked first least most => ?_, fun x unlocked first => ?_, fun m marked => ?_⟩⟩,
    fun s on unarmed => ⟨fun x master next => ?_, fun q p up => ⟨fun master => ?_, fun slave stranger => ?_, fun slave parent takes leaf ahead => ?_⟩,
      fun x sched state time => ⟨fun unplanned => ?_, fun planned unordered => ?_⟩⟩⟩
  · obtain ⟨p, facts⟩ := s.sendTime_sends
    exact ⟨s.sendTime, p, congrArg done (if_pos (by rw [on, master]; rfl)), facts⟩
  · exact congrArg done ((if_pos up).trans (congrArg State.settle (State.timeArrived_other unarmed slave known other)))
  · exact ⟨s.timeArrived q p x.toNat, congrArg done (if_pos up), State.timeArrived_known unarmed slave q p x.toNat known⟩
  · exact congrArg done (if_pos (by rw [on, slave, State.on, free]; rfl))
  · exact congrArg done (if_pos (by rw [on, slave]; rfl))
  · exact ⟨s.edge x.toNat, congrArg done (if_pos (by rw [on, reference]; rfl)), State.edge_locks unlocked first least most⟩
  · exact ⟨s.edge x.toNat, congrArg done (if_pos (by rw [on, reference]; rfl)), State.edge_first x.toNat unlocked first⟩
  · exact ⟨s.edgeMissing, congrArg done (if_pos (by rw [on, reference]; rfl)), State.edgeMissing_holds marked⟩
  · refine ⟨{ s.tickDown (tickPayload x) with pd := { (s.tickDown (tickPayload x)).pd with sched := some x } }, ?_, rfl, fun clear => ?_⟩
    · show execTickSend s = _
      unfold execTickSend
      rw [next, if_pos (by rw [on, master]; rfl)]
    · exact State.sendEach_clear (m := fun q => .tick q (tickPayload x)) (fun _ => (by decide : some 7 ≠ some 0)) _
        (List.Nodup.filter _ (List.Nodup.filter _ List.nodup_range)) clear
  · exact congrArg done ((if_pos up).trans (congrArg State.settle (State.tickArrived_master unarmed master q p)))
  · exact congrArg done ((if_pos up).trans (congrArg State.settle (State.tickArrived_stranger unarmed slave stranger p)))
  · exact ⟨s.tickArrived q p, congrArg done (if_pos up), State.tickArrived_scheduled unarmed slave parent takes leaf ahead⟩
  · have free : s.pcState = 2 → s.get F.PC_STATUS_DONE = 1 := fun running => (state.resolve_left (by omega)).2
    have row := execPeriodStart_starts on sched (state.imp_right And.left) time
    rw [row, State.startPeriod_unplanned unarmed free unplanned]
  · have free : s.pcState = 2 → s.get F.PC_STATUS_DONE = 1 := fun running => (state.resolve_left (by omega)).2
    have row := execPeriodStart_starts on sched (state.imp_right And.left) time
    obtain ⟨u, ctrl⟩ := (s.advance x.start).ctrl_tick x
    obtain ⟨period, tick, running, grant, done_, none_⟩ := u.beginPeriod_runs x
    rw [State.startPeriod_starts unarmed free planned unordered] at row
    refine ⟨_, row, (State.get_of_ctrl ctrl F.PC_PERIOD_PERIOD).trans period, (State.get_of_ctrl ctrl F.PC_TICK_TICK).trans tick,
      (State.get_of_ctrl ctrl F.PC_STATUS_STATE).trans running, (State.get_of_ctrl ctrl F.PC_STATUS_GRANT).trans grant,
      (State.get_of_ctrl ctrl F.PC_STATUS_DONE).trans done_, ?_⟩
    rw [State.pd_of_ctrl ctrl, none_]

end Sys2Proof.Machine

/-!
PROOF. What the module sent up its tree: the operations of a settling (`State.settle`) that leave it as it was. A settling runs nearly every
operation of the model, so the layer has one equation for each of them, in the model's order; a later proof that asks what a settling keeps
of the reports cites them, and unfolds none of the operations.
-/
namespace Sys2Proof.Machine

/-- What has gone up the module's tree, and where its reports go. -/
def State.tree (s : State) : List ReduceSent × Option Nat := (s.pd.reduceSent, s.pd.upPort)

@[simp] theorem State.tree_mk (regs latches hbm comp poison inject cp pd mgmt pwr oxl dm fab coll num gram marks rr cj uu sh sec out draws
    wrote pending) :
    State.tree ⟨regs, latches, hbm, comp, poison, inject, cp, pd, mgmt, pwr, oxl, dm, fab, coll, num, gram, marks, rr, cj, uu, sh, sec, out,
      draws, wrote, pending⟩ = (pd.reduceSent, pd.upPort) := rfl

@[simp] theorem State.tree_fold (s : State) : (s.pd.reduceSent, s.pd.upPort) = s.tree := rfl

@[simp] theorem State.tree_ite (c : Prop) [Decidable c] (s t : State) : (if c then s else t).tree = if c then s.tree else t.tree :=
  apply_ite ..

@[simp] theorem fst_tree_ite {α : Type} (c : Prop) [Decidable c] (x y : State × α) :
    (if c then x else y).1.tree = if c then x.1.tree else y.1.tree := apply_ite (fun p : State × α => p.1.tree) ..

theorem State.tree_of_ctrl {s t : State} (h : t.ctrl = s.ctrl) : t.tree = s.tree := by
  unfold State.tree
  rw [State.pd_of_ctrl h]

@[simp] theorem State.tree_foldl {α : Type} {f : State → α → State} (l : List α) (hf : ∀ (s : State) (a : α), (f s a).tree = s.tree) (s : State) :
    (l.foldl f s).tree = s.tree := by
  induction l generalizing s with
  | nil => rfl
  | cons a l ih => exact (ih _).trans (hf s a)

theorem tree_foldl_fst {α β : Type} {f : State × β → α → State × β} (l : List α) (hf : ∀ (p : State × β) (a : α), (f p a).1.tree = p.1.tree)
    (p : State × β) : (l.foldl f p).1.tree = p.1.tree := by
  induction l generalizing p with
  | nil => rfl
  | cons a l ih => exact (ih _).trans (hf p a)

theorem State.tree_of_fst {α : Type} {p : State × α} {t : State} {a : α} (h : p = (t, a)) : t.tree = p.1.tree := by rw [h]

/-! ## Registers, events and the companion's requests -/

@[simp] theorem State.tree_put (s : State) (f : Field) (v : ℕ) : (s.put f v).tree = s.tree := by simp [State.put]

@[simp] theorem State.tree_bump (s : State) (f : Field) (n : ℕ) : (s.bump f n).tree = s.tree := by simp [State.bump]

@[simp] theorem State.tree_putBankState (s : State) (k v : ℕ) : (s.putBankState k v).tree = s.tree := by simp [State.putBankState]

@[simp] theorem State.tree_oxlAsk (s : State) (r : OxlReq) : (s.oxlAsk r).tree = s.tree := State.tree_of_ctrl (State.frame_oxlAsk ..).ctrl

@[simp] theorem State.tree_fetch (s : State) (owner : OxlOwner) (a n : ℕ) : (s.fetch owner a n).tree = s.tree := by simp [State.fetch]

@[simp] theorem State.tree_disown (s : State) (owner : OxlOwner) : (s.disown owner).tree = s.tree := by simp [State.disown]

@[simp] theorem State.tree_loseEvent (s : State) (e : Ev) : (s.loseEvent e).tree = s.tree := State.tree_of_ctrl (State.frame_loseEvent ..).ctrl

@[simp] theorem State.tree_noteEntry (s : State) (en : RecEntry) : (s.noteEntry en).tree = s.tree := State.tree_of_ctrl (State.ctrl_noteEntry ..)

@[simp] theorem State.tree_queuePldm (s : State) (e : PldmEvent) (alert : Bool) : (s.queuePldm e alert).tree = s.tree :=
  State.tree_of_ctrl (State.frame_queuePldm ..).ctrl

@[simp] theorem State.tree_countEvent (s : State) (e : Ev) : (s.countEvent e).tree = s.tree := by simp [State.countEvent]

@[simp] theorem State.tree_tryRecord (s : State) (tag : RecordTag) (w : EvWait) (withheld : ℕ) :
    (s.tryRecord tag w withheld).1.tree = s.tree :=
  State.tree_of_ctrl (s.frame_tryRecord tag w withheld).1.ctrl

@[simp] theorem State.tree_countWithheld (s : State) (e : Ev) : (s.countWithheld e).tree = s.tree := by simp [State.countWithheld]

@[simp] theorem State.tree_writeEvent (s : State) (w : EvWait) : (s.writeEvent w).1.tree = s.tree := by simp [State.writeEvent]

@[simp] theorem State.tree_writeOverflow (s : State) (w : EvWait) : (s.writeOverflow w).1.tree = s.tree := by
  unfold State.writeOverflow
  split <;> simp [State.tree_of_fst ‹_›]

@[simp] theorem State.tree_recordNow (s : State) (w : EvWait) : (s.recordNow w).1.tree = s.tree := by simp [State.recordNow]

@[simp] theorem State.tree_recordEvent (s : State) (e : Ev) : (s.recordEvent e).1.tree = s.tree := by simp [State.recordEvent]

@[simp] theorem State.tree_emitWithin (n : ℕ) (s : State) (e : Ev) : (s.emitWithin n e).tree = s.tree := by
  induction n generalizing s e with
  | zero => simp [State.emitWithin]
  | succ n ih => simp [State.emitWithin, ih]

@[simp] theorem State.tree_emit (s : State) (e : Ev) : (s.emit e).tree = s.tree := by simp [State.emit]

@[simp] theorem State.tree_raise (s : State) (e : Ev) : (s.raise e).tree = s.tree := by simp [State.raise]

@[simp] theorem State.tree_writeWaiting (s : State) (fuel : ℕ) : (s.writeWaiting fuel).tree = s.tree := by
  induction fuel generalizing s with
  | zero => rfl
  | succ fuel ih =>
    unfold State.writeWaiting
    split
    · rfl
    · split
      · rfl
      · simp [ih]

@[simp] theorem State.tree_undoWrite (s : State) (r : OxlReq) (refused : Bool) : (s.undoWrite r refused).tree = s.tree := by simp [State.undoWrite]

@[simp] theorem State.tree_failOwner (s : State) (r : OxlReq) (status : ℕ) : (s.failOwner r status).tree = s.tree := by
  unfold State.failOwner
  split <;> simp

@[simp] theorem State.tree_takeReq (s : State) (r : OxlReq) : (s.takeReq r).tree = s.tree := by simp [State.takeReq]

@[simp] theorem State.tree_dropReq (s : State) (r : OxlReq) (refused : Bool) (status : ℕ) : (s.dropReq r refused status).tree = s.tree := by
  unfold State.dropReq
  split <;> simp

@[simp] theorem State.tree_oxlAbandon (s : State) : s.oxlAbandon.tree = s.tree := by simp [State.oxlAbandon]

/-! ## Memory -/

@[simp] theorem State.tree_checkLines (s : State) (c : Option CmdRef) (ls : List ℕ) : (s.checkLines c ls).1.tree = s.tree :=
  State.tree_of_ctrl (State.ctrl_checkLines ..)

@[simp] theorem State.tree_readHbm (s : State) (a n : ℕ) (c : Option CmdRef) : (s.readHbm a n c).1.tree = s.tree := by
  unfold State.readHbm
  split
  · rfl
  · split <;> exact (State.tree_of_fst ‹_›).trans (State.tree_checkLines ..)

@[simp] theorem State.tree_readCompanion (s : State) (x n : ℕ) (c : Option CmdRef) : (s.readCompanion x n c).1.tree = s.tree := by
  unfold State.readCompanion
  (repeat' split) <;> simp

@[simp] theorem State.tree_readAt (s : State) (a n : ℕ) (c : Option CmdRef) : (s.readAt a n c).1.tree = s.tree := by
  unfold State.readAt
  split <;> simp

@[simp] theorem State.tree_writeHbm (s : State) (a : ℕ) (bs : List Byte) (c : Option CmdRef) : (s.writeHbm a bs c).1.tree = s.tree :=
  State.tree_of_ctrl (State.ctrl_writeHbm ..)

@[simp] theorem State.tree_writeAt (s : State) (a : ℕ) (bs : List Byte) (c : Option CmdRef) : (s.writeAt a bs c).1.tree = s.tree :=
  State.tree_of_ctrl (State.ctrl_writeAt ..)

@[simp] theorem State.tree_forgetHbm (s : State) (lo hi : ℕ) : (s.forgetHbm lo hi).tree = s.tree := State.tree_of_ctrl (State.ctrl_forgetHbm ..)

@[simp] theorem State.tree_forgetAt (s : State) (a n : ℕ) : (s.forgetAt a n).tree = s.tree := State.tree_of_ctrl (State.ctrl_forgetAt ..)

@[simp] theorem State.tree_finishAs (s : State) (noted : Bool) (c : CmdRef) (d : Done) : (s.finishAs noted c d).tree = s.tree :=
  State.tree_of_ctrl (State.ctrl_finishAs ..)

/-! ## Clusters and critical structures -/

@[simp] theorem State.tree_markCluster (s : State) (cluster : ℕ) (persist : Bool) (status : Option ℕ) :
    (s.markCluster cluster persist status).tree = s.tree := by simp [State.markCluster]

@[simp] theorem State.tree_countSram (s : State) (st : Store) (uncorrectable : Bool) : (s.countSram st uncorrectable).tree = s.tree := by
  unfold State.countSram
  split <;> simp

@[simp] theorem State.tree_useStore (s : State) (st : Store) (inst : ℕ) (c : Option CmdRef) : (s.useStore st inst c).1.tree = s.tree := by
  unfold State.useStore
  split <;> simp

theorem State.tree_takeResidue {s t : State} {cluster : ℕ} (h : s.takeResidue cluster = some t) : t.tree = s.tree := by
  obtain ⟨i, -, rfl⟩ := Option.map_eq_some_iff.mp h
  rfl

@[simp] theorem State.tree_takeResidue_getD (s : State) (cluster : ℕ) : ((s.takeResidue cluster).getD s).tree = s.tree := by
  cases h : s.takeResidue cluster with
  | none => rfl
  | some t => exact State.tree_takeResidue h

@[simp] theorem State.tree_completeChunk (s : State) (cluster : ℕ) (k : ChunkCheck) (c : Option CmdRef) :
    (s.completeChunk cluster k c).1.tree = s.tree := by
  unfold State.completeChunk
  split
  · rfl
  · dsimp only
    split <;> simp

@[simp] theorem State.tree_completeChunks (s : State) (cluster : ℕ) (c : Option CmdRef) (ks : List ChunkCheck) :
    (s.completeChunks cluster c ks).1.tree = s.tree := by
  induction ks generalizing s with
  | nil => rfl
  | cons k ks ih =>
    unfold State.completeChunks
    split <;> simp [ih, State.tree_of_fst ‹_›]

@[simp] theorem State.tree_criticalError (s : State) (structure_ inst : ℕ) (injected : Bool) (c : Option CmdRef) :
    (s.criticalError structure_ inst injected c).tree = s.tree := by simp [State.criticalError]

@[simp] theorem State.tree_useCritical (s : State) (structure_ inst : ℕ) (c : Option CmdRef) : (s.useCritical structure_ inst c).1.tree = s.tree := by
  unfold State.useCritical
  split <;> simp

@[simp] theorem State.tree_readTable (s : State) (a n structure_ : ℕ) (c : CmdRef) : (s.readTable a n structure_ c).1.tree = s.tree := by
  unfold State.readTable
  split <;> rename_i used
  · simp [State.tree_of_fst used]
  · split
    · next read => simp [State.tree_of_fst read, State.tree_of_fst used]
    · simp [State.tree_of_fst used]

/-! ## Own writes and numeric sites -/

@[simp] theorem State.tree_own (s : State) (a : ℕ) (bs : List Byte) : (s.own a bs).tree = s.tree := State.tree_of_ctrl (State.ctrl_own ..)

@[simp] theorem State.tree_ownWord (s : State) (a n v : ℕ) : (s.ownWord a n v).tree = s.tree := by simp [State.ownWord]

@[simp] theorem State.tree_count (s : State) (eval : Bool) (t : ℕ) (c : Counts) : (s.count eval t c).tree = s.tree := by simp [State.count]

@[simp] theorem State.tree_convertSite (s : State) (eval : Bool) (t : ℕ) (f : Fmt) (code : ℕ) (vs : List (ℕ × Val)) :
    (s.convertSite eval t f code vs).1.tree = s.tree := by simp [State.convertSite]

@[simp] theorem State.tree_writeEvaluation (s : State) (n : ℕ) : (s.writeEvaluation n).tree = s.tree :=
  State.tree_of_ctrl (State.ctrl_writeEvaluation ..)

/-! ## Actions that may fail -/

@[simp] theorem Act.tree_bind {α β : Type} {m : Act α} {k : State → α → Act β} (hk : ∀ s a, (k s a).1.tree = s.tree) :
    (m.bind k).1.tree = m.1.tree := by
  unfold Act.bind
  split
  · exact hk _ _
  · rfl

@[simp] theorem tree_actAll {α β : Type} {f : State → α → Act β} (hf : ∀ s a, (f s a).1.tree = s.tree) (s : State) (l : List α) :
    (actAll f s l).1.tree = s.tree := by
  induction l generalizing s with
  | nil => rfl
  | cons a l ih =>
    unfold actAll
    rw [Act.tree_bind, hf]
    intro s b
    rw [Act.tree_bind, ih]
    intro s bs
    rfl

@[simp] theorem State.tree_maybe {α β : Type} (s : State) (o : Option α) (z : β) {f : State → α → Act β}
    (hf : ∀ s a, (f s a).1.tree = s.tree) : (s.maybe o z f).1.tree = s.tree := by
  unfold State.maybe
  split
  · exact hf _ _
  · rfl

@[simp] theorem State.tree_readAct (s : State) (a n : ℕ) (c : CmdRef) : (s.readAct a n c).1.tree = s.tree := by
  unfold State.readAct
  split <;> simp [State.tree_of_fst ‹_›]

@[simp] theorem State.tree_writeAct (s : State) (a : ℕ) (bs : List Byte) (c : CmdRef) : (s.writeAct a bs c).1.tree = s.tree := by
  unfold State.writeAct
  split <;> simp [State.tree_of_fst ‹_›]

@[simp] theorem State.tree_writeRuns (s : State) (rs : List (ℕ × List Byte)) (c : CmdRef) :
    (s.writeRuns rs c).1.tree = s.tree := by simp [State.writeRuns]

@[simp] theorem State.tree_clearPending (s : State) (g : GramSite) : (s.clearPending g).tree = s.tree := by simp [State.clearPending]

@[simp] theorem State.tree_discardGram (s : State) : s.discardGram.tree = s.tree := by simp [State.discardGram]

@[simp] theorem State.tree_checkTiles (s : State) (ctx : RunCtx) (tiles : List ℕ) (checks : ℕ → List ChunkCheck) :
    (s.checkTiles ctx tiles checks).1.tree = s.tree :=
  tree_foldl_fst _ (fun p i => by simp) _

@[simp] theorem State.tree_forgetProgram (s : State) (p : RunParams) (st : ℕ) : (s.forgetProgram p st).tree = s.tree :=
  State.tree_of_ctrl (State.ctrl_forgetProgram ..)

@[simp] theorem State.tree_enterClusters (s : State) (first count : ℕ) (c : CmdRef) : (s.enterClusters first count c).1.tree = s.tree := by
  unfold State.enterClusters
  dsimp only
  split
  · rfl
  · split <;> rename_i used
    · simp [State.tree_of_fst used]
    · refine (tree_foldl_fst _ (fun p k => ?_) _).trans (by simp [State.tree_of_fst used])
      split <;> simp [State.tree_of_fst ‹_›]

/-! ## Clauses -/

@[simp] theorem State.tree_setClause (s : State) (c : ℕ) (v : ClauseRun) : (s.setClause c v).tree = s.tree := by simp [State.setClause]

@[simp] theorem State.tree_setActive (s : State) (c : ℕ) (b : Bool) : (s.setActive c b).tree = s.tree := by simp [State.setActive]

@[simp] theorem State.tree_sampleSlack (s : State) (c : ℕ) : (s.sampleSlack c).tree = s.tree := by simp [State.sampleSlack]

@[simp] theorem State.tree_lateSlack (s : State) (c : ℕ) : (s.lateSlack c).tree = s.tree := by simp [State.lateSlack]

@[simp] theorem State.tree_clauseEnd (s : State) (c : ℕ) (completed : Bool) : (s.clauseEnd c completed).tree = s.tree := by simp [State.clauseEnd]

@[simp] theorem State.tree_completeClause (s : State) (c : ℕ) : (s.completeClause c).tree = s.tree := by simp [State.completeClause]

/-! ## Roots and commands in flight -/

@[simp] theorem State.tree_putRoot (s : State) (e : ℕ) (b : List Byte) : (s.putRoot e b).tree = s.tree := by simp [State.putRoot]

@[simp] theorem State.tree_forgetCommand (s : State) (cmd : Option Instr) (st : ℕ) : (s.forgetCommand cmd st).tree = s.tree := by
  unfold State.forgetCommand
  split <;> simp

@[simp] theorem State.tree_spoilFlight (s : State) (f : Flight) (st : ℕ) : (s.spoilFlight f st).tree = s.tree := by
  unfold State.spoilFlight
  split <;> simp

@[simp] theorem State.tree_endFlight (s : State) (f : Flight) (st : ℕ) : (s.endFlight f st).tree = s.tree :=
  State.tree_of_ctrl (State.ctrl_endFlight ..)

@[simp] theorem State.tree_stopJob (s : State) (j : SolveJob) (status : ℕ) : (s.stopJob j status).tree = s.tree :=
  State.tree_of_ctrl (State.ctrl_stopJob ..)

@[simp] theorem State.tree_stopJobs (s : State) (status : ℕ) : (s.stopJobs status).tree = s.tree := by simp [State.stopJobs]

@[simp] theorem State.tree_readBlock (s : State) (f : Fmt) (a w rows cols : ℕ) (c : CmdRef) :
    (s.readBlock f a w rows cols c).1.tree = s.tree := by simp [State.readBlock]

@[simp] theorem State.tree_readWords (s : State) (a n : ℕ) (c : CmdRef) : (s.readWords a n c).1.tree = s.tree := by simp [State.readWords]

@[simp] theorem State.tree_clearRoots (s : State) (n : ℕ) : (s.clearRoots n).tree = s.tree := by simp [State.clearRoots]

@[simp] theorem State.tree_discardRoots (s : State) (n : ℕ) : (s.discardRoots n).tree = s.tree := by simp [State.discardRoots]

@[simp] theorem State.tree_faultRing (s : State) (k code : ℕ) : (s.faultRing k code).tree = s.tree := by simp [State.faultRing]

@[simp] theorem State.tree_fetchImage (s : State) (f : Flight) : (s.fetchImage f).tree = s.tree := by
  unfold State.fetchImage
  (repeat' split) <;> simp

@[simp] theorem State.tree_fetchImages (s : State) : s.fetchImages.tree = s.tree := by simp [State.fetchImages]

@[simp] theorem State.tree_countDeferred (s : State) : s.countDeferred.tree = s.tree := by simp [State.countDeferred]

@[simp] theorem State.tree_enterDeferred (s : State) (f : Flight) : (s.enterDeferred f).tree = s.tree := by simp [State.enterDeferred]

@[simp] theorem State.tree_deferRing (s : State) (k fuel : ℕ) : (s.deferRing k fuel).tree = s.tree := by
  induction fuel generalizing s with
  | zero => rfl
  | succ fuel ih =>
    unfold State.deferRing
    split <;> simp [ih]

@[simp] theorem State.tree_pumpDeferred (s : State) : s.pumpDeferred.tree = s.tree := by simp [State.pumpDeferred]

@[simp] theorem State.tree_putWaiting (s : State) : s.putWaiting.tree = s.tree := by simp [State.putWaiting]

/-! ## Ports and links -/

@[simp] theorem State.tree_setModule (s : State) (v : ℕ) : (s.setModule v).tree = s.tree := State.tree_of_ctrl (State.ctrl_setModule ..)

@[simp] theorem State.tree_setPort (s : State) (p : ℕ) (v : PortState) : (s.setPort p v).tree = s.tree :=
  State.tree_of_ctrl (State.sendFrame_setPort ..).ctrl

@[simp] theorem State.tree_owe (s : State) (p target n : ℕ) : (s.owe p target n).tree = s.tree := State.tree_of_ctrl (State.sendFrame_owe ..).ctrl

@[simp] theorem State.tree_flush (s : State) (p : ℕ) : (s.flush p).tree = s.tree := State.tree_of_ctrl (State.sendFrame_flush ..).ctrl

@[simp] theorem State.tree_enqueue (s : State) (p : ℕ) (t : TxMsg) : (s.enqueue p t).tree = s.tree :=
  State.tree_of_ctrl (State.sendFrame_enqueue ..).ctrl

@[simp] theorem State.tree_returnCredits (s : State) (p : ℕ) : (s.returnCredits p).tree = s.tree := by simp [State.returnCredits]

@[simp] theorem State.tree_pumpPort (s : State) (p : ℕ) : (s.pumpPort p).tree = s.tree := by simp [State.pumpPort]

@[simp] theorem State.tree_sendOn (s : State) (p n : ℕ) (sub : Option ℕ) (m : OutMsg) : (s.sendOn p n sub m).tree = s.tree :=
  State.tree_of_ctrl (State.sendFrame_sendOn ..).ctrl

@[simp] theorem State.tree_sendEach (s : State) (ports : List ℕ) (m : ℕ → OutMsg) : (s.sendEach ports m).tree = s.tree :=
  State.tree_of_ctrl (State.sendFrame_sendEach ..).ctrl

@[simp] theorem State.tree_consume (s : State) (o : Origin) (n : ℕ) : (s.consume o n).tree = s.tree := by simp [State.consume]

@[simp] theorem State.tree_setBroken (s : State) (axis k : ℕ) (b : Bool) : (s.setBroken axis k b).tree = s.tree := by simp [State.setBroken]

@[simp] theorem State.tree_remeasure (s : State) : s.remeasure.tree = s.tree := by
  unfold State.remeasure
  dsimp only
  split
  · split <;> simp
  · simp

@[simp] theorem State.tree_announce (s : State) : s.announce.tree = s.tree := State.tree_of_ctrl (State.sendFrame_announce ..).ctrl

@[simp] theorem State.tree_setParent (s : State) (p : Option ℕ) : (s.setParent p).tree = s.tree := by simp [State.setParent]

@[simp] theorem State.tree_setChild (s : State) (p : ℕ) (b : Bool) : (s.setChild p b).tree = s.tree := by simp [State.setChild]

@[simp] theorem State.tree_reparent (s : State) (old : ℕ) : (s.reparent old).tree = s.tree := by
  unfold State.reparent
  extract_lets u v
  have hops : v.tree = s.tree := by
    unfold v
    split <;> exact (State.tree_put ..).trans (State.tree_setParent ..)
  rw [State.tree_raise, State.tree_announce, hops]

@[simp] theorem State.tree_markLink (s : State) (p : ℕ) (b : Bool) : (s.markLink p b).tree = s.tree := by
  unfold State.markLink
  split <;> simp

@[simp] theorem State.tree_strand (s : State) (lost : List OutMsg) : (s.strand lost).tree = s.tree := by simp [State.strand]

@[simp] theorem State.tree_dropQueue (s : State) (p : ℕ) : (s.dropQueue p).tree = s.tree := by
  unfold State.dropQueue
  dsimp only
  rw [State.tree_ite, State.tree_bump, ite_self]
  refine (State.tree_foldl _ (fun s t => ?_) _).trans (by simp)
  split <;> simp

@[simp] theorem State.tree_portDown (s : State) (p : ℕ) (c : Option CmdRef) : (s.portDown p c).tree = s.tree := by simp [State.portDown]

@[simp] theorem State.tree_allPortsDown (s : State) : s.allPortsDown.tree = s.tree := by simp [State.allPortsDown]

@[simp] theorem State.tree_checkCabling (s : State) (p : ℕ) : (s.checkCabling p).tree = s.tree := by
  unfold State.checkCabling
  split <;> simp

@[simp] theorem State.tree_forwardTo (s : State) (p n vc : ℕ) (dl : Bool) (m : OutMsg) (origin : Option Origin) :
    (s.forwardTo p n vc dl m origin).tree = s.tree := by
  unfold State.forwardTo
  (repeat' split) <;> simp

@[simp] theorem State.tree_usePort (s : State) (c : Option CmdRef) (p : ℕ) : (s.usePort c p).tree = s.tree := by
  unfold State.usePort
  split <;> simp

@[simp] theorem State.tree_injectMsg (s : State) (dest n vc : ℕ) (c : Option CmdRef) (m : ℕ → OutMsg) :
    (s.injectMsg dest n vc c m).1.tree = s.tree := by
  unfold State.injectMsg
  split <;> simp

@[simp] theorem State.tree_takeDown (s : State) (p : ℕ) (c : Option CmdRef) : (s.takeDown p c).tree = s.tree := by simp [State.takeDown]

@[simp] theorem State.tree_setPosition (s : State) (p : PositionParams) : (s.setPosition p).tree = s.tree := by simp [State.setPosition]

/-! ## Updates -/

@[simp] theorem State.tree_sealHeader (s : State) : s.sealHeader.tree = s.tree := by simp [State.sealHeader]

@[simp] theorem State.tree_ledPut (s : State) (target phase : ℕ) : (s.ledPut target phase).tree = s.tree := by simp [State.ledPut]

@[simp] theorem State.tree_groupWrite (s : State) (a : ℕ) (bs : List Byte) (c : Option CmdRef) : (s.groupWrite a bs c).1.tree = s.tree := by
  unfold State.groupWrite
  split <;> simp [State.tree_of_fst ‹_›]

@[simp] theorem State.tree_headerGroup (s : State) (fields : List (ℕ × List Byte)) (c : Option CmdRef) :
    (s.headerGroup fields c).1.tree = s.tree := by simp [State.headerGroup]

@[simp] theorem State.tree_vectorGroup (s : State) (t n : ℕ) (c : CmdRef) : (s.vectorGroup t n c).1.tree = s.tree := by simp [State.vectorGroup]

@[simp] theorem State.tree_unitRead (s : State) (a n structure_ : ℕ) (c : CmdRef) : (s.unitRead a n structure_ c).1.tree = s.tree := by
  unfold State.unitRead
  split <;> simp [State.tree_of_fst ‹_›]

@[simp] theorem State.tree_readState (s : State) (blocks : Bool) (c : CmdRef) : (s.readState blocks c).1.tree = s.tree := by simp [State.readState]

@[simp] theorem State.tree_skipNote (s : State) (c : CmdRef) : (s.skipNote c).tree = s.tree := by simp [State.skipNote]

@[simp] theorem State.tree_product (s : State) (ctx : RunCtx) (a b : Mat) (m k n : ℕ) : (s.product ctx a b m k n).1.tree = s.tree := by
  unfold State.product
  dsimp only
  split <;> simp [State.tree_of_fst ‹_›]

@[simp] theorem State.tree_rootOf (s : State) (entry block w m : ℕ) (c : CmdRef) :
    (s.rootOf entry block w m c).1.tree = s.tree := by simp [State.rootOf]

@[simp] theorem State.tree_subDirection (s : State) (ctx : RunCtx) (code : ℕ) (g u : Mat) (l r : Option Mat) (m n : ℕ) :
    (s.subDirection ctx code g u l r m n).1.tree = s.tree := by simp [State.subDirection]

@[simp] theorem State.tree_directions (s : State) (ctx : RunCtx) (i : PrepItem) (g u : Mat) (wl wr : ℕ) :
    (s.directions ctx i g u wl wr).1.tree = s.tree := by
  unfold State.directions
  refine (Act.tree_bind fun s bands => rfl).trans (tree_actAll (fun s bi => (Act.tree_bind fun s l => ?_).trans (State.tree_rootOf ..)) ..)
  exact (Act.tree_bind fun s parts => rfl).trans
    (tree_actAll (fun s bj => (Act.tree_bind fun s r => State.tree_subDirection ..).trans (State.tree_rootOf ..)) ..)

@[simp] theorem State.tree_prepareItem (s : State) (ctx : RunCtx) (q : Val) (i : PrepItem) : (s.prepareItem ctx q i).1.tree = s.tree := by
  unfold State.prepareItem
  dsimp only
  rw [Act.tree_bind, State.tree_readWords]
  intro s gs
  rw [Act.tree_bind, State.tree_maybe _ _ _ (fun s _ => by simp)]
  intro s old
  rw [Act.tree_bind (fun s d => by simp)]
  split
  · rfl
  · split <;> simp

@[simp] theorem State.tree_forgetPrepared (s : State) : s.forgetPrepared.tree = s.tree := by simp [State.forgetPrepared]

@[simp] theorem State.tree_waitingNorm (s : State) (b : Bool) : (s.waitingNorm b).tree = s.tree := by simp [State.waitingNorm]

@[simp] theorem State.tree_rootNote (s : State) (n : ℕ) (c : CmdRef) : (s.rootNote n c).tree = s.tree := by simp [State.rootNote]

@[simp] theorem State.tree_prepare (s : State) (h : Hdr) (p : PrepareParams) (c : CmdRef) (qBits : ℕ) :
    (s.prepare h p c qBits).1.tree = s.tree := by
  unfold State.prepare
  dsimp only
  split
  · simp
  · split <;> rename_i entered
    · simp [State.tree_of_fst entered]
    · split <;> rename_i prepared <;> simp [State.tree_of_fst prepared, State.tree_of_fst entered]

@[simp] theorem State.tree_resumePrepare (s : State) : s.resumePrepare.tree = s.tree := by
  unfold State.resumePrepare
  split
  · dsimp only
    split <;> simp [State.tree_of_fst ‹_›]
  · rfl

@[simp] theorem State.tree_updatedRows (s : State) (e : Param) (c : CmdRef) : (s.updatedRows e c).1.tree = s.tree := by
  unfold State.updatedRows
  refine (Act.tree_bind fun s mask => (Act.tree_bind fun s list => rfl).trans ?_).trans ?_
  · exact s.tree_maybe _ _ fun s _ => (Act.tree_bind fun s nb => (Act.tree_bind fun s bs => by simp).trans (by simp)).trans (by simp)
  · exact s.tree_maybe _ _ fun s _ => (Act.tree_bind fun s bs => rfl).trans (by simp)

@[simp] theorem State.tree_readSpan (s : State) (f : Fmt) (base first n : ℕ) (c : CmdRef) :
    (s.readSpan f base first n c).1.tree = s.tree := by simp [State.readSpan]

@[simp] theorem State.tree_momentWrites (s : State) (x : UpdCtx) (b : ℕ) (c : CmdRef) :
    (s.momentWrites x b c).1.tree = s.tree := by simp [State.momentWrites]

@[simp] theorem State.tree_weightWrites (s : State) (x : UpdCtx) (b : ℕ) (c : CmdRef) : (s.weightWrites x b c).1.tree = s.tree := by
  unfold State.weightWrites
  extract_lets f sp es
  split
  · rfl
  · refine (Act.tree_bind fun s g => (Act.tree_bind fun s m => (Act.tree_bind fun s w => (Act.tree_bind fun s xs => rfl).trans ?_).trans ?_).trans
      ?_).trans ?_
    · exact State.tree_readAct ..
    · exact State.tree_readSpan ..
    · exact s.tree_maybe _ _ fun s _ => State.tree_readSpan ..
    · exact State.tree_readSpan ..

@[simp] theorem State.tree_writeTag (s : State) (x : UpdCtx) (b off : ℕ) (c : CmdRef) : (s.writeTag x b off c).1.tree = s.tree := by
  unfold State.writeTag
  dsimp only
  split
  · simp [State.tree_of_fst ‹_›]
  · simp

@[simp] theorem tree_blockGroup (x : UpdCtx) (b off : ℕ) (ws : Act (List (ℕ × List Byte))) (c : CmdRef) :
    (blockGroup x b off ws c).1.tree = ws.1.tree := by
  simp [blockGroup]

@[simp] theorem State.tree_forgetData (s : State) (x : UpdCtx) (b off : ℕ) : (s.forgetData x b off).tree = s.tree := by simp [State.forgetData]

@[simp] theorem State.tree_forgetGroup (s : State) (x : UpdCtx) (b off : ℕ) : (s.forgetGroup x b off).tree = s.tree := by simp [State.forgetGroup]

@[simp] theorem State.tree_sealGroup (s : State) (x : UpdCtx) (b off : ℕ) (c : CmdRef) : (s.sealGroup x b off c).1.tree = s.tree := by
  unfold State.sealGroup
  split <;> simp [State.tree_of_fst ‹_›]

@[simp] theorem State.tree_applyBlock (s : State) (w : BlockWork) (c : CmdRef) : (s.applyBlock w c).1.tree = s.tree := by
  unfold State.applyBlock
  dsimp only
  rw [Act.tree_bind (fun s _ => by split <;> simp [State.tree_of_fst ‹_›])]
  split <;> simp

@[simp] theorem State.tree_applyUnit (s : State) (c : CmdRef) (ws : List BlockWork) : (s.applyUnit c ws).1.tree = s.tree := by
  induction ws generalizing s with
  | nil => rfl
  | cons w ws ih =>
    unfold State.applyUnit
    split <;> simp [ih, State.tree_of_fst ‹_›]

@[simp] theorem State.tree_applyUnits (s : State) (ws : List BlockWork) (c : CmdRef) : (s.applyUnits ws c).1.tree = s.tree := by
  refine tree_foldl_fst _ (fun acc q => ?_) _
  dsimp only
  have unit : (if (ws.filter (fun w => decide (w.index % 4 = q))).isEmpty then ((acc.1, .ok ()) : Act Unit)
      else match acc.1.useStore .staging q (some c) with
        | (s, true) => (match (ws.filter (fun w => decide (w.index % 4 = q))).head? with
            | some w => s.forgetGroup w.x w.b (if w.full then 0 else 8) | none => s, .fail ST_ECC)
        | (s, false) => s.applyUnit c (ws.filter (fun w => decide (w.index % 4 = q)))).1.tree = acc.1.tree := by
    split
    · rfl
    · split <;> rename_i used
      · split <;> simp [State.tree_of_fst used]
      · simp [State.tree_of_fst used]
  split <;> exact unit

@[simp] theorem State.tree_updCtxs (s : State) (n : ℕ) (q lr : Val) (c : CmdRef) : (s.updCtxs n q lr c).1.tree = s.tree := by simp [State.updCtxs]

@[simp] theorem State.tree_vectorGroups (s : State) (xs : List UpdCtx) (due : State → ℕ → Bool) (c : CmdRef) :
    (s.vectorGroups xs due c).1.tree = s.tree := by simp [State.vectorGroups]

@[simp] theorem State.tree_updateFault (s : State) (c : Option CmdRef) : (s.updateFault c).tree = s.tree := by simp [State.updateFault]

@[simp] theorem State.tree_failUpdate (s : State) (st : ℕ) (c : CmdRef) : (s.failUpdate st c).1.tree = s.tree := by simp [State.failUpdate]

@[simp] theorem State.tree_forgetSpoilt (s : State) (xs : List UpdCtx) : (s.forgetSpoilt xs).tree = s.tree := by simp [State.forgetSpoilt]

@[simp] theorem State.tree_commitFault (s : State) (st : ℕ) : (s.commitFault st).tree = s.tree := by
  unfold State.commitFault
  dsimp only
  split <;> simp

@[simp] theorem State.tree_closeCommit (s : State) (n : ℕ) (c : Option CmdRef) : (s.closeCommit n c).1.tree = s.tree := by
  unfold State.closeCommit
  rw [Act.tree_bind (fun s _ => by simp)]
  split <;> simp

@[simp] theorem State.tree_applySteps (s : State) (w : ApplyWait) (n q : ℕ) : (s.applySteps w n q).1.tree = s.tree := by
  unfold State.applySteps
  refine (Act.tree_bind fun s _ => (Act.tree_bind fun s xs => (Act.tree_bind fun s _ => (Act.tree_bind fun s _ => ?_).trans ?_).trans ?_).trans
    ?_).trans ?_
  · exact (Act.tree_bind fun s _ => (Act.tree_bind fun s _ => rfl).trans (by simp)).trans (by simp)
  · exact State.tree_vectorGroups ..
  · exact State.tree_headerGroup ..
  · exact State.tree_updCtxs ..
  · exact State.tree_readState ..

@[simp] theorem State.tree_applyNow (s : State) (w : ApplyWait) (n q : ℕ) : (s.applyNow w n q).1.tree = s.tree := by
  unfold State.applyNow
  split <;> simp [State.tree_of_fst ‹_›]

@[simp] theorem State.tree_pumpCommit (s : State) : s.pumpCommit.tree = s.tree := by
  unfold State.pumpCommit
  split
  · rfl
  · split
    · dsimp only
      split <;> simp [State.tree_of_fst ‹_›]
    · rfl
    · split
      · split <;> simp [State.tree_of_fst ‹_›]
      · rfl

@[simp] theorem State.tree_dropUpdate (s : State) : s.dropUpdate.tree = s.tree := State.tree_of_ctrl (State.ctrl_dropUpdate ..)

/-! ## The view of the shadow -/

@[simp] theorem State.tree_putDesc (s : State) (period seed cursor state : ℕ) :
    (s.putDesc period seed cursor state).tree = s.tree := by simp [State.putDesc]

@[simp] theorem State.tree_putDescState (s : State) (state : ℕ) : (s.putDescState state).tree = s.tree := by simp [State.putDescState]

@[simp] theorem State.tree_shadowView (s : State) (slot : ℕ) : (s.shadowView slot).tree = s.tree := by simp [State.shadowView]

@[simp] theorem State.tree_withDraws (v : State) (d : MomentDraws) : (v.withDraws d).tree = v.tree := by simp [State.withDraws]

@[simp] theorem State.tree_leaveView (v s : State) : (v.leaveView s).tree = v.tree := by
  have same (l : List Field) (v : State) : (l.foldl (fun (v : State) f => v.put f (s.get f)) v).tree = v.tree :=
    State.tree_foldl l (fun v f => State.tree_put v f _) v
  unfold State.leaveView
  dsimp only
  rw [State.tree_mk, State.tree_fold, same, State.tree_foldl _ (fun v q => same _ v)]

@[simp] theorem State.tree_readRecord (s : State) (r : GlossRec) (c : CmdRef) : (s.readRecord r c).1.tree = s.tree := by simp [State.readRecord]

@[simp] theorem State.tree_putGloss (s : State) (base g crc period : ℕ) : (s.putGloss base g crc period).tree = s.tree := by simp [State.putGloss]

@[simp] theorem State.tree_computeGloss (s : State) (base n : ℕ) (gs : List ℕ) (c : CmdRef) :
    (s.computeGloss base n gs c).1.tree = s.tree := by simp [State.computeGloss]

/-! ## The recorder -/

@[simp] theorem State.tree_putOldest (s : State) : s.putOldest.tree = s.tree := by simp [State.putOldest]

@[simp] theorem State.tree_scanRing (s : State) : s.scanRing.tree = s.tree := by
  unfold State.scanRing
  dsimp only
  rw [State.tree_ite, State.tree_putOldest]
  split
  · rfl
  · split <;> simp

@[simp] theorem State.tree_ringRecord (s : State) (n : ℕ) (bs : List Byte) : (s.ringRecord n bs).tree = s.tree := by
  unfold State.ringRecord
  extract_lets w off a
  split
  · rfl
  · split <;> rename_i body
    · simp [State.tree_of_fst body]
    · split <;> rename_i head <;> simp [State.tree_of_fst head, State.tree_of_fst body]

@[simp] theorem State.tree_noteMismatches (s : State) (k : ℕ) : (s.noteMismatches k).tree = s.tree := by simp [State.noteMismatches]

@[simp] theorem State.tree_closeRecord (s : State) (n : ℕ) : (s.closeRecord n).tree = s.tree := by
  rw [← s.tree_scanRing]
  unfold State.closeRecord
  generalize s.scanRing = s
  dsimp only
  split
  · rfl
  · split
    · split <;> simp
    · split <;> simp

/-! ## Collectives -/

@[simp] theorem State.tree_tapNoise (s : State) (ys zs : List Val) : (s.tapNoise ys zs).tree = s.tree := by simp [State.tapNoise]

@[simp] theorem State.tree_collStatus (s : State) : s.collStatus.tree = s.tree := State.tree_of_ctrl (State.ctrl_collStatus ..)

@[simp] theorem State.tree_setRun (s : State) (r : CollRun) : (s.setRun r).tree = s.tree := by simp [State.setRun]

@[simp] theorem State.tree_closeColl (s : State) (r : CollRun) (d : Done) : (s.closeColl r d).tree = s.tree := by simp [State.closeColl]

@[simp] theorem State.tree_endColl (s : State) (r : CollRun) (d : Done) : (s.endColl r d).tree = s.tree := State.tree_of_ctrl (State.ctrl_endColl ..)

@[simp] theorem State.tree_leaveLines (s : State) (r : CollRun) : (s.leaveLines r).tree = s.tree := by simp [State.leaveLines]

@[simp] theorem State.tree_cutColl (s : State) : s.cutColl.tree = s.tree := by simp [State.cutColl]

@[simp] theorem State.tree_landP2p (s : State) (port : Option ℕ) (stream src off : ℕ) (bs : List Byte) :
    (s.landP2p port stream src off bs).tree = s.tree := by
  unfold State.landP2p
  dsimp only
  split
  · cases port <;> simp
  · simp

@[simp] theorem State.tree_sendPiece (s : State) (r : CollRun) (o : OutStream) (off : ℕ) (bs : List Byte) :
    (s.sendPiece r o off bs).1.tree = s.tree := by simp [State.sendPiece]

@[simp] theorem State.tree_sendRipe (s : State) (r : CollRun) (g : Group) : (s.sendRipe r g).1.tree = s.tree :=
  tree_foldl_fst _ (fun p w => by split <;> simp) _

@[simp] theorem State.tree_formShard (s : State) (r : CollRun) (g : Group) : (s.formShard r g).1.tree = s.tree := by
  unfold State.formShard
  split <;> simp

@[simp] theorem State.tree_pumpRun (s : State) (r : CollRun) : (s.pumpRun r).tree = s.tree := by
  unfold State.pumpRun
  extract_lets g
  split <;> rename_i sent
  · simp [State.tree_of_fst sent]
  · split
    next formed =>
    split <;> rename_i again
    · simp [State.tree_of_fst again, State.tree_of_fst formed, State.tree_of_fst sent]
    · extract_lets u
      split
      · simp [u, State.tree_of_fst again, State.tree_of_fst formed, State.tree_of_fst sent]
      · split <;> rename_i written <;>
          simp [u, State.tree_of_fst written, State.tree_of_fst again, State.tree_of_fst formed, State.tree_of_fst sent]

@[simp] theorem State.tree_pumpColl (s : State) : s.pumpColl.tree = s.tree := by
  unfold State.pumpColl
  split
  · rfl
  · extract_lets pass
    have kept (s : State) : (pass s).tree = s.tree := State.tree_foldl _ (fun s r => by split <;> simp) s
    rw [State.tree_collStatus, kept, kept]

/-! ## Grants and re-shards -/

@[simp] theorem State.tree_grantDown (s : State) (g : GrantPayload) : (s.grantDown g).tree = s.tree := by simp [State.grantDown]

@[simp] theorem State.tree_noteReport (s : State) (r : ReduceIn) : (s.noteReport r).tree = s.tree := by simp [State.noteReport]

@[simp] theorem State.tree_putRound (s : State) (ledger : ℕ) (p : ReshardPlan) (state dir round : ℕ) :
    (s.putRound ledger p state dir round).tree = s.tree := by simp [State.putRound]

@[simp] theorem State.tree_putRoundState (s : State) (ledger k st : ℕ) : (s.putRoundState ledger k st).tree = s.tree := by simp [State.putRoundState]

@[simp] theorem State.tree_setReshard (s : State) (r : Option ReshardRun) : (s.setReshard r).tree = s.tree := by simp [State.setReshard]

@[simp] theorem State.tree_endReshard (s : State) (r : ReshardRun) (d : Done) : (s.endReshard r d).tree = s.tree := by simp [State.endReshard]

@[simp] theorem State.tree_doneReshard (s : State) (r : ReshardRun) : (s.doneReshard r).tree = s.tree := by simp [State.doneReshard]

@[simp] theorem State.tree_claimRound (s : State) (r : ReshardRun) : (s.claimRound r).tree = s.tree := by simp [State.claimRound]

@[simp] theorem State.tree_beginRound (s : State) (r : ReshardRun) : (s.beginRound r).tree = s.tree := by
  unfold State.beginRound
  extract_lets s' me peers
  have opened : s'.tree = s.tree := by simp [s']
  clear_value s'
  split
  next u ok sent =>
    have sends := (State.tree_of_fst sent).trans (tree_foldl_fst _ (fun p q => by split <;> simp) _)
    rw [State.tree_ite, State.tree_claimRound, State.tree_endReshard, ite_self, sends, opened]

@[simp] theorem State.tree_roundData (s : State) (r : ReshardRun) (peer : ℕ) : (s.roundData r peer).1.tree = s.tree := by simp [State.roundData]

@[simp] theorem State.tree_sendRound (s : State) (r : ReshardRun) (peer : ℕ) : (s.sendRound r peer).tree = s.tree := by
  unfold State.sendRound
  split <;> rename_i read
  · simp [State.tree_of_fst read]
  · extract_lets me rt r' msgs
    split
    next u ok sent =>
      have sends := (State.tree_of_fst sent).trans (tree_foldl_fst _ (fun p x => by split <;> simp) _)
      rw [State.tree_ite, State.tree_setReshard, State.tree_endReshard, ite_self, sends, State.tree_of_fst read, State.tree_roundData]

@[simp] theorem State.tree_landRound (s : State) (r : ReshardRun) : (s.landRound r).tree = s.tree := by
  unfold State.landRound
  dsimp only
  split <;> rename_i read
  · simp [State.tree_of_fst read]
  · split
    · simp [State.tree_of_fst read]
    · rw [State.tree_noteReport, State.tree_setReshard, State.tree_putRoundState, State.tree_ownWord,
        State.tree_foldl _ (fun s w => State.tree_own ..), State.tree_of_fst read, State.tree_roundData]

@[simp] theorem State.tree_pumpReshard (s : State) : s.pumpReshard.tree = s.tree := by
  unfold State.pumpReshard
  split
  · rfl
  · extract_lets me peers u
    have sent : u.tree = s.tree := State.tree_foldl _ (fun s q => by split <;> simp) s
    split <;> simp [sent]

@[simp] theorem State.tree_copyRound (s : State) (r : ReshardRun) : (s.copyRound r).tree = s.tree := by simp [State.copyRound]

@[simp] theorem State.tree_afterRound (s : State) (r : ReshardRun) (p : ReshardPlan) : (s.afterRound r p).tree = s.tree := by simp [State.afterRound]

@[simp] theorem State.tree_grantRound (s : State) (k : ℕ) : (s.grantRound k).tree = s.tree := by
  unfold State.grantRound
  (repeat' split) <;> simp

/-! ## The shadow -/

@[simp] theorem State.tree_sendShadow (s : State) (peer : ℕ) (m : ShMsg) (c : Option CmdRef) :
    (s.sendShadow peer m c).1.tree = s.tree := by simp [State.sendShadow]

@[simp] theorem State.tree_setShRun (s : State) (r : ShadowRun) : (s.setShRun r).tree = s.tree := by simp [State.setShRun]

@[simp] theorem State.tree_endShRun (s : State) (r : ShadowRun) (d : Done) : (s.endShRun r d).tree = s.tree := by simp [State.endShRun]

@[simp] theorem State.tree_sendMsgs (s : State) (r : ShadowRun) (ms : List ShMsg) : (s.sendMsgs r ms).1.tree = s.tree :=
  tree_foldl_fst _ (fun p m => by split <;> simp) _

@[simp] theorem State.tree_extendRun (s : State) (r : ShadowRun) (ms : List ShMsg) : (s.extendRun r ms).tree = s.tree := by
  unfold State.extendRun
  split <;> simp [State.tree_of_fst ‹_›]

@[simp] theorem State.tree_sendBind (s : State) (peer role : ℕ) (answer : Bool) :
    (s.sendBind peer role answer).tree = s.tree := by simp [State.sendBind]

@[simp] theorem State.tree_report (s : State) : s.report.tree = s.tree := by simp [State.report]

@[simp] theorem State.tree_turnShadow (s : State) (state : ℕ) : (s.turnShadow state).tree = s.tree := by simp [State.turnShadow]

@[simp] theorem State.tree_scaleMsgs (s : State) (tag : ℕ) (c : CmdRef) : (s.scaleMsgs tag c).1.tree = s.tree := by simp [State.scaleMsgs]

@[simp] theorem State.tree_closeNow (s : State) (r : ShadowRun) (n : ℕ) : (s.closeNow r n).tree = s.tree := by
  unfold State.closeNow
  dsimp only
  split <;> rename_i records
  · simp [State.tree_of_fst records]
  · split
    · simp [State.tree_of_fst records]
    · split <;> rename_i scales <;> simp [State.tree_of_fst scales, State.tree_of_fst records]

@[simp] theorem State.tree_pumpClose (s : State) : s.pumpClose.tree = s.tree :=
  State.tree_foldl _ (fun s r => by split <;> simp) s

@[simp] theorem State.tree_switchRoot (s : State) (e : ℕ) (f : List Byte → List Byte) : (s.switchRoot e f).tree = s.tree := by simp [State.switchRoot]

@[simp] theorem State.tree_glossEvent (s : State) (g : ℕ) (c : Option CmdRef) : (s.glossEvent g c).tree = s.tree := by simp [State.glossEvent]

@[simp] theorem State.tree_glossDiffer (s : State) (gs : List ℕ) (c : Option CmdRef) : (s.glossDiffer gs c).tree = s.tree := by
  unfold State.glossDiffer
  split <;> simp

@[simp] theorem State.tree_compareGloss (s : State) (c : Option CmdRef) : (s.compareGloss c).tree = s.tree := by
  unfold State.compareGloss
  split <;> simp

@[simp] theorem State.tree_dropLanded (s : State) (n : ℕ) : (s.dropLanded n).tree = s.tree := by simp [State.dropLanded]

@[simp] theorem State.tree_dropForwarded (s : State) (n : ℕ) : (s.dropForwarded n).tree = s.tree := by simp [State.dropForwarded]

@[simp] theorem State.tree_closeShadowLedger (s : State) (n : ℕ) : (s.closeShadowLedger n).tree = s.tree := by
  simp [State.closeShadowLedger, State.onShadow]

@[simp] theorem State.tree_endReplay (s : State) (n : ℕ) (c : CmdRef) : (s.endReplay n c).1.tree = s.tree := by
  unfold State.endReplay
  extract_lets s₁ slot led s₂ s₃ base v
  have view : v.tree = s.tree := by simp [v, s₃, s₂, s₁]
  clear_value v
  split <;> rename_i computed
  · rw [State.tree_leaveView, State.tree_of_fst computed, State.tree_computeGloss, view]
  · dsimp only
    rw [State.tree_compareGloss, State.tree_leaveView, State.tree_of_fst computed, State.tree_computeGloss, view]

@[simp] theorem State.tree_replayBlocks (v : State) (n q lr : ℕ) (c : CmdRef) : (v.replayBlocks n q lr c).1.tree = v.tree :=
  (Act.tree_bind fun _ _ => (Act.tree_bind fun _ _ => (Act.tree_bind fun _ _ => State.tree_applyUnits ..).trans
    (State.tree_vectorGroups ..)).trans (State.tree_headerGroup ..)).trans (State.tree_updCtxs ..)

@[simp] theorem State.tree_beginReplay (s : State) (n q : ℕ) (hd : List Byte) : (s.beginReplay n q hd).tree = s.tree := by simp [State.beginReplay]

@[simp] theorem State.tree_replaySteps (s : State) (w : ReplayWait) (n q : ℕ) (hd : List Byte) : (s.replaySteps w n q hd).1.tree = s.tree := by
  unfold State.replaySteps
  extract_lets c slot lr mine s₁ sh₁ s₂ draws sh₂ s₃ v pp
  have view : v.tree = s.tree := by simp [v, s₃, s₂, s₁]
  clear_value v
  split <;> rename_i header
  · simp [State.tree_of_fst header, view]
  · have headed := State.tree_of_fst header
    rw [Act.tree_bind (fun v _ => State.tree_headerGroup ..), State.tree_readState, view] at headed
    split
    next u prep prepared =>
      have kept := State.tree_of_fst prepared
      rw [fst_tree_ite, fst_tree_ite, State.tree_prepare, ite_self, ite_self, headed] at kept
      split
      · exact (State.tree_leaveView ..).trans kept
      · split
        · exact (State.tree_leaveView ..).trans kept
        · split <;> rename_i blocks <;> simp [State.tree_of_fst blocks, kept]

@[simp] theorem State.tree_replayNow (s : State) (w : ReplayWait) (n q : ℕ) : (s.replayNow w n q).1.tree = s.tree := by simp [State.replayNow]

@[simp] theorem State.tree_pumpReplay (s : State) : s.pumpReplay.tree = s.tree := by
  unfold State.pumpReplay
  split
  · split <;> simp [State.tree_of_fst ‹_›]
  · rfl

@[simp] theorem State.tree_pumpFreeze (s : State) : s.pumpFreeze.tree = s.tree := by simp [State.pumpFreeze]

@[simp] theorem State.tree_unpromote (s : State) (ldim : ℕ) : (s.unpromote ldim).tree = s.tree := by simp [State.unpromote]

/-! ## Halts -/

@[simp] theorem State.tree_passToken (s : State) (p : HaltPayload) : (s.passToken p).tree = s.tree := by simp [State.passToken]

@[simp] theorem State.tree_sendToken (s : State) (code : ℕ) : (s.sendToken code).tree = s.tree := by simp [State.sendToken]

@[simp] theorem State.tree_haltFlights (s : State) (n : ℕ) (carry : ℕ → Bool) : (s.haltFlights n carry).tree = s.tree :=
  State.tree_of_ctrl (State.ctrl_haltFlights ..)

@[simp] theorem State.tree_haltEngines (s : State) (n : ℕ) (carry : ℕ → Bool) : (s.haltEngines n carry).tree = s.tree :=
  State.tree_of_ctrl (State.ctrl_haltEngines ..)

@[simp] theorem State.tree_enterHalted (s : State) : s.enterHalted.tree = s.tree := by simp [State.enterHalted]

@[simp] theorem State.tree_haltBefore (s : State) : s.haltBefore.tree = s.tree := by simp [State.haltBefore]

@[simp] theorem State.tree_abandonClause (s : State) (c : ℕ) : (s.abandonClause c).tree = s.tree := by simp [State.abandonClause]

@[simp] theorem State.tree_haltAfter (s : State) : s.haltAfter.tree = s.tree := by simp [State.haltAfter]

@[simp] theorem State.tree_takeHalt (s : State) : s.takeHalt.tree = s.tree := by simp [State.takeHalt]

@[simp] theorem State.tree_haltReceived (s : State) : s.haltReceived.tree = s.tree := by simp [State.haltReceived]

@[simp] theorem State.tree_finishHalting (s : State) : s.finishHalting.tree = s.tree := by simp [State.finishHalting]

@[simp] theorem State.tree_markFatal (s : State) : s.markFatal.tree = s.tree := by simp [State.markFatal]

@[simp] theorem State.tree_periodFatal (s : State) (code : ℕ) : (s.periodFatal code).tree = s.tree := by simp [State.periodFatal]

@[simp] theorem State.tree_moduleFatal (s : State) (code : ℕ) : (s.moduleFatal code).tree = s.tree := by simp [State.moduleFatal]

/-! ## Resets -/

@[simp] theorem State.tree_putBit (s : State) (f : Field) (i : ℕ) (b : Bool) : (s.putBit f i b).tree = s.tree := by simp [State.putBit]

@[simp] theorem State.tree_holdDomain (s : State) (debug : Bool) (d : Domain) : (s.holdDomain debug d).tree = s.tree := by
  unfold State.holdDomain
  split <;> simp

@[simp] theorem State.tree_resetRegs (s : State) (hit : RegRow → ℕ → Bool) : (s.resetRegs hit).tree = s.tree := by simp [State.resetRegs]

@[simp] theorem State.tree_isolateCommands (s : State) : s.isolateCommands.tree = s.tree := by
  unfold State.isolateCommands
  dsimp only
  rw [State.tree_mk, State.tree_fold, State.tree_foldl _ (fun s f => by simp), State.tree_mk, State.tree_fold,
    State.tree_foldl _ (fun s r => by split <;> simp), State.tree_dropUpdate]
  split <;> simp

@[simp] theorem State.tree_oxlReset (s : State) : s.oxlReset.tree = s.tree := by simp [State.oxlReset]

@[simp] theorem State.tree_hubHalt (s : State) : s.hubHalt.tree = s.tree := by simp [State.hubHalt]

@[simp] theorem State.tree_hubReset (s : State) : s.hubReset.tree = s.tree := by simp [State.hubReset]

@[simp] theorem State.tree_loseDomain (s : State) (d : Domain) : (s.loseDomain d).tree = s.tree := by
  unfold State.loseDomain
  split <;> simp

@[simp] theorem State.tree_resetDomain (s : State) (debug : Bool) (d : Domain) : (s.resetDomain debug d).tree = s.tree := by simp [State.resetDomain]

@[simp] theorem State.tree_fuseStatus (s : State) : s.fuseStatus.tree = s.tree := by
  unfold State.fuseStatus
  split <;> simp

@[simp] theorem State.tree_driveMrst (s : State) : s.driveMrst.tree = s.tree := by simp [State.driveMrst]

@[simp] theorem State.tree_escalate (s : State) (key : ℕ) : (s.escalate key).tree = s.tree := by simp [State.escalate]

/-! ## Writes that spoil -/

@[simp] theorem State.tree_noteEvaluation (s : State) (w : WriteNote) : (s.noteEvaluation w).tree = s.tree := by
  unfold State.noteEvaluation
  split <;> simp

@[simp] theorem State.tree_spoilMasks (s : State) (w : WriteNote) : (s.spoilMasks w).tree = s.tree := by simp [State.spoilMasks]

@[simp] theorem State.tree_spoilSites (s : State) (w : WriteNote) : (s.spoilSites w).tree = s.tree := by simp [State.spoilSites]

@[simp] theorem State.tree_spoilRoots (s : State) (w : WriteNote) : (s.spoilRoots w).tree = s.tree := by simp [State.spoilRoots]

@[simp] theorem State.tree_spoilTables (s : State) (w : WriteNote) : (s.spoilTables w).tree = s.tree := by simp [State.spoilTables]

@[simp] theorem State.tree_spoilCommit (s : State) (w : WriteNote) : (s.spoilCommit w).tree = s.tree := by simp [State.spoilCommit]

@[simp] theorem State.tree_spoilBy (s : State) (w : WriteNote) : (s.spoilBy w).tree = s.tree := by simp [State.spoilBy]

@[simp] theorem State.tree_spoil (s : State) : s.spoil.tree = s.tree := by
  unfold State.spoil
  split <;> simp

/-! ## The passes of a settling -/

@[simp] theorem State.tree_noteNoise (s : State) (n : ℕ) : (s.noteNoise n).tree = s.tree := by
  unfold State.noteNoise
  split <;> simp

@[simp] theorem State.tree_noiseGranted (s : State) (g : GrantPayload) : (s.noiseGranted g).tree = s.tree := by simp [State.noiseGranted]

@[simp] theorem State.tree_granted (s : State) (g : GrantPayload) : (s.granted g).tree = s.tree := by
  unfold State.granted
  split <;> simp

@[simp] theorem State.tree_failCommand (s : State) (ring seq st : ℕ) : (s.failCommand ring seq st).tree = s.tree := by
  unfold State.failCommand
  dsimp only
  split
  · simp
  · simp
  · split <;> simp

@[simp] theorem State.tree_meetFailure (s : State) (f : OxlOwner × ℕ) : (s.meetFailure f).tree = s.tree := by
  unfold State.meetFailure
  split <;> simp

@[simp] theorem State.tree_meetFailures (s : State) : s.meetFailures.tree = s.tree := by simp [State.meetFailures]

@[simp] theorem State.tree_endClause (s : State) (c : ℕ) : (s.endClause c).tree = s.tree := by simp [State.endClause]

@[simp] theorem State.tree_pumpClauses (s : State) : s.pumpClauses.tree = s.tree := by simp [State.pumpClauses]

@[simp] theorem State.tree_pumpQueues (s : State) : s.pumpQueues.tree = s.tree := by simp [State.pumpQueues]

end Sys2Proof.Machine

/-!
PROOF. Reports, grants, commits and halts (statement ReportsCommitHalt), refuted: a settling takes nothing of what the module sent up away
unless it resets the module, so a row that noted a wrong report cannot come from a state that noted the right one.
-/
namespace Sys2Proof.Machine

/-- What the module sent up is still noted and its parent is the same one, or a reset of the module took both. -/
def State.SentKept (s t : State) : Prop :=
  s.pd.reduceSent ⊆ t.pd.reduceSent ∧ t.pd.upPort = s.pd.upPort ∨ t.pd.upPort = none

theorem State.SentKept.of_tree {s t : State} (h : t.tree = s.tree) : s.SentKept t := by
  obtain ⟨sent, port⟩ := Prod.mk.inj h
  exact .inl ⟨fun _ hx => sent ▸ hx, port⟩

theorem State.SentKept.trans {s t u : State} (h : s.SentKept t) (k : t.SentKept u) : s.SentKept u := by
  rcases k with ⟨sent, port⟩ | free
  · rcases h with ⟨sent', port'⟩ | free'
    · exact .inl ⟨fun _ hx => sent (sent' hx), port.trans port'⟩
    · exact .inr (port.trans free')
  · exact .inr free

theorem State.SentKept.foldl {α : Type} {f : State → α → State} (l : List α) (hf : ∀ (s : State) (a : α), s.SentKept (f s a)) (s : State) :
    s.SentKept (l.foldl f s) := by
  induction l generalizing s with
  | nil => exact .of_tree rfl
  | cons a l ih => exact (hf s a).trans (ih _)

theorem State.tree_resetM (s : State) : s.resetM.tree = ([], none) := by
  unfold State.resetM
  extract_lets bank s₁ s₂ pwr coll cj uu sh sec s₃ s₄ s₅
  have fresh : s₃.tree = ([], none) := rfl
  rw [State.tree_driveMrst, State.tree_fuseStatus, State.tree_foldl _ (fun s k => by simp), State.tree_put,
    State.tree_foldl _ (fun s d => by simp), fresh]

theorem State.sentKept_criticalReset (s : State) (structure_ inst : ℕ) : s.SentKept (s.criticalReset structure_ inst) := by
  unfold State.criticalReset
  dsimp only
  split
  · exact .of_tree (by simp)
  · split
    · exact .of_tree (by simp)
    · refine .inr ?_
      have freed : (State.resetOwnM ((s.escalate (criticalKey structure_ inst)).bump F.RS_ESCALATE_CRITICAL 1)
          F.RS_CAUSE_CRITICAL_ESCALATION).tree = ([], none) := by
        rw [State.resetOwnM, State.tree_put, State.tree_put, State.tree_resetM]
      exact congrArg Prod.snd freed

theorem State.sentKept_reduceStep (s : State) (kind period round : ℕ) : s.SentKept (s.reduceStep kind period round).1 := by
  unfold State.reduceStep
  extract_lets rs tree ready key mine pd u
  split
  · exact .of_tree rfl
  · split
    · exact .of_tree rfl
    · have noted : s.SentKept u := .inl ⟨List.subset_cons_self .., rfl⟩
      generalize u = u at noted
      refine noted.trans (.of_tree ?_)
      split
      · simp
      · split <;> simp

theorem State.sentKept_reduce (s : State) (kind period round : ℕ) : s.SentKept (s.reduce kind period round) := by
  have step := s.sentKept_reduceStep kind period round
  unfold State.reduce
  split <;> rename_i stepped
  · rw [stepped] at step
    exact step.trans (.of_tree (State.tree_granted ..))
  · rw [stepped] at step
    exact step

theorem State.sentKept_pumpRounds (s : State) : s.SentKept s.pumpRounds := by
  unfold State.pumpRounds
  have pumped : s.SentKept s.pumpReshard := .of_tree s.tree_pumpReshard
  dsimp only
  split
  · split
    · exact pumped.trans (State.sentKept_reduce ..)
    · exact pumped
  · exact pumped

theorem State.sentKept_pump (s : State) : s.SentKept s.pump := by
  unfold State.pump
  dsimp only
  split
  · exact .of_tree s.tree_pumpClauses
  · refine ((State.SentKept.of_tree (?_ : s.pumpClauses.pumpColl.tree = s.tree)).trans (State.sentKept_pumpRounds _)).trans (.of_tree ?_)
    · simp
    · simp

theorem State.sentKept_act (s : State) : s.SentKept s.act := by
  unfold State.act
  extract_lets u v pd pwr
  have faults : u.tree = s.tree := by
    unfold u
    split
    · exact State.tree_moduleFatal ..
    · exact State.tree_periodFatal ..
    · rfl
  have resets : u.SentKept v := by
    refine State.SentKept.foldl _ (fun s d => ?_) u
    exact s.sentKept_criticalReset d.1 d.2
  clear_value v
  exact (State.SentKept.of_tree faults).trans (resets.trans (.of_tree rfl))

theorem State.sentKept_settle (s : State) : s.SentKept s.settle := by
  have spoilt : s.SentKept s.meetFailures.spoil := .of_tree (by rw [State.tree_spoil, State.tree_meetFailures])
  have pumped := ((spoilt.trans (State.sentKept_act _)).trans (State.sentKept_pump _)).trans (State.sentKept_act _)
  have settled := (pumped.trans (State.sentKept_pump _)).trans (State.sentKept_act _)
  exact (settled.trans (.of_tree (State.tree_pumpQueues _))).trans (State.sentKept_act _)

/-! ## A register file with a Period of 49 bits -/

/-- A module that runs the Period 2^48, which its register cannot hold, below the parent at port 0. -/
def overlong : State :=
  let s := ((({ State.reset with pwr := { State.reset.pwr with held := [], bootDone := true } } : State).put F.PW_STATUS_STATE 6).put
    F.PC_STATUS_STATE 2).put (F.ZP_STATUS_STATE 0) 3
  { s with regs := (F.PC_PERIOD_PERIOD.key, 2 ^ 48) :: s.regs, pd := { s.pd with upPort := some 0 } }

theorem overlong_sent : (overlong.report_ overlong.noiseReportOf).settle.tree = ([⟨3, 0, 0⟩], some 0) := by decide +kernel

theorem execNoiseReduceSend_overlong : exec .noiseReduceSend overlong = .next (overlong.report_ overlong.noiseReportOf).settle :=
  congrArg done (if_pos (by decide +kernel))

/-- No state with the overlong Period among what it sent up settles to what the row leaves. -/
theorem overlong_unsettled {t : State} (h : (overlong.report_ overlong.noiseReportOf).settle = t.settle) : ⟨3, 2 ^ 48, 0⟩ ∉ t.pd.reduceSent := by
  intro noted
  have left : t.settle.tree = ([⟨3, 0, 0⟩], some 0) := h ▸ overlong_sent
  obtain ⟨sent, port⟩ := Prod.mk.inj left
  rcases t.sentKept_settle with ⟨kept, -⟩ | free
  · have listed := kept noted
    rw [sent] at listed
    exact absurd listed (by decide)
  · rw [port] at free
    cases free

/-- Refutes O47: where the register file holds a Period of 49 bits, which no `State.put` leaves there, the noise report is noted under the
48 bits that its message carries, and not under the Period that the register reads. -/
theorem not_reportsCommitHalt : ¬ Obligations.ReportsCommitHalt := by
  unfold Obligations.ReportsCommitHalt
  intro h
  obtain ⟨reports, -⟩ := h
  obtain ⟨leaf, -⟩ := reports overlong 0 rfl (by decide +kernel) (by decide +kernel) (by decide +kernel) (by decide +kernel) rfl (by decide +kernel)
  obtain ⟨-, -, noise⟩ := leaf rfl rfl rfl
  obtain ⟨t, row, noted, -⟩ := noise (by decide +kernel)
  have period : overlong.get F.PC_PERIOD_PERIOD = 2 ^ 48 := by decide +kernel
  rw [period] at noted
  rw [execNoiseReduceSend_overlong] at row
  exact overlong_unsettled (Host.Outcome.next.inj row) noted

end Sys2Proof.Machine

/-!
PROOF. CONFORMANCE_RUN reads its image, judges it and stores the records of the runs that fail (statement ConformanceRunChecks).
-/
namespace Sys2Proof.Machine

/-! ## Bodies that read and write HBM of a sound state -/

/-- A body that reads HBM whose memory is sound goes on with its bytes. -/
theorem State.reading_sound {s : State} (h : s.Sound) {a n : Nat} (hn : a + n ≤ hbmEnd) (ha : a < hbmEnd) (c : CmdRef)
    (k : State → List Byte → Body) : s.reading a n c k = k s (s.hbm.read a n) := by
  unfold State.reading
  rw [State.readAt_sound h hn ha]

/-- A body that writes HBM whose memory is sound has stored its bytes and goes on. -/
theorem State.writing_sound {s : State} (h : s.Sound) {a : Nat} {bs : List Byte} (hn : a + bs.length ≤ hbmEnd) (ha : a < hbmEnd) (c : CmdRef)
    (k : State → Body) : s.writing a bs c k = k (s.stored a bs (some c)) := by
  unfold State.writing
  rw [State.writeAt_sound h hn ha]
  rfl

@[simp] theorem State.stored_oxl (s : State) (a : Nat) (bs : List Byte) (c : Option CmdRef) : (s.stored a bs c).oxl = s.oxl := by
  rw [State.stored, State.noteWrite_eq]

theorem writable_hbm {a n : Nat} (hn : a + n ≤ hbmEnd) (ha : a < hbmEnd) : writable a n = true := by
  unfold writable
  rw [rangeSpace_hbm hn ha]

/-- A check that passes. -/
theorem State.guard_single {s : State} {b : Bool} {st : Nat} {body : State → Body} (good : b = false) : s.guard [(b, st)] body = body s :=
  State.guard_pass fun c m => by rw [List.mem_singleton.1 m, good]

/-- A check that passes, and the one that the module is IDLE or HALTED. -/
theorem State.guard_idle {s : State} {b : Bool} {st st' : Nat} {body : State → Body} (good : b = false) (idle : s.idle = true) :
    s.guard [(b, st), (!s.idle, st')] body = body s := by
  refine State.guard_pass fun c m => ?_
  simp only [List.mem_cons, List.not_mem_nil, or_false] at m
  rcases m with rfl | rfl
  · exact good
  · rw [idle]
    rfl

/-! ## The failure records -/

theorem length_padTo (n : Nat) (bs : List Byte) : (padTo n bs).length = n := by
  simp only [padTo, List.length_append, List.length_take, List.length_replicate]
  omega

theorem length_failureRecord (img : List Byte) (v : Vector105) (engine : Nat) : (failureRecord img v engine).length = 32 := length_padTo 32 _

/-- RESULT holds the records that are written: as many as have room there (R106). -/
theorem length_failureRecords_le (img : List Byte) (rs : List (Vector105 × Nat)) (n : Nat) :
    ((rs.take (n / 32)).flatMap (fun r => failureRecord img r.1 r.2)).length ≤ n := by
  have whole : ((rs.take (n / 32)).flatMap (fun r => failureRecord img r.1 r.2)).length = (rs.take (n / 32)).length * 32 := by
    simp only [List.length_flatMap, length_failureRecord, List.map_const', List.sum_replicate_nat]
  have room : (rs.take (n / 32)).length ≤ n / 32 := List.length_take_le ..
  omega

/-! ## CONFORMANCE_RUN (R105, R106) -/

section Conformance
variable {s : State} {p : ConformanceParams} (sound : s.Sound) (inHbm : p.image.toNat + p.imageLen.toNat ≤ hbmEnd) (low : p.image.toNat < hbmEnd)
include sound inHbm low

/-- An image for another Numerics Revision is refused (R106). -/
theorem State.conformance_otherRevision (other : leAt (s.hbm.read p.image.toNat p.imageLen.toNat) 2 2 ≠ numRev) (c : CmdRef) :
    s.conformance p c = s.fail ST_BAD_PARAM := by
  unfold State.conformance
  rw [State.reading_sound sound inHbm low]
  exact if_pos other

/-- An image whose signature does not verify is refused (R105). -/
theorem State.conformance_unsigned (rev : leAt (s.hbm.read p.image.toNat p.imageLen.toNat) 2 2 = numRev)
    (unsigned : conformanceSigned (s.hbm.read p.image.toNat p.imageLen.toNat) = false) (c : CmdRef) :
    s.conformance p c = s.fail ST_SECURITY := by
  unfold State.conformance
  rw [State.reading_sound sound inHbm low]
  exact (if_neg (not_not.2 rev)).trans (if_pos (by rw [unsigned]; rfl))

/-- A good image's runs are counted, and the records of those that fail are stored (R106). -/
theorem State.conformance_signed (rev : leAt (s.hbm.read p.image.toNat p.imageLen.toNat) 2 2 = numRev)
    (signed : conformanceSigned (s.hbm.read p.image.toNat p.imageLen.toNat) = true) (resultLow : p.result.toNat < hbmEnd)
    (resultIn : p.result.toNat + p.resultLen.toNat ≤ hbmEnd) (c : CmdRef) :
    let img := s.hbm.read p.image.toNat p.imageLen.toNat
    let runs := s.conformanceRuns p.cluster.toNat (conformanceChosen p img)
    let bad := conformanceFailing img runs
    let bytes := (bad.take (p.resultLen.toNat / 32)).flatMap (fun r => failureRecord img r.1 r.2)
    s.conformance p c = (({ s with draws := s.draws + 32 } : State).stored p.result.toNat bytes (some c)).ok
      (bad.length % 2 ^ 32 + runs.length % 2 ^ 32 * 2 ^ 32) := by
  intro img runs bad bytes
  have fits : bytes.length ≤ p.resultLen.toNat := length_failureRecords_le img bad _
  have drawn : ({ s with draws := s.draws + 32 } : State).Sound := ⟨sound.allStacks, sound.poison, sound.inject⟩
  unfold State.conformance
  rw [State.reading_sound sound inHbm low]
  refine (if_neg (not_not.2 rev)).trans ((if_neg (by rw [signed]; decide)).trans ?_)
  exact State.writing_sound drawn (Nat.le_trans (Nat.add_le_add_left fits _) resultIn) resultLow c _

end Conformance

/-- CONFORMANCE_RUN with good parameters on an idle module is its body. -/
theorem execConformanceRun_checked {h : Hdr} {p : ConformanceParams} {s t : State} {d : Done} (bound : s.bindingOk h .notBound = true)
    (idle : s.idle = true) (imageAligned : p.image.toNat % 64 = 0) (resultAligned : p.result.toNat % 64 = 0)
    (inHbm : p.image.toNat + p.imageLen.toNat ≤ hbmEnd) (cluster : p.cluster.toNat < 256 ∨ p.cluster.toNat = 0xFFFF)
    (resultLow : p.result.toNat < hbmEnd) (resultIn : p.result.toNat + p.resultLen.toNat ≤ hbmEnd)
    (body : s.conformance p (s.refOf h 0x91) = (t, some d)) (kept : t.oxl = s.oxl) :
    exec (.conformanceRun h p) s = .next (t.finish (s.refOf h 0x91) d).settle := by
  have places : ¬ (p.image.toNat % 64 ≠ 0 ∨ p.result.toNat % 64 ≠ 0 ∨ hbmEnd < p.image.toNat + p.imageLen.toNat) := by omega
  have engine : ¬ (256 ≤ p.cluster.toNat ∧ p.cluster.toNat ≠ 0xFFFF) := by omega
  refine congrArg (fun u : State => done u.settle) (State.run_ends bound ((State.guard_idle ?_ idle).trans body) (by rw [kept]))
  rw [decide_eq_false places, decide_eq_false engine, writable_hbm resultIn resultLow]
  rfl

/-- Settles O20: the row is its body on the image's bytes, and the body takes the image's Revision first, then its signature. -/
theorem conformanceRunChecks : Obligations.ConformanceRunChecks := by
  unfold Obligations.ConformanceRunChecks
  intro h p s sound bound idle imageAligned resultAligned low inHbm cluster resultLow resultIn c img
  have row {t : State} {d : Done} :=
    execConformanceRun_checked (t := t) (d := d) bound idle imageAligned resultAligned inHbm cluster resultLow resultIn
  refine ⟨fun other => ?_, fun rev unsigned => ?_, fun rev signed => ?_⟩
  · exact row (State.conformance_otherRevision sound inHbm low other c) rfl
  · exact row (State.conformance_unsigned sound inHbm low rev unsigned c) rfl
  · exact row (State.conformance_signed sound inHbm low rev signed resultLow resultIn c) (State.stored_oxl ..)

end Sys2Proof.Machine

/-!
PROOF. The sub-operations of SCALE_LEDGER (statement ScaleLedgerChanges): what they write in HBM reads back, and the DIGEST that they rewrite
covers what stands there.
-/
namespace Sys2Proof.Machine

/-! ## Little-endian fields -/

@[simp] theorem length_leBytes (n v : Nat) : (leBytes n v).length = n := by
  induction n generalizing v with
  | zero => rfl
  | succ n ih => simp [leBytes, ih]

/-- The number in the bytes of a number is its low part. -/
theorem ofLE_leBytes (n v : Nat) : ofLE (leBytes n v) = v % 256 ^ n := by
  induction n generalizing v with
  | zero => simp [leBytes, ofLE, Nat.mod_one]
  | succ n ih =>
    have low : (BitVec.ofNat 8 v).toNat = v % 256 := rfl
    rw [leBytes, ofLE, ih, low, Nat.pow_succ', Nat.mod_mul]

theorem ofLE_lt (bs : List Byte) : ofLE bs < 256 ^ bs.length := by
  induction bs with
  | nil => exact Nat.one_pos
  | cons b bs ih =>
    have low : b.toNat < 256 := b.isLt
    rw [ofLE, List.length_cons, Nat.pow_succ']
    omega

theorem crc64_lt (bs : List Byte) : crc64 bs < 2 ^ 64 := by
  have step (c : Nat) : crcStep c < 2 ^ 64 := by
    unfold crcStep
    have doubled : 2 * c % 2 ^ 64 < 2 ^ 64 := Nat.mod_lt _ (Nat.two_pow_pos 64)
    dsimp only
    split
    · exact Nat.xor_lt_two_pow doubled (by decide)
    · exact doubled
  unfold crc64
  induction bs using List.reverseRecOn with
  | nil => exact Nat.two_pow_pos 64
  | append_singleton bs b ih =>
    rw [List.foldl_append]
    exact step _

/-! ## Parts of a range of memory -/

@[simp] theorem Mem.length_read (m : Mem) (a n : Nat) : (m.read a n).length = n := by simp [Mem.read]

theorem Mem.getElem_read (m : Mem) (a : Nat) {n i : Nat} (h : i < n) : (m.read a n)[i]'(by simpa using h) = m.get (a + i) := by
  simp only [Mem.read, List.getElem_map, List.getElem_range]

/-- A range reads alike in memories that agree on it. -/
theorem Mem.read_congr {m m' : Mem} {a n : Nat} (h : ∀ x, a ≤ x → x < a + n → m.get x = m'.get x) : m.read a n = m'.read a n :=
  List.map_congr_left fun _ hi => h _ (Nat.le_add_right ..) (Nat.add_lt_add_left (List.mem_range.1 hi) a)

/-- Two ranges that meet read as one. -/
theorem Mem.read_add (m : Mem) (a n k : Nat) : m.read a (n + k) = m.read a n ++ m.read (a + n) k := by
  simp only [Mem.read, List.range_add, List.map_append, List.map_map, Function.comp_def, Nat.add_assoc]

theorem Mem.take_read (m : Mem) (a : Nat) {k n : Nat} (h : k ≤ n) : (m.read a n).take k = m.read a k := by
  obtain ⟨r, rfl⟩ := Nat.exists_eq_add_of_le h
  rw [Mem.read_add]
  exact List.take_left' (Mem.length_read ..)

theorem Mem.drop_read (m : Mem) (a : Nat) {k n : Nat} (h : k ≤ n) : (m.read a n).drop k = m.read (a + k) (n - k) := by
  obtain ⟨r, rfl⟩ := Nat.exists_eq_add_of_le h
  rw [Mem.read_add, Nat.add_sub_cancel_left]
  exact List.drop_left' (Mem.length_read ..)

/-- A little-endian field written reads back. -/
theorem Mem.read_leBytes (m : Mem) (a n v : Nat) : (m.write a (leBytes n v)).read a n = leBytes n v := by
  simpa only [length_leBytes] using Mem.read_write m a (leBytes n v)

/-- A field of the bytes of a range is the field at its place. -/
theorem leAt_read (m : Mem) (a : Nat) {off k n : Nat} (h : off + k ≤ n) : leAt (m.read a n) off k = ofLE (m.read (a + off) k) := by
  unfold leAt
  rw [Mem.drop_read m a (by omega), Mem.take_read m _ (by omega)]

/-- What stands at the front of the bytes that a range holds stands at its front, and the rest behind. -/
theorem Mem.read_parts {m : Mem} {a : Nat} {p q : List Byte} (h : m.read a (p ++ q).length = p ++ q) :
    m.read a p.length = p ∧ m.read (a + p.length) q.length = q := by
  rw [List.length_append, Mem.read_add] at h
  exact List.append_inj h (Mem.length_read ..)

/-! ## The module's own writes in a sound HBM -/

theorem State.own_sound {s : State} (h : s.Sound) (a : Nat) (bs : List Byte) : s.own a bs = { s with hbm := s.hbm.write a bs } := by
  unfold State.own
  rw [State.writeHbm_sound h]

/-- A body that reads a table of a sound HBM goes on with its bytes. -/
theorem State.readingTable_sound {s : State} (h : s.Sound) (a n structure_ : Nat) (c : CmdRef) (k : State → List Byte → Body) :
    s.readingTable a n structure_ c k = k s (s.hbm.read a n) := by
  unfold State.readingTable State.readTable
  rw [State.useCritical_unarmed h.inject]
  dsimp only
  rw [State.readHbm_sound h]

/-- A calm state stays calm with other bytes in HBM and other numeric counters. -/
theorem State.Calm.ledger {s : State} (h : s.Calm) (m : Mem) (n : NumState) : ({ s with hbm := m, num := n } : State).Calm :=
  h.congr rfl rfl ⟨rfl, rfl⟩ rfl ⟨rfl, rfl⟩ h.flights ⟨rfl, rfl, rfl⟩ fun _ _ => rfl

/-! ## DIGEST (R90) -/

theorem header_le_ledgerSize (n : Nat) : 128 ≤ ledgerSize n := by
  unfold ledgerSize
  omega

/-- READ copies as many bytes as a ledger of the entries that it names has. -/
theorem length_ledgerCopy (m : Mem) (a b n : Nat) : (m.read a 128 ++ m.read b (128 * n)).length = ledgerSize n := by
  rw [List.length_append, Mem.length_read, Mem.length_read, ledgerSize]
  omega

/-- The CRC-64 that the DIGEST of a ledger is to hold: over header bytes 0x00 to 0x27 and all entries. -/
def State.ledgerCrc (s : State) (l : LedgerAttach) : Nat :=
  crc64 ((s.hbm.read l.address (ledgerSize l.count)).take 0x28 ++ (s.hbm.read l.address (ledgerSize l.count)).drop 128)

/-- The bytes of memory from `lo` to `hi - 1` are none of a ledger's DIGEST. -/
def LedgerAttach.Spares (l : LedgerAttach) (lo hi : Nat) : Prop := hi ≤ l.address + 0x28 ∨ l.address + 0x30 ≤ lo

/-- `t` is `u` with the DIGEST of a ledger rewritten. -/
structure State.Sealed (u t : State) (l : LedgerAttach) : Prop where
  frame  : t = { u with hbm := t.hbm }
  digest : t.word (l.address + 0x28) 8 = t.ledgerCrc l
  rest   : ∀ x, x < l.address + 0x28 ∨ l.address + 0x30 ≤ x → t.hbm.get x = u.hbm.get x

theorem State.Sealed.read {u t : State} {l : LedgerAttach} (h : u.Sealed t l) {a n : Nat} (apart : l.Spares a (a + n)) :
    t.hbm.read a n = u.hbm.read a n :=
  Mem.read_congr fun x _ _ => h.rest x (by unfold LedgerAttach.Spares at apart; omega)

theorem State.Sealed.word {u t : State} {l : LedgerAttach} (h : u.Sealed t l) {a n : Nat} (apart : l.Spares a (a + n)) :
    t.word a n = u.word a n := by rw [State.word, h.read apart]

/-- DIGEST covers nothing of itself. -/
theorem State.ledgerCrc_congr {u t : State} {l : LedgerAttach}
    (h : ∀ x, x < l.address + 0x28 ∨ l.address + 0x30 ≤ x → t.hbm.get x = u.hbm.get x) : t.ledgerCrc l = u.ledgerCrc l := by
  have size := header_le_ledgerSize l.count
  have parts (s : State) : s.ledgerCrc l = crc64 (s.hbm.read l.address 0x28 ++ s.hbm.read (l.address + 128) (ledgerSize l.count - 128)) := by
    unfold State.ledgerCrc
    rw [Mem.take_read _ _ (by omega), Mem.drop_read _ _ (by omega)]
  have header : t.hbm.read l.address 0x28 = u.hbm.read l.address 0x28 := Mem.read_congr fun x _ _ => h x (by omega)
  have entries (n : Nat) : t.hbm.read (l.address + 128) n = u.hbm.read (l.address + 128) n := Mem.read_congr fun x _ _ => h x (by omega)
  rw [parts, parts, header, entries]

/-- Rewriting DIGEST in a sound memory leaves the ledger sealed. -/
theorem State.sealed_sealLedger {u : State} (sound : u.Sound) (l : LedgerAttach) : u.Sealed (u.sealLedger l) l := by
  have written : u.sealLedger l = { u with hbm := u.hbm.write (l.address + 0x28) (leBytes 8 (u.ledgerCrc l)) } := State.own_sound sound _ _
  have rest (x : Nat) (h : x < l.address + 0x28 ∨ l.address + 0x30 ≤ x) : (u.sealLedger l).hbm.get x = u.hbm.get x := by
    rw [written]
    exact Mem.get_write_outside _ (by rw [length_leBytes]; omega) _
  refine ⟨by rw [written], ?_, rest⟩
  have reads : (u.sealLedger l).hbm.read (l.address + 0x28) 8 = leBytes 8 (u.ledgerCrc l) := by
    rw [written]
    exact Mem.read_leBytes ..
  rw [State.ledgerCrc_congr rest, State.word, reads, ofLE_leBytes]
  exact Nat.mod_eq_of_lt (crc64_lt _)

/-- `s` with numeric counters `num` and the bytes `bs` written from `a` on: what a sub-operation leaves before it rewrites DIGEST. -/
def State.withLedgerBytes (s : State) (num : NumState) (a : Nat) (bs : List Byte) : State :=
  { s with num := num, hbm := s.hbm.write a bs }

theorem State.read_withLedgerBytes (s : State) (num : NumState) (a : Nat) (bs : List Byte) :
    (s.withLedgerBytes num a bs).hbm.read a bs.length = bs := Mem.read_write ..

theorem State.Sealed.written {s t : State} {num : NumState} {l : LedgerAttach} {a : Nat} {bs : List Byte}
    (h : (s.withLedgerBytes num a bs).Sealed t l) : t = { s with num := num, hbm := t.hbm } := h.frame

/-- Outside the bytes written and DIGEST everything reads as before. -/
theorem State.Sealed.outside {s t : State} {num : NumState} {l : LedgerAttach} {a : Nat} {bs : List Byte}
    (h : (s.withLedgerBytes num a bs).Sealed t l) {x : Nat} (digest : x < l.address + 0x28 ∨ l.address + 0x30 ≤ x)
    (written : x < a ∨ a + bs.length ≤ x) : t.hbm.get x = s.hbm.get x :=
  (h.rest x digest).trans (Mem.get_write_outside bs written s.hbm)

/-- A little-endian field written beside DIGEST reads back. -/
theorem State.Sealed.field {u t : State} {l : LedgerAttach} (h : u.Sealed t l) {a n v : Nat} (reads : u.hbm.read a n = leBytes n v)
    (apart : l.Spares a (a + n)) (fits : v < 256 ^ n) : t.word a n = v := by
  rw [h.word apart, State.word, reads, ofLE_leBytes, Nat.mod_eq_of_lt fits]

/-- The check of R550 in the fields of the ledger's header. -/
theorem State.ledgerOk_iff {s : State} {l : LedgerAttach} : s.ledgerOk l = true ↔
    s.word l.address 2 = 1 ∧ s.word (l.address + 2) 2 = l.count ∧ s.word (l.address + 0x28) 8 = s.ledgerCrc l := by
  have size := header_le_ledgerSize l.count
  unfold State.ledgerOk
  dsimp only
  rw [leAt_read _ _ (by omega), leAt_read _ _ (by omega), leAt_read _ _ (by omega)]
  simp only [Bool.and_eq_true, decide_eq_true_eq, Nat.add_zero, and_assoc]
  exact and_congr_right fun _ => and_congr_right fun _ => eq_comm

/-! ## What the sub-operations write -/

theorem length_ledgerHeader (count committed guardOrigin warmOrigin guardPeriods warmPeriods flags : Nat) :
    (ledgerHeader count committed guardOrigin warmOrigin guardPeriods warmPeriods flags).length = 128 := length_padTo 128 _

/-- A header begins with FORMAT 1 and ENTRIES. -/
theorem ledgerHeader_eq (count committed guardOrigin warmOrigin guardPeriods warmPeriods flags : Nat) :
    ledgerHeader count committed guardOrigin warmOrigin guardPeriods warmPeriods flags = leBytes 2 1 ++ (leBytes 2 count ++
      (ledgerHeader count committed guardOrigin warmOrigin guardPeriods warmPeriods flags).drop 4) := rfl

/-- What an initialising SETUP writes before DIGEST: the header, and every entry 0. -/
def freshLedger (n : Nat) : List Byte := ledgerHeader n noPeriod 0 0 64 16 0 ++ List.replicate (128 * n) 0

theorem length_freshLedger (n : Nat) : (freshLedger n).length = ledgerSize n := by
  rw [freshLedger, List.length_append, length_ledgerHeader, List.length_replicate, ledgerSize]
  omega

/-- A memory that holds a fresh ledger holds FORMAT 1, ENTRIES, and entries of 0. -/
theorem freshLedger_fields {m : Mem} {a n : Nat} (whole : m.read a (freshLedger n).length = freshLedger n) :
    m.read a 2 = leBytes 2 1 ∧ m.read (a + 2) 2 = leBytes 2 n ∧ ∀ x, a + 128 ≤ x → x < a + ledgerSize n → m.get x = 0 := by
  have entries := (Mem.read_parts (q := List.replicate (128 * n) 0) whole).2
  refine ⟨?_, ?_, fun x lo hi => ?_⟩
  · rw [freshLedger, ledgerHeader_eq, List.append_assoc] at whole
    simpa using (Mem.read_parts whole).1
  · rw [freshLedger, ledgerHeader_eq, List.append_assoc, List.append_assoc] at whole
    simpa using (Mem.read_parts (Mem.read_parts whole).2).1
  · rw [length_ledgerHeader, List.length_replicate] at entries
    obtain ⟨i, rfl⟩ := Nat.exists_eq_add_of_le lo
    have inside : i < 128 * n := by unfold ledgerSize at hi; omega
    rw [← Mem.getElem_read m (a + 128) inside]
    simp only [entries, List.getElem_replicate]

/-- What SET_MODE writes before DIGEST: GUARD_PERIODS, WARM_PERIODS and the flag word. -/
def modeBytes (guard warm flags : Nat) : List Byte := leBytes 2 guard ++ (leBytes 2 warm ++ leBytes 4 flags)

theorem length_modeBytes (guard warm flags : Nat) : (modeBytes guard warm flags).length = 8 := by
  simp only [modeBytes, List.length_append, length_leBytes]

theorem modeBytes_fields {m : Mem} {a guard warm flags : Nat} (whole : m.read a (modeBytes guard warm flags).length = modeBytes guard warm flags) :
    m.read a 2 = leBytes 2 guard ∧ m.read (a + 2) 2 = leBytes 2 warm ∧ m.read (a + 4) 4 = leBytes 4 flags := by
  obtain ⟨first, rest⟩ := Mem.read_parts whole
  obtain ⟨second, third⟩ := Mem.read_parts rest
  simp only [length_leBytes] at first second third
  exact ⟨first, second, third⟩

section Writes
variable {s : State} (sound : s.Sound)
include sound

/-- A write of a ledger's bytes, with numeric counters of its own, and then its DIGEST. -/
theorem State.sealed_own (num : NumState) (a : Nat) (bs : List Byte) (l : LedgerAttach) :
    (s.withLedgerBytes num a bs).Sealed ((({ s with num := num } : State).own a bs).sealLedger l) l := by
  have counted : ({ s with num := num } : State).Sound := ⟨sound.allStacks, sound.poison, sound.inject⟩
  have after : (s.withLedgerBytes num a bs).Sound := ⟨sound.allStacks, sound.poison, sound.inject⟩
  have written : ({ s with num := num } : State).own a bs = s.withLedgerBytes num a bs := State.own_sound counted a bs
  rw [written]
  exact State.sealed_sealLedger after l

/-- An initialising SETUP writes a fresh ledger and seals it. -/
theorem State.sealed_ledgerSetup (a n : Nat) :
    (s.withLedgerBytes { s.num with attach := some ⟨a, n, true⟩, mode := none, defs := [], originDue := true } a (freshLedger n)).Sealed
      (s.ledgerSetup false a n) ⟨a, n, true⟩ := State.sealed_own sound _ _ _ _

/-- SET_MODE writes its three fields and seals the ledger. -/
theorem State.sealed_ledgerSetMode (l : LedgerAttach) (force : Bool) (guard warm : Nat) :
    (s.withLedgerBytes { s.num with mode := some ⟨force, guard, warm⟩ } (l.address + 0x20)
      (modeBytes guard warm (s.word (l.address + 0x24) 4 / 2 * 2 + flag force))).Sealed (s.ledgerSetMode l force guard warm) l := by
  rw [modeBytes, ← List.append_assoc]
  exact State.sealed_own sound _ _ _ _

/-- WARMUP writes the flag word and seals the ledger. -/
theorem State.sealed_ledgerWarmup (l : LedgerAttach) :
    (s.withLedgerBytes s.num (l.address + 0x24) (leBytes 4 (s.word (l.address + 0x24) 4 % 4 + 4))).Sealed (s.ledgerWarmup l) l :=
  State.sealed_own sound _ _ _ _

/-- DEFINE of one entry writes the entry's word and seals the ledger. -/
theorem State.sealed_ledgerDefine (l : LedgerAttach) (d : LedgerDef) (one : d.count = 1) :
    (s.withLedgerBytes { s.num with defs := d :: s.num.defs } (l.entry d.first + 0x40)
      (leBytes 4 (entryWord (s.word (l.entry d.first + 0x40) 1) (some d)))).Sealed (s.ledgerDefine l d) l := by
  obtain ⟨first, count, target, cls, margin⟩ := d
  obtain rfl : count = 1 := one
  exact State.sealed_own sound _ _ _ _

end Writes

/-! ## The fields of the words written -/

theorem State.word_lt (s : State) (a n : Nat) : s.word a n < 256 ^ n := by
  simpa only [Mem.length_read] using ofLE_lt (s.hbm.read a n)

/-- SET_MODE's flag word has FORCE_GUARDED as given and the other flags as before. -/
theorem forceWord_fields (w : Nat) (force : Bool) : bit (w / 2 * 2 + flag force) 0 = force ∧ (w / 2 * 2 + flag force) / 2 = w / 2 := by
  have one : flag force < 2 := by cases force <;> decide
  have low : (w / 2 * 2 + flag force) / 2 ^ 0 % 2 = flag force := by omega
  refine ⟨?_, by omega⟩
  rw [bit, low]
  cases force <;> rfl

/-- WARMUP's flag word has WARM_PENDING set and the flags below as before. -/
theorem pendingWord_fields (w : Nat) : bit (w % 4 + 4) 2 = true ∧ (w % 4 + 4) % 4 = w % 4 :=
  ⟨beq_iff_eq.2 (by omega), by omega⟩

/-- The word of a DEFINE holds its fields, each in its place, and the scale below. -/
theorem entryWord_fields {scale : Nat} {d : LedgerDef} (hs : scale < 256) (ht : d.target < 16) (hc : d.cls < 4) (hm : d.margin < 256) :
    let w := entryWord scale (some d)
    w < 256 ^ 4 ∧ bit w 14 = true ∧ bits w 8 4 = d.target ∧ bits w 12 2 = d.cls ∧ bits w 16 8 = d.margin ∧ w % 256 = scale := by
  intro w
  have sum : w = scale + d.target * 256 + d.cls * 4096 + 16384 + d.margin * 65536 := rfl
  rw [sum]
  refine ⟨by omega, beq_iff_eq.2 (by omega), ?_, ?_, ?_, by omega⟩ <;> unfold bits <;> omega

/-! ## What the sub-operations leave -/

section Leaves
variable {s t : State} {num : NumState} {l : LedgerAttach}

/-- After an initialising SETUP the ledger has its format, passes its check and holds entries of 0. -/
theorem State.Sealed.fresh {a n : Nat} (h : (s.withLedgerBytes num a (freshLedger n)).Sealed t ⟨a, n, true⟩) (count : n ≤ 4096) :
    t.word a 2 = 1 ∧ t.word (a + 2) 2 = n ∧ t.ledgerOk ⟨a, n, true⟩ = true ∧
      (∀ x, a + 128 ≤ x → x < a + ledgerSize n → t.hbm.get x = 0) ∧
      ∀ x, x < a ∨ a + ledgerSize n ≤ x → t.hbm.get x = s.hbm.get x := by
  obtain ⟨format, entries, zeros⟩ := freshLedger_fields (s.read_withLedgerBytes num a (freshLedger n))
  have size := header_le_ledgerSize n
  have word0 : t.word a 2 = 1 := h.field format (.inl (by dsimp only; omega)) (by decide)
  have word2 : t.word (a + 2) 2 = n := h.field entries (.inl (by dsimp only; omega)) (by omega)
  refine ⟨word0, word2, State.ledgerOk_iff.2 ⟨word0, word2, h.digest⟩, fun x lo hi => ?_, fun x out => ?_⟩
  · exact (h.rest x (by dsimp only; omega)).trans (zeros x lo hi)
  · exact h.outside (by dsimp only; omega) (by rw [length_freshLedger]; exact out)

/-- After SET_MODE the three fields are as given, and nothing else but DIGEST has changed. -/
theorem State.Sealed.mode {force : Bool} {guard warm : Nat} (hg : guard < 2 ^ 16) (hw : warm < 2 ^ 16)
    (h : (s.withLedgerBytes num (l.address + 0x20)
      (modeBytes guard warm (s.word (l.address + 0x24) 4 / 2 * 2 + flag force))).Sealed t l) :
    t.word (l.address + 0x20) 2 = guard ∧ t.word (l.address + 0x22) 2 = warm ∧ bit (t.word (l.address + 0x24) 4) 0 = force ∧
      t.word (l.address + 0x24) 4 / 2 = s.word (l.address + 0x24) 4 / 2 ∧
      ∀ x, x < l.address + 0x20 ∨ l.address + 0x30 ≤ x → t.hbm.get x = s.hbm.get x := by
  have old : s.word (l.address + 0x24) 4 < 256 ^ 4 := s.word_lt _ _
  have low : flag force ≤ 1 := by cases force <;> decide
  obtain ⟨first, second, third⟩ := modeBytes_fields (s.read_withLedgerBytes num (l.address + 0x20) (modeBytes guard warm _))
  have flags : t.word (l.address + 0x24) 4 = s.word (l.address + 0x24) 4 / 2 * 2 + flag force := h.field third (.inl (by omega)) (by omega)
  rw [flags]
  refine ⟨h.field first (.inl (by omega)) (by omega), h.field second (.inl (by omega)) (by omega), (forceWord_fields _ _).1,
    (forceWord_fields _ _).2, fun x out => h.outside (by omega) ?_⟩
  rw [length_modeBytes]
  omega

/-- After WARMUP WARM_PENDING is set, and nothing else but DIGEST has changed. -/
theorem State.Sealed.pending
    (h : (s.withLedgerBytes num (l.address + 0x24) (leBytes 4 (s.word (l.address + 0x24) 4 % 4 + 4))).Sealed t l) :
    bit (t.word (l.address + 0x24) 4) 2 = true ∧ t.word (l.address + 0x24) 4 % 4 = s.word (l.address + 0x24) 4 % 4 ∧
      ∀ x, x < l.address + 0x24 ∨ l.address + 0x30 ≤ x → t.hbm.get x = s.hbm.get x := by
  have flags : t.word (l.address + 0x24) 4 = s.word (l.address + 0x24) 4 % 4 + 4 := h.field (Mem.read_leBytes ..) (.inl (by omega)) (by omega)
  rw [flags]
  refine ⟨(pendingWord_fields _).1, (pendingWord_fields _).2, fun x out => h.outside (by omega) ?_⟩
  rw [length_leBytes]
  omega

/-- After a DEFINE of one entry its fields are as given, and nothing else but DIGEST has changed. -/
theorem State.Sealed.defined {d : LedgerDef} (ht : d.target < 16) (hc : d.cls < 4) (hm : d.margin < 256)
    (h : (s.withLedgerBytes num (l.entry d.first + 0x40) (leBytes 4 (entryWord (s.word (l.entry d.first + 0x40) 1) (some d)))).Sealed t l) :
    (let w := t.word (l.entry d.first + 0x40) 4
     bit w 14 = true ∧ bits w 8 4 = d.target ∧ bits w 12 2 = d.cls ∧ bits w 16 8 = d.margin ∧
       w % 256 = s.word (l.entry d.first + 0x40) 1) ∧
      ∀ x, (x < l.address + 0x28 ∨ l.address + 0x30 ≤ x) → (x < l.entry d.first + 0x40 ∨ l.entry d.first + 0x44 ≤ x) →
        t.hbm.get x = s.hbm.get x := by
  obtain ⟨fits, fields⟩ := entryWord_fields (d := d) (s.word_lt (l.entry d.first + 0x40) 1) ht hc hm
  have behind : l.address + 0x30 ≤ l.entry d.first + 0x40 := by unfold LedgerAttach.entry; omega
  have word := h.field (Mem.read_leBytes ..) (.inr behind) fits
  refine ⟨?_, fun x digest out => h.outside digest (by rw [length_leBytes]; exact out)⟩
  rw [word]
  exact fields

end Leaves

/-! ## The rows -/

section Rows
variable {h : Hdr} {s : State} (calm : s.Calm) (bound : s.bindingOk h .notBound = true)

/-- Without a SETUP a sub-operation that needs a ledger is not ready (R550). -/
theorem State.withLedger_none (none_ : s.num.attach = none) (c : CmdRef) (k : LedgerAttach → State → Body) :
    s.withLedger c k = s.fail ST_NOT_READY := by
  unfold State.withLedger
  rw [none_]

/-- A ledger that has passed its check is not checked again (R550). -/
theorem State.withLedger_checked {l : LedgerAttach} (attached : s.num.attach = some l) (checked : l.checked = true) (c : CmdRef)
    (k : LedgerAttach → State → Body) : s.withLedger c k = k l s := by
  unfold State.withLedger
  rw [attached]
  exact if_pos checked

include calm bound

/-- A row of SCALE_LEDGER whose body writes the ledger and seals it ends there with ST_OK. -/
theorem State.run_sealed {t : State} {num : NumState} {a : Nat} {bs : List Byte} {l : LedgerAttach} {body : CmdRef → State → Body}
    (sealed_ : (s.withLedgerBytes num a bs).Sealed t l) (ends : body (s.refOf h 0x22) s = t.ok 0) :
    done (s.run h 0x22 .notBound body).settle = .next (t.finish (s.refOf h 0x22) ⟨ST_OK, 0, 0⟩) := by
  have missing : t.oxl.missing = s.oxl.missing := by rw [sealed_.written]
  have settled : t.Calm := by
    rw [sealed_.written]
    exact calm.ledger _ _
  exact congrArg done (State.run_settle_calm bound ends missing settled)

section Setup
variable {a : BitVec 64} {n : BitVec 16} (idle : s.idle = true) (aligned : a.toNat % 4096 = 0) (some_ : 1 ≤ n.toNat) (count : n.toNat ≤ 4096)
  (inHbm : a.toNat + ledgerSize n.toNat ≤ hbmEnd)
include idle aligned some_ count inHbm

omit calm bound in
/-- SETUP's checks pass (R102). -/
theorem State.guard_setup (body : State → Body) : s.guard [(decide (a.toNat % 4096 ≠ 0 ∨ n.toNat = 0 ∨ 4096 < n.toNat ∨
    hbmEnd < a.toNat + ledgerSize n.toNat), ST_BAD_PARAM), (!s.idle, ST_NOT_READY)] body = body s := by
  have good : ¬ (a.toNat % 4096 ≠ 0 ∨ n.toNat = 0 ∨ 4096 < n.toNat ∨ hbmEnd < a.toNat + ledgerSize n.toNat) := by omega
  exact State.guard_idle (decide_eq_false good) idle

theorem execScaleLedgerSetup_attach : exec (.scaleLedgerSetup h true a n) s =
    .next (({ s with num := { s.num with attach := some ⟨a.toNat, n.toNat, false⟩, mode := none, defs := [] } } : State).finish
      (s.refOf h 0x22) ⟨ST_OK, 0, 0⟩) :=
  congrArg done (State.run_settle_calm bound (State.guard_setup idle aligned some_ count inHbm _) rfl (calm.ledger s.hbm _))

theorem execScaleLedgerSetup_init (sound : s.Sound) : exec (.scaleLedgerSetup h false a n) s =
    .next ((s.ledgerSetup false a.toNat n.toNat).finish (s.refOf h 0x22) ⟨ST_OK, 0, 0⟩) :=
  State.run_sealed calm bound (State.sealed_ledgerSetup sound _ _) (State.guard_setup idle aligned some_ count inHbm _)

end Setup

section Attached
variable {l : LedgerAttach} (attached : s.num.attach = some l) (checked : l.checked = true) (sound : s.Sound)
include attached checked sound

section Changes
variable (idle : s.idle = true)
include idle

theorem execScaleLedgerSetMode_checked {force : Bool} {guard warm : BitVec 16} (periods : warm.toNat ≠ 0) :
    exec (.scaleLedgerSetMode h force guard warm) s =
      .next ((s.ledgerSetMode l force guard.toNat warm.toNat).finish (s.refOf h 0x22) ⟨ST_OK, 0, 0⟩) := by
  have good : warm ≠ 0 := fun zero => periods (by rw [zero]; rfl)
  exact State.run_sealed calm bound (State.sealed_ledgerSetMode sound l force guard.toNat warm.toNat)
    ((State.guard_idle (decide_eq_false good) idle).trans (State.withLedger_checked attached checked _ _))

theorem execScaleLedgerWarmup_checked :
    exec (.scaleLedgerWarmup h) s = .next ((s.ledgerWarmup l).finish (s.refOf h 0x22) ⟨ST_OK, 0, 0⟩) := by
  have ready : (!s.idle) = false := by rw [idle]; rfl
  exact State.run_sealed calm bound (State.sealed_ledgerWarmup sound l)
    ((State.guard_single ready).trans (State.withLedger_checked attached checked _ _))

theorem execScaleLedgerDefine_checked {i : BitVec 16} {target : BitVec 4} {cls : BitVec 2} {margin : BitVec 8} (format : target.toNat ≤ 0xB)
    (bounded : marginOk margin = true) (there : i.toNat < l.count) : exec (.scaleLedgerDefine h i 1 target cls margin) s =
      .next ((s.ledgerDefine l ⟨i.toNat, 1, target.toNat, cls.toNat, margin.toNat⟩).finish (s.refOf h 0x22) ⟨ST_OK, 0, 0⟩) := by
  have within : ¬ l.count < i.toNat + (1 : BitVec 16).toNat := Nat.not_lt.2 there
  have good : (decide (0xB < target.toNat) || !marginOk margin) = false := by rw [decide_eq_false (Nat.not_lt.2 format), bounded]; rfl
  exact State.run_sealed calm bound (State.sealed_ledgerDefine sound l ⟨i.toNat, 1, target.toNat, cls.toNat, margin.toNat⟩ rfl)
    ((State.guard_idle good idle).trans ((State.withLedger_checked attached checked _ _).trans (if_neg within)))

end Changes
end Attached

section Read
variable {a : BitVec 64} {i n : BitVec 16} (aligned : a.toNat % 64 = 0) (inHbm : a.toNat + ledgerSize n.toNat ≤ hbmEnd)
include aligned inHbm

omit calm bound in
/-- READ's checks pass (R102). -/
theorem State.guard_read (body : State → Body) :
    s.guard [(decide (a.toNat % 64 ≠ 0) || !writable a.toNat (ledgerSize n.toNat), ST_BAD_PARAM)] body = body s := by
  have size := header_le_ledgerSize n.toNat
  refine State.guard_single ?_
  rw [writable_hbm inHbm (by omega), decide_eq_false (not_not.2 aligned)]
  rfl

theorem execScaleLedgerRead_none (none_ : s.num.attach = none) :
    exec (.scaleLedgerRead h a i n) s = .next (s.finish (s.refOf h 0x22) ⟨ST_NOT_READY, 0, 0⟩) :=
  congrArg done (State.run_settle_calm bound ((State.guard_read aligned inHbm _).trans (State.withLedger_none none_ _ _)) rfl calm)

variable {l : LedgerAttach} (attached : s.num.attach = some l) (checked : l.checked = true)
include attached checked

theorem execScaleLedgerRead_beyond (beyond : l.count < i.toNat + n.toNat) :
    exec (.scaleLedgerRead h a i n) s = .next (s.finish (s.refOf h 0x22) ⟨ST_BAD_PARAM, 0, 0⟩) :=
  congrArg done (State.run_settle_calm bound ((State.guard_read aligned inHbm _).trans
    ((State.withLedger_checked attached checked _ _).trans (if_pos beyond))) rfl calm)

omit calm in
theorem execScaleLedgerRead_stores (sound : s.Sound) (within : i.toNat + n.toNat ≤ l.count) :
    exec (.scaleLedgerRead h a i n) s = .next (((s.stored a.toNat (s.hbm.read l.address 128 ++ s.hbm.read (l.entry i.toNat) (128 * n.toNat))
      (some (s.refOf h 0x22))).finish (s.refOf h 0x22) ⟨ST_OK, 0, 0⟩).settle) := by
  have size := header_le_ledgerSize n.toNat
  have low : a.toNat < hbmEnd := by omega
  have fits : a.toNat + (s.hbm.read l.address 128 ++ s.hbm.read (l.entry i.toNat) (128 * n.toNat)).length ≤ hbmEnd :=
    (length_ledgerCopy ..).symm ▸ inHbm
  refine congrArg (fun u : State => done u.settle) (State.run_ends bound ((State.guard_read aligned inHbm _).trans
    ((State.withLedger_checked attached checked _ _).trans ((if_neg (Nat.not_lt.2 within)).trans ?_))) (by rw [State.stored_oxl]))
  exact (State.readingTable_sound sound ..).trans ((State.readingTable_sound sound ..).trans (State.writing_sound sound fits low _ _))

end Read
end Rows

/-- Settles O17: each sub-operation's body writes and seals the ledger, or copies it, and the end of the step leaves it at that. -/
theorem scaleLedgerChanges : Obligations.ScaleLedgerChanges := by
  unfold Obligations.ScaleLedgerChanges
  refine ⟨fun h a n s calm sound bound idle aligned some_ count inHbm => ?_, fun h l s calm sound bound idle attached checked => ?_,
    fun h a i n s calm sound bound aligned inHbm => ?_⟩
  · have sealed_ := State.sealed_ledgerSetup sound a.toNat n.toNat
    exact ⟨execScaleLedgerSetup_attach calm bound idle aligned some_ count inHbm,
      _, execScaleLedgerSetup_init calm bound idle aligned some_ count inHbm sound, sealed_.written, sealed_.fresh count⟩
  · refine ⟨fun force guard warm periods => ?_, ?_, fun i target cls margin format bounded there => ?_⟩
    · have sealed_ := State.sealed_ledgerSetMode sound l force guard.toNat warm.toNat
      obtain ⟨hg, hw, hf, kept, rest⟩ := sealed_.mode guard.isLt warm.isLt
      exact ⟨_, execScaleLedgerSetMode_checked calm bound attached checked sound idle periods, sealed_.written,
        hg, hw, hf, kept, sealed_.digest, rest⟩
    · have sealed_ := State.sealed_ledgerWarmup sound l
      obtain ⟨set_, kept, rest⟩ := sealed_.pending
      exact ⟨_, execScaleLedgerWarmup_checked calm bound attached checked sound idle, sealed_.written, set_, kept, sealed_.digest, rest⟩
    · have sealed_ := State.sealed_ledgerDefine sound l ⟨i.toNat, 1, target.toNat, cls.toNat, margin.toNat⟩ rfl
      obtain ⟨fields, rest⟩ := sealed_.defined target.isLt cls.isLt margin.isLt
      exact ⟨_, execScaleLedgerDefine_checked calm bound attached checked sound idle format bounded there,
        fields, sealed_.digest, sealed_.written, rest⟩
  · refine ⟨execScaleLedgerRead_none calm bound aligned inHbm, fun l attached checked =>
      ⟨execScaleLedgerRead_beyond calm bound aligned inHbm attached checked, fun within => ?_⟩⟩
    have row := execScaleLedgerRead_stores bound aligned inHbm attached checked sound within
    refine ⟨row, fun unwatched => ⟨_, State.stores_write s a.toNat _, row.trans (congrArg done (State.settle_stored calm ?_ _ _ _))⟩⟩
    rw [length_ledgerCopy]
    exact unwatched

end Sys2Proof.Machine

/-!
PROOF. RUN_PROGRAM checks its image and runs its stages (statement ProgramRunsItsStages): a step that reads or writes HBM of a sound state
succeeds and leaves it sound, so the stages of a program that lies in HBM come to their end.
-/
namespace Sys2Proof.Machine

/-! ## Steps that succeed -/

/-- A step from a sound state succeeds: it leaves a sound state and the Orrex Link interface as it was, and its value is as `P` says. -/
def Act.Yields {α : Type} (m : Act α) (s : State) (P : α → Prop) : Prop :=
  ∃ (t : State) (a : α), m = (t, .ok a) ∧ t.Sound ∧ t.oxl = s.oxl ∧ P a

section Steps
variable {α β : Type} {s : State}

theorem Act.Yields.pure (sound : s.Sound) {P : α → Prop} {a : α} (h : P a) : Act.Yields (s, .ok a) s P := ⟨s, a, rfl, sound, rfl, h⟩

theorem Act.Yields.bind {m : Act α} {k : State → α → Act β} {P : α → Prop} {Q : β → Prop} (h : m.Yields s P)
    (next : ∀ (t : State) (a : α), t.Sound → P a → (k t a).Yields t Q) : (m.bind k).Yields s Q := by
  obtain ⟨t, a, rfl, sound, kept, ha⟩ := h
  obtain ⟨u, b, run, sound', kept', hb⟩ := next t a sound ha
  exact ⟨u, b, run, sound', kept'.trans kept, hb⟩

/-- A step for each element of a list succeeds when each of them does. -/
theorem yields_actAll {f : State → α → Act β} {l : List α} (each : ∀ a ∈ l, ∀ t : State, t.Sound → (f t a).Yields t fun _ => True)
    (sound : s.Sound) : (actAll f s l).Yields s fun _ => True := by
  induction l generalizing s with
  | nil => exact .pure sound trivial
  | cons a l ih =>
    rw [List.forall_mem_cons] at each
    exact (each.1 s sound).bind fun _ _ sound _ => (ih each.2 sound).bind fun _ _ sound _ => .pure sound trivial

/-- A read of HBM succeeds. -/
theorem State.yields_readAct (sound : s.Sound) {a n : Nat} (low : a < hbmEnd) (fits : a + n ≤ hbmEnd) (c : CmdRef) :
    (s.readAct a n c).Yields s fun _ => True := by
  rw [State.readAct_sound sound fits low]
  exact .pure sound trivial

theorem State.Sound.stored (sound : s.Sound) (a : Nat) (bs : List Byte) (c : Option CmdRef) : (s.stored a bs c).Sound := by
  have noted := sound.noteWrite a bs.length c
  exact ⟨noted.allStacks, noted.poison, noted.inject⟩

/-- A write to HBM succeeds. -/
theorem State.yields_writeAct (sound : s.Sound) {a : Nat} {bs : List Byte} (low : a < hbmEnd) (fits : a + bs.length ≤ hbmEnd) (c : CmdRef) :
    (s.writeAct a bs c).Yields s fun _ => True := by
  have written : s.writeAct a bs c = (s.stored a bs (some c), .ok ()) := by
    unfold State.writeAct
    rw [State.writeAt_sound sound fits low]
    rfl
  exact ⟨_, _, written, sound.stored .., State.stored_oxl .., trivial⟩

end Steps

/-! ## Pieces of memory that lie in HBM -/

/-- A piece of memory lies in HBM. -/
def RunInHbm (r : Nat × List Byte) : Prop := r.1 < hbmEnd ∧ r.1 + r.2.length ≤ hbmEnd

/-- Pieces of HBM that lie end to end, joined, lie in HBM. -/
theorem joinRuns_inHbm {rs : List (Nat × List Byte)} (h : ∀ r ∈ rs, RunInHbm r) : ∀ r ∈ joinRuns rs, RunInHbm r := by
  fun_induction joinRuns rs with
  | case1 => exact h
  | case2 a bs rs cs rest joined ih =>
    rw [joined] at ih
    obtain ⟨first, others⟩ := List.forall_mem_cons.1 h
    obtain ⟨second, tail⟩ := List.forall_mem_cons.1 (ih others)
    refine List.forall_mem_cons.2 ⟨⟨first.1, ?_⟩, tail⟩
    have fits := second.2
    rw [List.length_append]
    dsimp only at fits ⊢
    omega
  | case3 a bs rs b cs rest joined apart ih =>
    rw [joined] at ih
    obtain ⟨first, others⟩ := List.forall_mem_cons.1 h
    exact List.forall_mem_cons.2 ⟨first, ih others⟩
  | case4 a bs rs joined ih => exact fun r hr => h r (List.mem_cons.2 (.inl (List.mem_singleton.1 hr)))

theorem State.yields_writeRuns {s : State} (sound : s.Sound) {rs : List (Nat × List Byte)} (h : ∀ r ∈ rs, RunInHbm r) (c : CmdRef) :
    (s.writeRuns rs c).Yields s fun _ => True :=
  (yields_actAll (fun r hr _ sound => State.yields_writeAct sound (joinRuns_inHbm h r hr).1 (joinRuns_inHbm h r hr).2 c) sound).bind
    fun _ _ sound _ => .pure sound trivial

/-! ## Elements in memory (R65) -/

theorem length_piecesAux_le {α : Type} {n k : Nat} : ∀ (fuel : Nat) (l : List α), l.length ≤ n * k → (piecesAux n fuel l).length ≤ k := by
  intro fuel l h
  fun_induction piecesAux n fuel l generalizing k with
  | case1 => exact Nat.zero_le _
  | case2 => exact Nat.zero_le _
  | case3 fuel l some_ ih =>
    cases k with
    | zero => exact absurd (List.length_eq_zero_iff.1 (Nat.le_zero.1 h)) some_
    | succ k =>
      refine Nat.succ_le_succ (ih ?_)
      rw [List.length_drop]
      rw [Nat.mul_succ] at h
      omega

/-- A list of at most `n * k` elements has at most `k` pieces of `n`. -/
theorem length_pieces_le {α : Type} {n k : Nat} {l : List α} (h : l.length ≤ n * k) : (pieces n l).length ≤ k := length_piecesAux_le _ l h

theorem length_pack_e2m1_le {es : List Nat} {k : Nat} (h : es.length ≤ 2 * k) : (Fmt.e2m1.pack es).length ≤ k := by
  rw [Fmt.pack, List.length_map]
  exact length_pieces_le h

theorem length_pack_e3m2_le {es : List Nat} {k : Nat} (h : es.length ≤ 4 * k) : (Fmt.e3m2.pack es).length ≤ 3 * k := by
  have groups := length_pieces_le h
  simp only [Fmt.pack, List.length_flatMap, length_leBytes, List.map_const', List.sum_replicate_nat]
  omega

/-- The elements of a row of a packed format, some of them replaced, take no more bytes than before. -/
theorem length_overlayElems_le {f : Fmt} (packed : f.packed = true) (old : List Byte) (es : List (Nat × Nat)) (n : Nat) :
    (overlayElems f old es n).length ≤ old.length := by
  have kept (slots : Nat) : (es.foldl (fun (a : Array Nat) e => if e.1 < n then a.setIfInBounds e.1 e.2 else a)
      (f.unpack old slots).toArray).toList.length ≤ slots := by
    refine List.foldlRecOn (motive := fun a : Array Nat => a.toList.length ≤ slots) es _ (List.length_take_le ..) fun a ha e _ => ?_
    split
    · exact Array.size_setIfInBounds.trans_le ha
    · exact ha
  cases f with
  | e2m1 => exact length_pack_e2m1_le (kept _)
  | e3m2 => exact Nat.le_trans (length_pack_e3m2_le (kept _)) (Nat.mul_div_le ..)
  | _ => exact absurd packed (by decide)

/-- An element of a format whose elements share no bytes takes the bytes from its place to the next one's. -/
theorem Fmt.bytes_succ_of_unpacked {f : Fmt} (unpacked : f.packed = false) (plain : f ≠ .m40) (i x : Nat) :
    f.bytes (i + 1) = f.bytes i + (f.pack [x]).length := by
  cases f with
  | e2m1 | e3m2 => exact absurd unpacked (by decide)
  | m40 => exact absurd rfl plain
  | _ => simp [Fmt.bytes, Fmt.pack, Fmt.width, Nat.mul_add]

theorem Fmt.bytes_le_of_unpacked {f : Fmt} (unpacked : f.packed = false) (plain : f ≠ .m40) {m n : Nat} (h : m ≤ n) : f.bytes m ≤ f.bytes n := by
  induction h with
  | refl => exact Nat.le_refl _
  | step _ ih => exact Nat.le_trans ih (Nat.le.intro (f.bytes_succ_of_unpacked unpacked plain _ 0).symm)

theorem Fmt.pack_singleton_pos {f : Fmt} (unpacked : f.packed = false) (x : Nat) : 0 < (f.pack [x]).length := by
  cases f with
  | e2m1 | e3m2 => exact absurd unpacked (by decide)
  | _ => simp [Fmt.pack, Fmt.width]

/-! ## Plain tensors -/

/-- A tensor lies in HBM, without block scales or an extension plane. -/
structure Tensor.Plain (d : Tensor) : Prop where
  unscaled : d.mx = false
  joined   : d.fmt ≠ .m40
  inHbm    : ∀ r < d.rows, d.rowAddr r < hbmEnd ∧ d.rowAddr r + d.fmt.bytes d.d0 ≤ hbmEnd

theorem Program.Plain.tensor {g : Program} (h : g.Plain) {x : Tensor} (hx : x ∈ g.tensors) : x.Plain := by
  obtain ⟨-, unscaled, joined, inHbm⟩ := h.2 x hx
  exact ⟨unscaled, joined, inHbm⟩

theorem Tensor.count_eq (d : Tensor) : d.count = d.d0 * d.rows := by simp only [Tensor.count, Tensor.rows, Nat.mul_assoc]

/-- An element of a tensor lies in one of its rows. -/
theorem Tensor.row_lt {d : Tensor} {i : Nat} (h : i < d.count) : i / d.d0 < d.rows := by
  rw [d.count_eq] at h
  exact Nat.div_lt_of_lt_mul h

/-- The first elements of a tensor take no more rows than it has. -/
theorem Tensor.cdiv_le_rows {d : Tensor} {n : Nat} (h : n ≤ d.count) : cdiv n d.d0 ≤ d.rows := by
  rw [d.count_eq] at h
  unfold cdiv
  rcases Nat.eq_zero_or_pos d.d0 with none_ | some_
  · rw [none_, Nat.div_zero]
    exact Nat.zero_le _
  · refine Nat.le_of_lt_succ (Nat.div_lt_of_lt_mul ?_)
    rw [Nat.mul_succ]
    omega

section Plain
variable {d : Tensor} (plain : d.Plain) {s : State} (sound : s.Sound)
include plain sound

/-- The rows of a plain tensor can be read. -/
theorem State.yields_readRows {n : Nat} (h : n ≤ d.rows) (c : CmdRef) : (s.readRows d 0 n c).Yields s fun _ => True := by
  refine (yields_actAll (fun i hi t sound => ?_) sound).bind fun _ _ sound _ => .pure sound trivial
  have row := plain.inHbm (0 + i) (by rw [List.mem_range] at hi; omega)
  refine (State.yields_readAct sound row.1 row.2 c).bind fun _ _ sound _ => ?_
  rw [if_neg plain.joined]
  exact .pure sound trivial

/-- The first values of a plain tensor can be read. -/
theorem State.yields_readFirst {n : Nat} (h : n ≤ d.count) (c : CmdRef) : (s.readFirst d n c).Yields s fun vs => vs.length ≤ n := by
  have values : (s.readValues d (cdiv n d.d0) false c).Yields s fun _ => True := by
    refine (State.yields_readRows plain sound (Tensor.cdiv_le_rows h) c).bind fun _ _ sound _ => ?_
    rw [plain.unscaled]
    exact .pure sound trivial
  exact values.bind fun _ _ sound _ => .pure sound (List.length_take_le ..)

/-- Elements can be written to a plain tensor. -/
theorem State.yields_writeElems {es : List (Nat × Nat)} (h : ∀ e ∈ es, e.1 < d.count) (c : CmdRef) :
    (s.writeElems d es c).Yields s fun _ => True := by
  unfold State.writeElems
  split
  case isTrue packed =>
    refine State.yields_writeRuns sound (List.forall_mem_map.2 fun r hr => ?_) c
    obtain ⟨e, he, rfl⟩ := List.mem_map.1 (List.mem_eraseDups.1 hr)
    have row := plain.inHbm _ (Tensor.row_lt (h e he))
    have peeked (a n : Nat) : (s.peek a n).length = n := by
      unfold State.peek
      split <;> exact Mem.length_read ..
    refine ⟨row.1, Nat.le_trans (Nat.add_le_add_left ?_ _) row.2⟩
    exact Nat.le_trans (length_overlayElems_le packed _ _ _) (Nat.le_of_eq (peeked ..))
  case isFalse shared =>
    have unpacked : d.fmt.packed = false := Bool.eq_false_iff.2 shared
    dsimp only
    rw [if_neg plain.joined, List.append_nil]
    refine State.yields_writeRuns sound (List.forall_mem_map.2 fun e he => ?_) c
    rw [if_neg plain.joined]
    have inside := h e he
    have row := plain.inHbm _ (Tensor.row_lt inside)
    have place : e.1 % d.d0 < d.d0 := Nat.mod_lt _ (Nat.pos_of_ne_zero fun none_ => by simp [Tensor.count, none_] at inside)
    have next := d.fmt.bytes_succ_of_unpacked unpacked plain.joined (e.1 % d.d0) e.2
    have within := d.fmt.bytes_le_of_unpacked unpacked plain.joined (Nat.add_one_le_of_lt place)
    have some_ := d.fmt.pack_singleton_pos unpacked e.2
    unfold RunInHbm
    dsimp only
    omega

end Plain

/-! ## Conversion at a site (R80 to R85) -/

/-- Counting conversions changes no more than the counts. -/
theorem State.count_eq (s : State) (eval : Bool) (t : Nat) (n : Counts) : s.count eval t n = { s with num := (s.count eval t n).num } := by
  unfold State.count
  dsimp only
  split
  · rfl
  · split <;> rfl

theorem State.Sound.count {s : State} (sound : s.Sound) (eval : Bool) (t : Nat) (n : Counts) : (s.count eval t n).Sound := by
  rw [State.count_eq]
  exact ⟨sound.allStacks, sound.poison, sound.inject⟩

/-- A conversion keeps the elements' indices. -/
theorem State.convertSite_indices (s : State) (eval : Bool) (t : Nat) (f : Fmt) (code : Nat) (vs : List (Nat × Val)) :
    (s.convertSite eval t f code vs).2.map (·.1) = vs.map (·.1) := by
  simp only [State.convertSite, List.map_map, Function.comp_def]

/-- A conversion changes no more than the counts. -/
theorem State.convertSite_state (s : State) (eval : Bool) (t : Nat) (f : Fmt) (code : Nat) (vs : List (Nat × Val)) :
    ∃ n : Counts, (s.convertSite eval t f code vs).1 = s.count eval t n := ⟨_, rfl⟩

/-- Values can be converted and stored in a plain tensor. -/
theorem State.yields_storeValues {d : Tensor} (plain : d.Plain) {s : State} (sound : s.Sound) {vs : List (Nat × Val)}
    (h : ∀ v ∈ vs, v.1 < d.count) (eval : Bool) (code : Nat) (c : CmdRef) : (s.storeValues eval d code vs c).Yields s fun _ => True := by
  have indices := s.convertSite_indices eval d.id d.fmt code vs
  obtain ⟨n, counted⟩ := s.convertSite_state eval d.id d.fmt code vs
  have stored : s.storeValues eval d code vs c =
      (s.convertSite eval d.id d.fmt code vs).1.writeElems d (s.convertSite eval d.id d.fmt code vs).2 c := by
    unfold State.storeValues State.storeShaded
    rw [plain.unscaled]
    rfl
  rw [stored, counted]
  have inside : ∀ i ∈ vs.map (·.1), i < d.count := List.forall_mem_map.2 h
  rw [← indices] at inside
  obtain ⟨t, u, run, sound', kept, -⟩ := State.yields_writeElems plain (sound.count eval d.id n) (List.forall_mem_map.1 inside) c
  exact ⟨t, u, run, sound', kept.trans (by rw [State.count_eq]), trivial⟩

/-! ## Stages (R116) -/

/-- An ELTWISE stage between plain tensors, without epilogue, comes to its end. -/
theorem State.yields_runEltwise {ts : List Tensor} (plain : ∀ x ∈ ts, x.Plain) {st : Stage} (ok : eltwiseOk ts st = true)
    (bare : st.epis = []) {s : State} (sound : s.Sound) (ctx : RunCtx) : (s.runEltwise ctx ts st).Yields s fun _ => True := by
  unfold eltwiseOk at ok
  split at ok
  case h_2 => exact absurd ok (by decide)
  case h_1 a d src dst =>
    simp only [Bool.and_eq_true, decide_eq_true_eq] at ok
    obtain ⟨⟨⟨-, reads, writes⟩, -⟩, -⟩ := ok
    unfold State.runEltwise
    rw [src, dst, bare]
    refine (State.yields_readFirst (plain a (List.mem_of_getElem? src)) sound reads ctx.cmd).bind fun t vs sound few => ?_
    refine Act.Yields.bind (P := fun _ => True) (.pure sound trivial) fun t eds sound _ => ?_
    refine (State.yields_storeValues (plain d (List.mem_of_getElem? dst)) sound (List.forall_mem_map.2 fun v hv => ?_) _ _ _).bind
      fun _ _ sound _ => .pure sound trivial
    have place := List.mem_zipIdx hv
    dsimp only
    omega

/-- The stages of a program that passes its checks meet their own (R112). -/
theorem State.stageOk_of_programOf {s : State} {img : List Byte} {relocs : List Reloc} {g : Program} (h : s.programOf img relocs = some g) :
    ∀ st ∈ g.stages, s.stageOk g.tensors st = true := by
  unfold State.programOf at h
  split at h
  · cases h
  split at h
  · cases h
  dsimp only at h
  split at h
  case isFalse => cases h
  case isTrue ok =>
    cases h
    exact List.all_eq_true.1 (Bool.and_eq_true_iff.1 ok).2

/-- The stages of a plain program come to their end. -/
theorem State.yields_runStages {s : State} {img : List Byte} {relocs : List Reloc} {g : Program} (checked : s.programOf img relocs = some g)
    (plain : g.Plain) (sound : s.Sound) (ctx : RunCtx) : (s.runStages ctx g.tensors g.stages).Yields s fun _ => True := by
  refine (yields_actAll (fun st hst t sound => ?_) sound).bind fun _ _ sound _ => .pure sound trivial
  have ok := State.stageOk_of_programOf checked st hst
  obtain ⟨kind, bare⟩ := plain.1 st hst
  unfold State.stageOk at ok
  unfold State.runStage
  rw [kind] at ok ⊢
  exact State.yields_runEltwise (fun _ hx => plain.tensor hx) ok bare sound ctx

/-! ## A program that runs (R118) -/

theorem State.useStore_unarmed {s : State} (h : s.inject = []) (st : Store) (inst : Nat) (c : Option CmdRef) :
    s.useStore st inst c = (s, false) := by
  unfold State.useStore
  rw [h]
  rfl

/-- Clusters that are neither held nor marked are entered. -/
theorem State.enterClusters_clear {s : State} (h : s.inject = []) (unmarked : s.marks = []) {first count : Nat}
    (free : (s.physSet first count).any s.clusterHeld = false) (c : CmdRef) : s.enterClusters first count c = (s, none) := by
  have status (l : List Nat) : s.markStatus l = none := by
    unfold State.markStatus
    rw [unmarked]
    rfl
  unfold State.enterClusters
  dsimp only
  rw [if_neg (by rw [free]; decide), State.useCritical_unarmed h]
  dsimp only
  rw [status]
  exact List.foldl_fixed' (fun p => by rw [State.useStore_unarmed h]) _

theorem State.oxl_forgetAt (s : State) (a n : Nat) : (s.forgetAt a n).oxl = s.oxl := by
  unfold State.forgetAt State.forgetHbm
  split
  · split <;> rfl
  · split <;> rfl
  · rfl

theorem State.oxl_forgetOutputs (s : State) (g : Program) (st : Nat) : (s.forgetOutputs g st).oxl = s.oxl := by
  unfold State.forgetOutputs
  split
  · rfl
  · exact List.foldlRecOn (motive := fun t : State => t.oxl = s.oxl) _ _ rfl fun t kept r _ => (t.oxl_forgetAt r.1 r.2).trans kept

section Checked
variable {s t : State} {h : Hdr} {p : RunParams} {g : Program} {c : CmdRef}
  (entered : s.enterClusters p.clusterFirst.toNat p.clusterCount.toNat c = (s, none))
include entered

/-- A program without DIGEST tensors whose stages come to their end completes with the CRC-64 of no bytes. -/
theorem State.runChecked_ok (undigested : g.tensors.all (fun x => !x.digest) = true) (unrecorded : p.stats = 0) {r : Stats}
    (run : s.runStages ⟨c, h, p.clusterFirst.toNat, p.clusterCount.toNat⟩ g.tensors g.stages = (t, .ok r)) :
    s.runChecked h p g c = t.ok (crc64 []) := by
  have none_ : g.tensors.filter (·.digest) = [] :=
    List.filter_eq_nil_iff.2 fun x hx => by simpa using List.all_eq_true.1 undigested x hx
  simp only [State.runChecked, entered, run, none_, unrecorded, if_true]
  rfl

/-- A program whose stages fail completes with their status, its OUTPUT tensors undefined. -/
theorem State.runChecked_fail {st : Nat}
    (run : s.runStages ⟨c, h, p.clusterFirst.toNat, p.clusterCount.toNat⟩ g.tensors g.stages = (t, .fail st)) :
    s.runChecked h p g c = (t.forgetOutputs g st).fail st := by
  simp only [State.runChecked, entered, run]

end Checked

/-! ## RUN_PROGRAM (R110, R112) -/

/-- An unbound command gathers on no site, so it claims none. -/
theorem State.claimSites_unbound {s : State} {h : Hdr} (unbound : h.bound = false) (g : Program) : s.claimSites h g = some s := by
  have none_ : s.gatherSites h g = [] := List.filter_eq_nil_iff.2 fun x _ => by simp [State.gathers, unbound]
  unfold State.claimSites
  rw [none_]
  rfl

theorem State.spanFault_hbm {a n : Nat} (fits : a + n ≤ hbmEnd) (low : a < hbmEnd) (s : State) (write : Bool) :
    s.spanFault a n write = none := by
  unfold State.spanFault
  rw [rangeSpace_hbm fits low]

section Image
variable {s : State} {h : Hdr} {p : RunParams} (sound : s.Sound) (ok : runParamsOk p = true) (inHbm : p.image.toNat + p.imageLen.toNat ≤ hbmEnd)

include ok inHbm in
/-- An image has a header, so one whose end lies in HBM begins there. -/
theorem image_lt_hbmEnd : p.image.toNat < hbmEnd := by
  simp only [runParamsOk, Bool.and_eq_true, decide_eq_true_eq] at ok
  omega

include sound ok inHbm

/-- An image that does not pass R112's checks is refused. -/
theorem State.runProgram_refused (bad : s.programOf (s.hbm.read p.image.toNat p.imageLen.toNat) p.relocs = none) (c : CmdRef) :
    s.runProgram h p c = s.fail ST_BAD_PARAM := by
  have low := image_lt_hbmEnd ok inHbm
  simp only [State.runProgram, ok, Bool.not_true, Bool.false_eq_true, if_false, State.spanFault_hbm inHbm low,
    State.readAt_sound sound inHbm low, bad]

/-- A program that passes its checks runs. -/
theorem State.runProgram_checked (unbound : h.bound = false) {g : Program}
    (good : s.programOf (s.hbm.read p.image.toNat p.imageLen.toNat) p.relocs = some g) (faultless : s.programFault h p g = none) (c : CmdRef) :
    s.runProgram h p c = s.runChecked h p g c := by
  have low := image_lt_hbmEnd ok inHbm
  simp only [State.runProgram, ok, Bool.not_true, Bool.false_eq_true, if_false, State.spanFault_hbm inHbm low,
    State.readAt_sound sound inHbm low, good, faultless, State.claimSites_unbound unbound]

end Image

/-- An unbound RUN_PROGRAM, which is no deferred command (R144), is its body. -/
theorem execRunProgram_ends {h : Hdr} {p : RunParams} {s t : State} {d : Done} (binding : s.bindingOk h .any = true) (unbound : h.bound = false)
    (body : s.runProgram h p (s.refOf h 0x20) = (t, some d)) (kept : t.oxl.missing = s.oxl.missing) :
    exec (.runProgram h p) s = .next (t.finish (s.refOf h 0x20) d).settle := by
  have direct : s.deferred h = false := by
    unfold State.deferred
    rw [unbound, Bool.and_false, Bool.false_and]
  have row : exec (.runProgram h p) s =
      done ((s.run h 0x20 .any (fun c s => s.runProgram h p c)).tieRan h p (s.deferred h)).settle := rfl
  rw [row, State.run_ends binding body kept, direct]
  rfl

/-- Settles O19: the body reads and checks the image and enters the clusters, and the command ends as the stages do; a plain program's stages
read and write HBM alone, which answers. -/
theorem programRunsItsStages : Obligations.ProgramRunsItsStages := by
  unfold Obligations.ProgramRunsItsStages
  intro h p s sound binding unbound ok inHbm unrecorded c ctx
  refine ⟨fun bad => execRunProgram_ends binding unbound (State.runProgram_refused sound ok inHbm bad c) rfl, ?_⟩
  intro g good faultless undigested unmarked free
  have body := State.runProgram_checked (h := h) sound ok inHbm unbound good faultless c
  have entered := State.enterClusters_clear sound.inject unmarked free c
  have ends {t : State} {r : Stats} (run : s.runStages ctx g.tensors g.stages = (t, .ok r)) (kept : t.oxl.missing = s.oxl.missing) :=
    execRunProgram_ends binding unbound (body.trans (State.runChecked_ok entered undigested unrecorded run)) kept
  refine ⟨fun t r run kept => ends run kept, fun t st run kept => ?_, fun plain => ?_⟩
  · exact execRunProgram_ends binding unbound (body.trans (State.runChecked_fail entered run)) (by rw [State.oxl_forgetOutputs, kept])
  · obtain ⟨t, r, run, -, kept, -⟩ := State.yields_runStages good plain sound ctx
    exact ⟨t, r, run, ends run (by rw [kept])⟩

end Sys2Proof.Machine

/-!
PROOF. SET_GRAM_TAP defines, clears and releases sites (statement GramTapSites): what DEFINE and CLEAR write in a site's region reads back, and
the DIGEST that they write last covers the header that stands there.
-/
namespace Sys2Proof.Machine

/-! ## States with other bytes in HBM and other sites -/

/-- `s` with HBM's contents and the list of sites as given. What the rows leave is stated through it, so that a fact about the rest of the state
never looks into the bytes written. -/
def State.withSites (s : State) (m : Mem) (gs : List GramSite) : State := { s with hbm := m, gram := gs }

section WithSites
variable (s : State) (m : Mem) (gs : List GramSite)

@[simp] theorem State.withSites_hbm : (s.withSites m gs).hbm = m := rfl
@[simp] theorem State.withSites_gram : (s.withSites m gs).gram = gs := rfl
@[simp] theorem State.withSites_oxl : (s.withSites m gs).oxl = s.oxl := rfl

theorem State.withSites_frame :
    s.withSites m gs = { s with hbm := (s.withSites m gs).hbm, gram := (s.withSites m gs).gram } := rfl

/-- Where the sites stay as they are, only HBM changes. -/
theorem State.withSites_frame_hbm : s.withSites m s.gram = { s with hbm := (s.withSites m s.gram).hbm } := rfl

/-- Where HBM stays as it is, only the sites change. -/
theorem State.withSites_frame_gram : s.withSites s.hbm gs = { s with gram := (s.withSites s.hbm gs).gram } := rfl

theorem State.withSites_site (t : State) (j : Nat) : (s.withSites m t.gram).site j = t.site j := rfl

theorem State.withSites_addSite (g : GramSite) : (s.withSites m s.gram).addSite g = s.withSites m (s.addSite g).gram := rfl

variable {s}

/-- A calm state stays calm with other bytes in HBM and other sites. -/
theorem State.Calm.sites (h : s.Calm) : (s.withSites m gs).Calm :=
  h.congr rfl rfl ⟨rfl, rfl⟩ rfl ⟨rfl, rfl⟩ h.flights ⟨rfl, rfl, rfl⟩ fun _ _ => rfl

theorem State.Sound.sites (h : s.Sound) : (s.withSites m gs).Sound := ⟨h.allStacks, h.poison, h.inject⟩

theorem State.own_withSites (h : s.Sound) (a : Nat) (bs : List Byte) :
    (s.withSites m gs).own a bs = s.withSites (m.write a bs) gs := State.own_sound (h.sites m gs) a bs

end WithSites

/-! ## The sites by their IDs -/

/-- `s` without the site of an ID. -/
def State.dropSite (s : State) (id : Nat) : State := s.withSites s.hbm (s.gram.filter (fun g => decide (g.id ≠ id)))

/-- A site dropped leaves its ID undefined, and the other IDs name what they named. -/
theorem State.site_dropSite (s : State) (id j : Nat) : (s.dropSite id).site j = if j = id then none else s.site j := by
  unfold State.dropSite State.site
  rw [State.withSites_gram, List.find?_filter]
  split
  · rename_i same
    exact List.find?_eq_none.2 fun g _ => by simp [same]
  · rename_i other
    congr 1
    funext g
    exact decide_eq_decide.2 ⟨fun both => of_decide_eq_true both.2, fun here => by simp [here, other]⟩

/-- A site added has its ID, and the other IDs name what they named. -/
theorem State.site_addSite (s : State) (g : GramSite) (j : Nat) : (s.addSite g).site j = if j = g.id then some g else s.site j := by
  have behind : (s.addSite g).site j = ((s.dropSite g.id).site j).or (if g.id = j then some g else none) := by
    unfold State.addSite State.site State.dropSite
    rw [State.withSites_gram, List.find?_append, List.find?_singleton]
    simp only [decide_eq_true_eq]
  rw [behind, State.site_dropSite]
  by_cases same : j = g.id
  · rw [if_pos same, if_pos same.symm, if_pos same, Option.none_or]
  · rw [if_neg same, if_neg (Ne.symm same), if_neg same, Option.or_none]

/-! ## The region of a site (R183, R184) -/

/-- Bytes of 0 written read as 0. -/
theorem Mem.get_write_zeros (m : Mem) {a n x : Nat} (lo : a ≤ x) (hi : x < a + n) : (m.write a (List.replicate n 0)).get x = 0 := by
  obtain ⟨i, rfl⟩ := Nat.exists_eq_add_of_le lo
  rw [Mem.get_write_inside _ (by rw [List.length_replicate]; omega), List.getElem_replicate]

/-- The region ends where P does. -/
theorem GramSite.base_add_size (g : GramSite) : g.base + g.size = g.pAddr + g.count * g.blockBytes := by
  unfold GramSite.size GramSite.pAddr GramSite.sAddr
  rw [Nat.mul_assoc]
  omega

theorem GramSite.header_le_pAddr (g : GramSite) : g.base + 4096 ≤ g.pAddr := Nat.le_add_right ..

/-- The header bytes 0x00 to 0x2F of a site that has gathered nothing. -/
def GramSite.fresh (g : GramSite) : List Byte := g.fixed false ++ leBytes 8 noPeriod ++ leBytes 8 noPeriod ++ leBytes 8 0

theorem GramSite.length_fixed (g : GramSite) (nonfinite : Bool) : (g.fixed nonfinite).length = 0x18 := by
  simp only [GramSite.fixed, List.length_append, length_leBytes]

theorem GramSite.length_fresh (g : GramSite) : g.fresh.length = 0x30 := by
  simp only [GramSite.fresh, List.length_append, length_leBytes, GramSite.length_fixed]

/-- A memory that holds a fresh header holds FORMAT 1, the site's ID, and COUNT 0. -/
theorem GramSite.fresh_fields {m : Mem} {g : GramSite} (whole : m.read g.base g.fresh.length = g.fresh) :
    m.read g.base 2 = leBytes 2 1 ∧ m.read (g.base + 2) 2 = leBytes 2 g.id ∧ m.read (g.base + 0x28) 8 = leBytes 8 0 := by
  obtain ⟨before, count⟩ := Mem.read_parts (p := g.fixed false ++ leBytes 8 noPeriod ++ leBytes 8 noPeriod) whole
  simp only [GramSite.fixed, List.append_assoc] at before
  obtain ⟨format, rest⟩ := Mem.read_parts before
  obtain ⟨id, -⟩ := Mem.read_parts rest
  simp only [List.length_append, length_leBytes, GramSite.length_fixed] at format id count
  exact ⟨format, id, count⟩

/-! ## What DEFINE and CLEAR write -/

/-- HBM with the fresh header of a site, its S and its P +0, and PENDING_COUNT 0; DIGEST is still to be written. -/
def Mem.emptySite (m : Mem) (g : GramSite) : Mem :=
  (((m.write g.sAddr (List.replicate (g.count * g.blockBytes) 0)).write g.base g.fresh).write g.pAddr
    (List.replicate (g.count * g.blockBytes) 0)).write (g.base + 0x40) (leBytes 8 0)

/-- HBM with the DIGEST of a site written. -/
def Mem.sealSite (m : Mem) (g : GramSite) : Mem := m.write (g.base + 0x38) (leBytes 8 (crc64 (m.read g.base 0x38)))

section Written
variable {s : State} (sound : s.Sound) (m : Mem) (gs : List GramSite) (g : GramSite)
include sound

theorem State.emptySite_withSites : ((s.withSites m gs).emptySite g).clearPending g = s.withSites (m.emptySite g) gs := by
  unfold State.clearPending State.emptySite State.ownWord
  simp only [State.own_withSites _ _ sound]
  rfl

theorem State.sealSite_withSites : (s.withSites m gs).sealSite g = s.withSites (m.sealSite g) gs := State.own_withSites m gs sound _ _

end Written

section Emptied
variable (m : Mem) (g : GramSite)

theorem Mem.emptySite_header : (m.emptySite g).read g.base g.fresh.length = g.fresh := by
  have behind := g.header_le_pAddr
  refine (Mem.read_congr fun x _ hi => ?_).trans
    (Mem.read_write (m.write g.sAddr (List.replicate (g.count * g.blockBytes) 0)) g.base g.fresh)
  rw [GramSite.length_fresh] at hi
  exact (Mem.get_write_outside _ (.inl (by omega)) _).trans (Mem.get_write_outside _ (.inl (by omega)) _)

theorem Mem.emptySite_pendingCount : (m.emptySite g).read (g.base + 0x40) 8 = leBytes 8 0 := Mem.read_leBytes ..

/-- S and P, which lie end to end, read as 0. -/
theorem Mem.emptySite_zero {x : Nat} (lo : g.sAddr ≤ x) (hi : x < g.base + g.size) : (m.emptySite g).get x = 0 := by
  rw [GramSite.base_add_size] at hi
  have inS : g.base + 4096 ≤ x := lo
  refine (Mem.get_write_outside _ (.inr (by rw [length_leBytes]; omega)) _).trans ?_
  by_cases inP : g.pAddr ≤ x
  · exact Mem.get_write_zeros _ inP hi
  · refine (Mem.get_write_outside _ (.inl (by omega)) _).trans ?_
    refine (Mem.get_write_outside _ (.inr (by rw [GramSite.length_fresh]; omega)) _).trans ?_
    exact Mem.get_write_zeros _ lo (Nat.lt_of_not_le inP)

theorem Mem.emptySite_outside {x : Nat} (out : x < g.base ∨ g.base + g.size ≤ x) : (m.emptySite g).get x = m.get x := by
  rw [GramSite.base_add_size] at out
  have behind := g.header_le_pAddr
  have sBegins : g.sAddr = g.base + 4096 := rfl
  have sEnds : g.sAddr + g.count * g.blockBytes = g.pAddr := rfl
  unfold Mem.emptySite
  rw [Mem.get_write_outside _ (by rw [length_leBytes]; omega), Mem.get_write_outside _ (by rw [List.length_replicate]; omega),
    Mem.get_write_outside _ (by rw [GramSite.length_fresh]; omega), Mem.get_write_outside _ (by rw [List.length_replicate]; omega)]

theorem Mem.sealSite_other {x : Nat} (other : x < g.base + 0x38 ∨ g.base + 0x40 ≤ x) : (m.sealSite g).get x = m.get x :=
  Mem.get_write_outside _ (by rw [length_leBytes]; omega) _

/-- A range beside DIGEST reads as before it was written. -/
theorem Mem.sealSite_read {a n : Nat} (apart : a + n ≤ g.base + 0x38 ∨ g.base + 0x40 ≤ a) : (m.sealSite g).read a n = m.read a n :=
  Mem.read_congr fun x _ _ => m.sealSite_other g (by omega)

/-- DIGEST verifies once it is written, for it covers nothing of itself. -/
theorem Mem.sealSite_digest : ofLE ((m.sealSite g).read (g.base + 0x38) 8) = crc64 ((m.sealSite g).read g.base 0x38) := by
  have reads : (m.sealSite g).read (g.base + 0x38) 8 = leBytes 8 (crc64 (m.read g.base 0x38)) := Mem.read_leBytes ..
  rw [reads, Mem.sealSite_read m g (.inl (Nat.le_refl _)), ofLE_leBytes]
  exact Nat.mod_eq_of_lt (crc64_lt _)

end Emptied

/-- In `t` the region of a site is as R185 and R187 leave it: S and P are +0, the header has FORMAT, SITE, COUNT 0 and PENDING_COUNT 0, and its
DIGEST verifies. Outside the region HBM is as in `s`. -/
def State.Cleared (s t : State) (g : GramSite) : Prop :=
  (∀ x, g.sAddr ≤ x → x < g.base + g.size → t.hbm.get x = 0) ∧ t.word g.base 2 = 1 ∧ t.word (g.base + 2) 2 = g.id % 2 ^ 16 ∧
    t.word (g.base + 0x28) 8 = 0 ∧ t.word (g.base + 0x40) 8 = 0 ∧ t.word (g.base + 0x38) 8 = crc64 (t.hbm.read g.base 0x38) ∧
    ∀ x, x < g.base ∨ g.base + g.size ≤ x → t.hbm.get x = s.hbm.get x

/-- A region emptied and sealed is cleared, whatever of it was written before. -/
theorem State.cleared_emptied {s t : State} {g : GramSite} (m : Mem)
    (outside : ∀ x, x < g.base ∨ g.base + g.size ≤ x → m.get x = s.hbm.get x) (written : t.hbm = (m.emptySite g).sealSite g) :
    s.Cleared t g := by
  have region := g.base_add_size
  have behind := g.header_le_pAddr
  obtain ⟨format, id, count⟩ := GramSite.fresh_fields (m.emptySite_header g)
  unfold State.Cleared State.word
  rw [written]
  have field {a n v : Nat} (reads : (m.emptySite g).read a n = leBytes n v) (apart : a + n ≤ g.base + 0x38 ∨ g.base + 0x40 ≤ a) :
      ofLE (((m.emptySite g).sealSite g).read a n) = v % 256 ^ n := by
    rw [Mem.sealSite_read _ _ apart, reads, ofLE_leBytes]
  refine ⟨fun x lo hi => ?_, field format (.inl (by omega)), field id (.inl (by omega)), field count (.inl (by omega)),
    field (m.emptySite_pendingCount g) (.inr (Nat.le_refl _)), Mem.sealSite_digest _ _, fun x out => ?_⟩
  · have inS : g.base + 4096 ≤ x := lo
    exact (Mem.sealSite_other _ _ (by omega)).trans (m.emptySite_zero g lo hi)
  · exact (Mem.sealSite_other _ _ (by omega)).trans ((m.emptySite_outside g out).trans (outside x out))

/-! ## The bodies -/

/-- What a DEFINE without ATTACH leaves. -/
def State.initSite (s : State) (g : GramSite) : State :=
  s.withSites (((s.hbm.write g.base (List.replicate 4096 0)).emptySite g).sealSite g) (s.addSite g).gram

theorem State.cleared_initSite (s : State) (g : GramSite) : s.Cleared (s.initSite g) g := by
  refine State.cleared_emptied (s.hbm.write g.base (List.replicate 4096 0)) (fun x out => ?_) (State.withSites_hbm ..)
  have region := g.base_add_size
  have behind := g.header_le_pAddr
  exact Mem.get_write_outside _ (by rw [List.length_replicate]; omega) _

theorem State.site_initSite (s : State) (g : GramSite) (j : Nat) : (s.initSite g).site j = if j = g.id then some g else s.site j :=
  (State.withSites_site ..).trans (s.site_addSite g j)

theorem State.defineSite_init {s : State} (sound : s.Sound) {p : GramDef} (initialises : p.attach = false)
    (free : s.siteClash (GramSite.ofDef p) = false) (c : CmdRef) :
    s.defineSite p c = (s.initSite (GramSite.ofDef p)).ok ((s.initSite (GramSite.ofDef p)).siteDigest (GramSite.ofDef p)) := by
  have zeroed (a : Nat) (bs : List Byte) : s.own a bs = s.withSites (s.hbm.write a bs) s.gram := State.own_withSites s.hbm s.gram sound a bs
  unfold State.defineSite State.initSite
  dsimp only
  rw [free, if_neg Bool.false_ne_true, initialises, if_neg Bool.false_ne_true, zeroed, State.emptySite_withSites sound,
    State.withSites_addSite, State.sealSite_withSites sound]

/-- What CLEAR leaves. -/
def State.clearedSite (s : State) (g : GramSite) : State := s.withSites ((s.hbm.emptySite g).sealSite g) s.gram

theorem State.cleared_clearedSite (s : State) (g : GramSite) : s.Cleared (s.clearedSite g) g :=
  State.cleared_emptied s.hbm (fun _ _ => rfl) (State.withSites_hbm ..)

theorem State.clearSite_defined {s : State} (sound : s.Sound) {id : Nat} {g : GramSite} (there : s.site id = some g) :
    s.clearSite id = (s.clearedSite g).ok ((s.clearedSite g).siteDigest g) := by
  have emptied : (s.emptySite g).clearPending g = s.withSites (s.hbm.emptySite g) s.gram := State.emptySite_withSites sound s.hbm s.gram g
  unfold State.clearSite State.clearedSite
  rw [there]
  dsimp only
  rw [emptied, State.sealSite_withSites sound]

theorem State.releaseSite_defined {s : State} {id : Nat} {g : GramSite} (there : s.site id = some g) :
    s.releaseSite id = (s.dropSite id).ok 0 := by
  unfold State.releaseSite
  rw [there]
  rfl

theorem State.clearSite_undefined {s : State} {id : Nat} (gone : s.site id = none) : s.clearSite id = s.fail ST_BAD_PARAM := by
  unfold State.clearSite
  rw [gone]

theorem State.releaseSite_undefined {s : State} {id : Nat} (gone : s.site id = none) : s.releaseSite id = s.fail ST_BAD_PARAM := by
  unfold State.releaseSite
  rw [gone]

/-! ## The rows -/

section Rows
variable {h : Hdr} {s : State} (calm : s.Calm) (bound : s.bindingOk h .notBound = true) (idle : s.idle = true)

include idle in
/-- A check that fails with the status that the body ends with is no different from one that passes. -/
theorem State.guard_idle_fail {b : Bool} {st st' : Nat} {body : State → Body} (ends : body s = s.fail st) :
    s.guard [(b, st), (!s.idle, st')] body = s.fail st := by
  cases b with
  | true => rfl
  | false => exact (State.guard_idle rfl idle).trans ends

include calm bound

/-- A row of SET_GRAM_TAP whose body ends with other bytes in HBM and other sites ends there. -/
theorem State.run_sites {m : Mem} {gs : List GramSite} {d : Done} {body : CmdRef → State → Body}
    (ends : body (s.refOf h 0x21) s = (s.withSites m gs, some d)) :
    done (s.run h 0x21 .notBound body).settle = .next ((s.withSites m gs).finish (s.refOf h 0x21) d) :=
  congrArg done (State.run_settle_calm bound ends (by rw [State.withSites_oxl]) (calm.sites m gs))

include idle

theorem execSetGramTapDefine_init (sound : s.Sound) {p : GramDef} (good : gramDefOk p = true) (initialises : p.attach = false)
    (free : s.siteClash (GramSite.ofDef p) = false) : exec (.setGramTapDefine h p) s =
      .next ((s.initSite (GramSite.ofDef p)).finish (s.refOf h 0x21)
        (Done.ok ((s.initSite (GramSite.ofDef p)).siteDigest (GramSite.ofDef p)))) := by
  have encoded : (!gramDefOk p) = false := by rw [good]; rfl
  exact State.run_sites calm bound ((State.guard_idle encoded idle).trans (State.defineSite_init sound initialises free _))

section Defined
variable {id : BitVec 12} {g : GramSite} (some_ : id ≠ 0) (there : s.site id.toNat = some g)
include some_ there

theorem execSetGramTapClear_defined (sound : s.Sound) : exec (.setGramTapClear h id) s =
    .next ((s.clearedSite g).finish (s.refOf h 0x21) (Done.ok ((s.clearedSite g).siteDigest g))) :=
  State.run_sites calm bound ((State.guard_idle (decide_eq_false some_) idle).trans (State.clearSite_defined sound there))

theorem execSetGramTapRelease_defined :
    exec (.setGramTapRelease h id) s = .next ((s.dropSite id.toNat).finish (s.refOf h 0x21) (Done.ok 0)) :=
  State.run_sites calm bound ((State.guard_idle (decide_eq_false some_) idle).trans (State.releaseSite_defined there))

end Defined

section Undefined
variable {id : BitVec 12} (gone : s.site id.toNat = none)
include gone

theorem execSetGramTapClear_undefined :
    exec (.setGramTapClear h id) s = .next (s.finish (s.refOf h 0x21) ⟨ST_BAD_PARAM, 0, 0⟩) :=
  congrArg done (State.run_settle_calm bound (State.guard_idle_fail idle (State.clearSite_undefined gone)) rfl calm)

theorem execSetGramTapRelease_undefined :
    exec (.setGramTapRelease h id) s = .next (s.finish (s.refOf h 0x21) ⟨ST_BAD_PARAM, 0, 0⟩) :=
  congrArg done (State.run_settle_calm bound (State.guard_idle_fail idle (State.releaseSite_undefined gone)) rfl calm)

end Undefined
end Rows

/-- Settles O18: DEFINE and CLEAR empty the region and seal its header, DEFINE and RELEASE change the sites by one ID, and a body that finds no
site refuses. -/
theorem gramTapSites : Obligations.GramTapSites := by
  unfold Obligations.GramTapSites
  intro h s calm sound bound idle
  refine ⟨fun p good initialises free => ?_, fun id g some_ there _ => ⟨?_, ?_⟩, fun id gone => ⟨?_, ?_⟩⟩
  · have site (j : Nat) := s.site_initSite (GramSite.ofDef p) j
    exact ⟨_, execSetGramTapDefine_init calm bound idle sound good initialises free, State.cleared_initSite s _,
      (site _).trans (if_pos rfl), fun j other => (site j).trans (if_neg other), State.withSites_frame ..⟩
  · exact ⟨_, execSetGramTapClear_defined calm bound idle some_ there sound, State.cleared_clearedSite s g, State.withSites_frame_hbm ..⟩
  · have site (j : Nat) := s.site_dropSite id.toNat j
    exact ⟨_, execSetGramTapRelease_defined calm bound idle some_ there, (site _).trans (if_pos rfl),
      fun j other => (site j).trans (if_neg other), State.withSites_frame_gram ..⟩
  · exact execSetGramTapClear_undefined calm bound idle gone
  · exact execSetGramTapRelease_undefined calm bound idle gone

end Sys2Proof.Machine

/-!
PROOF. LOAD_PARSE loads and unloads parse tables (statement ParseTablesLoad): what its sub-operations make of the list of loaded tables.
-/
namespace Sys2Proof.Machine

/-! ## Lists by a key -/

/-- In a list without the elements of a key, that key names none, and the others name what they named. -/
theorem find?_filter_key {α : Type} (key : α → Nat) (l : List α) (i j : Nat) :
    (l.filter (fun x => decide (key x ≠ i))).find? (fun x => decide (key x = j)) =
      if j = i then none else l.find? (fun x => decide (key x = j)) := by
  rw [List.find?_filter]
  split
  · rename_i same
    exact List.find?_eq_none.2 fun x _ => by simp [same]
  · rename_i other
    congr 1
    funext x
    exact decide_eq_decide.2 ⟨fun both => of_decide_eq_true both.2, fun here => by simp [here, other]⟩

/-! ## The loaded tables by their IDs (R235) -/

/-- `s` without the table of an ID. -/
def State.dropTable (s : State) (id : Nat) : State := s.setTables (s.cj.tables.filter (fun t => decide (t.id ≠ id)))

/-- `s` with a table loaded under its ID, in place of what was loaded there. -/
def State.loadTable (s : State) (p : ParseRef) : State := s.setTables (s.cj.tables.filter (fun t => decide (t.id ≠ p.id)) ++ [p])

theorem State.parseTable_dropTable (s : State) (id j : Nat) :
    (s.dropTable id).parseTable j = if j = id then none else s.parseTable j := find?_filter_key ParseRef.id s.cj.tables id j

theorem State.parseTable_loadTable (s : State) (p : ParseRef) (j : Nat) :
    (s.loadTable p).parseTable j = if j = p.id then some p else s.parseTable j := by
  have behind : (s.loadTable p).parseTable j = ((s.dropTable p.id).parseTable j).or (if p.id = j then some p else none) := by
    unfold State.parseTable State.loadTable State.dropTable
    rw [State.setTables_cj, List.find?_append, List.find?_singleton]
    simp only [decide_eq_true_eq]
  rw [behind, State.parseTable_dropTable]
  by_cases same : j = p.id
  · rw [if_pos same, if_pos same.symm, if_pos same, Option.none_or]
  · rw [if_neg same, if_neg (Ne.symm same), if_neg same, Option.or_none]

/-- A calm state stays calm with other bytes in HBM and another state of the Conjugator. -/
theorem State.Calm.conjugator {s : State} (h : s.Calm) (m : Mem) (cj : CjState) : ({ s with hbm := m, cj := cj } : State).Calm :=
  h.congr rfl rfl ⟨rfl, rfl⟩ rfl ⟨rfl, rfl⟩ h.flights ⟨rfl, rfl, rfl⟩ fun _ _ => rfl

/-! ## The bodies -/

section Load
variable {s : State} (sound : s.Sound) {a n : Nat} (some_ : 1 ≤ n) (inHbm : a + n ≤ hbmEnd)
include sound some_ inHbm

theorem State.loadParse_good (id : Nat) (good : parseOk (s.hbm.read a n) n = true) (c : CmdRef) :
    s.loadParse id a n c = (s.loadTable ⟨id, a, n, false⟩).ok (fingerprint (s.hbm.read a n)) :=
  (State.reading_sound sound inHbm (by omega) c _).trans (if_pos good)

theorem State.loadParse_bad (id : Nat) (bad : parseOk (s.hbm.read a n) n = false) (c : CmdRef) : s.loadParse id a n c = s.fail ST_BAD_PARAM :=
  (State.reading_sound sound inHbm (by omega) c _).trans (if_neg (by rw [bad]; decide))

end Load

theorem State.unloadParse_loaded {s : State} {id : Nat} {p : ParseRef} (loaded : s.parseTable id = some p) :
    s.unloadParse id = (s.dropTable id).ok 0 := by
  unfold State.unloadParse
  rw [loaded]
  rfl

theorem State.unloadParse_unloaded {s : State} {id : Nat} (unloaded : s.parseTable id = none) : s.unloadParse id = s.fail ST_BAD_PARAM := by
  unfold State.unloadParse
  rw [unloaded]

/-! ## The rows -/

section Rows
variable {h : Hdr} {s : State} {id : BitVec 12} (calm : s.Calm) (bound : s.bindingOk h .notBound = true) (idle : s.idle = true) (some_ : id ≠ 0)
include calm bound idle some_

/-- A LOAD whose parameters are encoded right ends as its body does. -/
theorem execLoadParseLoad_ends {a : BitVec 48} {n : BitVec 32} (aligned : a.toNat % 64 = 0) (short : n.toNat ≤ 0x4000000)
    (inHbm : a.toNat + n.toNat ≤ hbmEnd) {cj : CjState} {d : Done}
    (body : s.loadParse id.toNat a.toNat n.toNat (s.refOf h 0x40) = ({ s with cj := cj }, some d)) :
    exec (.loadParseLoad h id a n) s = .next (({ s with cj := cj } : State).finish (s.refOf h 0x40) d) := by
  have encoded : ¬ (id = 0 ∨ a.toNat % 64 ≠ 0 ∨ 0x4000000 < n.toNat ∨ hbmEnd < a.toNat + n.toNat) := by
    rintro (zero | _ | _ | _)
    · exact some_ zero
    all_goals omega
  exact congrArg done (State.run_settle_calm bound ((State.guard_idle (decide_eq_false encoded) idle).trans body) rfl (calm.conjugator s.hbm cj))

/-- UNLOAD ends as its body does. -/
theorem execLoadParseUnload_ends {cj : CjState} {d : Done} (body : s.unloadParse id.toNat = ({ s with cj := cj }, some d)) :
    exec (.loadParseUnload h id) s = .next (({ s with cj := cj } : State).finish (s.refOf h 0x40) d) :=
  congrArg done (State.run_settle_calm bound ((State.guard_idle (decide_eq_false some_) idle).trans body) rfl (calm.conjugator s.hbm cj))

end Rows

/-- Settles O22: LOAD and UNLOAD change the loaded tables by one ID, and a LOAD of a bad image or an UNLOAD of nothing changes none. -/
theorem parseTablesLoad : Obligations.ParseTablesLoad := by
  unfold Obligations.ParseTablesLoad
  intro h id s calm sound bound idle some_
  refine ⟨fun a n aligned long short inHbm => ⟨fun good => ?_, fun bad => ?_⟩, fun unloaded => ?_, fun p loaded => ?_⟩
  · have table (j : Nat) := s.parseTable_loadTable ⟨id.toNat, a.toNat, n.toNat, false⟩ j
    exact ⟨_, execLoadParseLoad_ends calm bound idle some_ aligned short inHbm (State.loadParse_good sound long inHbm id.toNat good _),
      (table _).trans (if_pos rfl), fun j other => (table j).trans (if_neg other), rfl⟩
  · exact execLoadParseLoad_ends calm bound idle some_ aligned short inHbm (State.loadParse_bad sound long inHbm id.toNat bad _)
  · exact execLoadParseUnload_ends calm bound idle some_ (State.unloadParse_unloaded unloaded)
  · have table (j : Nat) := s.parseTable_dropTable id.toNat j
    exact ⟨_, execLoadParseUnload_ends calm bound idle some_ (State.unloadParse_loaded loaded),
      (table _).trans (if_pos rfl), fun j other => (table j).trans (if_neg other), rfl⟩

end Sys2Proof.Machine

/-!
PROOF. ROOT_TABLE sets up, writes, reads and invalidates entries (statement RootTable): the fields of an entry's bytes, a run of entries
written one after the other, and the sub-operations that write such a run.
-/
namespace Sys2Proof.Machine

/-! ## Fields of a byte list -/

/-- A field within the front of a list depends on that front only. -/
theorem leAt_congr {b b' : List Byte} {k off n : Nat} (front : b'.take k = b.take k) (within : off + n ≤ k) : leAt b' off n = leAt b off n := by
  have cut (l : List Byte) : (l.drop off).take n = ((l.take k).drop off).take n := by
    rw [List.drop_take, List.take_take, Nat.min_eq_left (by omega)]
  unfold leAt
  rw [cut, front, ← cut]

/-- A field behind the front of a list is the rest's. -/
theorem leAt_append (l r : List Byte) (off n : Nat) : leAt (l ++ r) (l.length + off) n = leAt r off n := by
  unfold leAt
  rw [List.drop_length_add_append]

section Overlay
variable {b v : List Byte} {off : Nat}

theorem length_overlay (fits : off + v.length ≤ b.length) : (overlay b off v).length = b.length := by
  simp only [overlay, List.length_append, List.length_take, List.length_drop]
  omega

theorem take_overlay {k : Nat} (before : k ≤ off) (fits : off ≤ b.length) : (overlay b off v).take k = b.take k := by
  have there : k ≤ (b.take off).length := by rw [List.length_take]; omega
  rw [overlay, List.append_assoc, List.take_append_of_le_length there, List.take_take, Nat.min_eq_left before]

/-- The field that a list is overlaid with reads back. -/
theorem leAt_overlay (fits : off ≤ b.length) : leAt (overlay b off v) off v.length = ofLE v := by
  have front : (b.take off).length + 0 = off := by rw [List.length_take]; omega
  have field := leAt_append (b.take off) (v ++ b.drop (off + v.length)) 0 v.length
  rw [front, ← List.append_assoc] at field
  refine field.trans ?_
  rw [leAt, List.drop_zero, List.take_left]

end Overlay

/-! ## A sealed entry (R196) -/

section Seal
variable {b : List Byte} (whole : b.length = 128)
include whole

theorem length_rtSeal : (rtSeal b).length = 128 := by
  rw [rtSeal, List.length_append, List.length_take, length_leBytes]
  omega

/-- Sealing an entry changes its DIGEST only. -/
theorem take_rtSeal {k : Nat} (before : k ≤ 0x78) : (rtSeal b).take k = b.take k := by
  have there : k ≤ (b.take 0x78).length := by rw [List.length_take]; omega
  rw [rtSeal, List.take_append_of_le_length there, List.take_take, Nat.min_eq_left before]

theorem leAt_rtSeal {off n : Nat} (before : off + n ≤ 0x78) : leAt (rtSeal b) off n = leAt b off n :=
  leAt_congr (take_rtSeal whole before) (Nat.le_refl _)

theorem rtDigestOk_rtSeal : rtDigestOk (rtSeal b) = true := by
  have front : (b.take 0x78).length + 0 = 0x78 := by rw [List.length_take]; omega
  have digest : leAt (rtSeal b) 0x78 8 = crc64 (b.take 0x78) := by
    have field := leAt_append (b.take 0x78) (leBytes 8 (crc64 (b.take 0x78))) 0 8
    rw [front] at field
    refine field.trans ?_
    rw [leAt, List.drop_zero, List.take_of_length_le (by rw [length_leBytes]), ofLE_leBytes]
    exact Nat.mod_eq_of_lt (crc64_lt _)
  unfold rtDigestOk
  rw [digest, take_rtSeal whole (Nat.le_refl _)]
  exact decide_eq_true rfl

end Seal

/-! ## The entries that the sub-operations write -/

theorem length_emptyRoot : emptyRoot.length = 128 := length_overlay (by rw [length_leBytes, List.length_replicate]; omega)

theorem take_emptyRoot : emptyRoot.take 0x70 = List.replicate 0x70 0 :=
  (take_overlay (Nat.le_refl _) (by rw [List.length_replicate]; omega)).trans List.take_replicate

theorem period_emptyRoot : leAt emptyRoot 0x70 6 = noPeriod := by
  have field := leAt_overlay (b := List.replicate 128 0) (v := leBytes 6 noPeriod) (off := 0x70) (by rw [List.length_replicate]; omega)
  rw [length_leBytes, ofLE_leBytes] at field
  exact field

/-- An image's entry as WRITE without KEEP makes it: the image's configuration and an empty slot state (R243). -/
def imageRoot (img : List Byte) : List Byte := img.take 0x58 ++ emptyRoot.drop 0x58

/-- An entry as INVALIDATE makes it (R243). -/
def invalidRoot (b : List Byte) : List Byte :=
  rtSetPeriod (rtSetMiss (rtSetFlags b (rtCurrent b) (rtCommitted b) false false (rtPublished b)) 0) noPeriod

section Image
variable {img : List Byte} (whole : img.length = 128)
include whole

theorem length_imageRoot : (imageRoot img).length = 128 := by
  rw [imageRoot, List.length_append, List.length_take, List.length_drop, length_emptyRoot]
  omega

theorem take_imageRoot : (imageRoot img).take 0x58 = img.take 0x58 := List.take_left' (by rw [List.length_take]; omega)

/-- The slot state of an image's entry is that of an empty one. -/
theorem leAt_imageRoot (off n : Nat) : leAt (imageRoot img) (0x58 + off) n = leAt (emptyRoot.drop 0x58) off n := by
  have front : (img.take 0x58).length = 0x58 := by rw [List.length_take]; omega
  have field := leAt_append (img.take 0x58) (emptyRoot.drop 0x58) off n
  rwa [front] at field

end Image

/-- A flag byte made without the VALID bits has neither. -/
theorem flagByte_invalid {cur com : Nat} (hcur : cur < 2) (hcom : com < 2) (pub : Bool) :
    bit ((cur + 2 * com + 4 * flag false + 8 * flag false + 16 * flag pub) % 256) 2 = false ∧
      bit ((cur + 2 * com + 4 * flag false + 8 * flag false + 16 * flag pub) % 256) 3 = false := by
  cases pub <;> simp only [bit, flag, beq_eq_false_iff_ne, Bool.false_eq_true, if_false, if_true] <;> omega

section Invalid
variable {b : List Byte} (whole : b.length = 128)
include whole

theorem length_rtSetFlags (cur com : Nat) (v0 v1 pub : Bool) : (rtSetFlags b cur com v0 v1 pub).length = 128 :=
  (length_overlay (by rw [length_leBytes]; omega)).trans whole

theorem length_rtSetMiss (n : Nat) : (rtSetMiss b n).length = 128 := (length_overlay (by rw [length_leBytes]; omega)).trans whole

theorem length_rtSetPeriod (n : Nat) : (rtSetPeriod b n).length = 128 := (length_overlay (by rw [length_leBytes]; omega)).trans whole

theorem rtFlags_rtSetFlags (cur com : Nat) (v0 v1 pub : Bool) : rtFlags (rtSetFlags b cur com v0 v1 pub) =
    (cur + 2 * com + 4 * flag v0 + 8 * flag v1 + 16 * flag pub) % 256 := by
  have field := leAt_overlay (b := b) (v := leBytes 1 (cur + 2 * com + 4 * flag v0 + 8 * flag v1 + 16 * flag pub)) (off := 0x68) (by omega)
  rwa [length_leBytes, ofLE_leBytes] at field

theorem rtMiss_rtSetMiss (n : Nat) : rtMiss (rtSetMiss b n) = n % 256 := by
  have field := leAt_overlay (b := b) (v := leBytes 1 n) (off := 0x69) (by omega)
  rwa [length_leBytes, ofLE_leBytes] at field

theorem length_invalidRoot : (invalidRoot b).length = 128 := length_rtSetPeriod (length_rtSetMiss (length_rtSetFlags whole ..) _) _

/-- An invalidated entry keeps its configuration. -/
theorem take_invalidRoot : (invalidRoot b).take 0x68 = b.take 0x68 := by
  have flags := length_rtSetFlags whole (rtCurrent b) (rtCommitted b) false false (rtPublished b)
  have miss := length_rtSetMiss flags 0
  rw [invalidRoot, rtSetPeriod, take_overlay (by omega) (by omega), rtSetMiss, take_overlay (by omega) (by omega), rtSetFlags,
    take_overlay (by omega) (by omega)]

/-- An invalidated entry has no valid slot and has missed nothing. -/
theorem invalidRoot_slots : bit (rtFlags (invalidRoot b)) 2 = false ∧ bit (rtFlags (invalidRoot b)) 3 = false ∧ rtMiss (invalidRoot b) = 0 := by
  have flags := length_rtSetFlags whole (rtCurrent b) (rtCommitted b) false false (rtPublished b)
  have miss := length_rtSetMiss flags 0
  have period : (invalidRoot b).take 0x70 =
      (rtSetMiss (rtSetFlags b (rtCurrent b) (rtCommitted b) false false (rtPublished b)) 0).take 0x70 := take_overlay (Nat.le_refl _) (by omega)
  have kept : rtFlags (invalidRoot b) = rtFlags (rtSetFlags b (rtCurrent b) (rtCommitted b) false false (rtPublished b)) :=
    (leAt_congr period (by omega)).trans (leAt_congr (take_overlay (Nat.le_refl _) (by omega)) (Nat.le_refl _))
  have current : rtCurrent b < 2 := Nat.mod_lt _ Nat.two_pos
  obtain ⟨slot0, slot1⟩ := flagByte_invalid current (bits_lt (rtFlags b) 1 1) (rtPublished b)
  rw [kept, rtFlags_rtSetFlags whole]
  exact ⟨slot0, slot1, (leAt_congr period (by omega)).trans (rtMiss_rtSetMiss flags 0)⟩

end Invalid

/-! ## A run of entries written one after the other -/

theorem State.length_rootBytes (s : State) (e : Nat) : (s.rootBytes e).length = 128 := Mem.length_read ..

/-- `t` is `s` with the entries `e` to `e + n - 1` sealed as `f` makes them of their place in the run and of what they were. -/
structure State.WritesRoots (s t : State) (e n : Nat) (f : Nat → List Byte → List Byte) : Prop where
  frame   : t = { s with hbm := t.hbm }
  entries : ∀ i < n, t.rootBytes (e + i) = rtSeal (f i (s.rootBytes (e + i)))
  outside : ∀ x, x < s.rootAddr e ∨ s.rootAddr (e + n) ≤ x → t.hbm.get x = s.hbm.get x

theorem State.rootAddr_add (s : State) (e n : Nat) : s.rootAddr (e + n) = s.rootAddr e + 128 * n := by
  rw [State.rootAddr, State.rootAddr, Nat.mul_add, Nat.add_assoc]

/-- Writing entries one after the other writes each of them, for none reaches into another. -/
theorem State.writesRoots_foldl {s : State} (sound : s.Sound) (e n : Nat) {f : Nat → List Byte → List Byte}
    (whole : ∀ i b, b.length = 128 → (f i b).length = 128) :
    s.WritesRoots ((List.range n).foldl (fun (s : State) i => s.putRoot (e + i) (f i (s.rootBytes (e + i)))) s) e n f := by
  induction n with
  | zero => exact ⟨rfl, fun i none => absurd none (Nat.not_lt_zero i), fun _ _ => rfl⟩
  | succ n ih =>
    rw [List.range_succ, List.foldl_append, List.foldl_cons, List.foldl_nil]
    generalize (List.range n).foldl (fun (s : State) i => s.putRoot (e + i) (f i (s.rootBytes (e + i)))) s = t at ih
    obtain ⟨frame, entries, outside⟩ := ih
    have places (k : Nat) : t.rootAddr k = s.rootAddr k := by rw [frame]; rfl
    have still : t.Sound := by rw [frame]; exact ⟨sound.allStacks, sound.poison, sound.inject⟩
    have next : t.rootBytes (e + n) = s.rootBytes (e + n) := by
      unfold State.rootBytes
      rw [places]
      exact Mem.read_congr fun x lo _ => outside x (.inr lo)
    have size : (rtSeal (f n (s.rootBytes (e + n)))).length = 128 := length_rtSeal (whole n _ (s.length_rootBytes _))
    have written : t.putRoot (e + n) (f n (t.rootBytes (e + n))) =
        { t with hbm := t.hbm.write (s.rootAddr (e + n)) (rtSeal (f n (s.rootBytes (e + n)))) } := by
      rw [State.putRoot, next, places, State.own_sound still]
    rw [written]
    refine ⟨by rw [frame], fun i within => ?_, fun x out => ?_⟩
    · change Mem.read (t.hbm.write _ _) (t.rootAddr (e + i)) 128 = _
      rw [places]
      rcases Nat.lt_succ_iff_lt_or_eq.1 within with earlier | rfl
      · refine Eq.trans (Mem.read_congr fun x _ hi => Mem.get_write_outside _ (.inl ?_) _) ((congrArg (t.hbm.read · 128) (places _).symm).trans
          (entries i earlier))
        rw [State.rootAddr_add] at hi ⊢
        omega
      · have reads := Mem.read_write t.hbm (s.rootAddr (e + i)) (rtSeal (f i (s.rootBytes (e + i))))
        rwa [size] at reads
    · rw [State.rootAddr_add] at out
      refine (Mem.get_write_outside _ ?_ _).trans (outside x ?_)
      · rw [size, State.rootAddr_add]
        omega
      · rw [State.rootAddr_add]
        omega

section Written
variable {s t : State} {e n : Nat} {f : Nat → List Byte → List Byte} (h : s.WritesRoots t e n f)
  (whole : ∀ i b, b.length = 128 → (f i b).length = 128)
include h

/-- A calm state stays calm. -/
theorem State.WritesRoots.calm (calm : s.Calm) : t.Calm := by
  rw [h.frame]
  exact calm.conjugator _ s.cj

include whole

/-- Every entry of the run verifies, and before its DIGEST is as `f` made it. -/
theorem State.WritesRoots.entry {i : Nat} (within : i < n) : rtDigestOk (t.rootBytes (e + i)) = true ∧
    (∀ k ≤ 0x78, (t.rootBytes (e + i)).take k = (f i (s.rootBytes (e + i))).take k) ∧
    ∀ off k, off + k ≤ 0x78 → leAt (t.rootBytes (e + i)) off k = leAt (f i (s.rootBytes (e + i))) off k := by
  have size := whole i _ (s.length_rootBytes (e + i))
  rw [h.entries i within]
  exact ⟨rtDigestOk_rtSeal size, fun k before => take_rtSeal size before, fun off k before => leAt_rtSeal size before⟩

end Written

/-! ## A range of memory in pieces -/

theorem piecesAux_read (m : Mem) {k n fuel : Nat} (some_ : 0 < k) (enough : n ≤ fuel) (a : Nat) :
    piecesAux k fuel (m.read a (k * n)) = (List.range n).map (fun i => m.read (a + k * i) k) := by
  induction n generalizing a fuel with
  | zero => cases fuel <;> rfl
  | succ n ih =>
    obtain ⟨fuel, rfl⟩ : ∃ g, fuel = g + 1 := ⟨fuel - 1, by omega⟩
    have reaches : k ≤ k * (n + 1) := Nat.le_mul_of_pos_right k n.succ_pos
    have cut : piecesAux k (fuel + 1) (m.read a (k * (n + 1))) =
        (m.read a (k * (n + 1))).take k :: piecesAux k fuel ((m.read a (k * (n + 1))).drop k) := by
      have filled : (m.read a (k * (n + 1))).length ≠ 0 := by rw [Mem.length_read]; omega
      cases bytes : m.read a (k * (n + 1)) with
      | nil => exact absurd (by rw [bytes]; rfl) filled
      | cons b bs => rfl
    have rest : k * (n + 1) - k = k * n := by rw [Nat.mul_succ, Nat.add_sub_cancel]
    rw [cut, Mem.take_read m a reaches, Mem.drop_read m a reaches, rest, ih (by omega), List.range_succ_eq_map, List.map_cons, List.map_map]
    refine congrArg₂ List.cons (by rw [Nat.mul_zero, Nat.add_zero]) (List.map_congr_left fun i _ => ?_)
    rw [Function.comp_apply, Nat.succ_eq_add_one, Nat.mul_succ, Nat.add_comm (k * i) k, Nat.add_assoc]

/-- A range of whole pieces, piece by piece. -/
theorem pieces_read (m : Mem) (a n : Nat) : pieces 128 (m.read a (128 * n)) = (List.range n).map (fun i => m.read (a + 128 * i) 128) :=
  piecesAux_read m (by decide) (by rw [Mem.length_read]; omega) a

theorem flatMap_pieces_read (m : Mem) (a n : Nat) : (pieces 128 (m.read a (128 * n))).flatMap id = m.read a (128 * n) := by
  rw [pieces_read]
  induction n with
  | zero => rfl
  | succ n ih => rw [List.range_succ, List.map_append, List.flatMap_append, ih, Nat.mul_succ, Mem.read_add, List.map_singleton,
      List.flatMap_singleton, id]

theorem zipIdx_map_range {α : Type} (f : Nat → α) (n : Nat) : ((List.range n).map f).zipIdx = (List.range n).map (fun i => (f i, i)) :=
  List.ext_getElem (by simp) fun i _ _ => by simp

/-! ## The bodies (R243, R244) -/

section Bodies
variable {s : State} (sound : s.Sound)
include sound

theorem State.rootSetup_init (count address : Nat) (c : CmdRef) : ∃ t : State,
    s.rootSetup false count address c = t.ok (t.rootDigest 0 count) ∧
      (s.adoptRoots address count).WritesRoots t 0 count (fun _ _ => emptyRoot) := by
  have adopted : (s.adoptRoots address count).Sound := by
    refine ⟨?_, sound.poison, sound.inject⟩
    exact (State.get_put_other (by decide) _ _).trans ((State.get_put_other (by decide) _ _).trans sound.allStacks)
  have written := State.writesRoots_foldl adopted 0 count (f := fun _ _ => emptyRoot) fun _ _ _ => length_emptyRoot
  simp only [Nat.zero_add] at written
  exact ⟨_, rfl, written⟩

theorem State.rootInvalidate_writes (e n : Nat) : ∃ t : State,
    s.rootInvalidate e n = t.ok (t.rootDigest e n) ∧ s.WritesRoots t e n (fun _ => invalidRoot) := by
  refine ⟨_, ?_, State.writesRoots_foldl sound e n (f := fun _ => invalidRoot) fun _ _ whole => length_invalidRoot whole⟩
  rfl

section Write
variable {a n : Nat} (low : a < hbmEnd) (inHbm : a + 128 * n ≤ hbmEnd) (e : Nat) (c : CmdRef)
include low inHbm

theorem State.rootWrite_good (good : ((List.range n).all fun i => rtImageOk (s.hbm.read (a + 128 * i) 128)) = true) : ∃ t : State,
    s.rootWrite false e n a c = t.ok (t.rootDigest e n) ∧
      s.WritesRoots t e n (fun i _ => imageRoot (s.hbm.read (a + 128 * i) 128)) := by
  refine ⟨_, ?_, State.writesRoots_foldl sound e n fun _ _ _ => length_imageRoot (Mem.length_read ..)⟩
  have passes : (pieces 128 (s.hbm.read a (128 * n))).all rtImageOk = true := by rw [pieces_read, List.all_map]; exact good
  unfold State.rootWrite
  rw [State.spanFault_hbm inHbm low]
  dsimp only
  rw [State.reading_sound sound inHbm low, passes]
  refine (if_neg Bool.false_ne_true).trans ?_
  rw [pieces_read, zipIdx_map_range, List.foldl_map]
  rfl

theorem State.rootWrite_bad (bad : ((List.range n).all fun i => rtImageOk (s.hbm.read (a + 128 * i) 128)) = false) :
    s.rootWrite false e n a c = s.fail ST_BAD_PARAM := by
  have fails : (pieces 128 (s.hbm.read a (128 * n))).all rtImageOk = false := by rw [pieces_read, List.all_map]; exact bad
  unfold State.rootWrite
  rw [State.spanFault_hbm inHbm low]
  dsimp only
  rw [State.reading_sound sound inHbm low, fails]
  exact if_pos rfl

/-- READ stores the entries as they stand where none has changed since the last commit. -/
theorem State.rootRead_unchanged (unchanged : s.cj.snaps = []) : s.rootRead e n a c =
    (s.stored a (s.hbm.read (s.rootAddr e) (128 * n)) (some c)).ok (crc64 (s.hbm.read (s.rootAddr e) (128 * n))) := by
  unfold State.rootRead
  rw [State.readingTable_sound sound]
  simp only [unchanged, List.find?_nil, List.zipIdx_map_fst, flatMap_pieces_read]
  exact State.writing_sound sound (by rw [Mem.length_read]; exact inHbm) low c _

end Write
end Bodies

/-! ## What a run of entries written leaves, for each sub-operation -/

/-- SETUP's registers read back, and the others read as before. -/
theorem State.get_adoptRoots {s : State} {address count : Nat} (haddr : address < 2 ^ 48) (hcount : count < 2 ^ 16) :
    (s.adoptRoots address count).get F.CJ_ROOT_BASE_BASE = address ∧ (s.adoptRoots address count).get F.CJ_ROOT_COUNT_COUNT = count ∧
      s.sameRegs (s.adoptRoots address count) [F.CJ_ROOT_BASE_BASE, F.CJ_ROOT_COUNT_COUNT] :=
  ⟨(State.get_put_other (by decide) _ _).trans ((State.get_put_same ..).trans (Nat.mod_eq_of_lt haddr)),
    (State.get_put_same ..).trans (Nat.mod_eq_of_lt hcount),
    State.sameRegs_put (State.sameRegs_put (fun _ _ => rfl) (by simp) address) (by simp) count⟩

section Left
variable {s t : State} {e n i : Nat} (within : i < n)
include within

/-- An entry that SETUP wrote is empty, sealed and without a publication. -/
theorem State.WritesRoots.emptied (h : s.WritesRoots t e n (fun _ _ => emptyRoot)) : rtDigestOk (t.rootBytes (e + i)) = true ∧
    (t.rootBytes (e + i)).take 0x70 = List.replicate 0x70 0 ∧ leAt (t.rootBytes (e + i)) 0x70 6 = noPeriod := by
  obtain ⟨digest, front, field⟩ := h.entry (fun _ _ _ => length_emptyRoot) within
  exact ⟨digest, (front _ (by decide)).trans take_emptyRoot, (field _ _ (by decide)).trans period_emptyRoot⟩

/-- An entry that INVALIDATE wrote has its configuration, and no valid slot. -/
theorem State.WritesRoots.invalidated (h : s.WritesRoots t e n (fun _ => invalidRoot)) : rtDigestOk (t.rootBytes (e + i)) = true ∧
    rtValid (t.rootBytes (e + i)) 0 = false ∧ rtValid (t.rootBytes (e + i)) 1 = false ∧ rtMiss (t.rootBytes (e + i)) = 0 ∧
      (t.rootBytes (e + i)).take 0x68 = (s.rootBytes (e + i)).take 0x68 := by
  have size := s.length_rootBytes (e + i)
  obtain ⟨digest, front, field⟩ := h.entry (fun _ _ whole => length_invalidRoot whole) within
  obtain ⟨slot0, slot1, miss⟩ := invalidRoot_slots size
  have flags : rtFlags (t.rootBytes (e + i)) = rtFlags (invalidRoot (s.rootBytes (e + i))) := field _ _ (by decide)
  rw [rtValid, rtValid, flags]
  exact ⟨digest, slot0, slot1, (field _ _ (by decide)).trans miss, (front _ (by decide)).trans (take_invalidRoot size)⟩

/-- An entry that WRITE wrote has its image's configuration, and an empty slot state. -/
theorem State.WritesRoots.imaged {a : Nat} (h : s.WritesRoots t e n (fun i _ => imageRoot (s.hbm.read (a + 128 * i) 128))) :
    rtDigestOk (t.rootBytes (e + i)) = true ∧ (t.rootBytes (e + i)).take 0x58 = s.hbm.read (a + 128 * i) 0x58 ∧
      rtFlags (t.rootBytes (e + i)) = 0 ∧ leAt (t.rootBytes (e + i)) 0x70 6 = noPeriod := by
  have size : (s.hbm.read (a + 128 * i) 128).length = 128 := Mem.length_read ..
  obtain ⟨digest, front, field⟩ := h.entry (fun _ _ _ => length_imageRoot (Mem.length_read ..)) within
  have slot (off k : Nat) (before : 0x58 + off + k ≤ 0x78) := (field _ k before).trans (leAt_imageRoot size off k)
  have config := (front _ (by decide)).trans ((take_imageRoot size).trans (Mem.take_read _ _ (by decide)))
  exact ⟨digest, config, (slot 0x10 1 (by decide)).trans (by decide), (slot 0x18 6 (by decide)).trans (by decide)⟩

end Left

/-! ## The rows -/

/-- The registers that SETUP writes are none that calm speaks of. -/
theorem rootFields_not_calm {f : Field} (hf : f ∈ [F.CJ_ROOT_BASE_BASE, F.CJ_ROOT_COUNT_COUNT]) : ¬ calmField f := by
  have keys : ∀ f ∈ [F.CJ_ROOT_BASE_BASE, F.CJ_ROOT_COUNT_COUNT], f.key ≠ F.PC_STATUS_STATE.key ∧ f.key ≠ F.SH_HOME_VALID.key ∧
      f.key ≠ F.BW_QUEUE_DEPTH.key ∧ ∀ k < 64, f.key ≠ (F.CP_RING_STATUS_WAITING k).key := by decide
  obtain ⟨state, home, depth, waiting⟩ := keys f hf
  exact not_calmField state home depth waiting

theorem State.Calm.adoptRoots {s : State} (h : s.Calm) (address count : Nat) : (s.adoptRoots address count).Calm :=
  State.Calm.conjugator ((h.put (rootFields_not_calm (by simp)) address).put (rootFields_not_calm (by simp)) count) s.hbm _

/-- A body behind a check that fails ends with the check's status. -/
theorem State.guard_fails {s : State} {b : Bool} {st : Nat} {cs : List (Bool × Nat)} {body : State → Body} (bad : b = true) :
    s.guard ((b, st) :: cs) body = s.fail st := by
  rw [bad]
  rfl

section Rows
variable {h : Hdr} {s : State} (bound : s.bindingOk h .notBound = true)
include bound

/-- A row of ROOT_TABLE whose body ends in a calm state ends there. -/
theorem State.run_roots {t : State} {d : Done} {body : CmdRef → State → Body} (ends : body (s.refOf h 0x42) s = (t, some d))
    (kept : t.oxl = s.oxl) (after : t.Calm) : done (s.run h 0x42 .notBound body).settle = .next (t.finish (s.refOf h 0x42) d) :=
  congrArg done (State.run_settle_calm bound ends (by rw [kept]) after)

variable (calm : s.Calm)
include calm

theorem execRootTableInvalidate_beyond {e : BitVec 16} {n : BitVec 32} (beyond : s.get F.CJ_ROOT_COUNT_COUNT < e.toNat + n.toNat) :
    exec (.rootTableInvalidate h e n) s = .next (s.finish (s.refOf h 0x42) ⟨ST_BAD_PARAM, 0, 0⟩) := by
  have refused : s.rootRange e.toNat n.toNat = false := decide_eq_false (by omega)
  exact State.run_roots bound (State.guard_fails (by rw [refused]; rfl)) rfl calm

variable (sound : s.Sound) (idle : s.idle = true)
include sound idle

theorem execRootTableSetup_init {n : BitVec 32} {a : BitVec 48} (few : n.toNat ≤ 65535) (aligned : a.toNat % 4096 = 0)
    (inHbm : a.toNat + 128 * n.toNat ≤ hbmEnd) : ∃ t : State,
    exec (.rootTableSetup h false n a) s = .next (t.finish (s.refOf h 0x42) ⟨ST_OK, 0, t.rootDigest 0 n.toNat % 2 ^ 64⟩) ∧
      (s.adoptRoots a.toNat n.toNat).WritesRoots t 0 n.toNat (fun _ _ => emptyRoot) := by
  obtain ⟨t, body, written⟩ := State.rootSetup_init sound n.toNat a.toNat (s.refOf h 0x42)
  have encoded : ¬ (65535 < n.toNat ∨ a.toNat % 4096 ≠ 0 ∨ hbmEnd < a.toNat + 128 * n.toNat) := by omega
  refine ⟨t, ?_, written⟩
  exact State.run_roots bound ((State.guard_idle (decide_eq_false encoded) idle).trans body) (by rw [written.frame]; rfl)
    (written.calm (calm.adoptRoots _ _))

theorem execRootTableInvalidate_within {e : BitVec 16} {n : BitVec 32} (within : s.rootRange e.toNat n.toNat = true) : ∃ t : State,
    exec (.rootTableInvalidate h e n) s = .next (t.finish (s.refOf h 0x42) ⟨ST_OK, 0, t.rootDigest e.toNat n.toNat % 2 ^ 64⟩) ∧
      s.WritesRoots t e.toNat n.toNat (fun _ => invalidRoot) := by
  obtain ⟨t, body, written⟩ := State.rootInvalidate_writes sound e.toNat n.toNat
  refine ⟨t, ?_, written⟩
  exact State.run_roots bound ((State.guard_idle (by rw [within]; rfl) idle).trans body) (by rw [written.frame]) (written.calm calm)

end Rows

section Copies
variable {h : Hdr} {s : State} {e : BitVec 16} {n : BitVec 32} {a : BitVec 48} (bound : s.bindingOk h .notBound = true)
  (aligned : a.toNat % 64 = 0) (within : s.rootRange e.toNat n.toNat = true)
include bound aligned within

/-- WRITE with good parameters on an idle module is its body. -/
theorem execRootTableWrite_ends (idle : s.idle = true) {t : State} {d : Done}
    (body : s.rootWrite false e.toNat n.toNat a.toNat (s.refOf h 0x42) = (t, some d)) (kept : t.oxl = s.oxl) (after : t.Calm) :
    exec (.rootTableWrite h false e n a) s = .next (t.finish (s.refOf h 0x42) d) := by
  have encoded : (decide (a.toNat % 64 ≠ 0) || !s.rootRange e.toNat n.toNat) = false := by
    rw [decide_eq_false (not_not.2 aligned), within]
    rfl
  exact State.run_roots bound ((State.guard_idle encoded idle).trans body) kept after

theorem execRootTableRead_unchanged (sound : s.Sound) (low : a.toNat < hbmEnd) (inHbm : a.toNat + 128 * n.toNat ≤ hbmEnd)
    (unchanged : s.cj.snaps = []) : exec (.rootTableRead h e n a) s =
      .next (((s.stored a.toNat (s.hbm.read (s.rootAddr e.toNat) (128 * n.toNat)) (some (s.refOf h 0x42))).finish (s.refOf h 0x42)
        ⟨ST_OK, 0, crc64 (s.hbm.read (s.rootAddr e.toNat) (128 * n.toNat)) % 2 ^ 64⟩).settle) := by
  have encoded : (decide (a.toNat % 64 ≠ 0) || !writable a.toNat (128 * n.toNat) || !s.rootRange e.toNat n.toNat) = false := by
    rw [decide_eq_false (not_not.2 aligned), writable_hbm inHbm low, within]
    rfl
  exact congrArg (fun u : State => done u.settle) (State.run_ends bound
    ((State.guard_single encoded).trans (State.rootRead_unchanged sound low inHbm _ _ unchanged)) (by rw [State.stored_oxl]))

end Copies

/-- Settles O23: SETUP, INVALIDATE and WRITE each write a run of sealed entries, and READ copies one. -/
theorem rootTable : Obligations.RootTable := by
  unfold Obligations.RootTable
  refine ⟨fun h s calm sound bound idle => ⟨fun n a few aligned inHbm => ?_, fun e n some_ there _ => ?_,
    fun e n beyond => execRootTableInvalidate_beyond bound calm beyond⟩, fun h e n a s calm sound bound aligned some_ there inHbm _ => ?_⟩
  · obtain ⟨t, row, written⟩ := execRootTableSetup_init bound calm sound idle few aligned inHbm
    obtain ⟨base, count, others⟩ := State.get_adoptRoots (s := s) a.isLt (Nat.lt_succ_of_le few)
    have regs : t.regs = (s.adoptRoots a.toNat n.toNat).regs := by rw [written.frame]
    have get (f : Field) : t.get f = (s.adoptRoots a.toNat n.toNat).get f := by rw [State.get, regs]; rfl
    refine ⟨t, row, ?_, (get _).trans base, (get _).trans count, fun f hf => (get f).trans (others f hf), fun e within => ?_, fun x out => ?_⟩
    · rw [regs]
      exact written.frame
    · simpa only [Nat.zero_add] using written.emptied within
    · refine written.outside x ?_
      rw [State.rootAddr_add, State.rootAddr, base]
      exact out
  · have within : s.rootRange e.toNat n.toNat = true := decide_eq_true ⟨some_, there⟩
    obtain ⟨t, row, written⟩ := execRootTableInvalidate_within bound calm sound idle within
    exact ⟨t, row, written.frame, fun i inRun => written.invalidated inRun, written.outside⟩
  · have within : s.rootRange e.toNat n.toNat = true := decide_eq_true ⟨some_, there⟩
    have low : a.toNat < hbmEnd := by omega
    refine ⟨fun idle good => ?_, fun idle bad => ?_, fun unchanged => ?_⟩
    · obtain ⟨t, body, written⟩ := State.rootWrite_good sound low inHbm e.toNat (s.refOf h 0x42) good
      have row := execRootTableWrite_ends bound aligned within idle body (by rw [written.frame]) (written.calm calm)
      exact ⟨t, row, written.frame, fun i inRun => written.imaged inRun, written.outside⟩
    · exact execRootTableWrite_ends bound aligned within idle (State.rootWrite_bad sound low inHbm _ _ bad) rfl calm
    · have row := execRootTableRead_unchanged bound aligned within sound low inHbm unchanged
      refine ⟨row, fun unwatched => ⟨_, State.stores_write s a.toNat _, row.trans (congrArg done (State.settle_stored calm ?_ _ _ _))⟩⟩
      rw [Mem.length_read]
      exact unwatched

end Sys2Proof.Machine

/-!
PROOF. SOLVE admits a job that fits its Clause and refuses another (statement SolveAdmitsOrRefuses): what SOLVE's body comes to, and what the
row makes of a body that ends and of one that stays in flight.
-/
namespace Sys2Proof.Machine

/-! ## What a SOLVE that has completed leaves (R54, R218) -/

/-- Counting a submission changes no more than the list of submissions. -/
theorem State.submit_eq (s : State) (period entry : Nat) :
    s.submit period entry = { s with cj := { s.cj with submitted := (s.submit period entry).cj.submitted } } := by
  unfold State.submit
  dsimp only
  split <;> rfl

/-- An entry of the Period's record changes no more than the Period controller's own state. -/
theorem State.noteEntry_eq (s : State) (en : RecEntry) : s.noteEntry en = { s with pd := (s.noteEntry en).pd } := by
  unfold State.noteEntry
  split <;> rfl

/-- Between the end of SOLVE's body and the end of its step, only its submission and its record entry are made. -/
theorem State.solveEnded_eq (s before : State) (h : Hdr) (entry : Nat) : ∃ (pd : PdState) (xs : List Submission),
    s.solveEnded before h entry = { s with pd := pd, cj := { s.cj with submitted := xs } } := by
  unfold State.solveEnded
  split
  · split
    · dsimp only
      unfold State.noteSolve
      rw [State.noteEntry_eq]
      split
      · rw [State.submit_eq]
        exact ⟨_, _, rfl⟩
      · exact ⟨_, _, rfl⟩
    · exact ⟨_, _, rfl⟩
  · exact ⟨_, _, rfl⟩

/-- A SOLVE that stays in flight makes neither. -/
theorem State.solveEnded_inFlight {s before : State} (same : s.cp.ended = before.cp.ended) (h : Hdr) (entry : Nat) :
    s.solveEnded before h entry = s := by
  unfold State.solveEnded
  split
  · rw [same]
    exact if_neg (Nat.lt_irrefl _)
  · rfl

/-! ## The status registers (log entry 29) -/

theorem State.solverStatus_eq (s : State) : s.solverStatus = { s with regs := s.solverStatus.regs } := rfl

theorem State.get_solverStatus_admitted (s : State) : s.solverStatus.get F.CJ_STATUS_ADMITTED = s.cj.jobs.length % 256 := by
  unfold State.solverStatus
  dsimp only
  rw [State.get_put_other (by decide), State.get_put_other (by decide), State.get_put_same]
  rfl

/-! ## Admission (R240) -/

/-- The end of the bound T of a job of a table, from when its units are free. -/
def State.boundEnd (s : State) (p : Parse) : Nat :=
  max s.now (max (latest s.cj.coreFree (coresOf p.mask)) (max (latest s.cj.shareFree (earliest s.cj.shareFree p.shares))
    (latest s.cj.storeFree (earliest s.cj.storeFree (cdiv p.sharedKib 1024))))) + jobBound p (s.get F.PW_CLOCK_ARITH_MHZ)

/-- The job that SOLVE admits outside replay. -/
def State.newJob (s : State) (c : CmdRef) (clause entry : Nat) (t : ParseRef) (p : Parse) : SolveJob :=
  ⟨c, clause, entry, t, p.mask, earliest s.cj.shareFree p.shares, earliest s.cj.storeFree (cdiv p.sharedKib 1024), s.boundEnd p,
    false, false, false, false, t.spoiled⟩

/-- `s` with a job in hand and its units reserved until its bound ends. -/
def State.takeJob (s : State) (j : SolveJob) : State :=
  { s with cj := { s.cj with
      jobs := s.cj.jobs ++ [j]
      coreFree := reserve s.cj.coreFree (coresOf j.cores) j.reserved
      shareFree := reserve s.cj.shareFree j.shares j.reserved
      storeFree := reserve s.cj.storeFree j.stores j.reserved } }

section Admission
variable {s : State} (live : s.replaying = false) (c : CmdRef) (clause entry : Nat) (t : ParseRef) {p : Parse}
include live

theorem State.takeParse_fits (room : s.cj.jobs.length < 255) (fits : s.boundEnd p ≤ s.deadlineOf clause) :
    s.takeParse c clause entry t p = ((s.takeJob (s.newJob c clause entry t p)).solverStatus, none) := by
  have taken : ¬ (255 ≤ s.cj.jobs.length ∨
      (¬ (s.replaying && s.marksPublished clause c.tag) = true ∧ s.deadlineOf clause < s.boundEnd p)) := by omega
  have unmarked : (s.replaying && s.marksPublished clause c.tag) = false := by rw [live, Bool.false_and]
  unfold State.takeParse
  refine (if_neg taken).trans ?_
  rw [unmarked]
  rfl

theorem State.takeParse_late (late : s.deadlineOf clause < s.boundEnd p) : s.takeParse c clause entry t p = s.fail ST_BUDGET := by
  unfold State.takeParse
  refine if_pos (.inr ⟨?_, late⟩)
  rw [live, Bool.false_and]
  exact Bool.false_ne_true

end Admission

/-! ## The checks (R239) -/

theorem State.solve_unloaded {s : State} {parse : Nat} (unloaded : s.parseTable parse = none) (c : CmdRef) (clause entry : Nat) :
    s.solve c clause entry parse = s.fail ST_BAD_PARAM := by
  unfold State.solve
  rw [unloaded]

/-- A SOLVE that passes R239's checks comes to admission. -/
theorem State.solve_checked {s : State} {parse entry : Nat} {r : ParseRef} (sound : s.Sound) (loaded : s.parseTable parse = some r)
    (within : entry < s.get F.CJ_ROOT_COUNT_COUNT) (released : s.conjHeld = false) (single : s.jobOf entry = none)
    (agrees : s.solveAgrees (s.rootBytes entry) (Parse.of (s.hbm.read r.address 0x60)) = true)
    (unpublished : rtPublished (s.rootBytes entry) = false) (digest : rtDigestOk (s.rootBytes entry) = true)
    (cores : (Parse.of (s.hbm.read r.address 0x60)).mask &&& s.cj.withdrawn = 0) (c : CmdRef) (clause : Nat) :
    s.solve c clause entry parse = s.takeParse c clause entry r (Parse.of (s.hbm.read r.address 0x60)) := by
  unfold State.solve
  rw [loaded]
  dsimp only
  rw [if_neg (Nat.not_le.2 within), if_neg (by rw [released]; decide)]
  refine (State.readingTable_sound sound ..).trans (State.guard_pass fun x m => ?_)
  unfold State.rootBytes at agrees unpublished digest
  simp only [List.mem_cons, List.not_mem_nil, or_false] at m
  rcases m with rfl | rfl | rfl
  · simp only [agrees, unpublished, single, Bool.not_true, Option.isSome_none, Bool.or_false]
  · rw [digest]
    rfl
  · exact decide_eq_false (not_not.2 cores)

/-! ## The row -/

section Row
variable {h : Hdr} {entry : BitVec 16} {parse : BitVec 12} {s : State} (bound : s.bindingOk h (.kinds [kindRefresh]) = true)
include bound

/-- A SOLVE whose body refuses ends with its status, and no job is admitted. -/
theorem execSolve_refused {st : Nat} (body : s.solve (s.refOf h 0x41) h.clause.val entry.toNat parse.toNat = s.fail st) :
    ∃ t : State, exec (.solve h entry parse) s = .next t.settle ∧ t.cj.jobs = s.cj.jobs ∧ s.Ends t (s.refOf h 0x41) ⟨st, 0, 0⟩ := by
  obtain ⟨pd, xs, ended⟩ := (s.finish (s.refOf h 0x41) ⟨st, 0, 0⟩).solveEnded_eq s h entry.toNat
  have ran : s.run h 0x41 (.kinds [kindRefresh]) (fun c s => s.solve c h.clause.val entry.toNat parse.toNat) =
      s.finish (s.refOf h 0x41) ⟨st, 0, 0⟩ := State.run_ends bound body rfl
  refine ⟨_, congrArg (fun u : State => done (u.solveEnded s h entry.toNat).settle) ran, ?_, ?_⟩
  · rw [ended]
    rfl
  · rw [ended]
    exact ⟨_, _, _, rfl⟩

/-- A SOLVE whose body admits a job stays in flight. -/
theorem execSolve_admits {j : SolveJob}
    (body : s.solve (s.refOf h 0x41) h.clause.val entry.toNat parse.toNat = ((s.takeJob j).solverStatus, none)) :
    exec (.solve h entry parse) s = .next (s.takeJob j).solverStatus.settle := by
  have ran : s.run h 0x41 (.kinds [kindRefresh]) (fun c s => s.solve c h.clause.val entry.toNat parse.toNat) = (s.takeJob j).solverStatus := by
    unfold State.run
    exact (if_pos bound).trans ((congrArg (s.ran _) body).trans (State.ran_here (s := s) (t := (s.takeJob j).solverStatus) (d := none) rfl _))
  refine (congrArg (fun u : State => done (u.solveEnded s h entry.toNat).settle) ran).trans (congrArg (fun u : State => done u.settle) ?_)
  exact State.solveEnded_inFlight rfl h entry.toNat

end Row

/-- Settles O24: the body's checks lead to admission, which the end of the job's bound decides, and the row keeps what the body leaves. -/
theorem solveAdmitsOrRefuses : Obligations.SolveAdmitsOrRefuses := by
  unfold Obligations.SolveAdmitsOrRefuses
  intro h entry parse s sound bound
  refine ⟨fun unloaded => execSolve_refused bound (State.solve_unloaded unloaded ..), ?_⟩
  intro r loaded within released _ live room single
  dsimp only
  intro agrees unpublished digest cores
  have body := State.solve_checked sound loaded within released single agrees unpublished digest cores (s.refOf h 0x41) h.clause.val
  refine ⟨fun fits => ?_, fun late => execSolve_refused bound (body.trans (State.takeParse_late live _ _ _ _ late))⟩
  refine ⟨_, execSolve_admits bound (body.trans (State.takeParse_fits live _ _ _ _ room fits)), rfl, rfl, rfl, ?_⟩
  rw [State.get_solverStatus_admitted]
  unfold State.takeJob
  rw [List.length_append, List.length_singleton]

end Sys2Proof.Machine

/-!
PROOF. UPDATE RECOVER judges the ledger's header, and adopts one that is sealed and CLOSED (statement RecoverAdoptsTheHeader).
-/
namespace Sys2Proof.Machine

/-! ## Tables of a sound HBM -/

/-- A table of a sound HBM is read as it stands. -/
theorem State.readTable_sound {s : State} (h : s.Sound) (a n structure_ : Nat) (c : CmdRef) :
    s.readTable a n structure_ c = (s, .bytes (s.hbm.read a n)) := by
  unfold State.readTable
  rw [State.useCritical_unarmed h.inject]
  dsimp only
  rw [State.readHbm_sound h]

/-! ## What the header's registers leave as it is -/

/-- The registers that RECOVER takes from the header are none that calm speaks of. -/
theorem headerFields_not_calm {f : Field} (hf : f ∈ [F.PC_COMMITTED_COMMITTED, F.PC_CURSOR_CURSOR]) : ¬ calmField f := by
  have keys : ∀ f ∈ [F.PC_COMMITTED_COMMITTED, F.PC_CURSOR_CURSOR], f.key ≠ F.PC_STATUS_STATE.key ∧ f.key ≠ F.SH_HOME_VALID.key ∧
      f.key ≠ F.BW_QUEUE_DEPTH.key ∧ ∀ k < 64, f.key ≠ (F.CP_RING_STATUS_WAITING k).key := by decide
  obtain ⟨state, home, depth, waiting⟩ := keys f hf
  exact not_calmField state home depth waiting

theorem State.Calm.adoptHeader {s : State} (h : s.Calm) : s.adoptHeader.Calm :=
  (h.put (headerFields_not_calm (by simp)) _).put (headerFields_not_calm (by simp)) _

/-- The ledger lies where it lay. -/
theorem State.shardLedger_adoptHeader (s : State) : s.adoptHeader.shardLedger = s.shardLedger :=
  (State.get_put_other (by decide) _ _).trans (State.get_put_other (by decide) _ _)

@[simp] theorem State.adoptHeader_hbm (s : State) : s.adoptHeader.hbm = s.hbm := by rw [State.adoptHeader, State.put_hbm, State.put_hbm]

@[simp] theorem State.adoptHeader_oxl (s : State) : s.adoptHeader.oxl = s.oxl := by rw [State.adoptHeader, State.put_oxl, State.put_oxl]

theorem State.ledDigest_adoptHeader (s : State) : s.adoptHeader.ledDigest = s.ledDigest := by
  rw [State.ledDigest, State.shardLedger_adoptHeader, State.adoptHeader_hbm, State.ledDigest]

theorem State.ledOverride_adoptHeader (s : State) : s.adoptHeader.ledOverride = s.ledOverride := by
  rw [State.ledOverride, State.shardLedger_adoptHeader, State.word, State.adoptHeader_hbm]

/-- A ledger without BUDDY_OVERRIDE raises nothing. -/
theorem State.noteOverride_clear {s : State} (clear : s.ledOverride = false) (c : CmdRef) : s.noteOverride c = s :=
  if_neg (by rw [clear]; decide)

/-! ## The body (R269, R270) -/

theorem State.recoverBody_unattached {s : State} (none_ : s.tableAttached = false) (c : CmdRef) : s.recoverBody c = s.fail ST_NOT_READY :=
  State.guard_fails (by rw [none_, Bool.not_false, Bool.or_true])

section Attached
variable {s : State} (sound : s.Sound) (idle : s.idle = true) (attached : s.tableAttached = true)
include sound idle attached

/-- A header that is no whole record of a commit of these rules is refused. -/
theorem State.recoverBody_refused (bad : s.ledSealed = false ∨ s.ledPhase = 3 ∨ (s.ledPhase ≠ 1 ∧ s.ledRules ≠ s.rulesDigest)) (c : CmdRef) :
    s.recoverBody c = s.fail ST_DIGEST := by
  have kept : ¬ (s.ledSealed && decide (s.ledPhase = 1)) = true := by
    rcases bad with unsealed | phase | ⟨phase, -⟩
    · rw [unsealed]; exact Bool.false_ne_true
    · rw [phase]; simp
    · simp [phase]
  have refused : (!s.ledSealed || decide (s.ledPhase = 1 ∨ s.ledPhase = 3) || decide (s.ledRules ≠ s.rulesDigest)) = true := by
    rcases bad with unsealed | phase | ⟨-, rules⟩
    · rw [unsealed]; rfl
    · rw [decide_eq_true (Or.inr phase), Bool.or_true, Bool.true_or]
    · rw [decide_eq_true rules, Bool.or_true]
  unfold State.recoverBody
  rw [State.guard_single (by rw [idle, attached]; rfl), State.readTable_sound sound]
  dsimp only
  rw [if_neg kept]
  exact State.guard_fails refused

/-- A sealed header that is CLOSED is adopted as it stands. -/
theorem State.recoverBody_closed (sealed_ : s.ledSealed = true) (closed : s.ledPhase = 0) (rules : s.ledRules = s.rulesDigest)
    (clear : s.ledOverride = false) (c : CmdRef) : s.recoverBody c = s.adoptHeader.ok s.ledDigest := by
  have kept : ¬ (s.ledSealed && decide (s.ledPhase = 1)) = true := by rw [closed]; simp
  have accepted : (!s.ledSealed || decide (s.ledPhase = 1 ∨ s.ledPhase = 3) || decide (s.ledRules ≠ s.rulesDigest)) = false := by
    rw [sealed_, closed, decide_eq_false (not_not.2 rules)]; rfl
  unfold State.recoverBody
  rw [State.guard_single (by rw [idle, attached]; rfl), State.readTable_sound sound]
  dsimp only
  rw [if_neg kept, State.guard_single accepted, if_pos closed]
  dsimp only
  rw [State.noteOverride_clear (s.ledOverride_adoptHeader.trans clear), State.ledDigest_adoptHeader]

end Attached

/-- Settles O27: the body judges the header that stands in a sound HBM, and in a calm state the end of the step adds nothing. -/
theorem recoverAdoptsTheHeader : Obligations.RecoverAdoptsTheHeader := by
  unfold Obligations.RecoverAdoptsTheHeader
  intro h s calm sound bound idle
  have row {t : State} {d : Done} (body : s.recoverBody (s.refOf h 0x50) = (t, some d)) (kept : t.oxl = s.oxl) (after : t.Calm) :
      exec (.updateRecover h) s = .next (t.finish (s.refOf h 0x50) d) :=
    congrArg done (State.run_settle_calm (body := fun c s => s.recoverBody c) bound body (by rw [kept]) after)
  refine ⟨fun none_ => row (State.recoverBody_unattached none_ _) rfl calm, fun attached _ =>
    ⟨fun sealed_ closed rules clear => ?_, fun bad => row (State.recoverBody_refused sound idle attached bad _) rfl calm⟩⟩
  exact row (State.recoverBody_closed sound idle attached sealed_ closed rules clear _) (State.adoptHeader_oxl s) calm.adoptHeader

end Sys2Proof.Machine

/-!
PROOF. SET_RULE defines rules, attaches a table with a fresh ledger, and copies the rules' records (statement SetRuleDefines).
-/
namespace Sys2Proof.Machine

/-! ## Rules by their IDs (R251, R275) -/

/-- `s` with the record of a rule. -/
def State.withRule (s : State) (id : Nat) (b : List Byte) : State := { s with uu := { s.uu with rules := alSet id b s.uu.rules } }

theorem State.withRule_frame (s : State) (id : Nat) (b : List Byte) :
    s.withRule id b = { s with uu := { s.uu with rules := (s.withRule id b).uu.rules } } := rfl

theorem State.ruleBytes_withRule_same (s : State) (id : Nat) (b : List Byte) : (s.withRule id b).ruleBytes id = b := by
  unfold State.ruleBytes State.withRule
  rw [alGet_alSet_same, Option.getD_some]

theorem State.ruleBytes_withRule_other {id j : Nat} (other : j ≠ id) (s : State) (b : List Byte) :
    (s.withRule id b).ruleBytes j = s.ruleBytes j := by
  unfold State.ruleBytes State.withRule
  rw [alGet_alSet_other other]

theorem State.Calm.rule {s : State} (h : s.Calm) (id : Nat) (b : List Byte) : (s.withRule id b).Calm :=
  h.congr rfl rfl ⟨rfl, rfl⟩ rfl ⟨rfl, rfl⟩ h.flights ⟨rfl, rfl, rfl⟩ fun _ _ => rfl

/-- A record out of range defines no rule (R276). -/
theorem State.setRule_bad {b : List Byte} (bad : ruleOk b = false) (s : State) (id : Nat) : s.setRule id b = s.fail ST_BAD_PARAM :=
  if_pos (by rw [bad]; rfl)

/-- While no table is attached a record in range defines its rule (R276). -/
theorem State.setRule_good {s : State} {b : List Byte} (good : ruleOk b = true) (none_ : s.uu.tensors = 0) (id : Nat) :
    s.setRule id b = (s.withRule id b).ok (crc64 b) := by
  have empty : s.params = [] := by rw [State.params, none_]; rfl
  unfold State.setRule
  dsimp only
  rw [good, empty]
  cases alGet s.uu.rules id <;> simp [State.withRule]

/-! ## A fold of writes (R277) -/

/-- A field that no step of a fold writes reads as before. -/
theorem State.get_foldl_other {α : Type} {step : State → α → State} {g : Field} {l : List α}
    (keeps : ∀ a ∈ l, ∀ u : State, (step u a).get g = u.get g) (s : State) : (l.foldl step s).get g = s.get g :=
  List.foldlRecOn (motive := fun t => t.get g = s.get g) l step rfl fun t same a m => (keeps a m t).trans same

/-- A field that one step of a fold sets, and no other step writes, reads what that step sets. -/
theorem State.get_foldl_same {α : Type} {step : State → α → State} {g : Field} {v : Nat} {l : List α} {a : α} (m : a ∈ l)
    (sets : ∀ u : State, (step u a).get g = v) (keeps : ∀ b ∈ l, b ≠ a → ∀ u : State, (step u b).get g = u.get g) (s : State) :
    (l.foldl step s).get g = v := by
  induction l using List.reverseRecOn with
  | nil => exact absurd m (List.not_mem_nil)
  | append_singleton l b ih =>
    rw [List.foldl_append, List.foldl_cons, List.foldl_nil]
    by_cases same : b = a
    · rw [same]
      exact sets _
    · have earlier : a ∈ l := (List.mem_append.1 m).resolve_right fun last => same (List.mem_singleton.1 last).symm
      rw [keeps b (by simp) same]
      exact ih earlier fun c hc => keeps c (List.mem_append_left _ hc)

/-! ## The registers of an attached table (R276, R277) -/

/-- The registers of a quarter's table and ledger are none that calm speaks of, nor that of the stacks held. -/
theorem tableFields_apart {q : Nat} (hq : q < 4) {f : Field} (hf : f ∈ [F.UU_TABLE_BASE q, F.UU_LEDGER_BASE q]) :
    ¬ calmField f ∧ F.RS_HELD_HBM.key ≠ f.key := by
  have keys : ∀ q < 4, ∀ f ∈ [F.UU_TABLE_BASE q, F.UU_LEDGER_BASE q], f.key ≠ F.PC_STATUS_STATE.key ∧ f.key ≠ F.SH_HOME_VALID.key ∧
      f.key ≠ F.BW_QUEUE_DEPTH.key ∧ (∀ k < 64, f.key ≠ (F.CP_RING_STATUS_WAITING k).key) ∧ F.RS_HELD_HBM.key ≠ f.key := by decide
  obtain ⟨state, home, depth, waiting, held⟩ := keys q hq f hf
  exact ⟨not_calmField state home depth waiting, held⟩

section AttachTable
variable (s : State) (n a l : Nat)

theorem State.attachTable_frame : s.attachTable n a l = { s with regs := (s.attachTable n a l).regs, uu := { s.uu with tensors := n } } := rfl

theorem State.tableBase_attachTable {q : Nat} (hq : q < 4) (ha : a < 2 ^ 48) : (s.attachTable n a l).get (F.UU_TABLE_BASE q) = a := by
  refine State.get_foldl_same (List.mem_range.2 hq) (fun u => ?_) (fun r _ other u => ?_) _
  · exact (State.get_put_other (by simp only [Field.key, Reg.UU_TABLE, Reg.UU_LEDGER]; omega) _ _).trans
      ((State.get_put_same ..).trans (Nat.mod_eq_of_lt ha))
  · refine (State.get_put_other ?_ _ _).trans (State.get_put_other ?_ _ _) <;> simp only [Field.key, Reg.UU_TABLE, Reg.UU_LEDGER] <;> omega

theorem State.ledgerBase_attachTable {q : Nat} (hq : q < 4) (hl : l < 2 ^ 48) : (s.attachTable n a l).get (F.UU_LEDGER_BASE q) = l := by
  refine State.get_foldl_same (List.mem_range.2 hq) (fun u => ?_) (fun r _ other u => ?_) _
  · exact (State.get_put_same ..).trans (Nat.mod_eq_of_lt hl)
  · refine (State.get_put_other ?_ _ _).trans (State.get_put_other ?_ _ _) <;> simp only [Field.key, Reg.UU_TABLE, Reg.UU_LEDGER] <;> omega

variable {s}

theorem State.Calm.attachTable (h : s.Calm) : (s.attachTable n a l).Calm := by
  have counted : ({ s with uu := { s.uu with tensors := n } } : State).Calm :=
    h.congr rfl rfl ⟨rfl, rfl⟩ rfl ⟨rfl, rfl⟩ h.flights ⟨rfl, rfl, rfl⟩ fun _ _ => rfl
  exact List.foldlRecOn _ _ counted fun t ht q m => (ht.put (tableFields_apart (List.mem_range.1 m) (by simp)).1 _).put
    (tableFields_apart (List.mem_range.1 m) (by simp)).1 _

theorem State.Sound.attachTable (h : s.Sound) : (s.attachTable n a l).Sound := by
  refine ⟨(State.get_foldl_other (fun q m u => ?_) _).trans h.allStacks, h.poison, h.inject⟩
  exact (State.get_put_other (tableFields_apart (List.mem_range.1 m) (by simp)).2 _ _).trans
    (State.get_put_other (tableFields_apart (List.mem_range.1 m) (by simp)).2 _ _)

end AttachTable

/-! ## A fresh ledger (R265 to R267, R276) -/

/-- Bytes that lie end to end are written as one. -/
theorem Mem.write_append (m : Mem) (a : Nat) (p q : List Byte) : m.write a (p ++ q) = (m.write a p).write (a + p.length) q := by
  induction p generalizing m a with
  | nil => rfl
  | cons b p ih => rw [List.cons_append, Mem.write, ih, Mem.write, List.length_cons, Nat.add_assoc, Nat.add_comm 1]

/-- What TABLE writes before DIGEST: the header, a record for each tensor and an entry for each block. -/
def freshShardLedger (n blocks : Nat) : List Byte :=
  padTo 128 (leBytes 4 1 ++ leBytes 4 n ++ leBytes 4 blocks ++ leBytes 4 0 ++ leBytes 8 noPeriod ++ leBytes 8 noPeriod) ++
    (List.range n).flatMap (fun _ => leBytes 8 noPeriod ++ leBytes 8 0) ++
    (List.range blocks).flatMap (fun _ => leBytes 8 noPeriod ++ leBytes 8 noPeriod)

theorem length_flatMap_range {k : Nat} {b : List Byte} (h : b.length = k) (n : Nat) : ((List.range n).flatMap fun _ => b).length = k * n := by
  simp [h, Nat.mul_comm]

theorem length_freshShardLedger (n blocks : Nat) : (freshShardLedger n blocks).length = 0x80 + 16 * (n + blocks) := by
  rw [freshShardLedger, List.length_append, List.length_append, length_padTo, length_flatMap_range (k := 16) rfl,
    length_flatMap_range (k := 16) rfl]
  omega

/-- COMMITTED and TARGET of a fresh ledger, with the bytes behind each, hold the number that is no Period's. -/
theorem leAt_freshShardLedger (n blocks : Nat) {off k : Nat} (within : off + k ≤ 16) :
    leAt (freshShardLedger n blocks) (16 + off) k = leAt (leBytes 8 noPeriod ++ leBytes 8 noPeriod) off k := by
  have counts : (leBytes 4 1 ++ leBytes 4 n ++ leBytes 4 blocks ++ leBytes 4 0).length = 16 := rfl
  have front : (freshShardLedger n blocks).take 0x20 =
      leBytes 4 1 ++ leBytes 4 n ++ leBytes 4 blocks ++ leBytes 4 0 ++ (leBytes 8 noPeriod ++ leBytes 8 noPeriod) := rfl
  have field := leAt_append (leBytes 4 1 ++ leBytes 4 n ++ leBytes 4 blocks ++ leBytes 4 0) (leBytes 8 noPeriod ++ leBytes 8 noPeriod) off k
  rw [counts] at field
  refine (leAt_congr (k := 0x20) ?_ (by omega)).trans field
  exact front.trans (List.take_of_length_le (by simp)).symm

/-- A fresh ledger has nothing committed and no target, and its phase is CLOSED. -/
theorem freshShardLedger_fields (n blocks : Nat) : leAt (freshShardLedger n blocks) 0x10 6 = noPeriod ∧
    leAt (freshShardLedger n blocks) 0x18 6 = noPeriod ∧ leAt (freshShardLedger n blocks) 0x1E 1 = 0 :=
  ⟨(leAt_freshShardLedger n blocks (off := 0) (by decide)).trans (by decide),
    (leAt_freshShardLedger n blocks (off := 8) (by decide)).trans (by decide),
    (leAt_freshShardLedger n blocks (off := 14) (by decide)).trans (by decide)⟩

/-! ## States with other bytes in HBM -/

/-- `s` with HBM's contents as given. What the rows leave is stated through it, so that a fact about the rest of the state never looks into the
bytes written. -/
def State.withHbm (s : State) (m : Mem) : State := { s with hbm := m }

section WithHbm
variable (s : State) (m : Mem)

@[simp] theorem State.withHbm_hbm : (s.withHbm m).hbm = m := rfl
@[simp] theorem State.withHbm_uu : (s.withHbm m).uu = s.uu := rfl
@[simp] theorem State.withHbm_get (f : Field) : (s.withHbm m).get f = s.get f := rfl

variable {s}

theorem State.Calm.withHbm (h : s.Calm) : (s.withHbm m).Calm := h.memory m s.comp s.poison s.inject

theorem State.Sound.withHbm (h : s.Sound) : (s.withHbm m).Sound := ⟨h.allStacks, h.poison, h.inject⟩

theorem State.own_withHbm (h : s.Sound) (a : Nat) (bs : List Byte) : (s.withHbm m).own a bs = s.withHbm (m.write a bs) :=
  State.own_sound (h.withHbm m) a bs

end WithHbm

/-! ## A header sealed (R265) -/

/-- HBM with the DIGEST of the Shard Ledger's header at `l` rewritten. -/
def Mem.sealHeader (m : Mem) (l : Nat) : Mem := m.write (l + 0x40) (leBytes 8 (crc64 (m.read l 0x40)))

section SealHeader
variable (m : Mem) (l : Nat)

theorem Mem.sealHeader_other {x : Nat} (other : x < l + 0x40 ∨ l + 0x48 ≤ x) : (m.sealHeader l).get x = m.get x :=
  Mem.get_write_outside _ (by rw [length_leBytes]; omega) m

theorem Mem.sealHeader_read {a n : Nat} (before : a + n ≤ l + 0x40) : (m.sealHeader l).read a n = m.read a n :=
  Mem.read_congr fun x _ _ => m.sealHeader_other l (by omega)

theorem Mem.sealHeader_digest : ofLE ((m.sealHeader l).read (l + 0x40) 8) = crc64 ((m.sealHeader l).read l 0x40) := by
  rw [m.sealHeader_read l (Nat.le_refl _), Mem.sealHeader, Mem.read_leBytes, ofLE_leBytes]
  exact Nat.mod_eq_of_lt (crc64_lt _)

end SealHeader

/-- HBM with a fresh ledger in place, sealed. -/
def Mem.freshLedger (m : Mem) (l n blocks : Nat) : Mem := (m.write l (freshShardLedger n blocks)).sealHeader l

section FreshLedger
variable (m : Mem) (l n blocks : Nat)

theorem Mem.freshLedger_field {off k : Nat} (within : off + k ≤ 0x40) :
    ofLE ((m.freshLedger l n blocks).read (l + off) k) = leAt (freshShardLedger n blocks) off k := by
  have size := length_freshShardLedger n blocks
  rw [Mem.freshLedger, Mem.sealHeader_read _ l (by omega), ← leAt_read _ l (n := (freshShardLedger n blocks).length) (by omega), Mem.read_write]

theorem Mem.freshLedger_outside {x : Nat} (out : x < l ∨ l + (0x80 + 16 * (n + blocks)) ≤ x) : (m.freshLedger l n blocks).get x = m.get x :=
  (Mem.sealHeader_other _ l (by omega)).trans (Mem.get_write_outside _ (by rw [length_freshShardLedger]; exact out) m)

end FreshLedger

/-- A ledger initialised in a sound memory is a fresh one, sealed. -/
theorem State.initLedger_sound {s : State} (sound : s.Sound) (blocks : Nat) :
    s.initLedger blocks = s.withHbm (s.hbm.freshLedger s.shardLedger s.uu.tensors blocks) := by
  have first (a : Nat) (bs : List Byte) : s.own a bs = s.withHbm (s.hbm.write a bs) := State.own_sound sound a bs
  have place (m : Mem) : (s.withHbm m).shardLedger = s.shardLedger := rfl
  unfold State.initLedger State.sealHeader State.tensorAt State.blockAt State.ledDigest
  dsimp only
  simp only [first, State.own_withHbm _ sound, place, State.withHbm_uu, State.withHbm_hbm, State.ownWord]
  rw [Mem.freshLedger, freshShardLedger, Mem.write_append, Mem.write_append, List.length_append, length_padTo,
    length_flatMap_range (k := 16) rfl, Mem.sealHeader]
  simp only [Nat.mul_zero, Nat.add_zero, Nat.add_assoc]

/-! ## The bodies (R248, R275, R276) -/

/-- The length of a ledger for the entries of a table (R264). -/
def shardLedgerSize (n : Nat) (imgs : List (List Byte)) : Nat := 0x80 + 16 * (n + sumList ((imgs.map Param.of).map Param.blocks))

/-- `s` with a table attached, and a fresh ledger for its entries. -/
def State.withTable (s : State) (n a l : Nat) (imgs : List (List Byte)) : State :=
  (s.attachTable n a l).withHbm (s.hbm.freshLedger l n (sumList ((imgs.map Param.of).map Param.blocks)))

section WithTable
variable {s : State} {n a l : Nat} {imgs : List (List Byte)}

theorem State.withTable_frame : s.withTable n a l imgs =
    { s with regs := (s.withTable n a l imgs).regs, hbm := (s.withTable n a l imgs).hbm, uu := { s.uu with tensors := n } } := by
  have others {t : State} (frame : t = { s with regs := t.regs, uu := { s.uu with tensors := n } }) (m : Mem) :
      t.withHbm m = { s with regs := (t.withHbm m).regs, hbm := (t.withHbm m).hbm, uu := { s.uu with tensors := n } } := by
    rw [frame]
    rfl
  exact others (s.attachTable_frame n a l) _

theorem State.withTable_oxl : (s.withTable n a l imgs).oxl = s.oxl := rfl

theorem State.Calm.withTable (h : s.Calm) : (s.withTable n a l imgs).Calm := (h.attachTable n a l).withHbm _

theorem State.get_withTable (f : Field) : (s.withTable n a l imgs).get f = (s.attachTable n a l).get f := State.withHbm_get ..

theorem State.withTable_outside {x : Nat} (out : x < l ∨ l + shardLedgerSize n imgs ≤ x) :
    (s.withTable n a l imgs).hbm.get x = s.hbm.get x := Mem.freshLedger_outside _ _ _ _ out

variable (hl : l < 2 ^ 48)
include hl

theorem State.shardLedger_withTable : (s.withTable n a l imgs).shardLedger = l :=
  (State.get_withTable _).trans (s.ledgerBase_attachTable n a l (by decide) hl)

/-- The ledger that TABLE leaves: nothing committed, no target, CLOSED and sealed. -/
theorem State.withTable_ledger : (s.withTable n a l imgs).ledCommitted = noPeriod ∧ (s.withTable n a l imgs).ledTarget = noPeriod ∧
    (s.withTable n a l imgs).ledPhase = 0 ∧ (s.withTable n a l imgs).ledSealed = true := by
  have place := State.shardLedger_withTable (s := s) (n := n) (a := a) (imgs := imgs) hl
  have field {off k : Nat} (within : off + k ≤ 0x40) := s.hbm.freshLedger_field l n (sumList ((imgs.map Param.of).map Param.blocks)) within
  obtain ⟨committed, target, phase⟩ := freshShardLedger_fields n (sumList ((imgs.map Param.of).map Param.blocks))
  unfold State.ledCommitted State.ledTarget State.ledPhase State.ledSealed State.ledDigest
  rw [place]
  refine ⟨(field (by decide)).trans committed, (field (by decide)).trans target, ?_, decide_eq_true (Mem.sealHeader_digest _ _).symm⟩
  exact congrArg (· % 4) ((field (by decide)).trans phase)

end WithTable

section Table
variable {s : State} (sound : s.Sound) {n a l : Nat}
include sound

/-- A table with an entry that does not pass R248 is refused. -/
theorem State.setTable_bad (bad : (pieces 128 (s.hbm.read a (128 * n))).all s.paramOk = false) (c : CmdRef) :
    s.setTable false n a l c = s.fail ST_BAD_PARAM := by
  unfold State.setTable
  rw [State.readingTable_sound sound]
  exact if_pos (by rw [bad]; rfl)

/-- A table whose entries pass R248 is attached with a fresh ledger. -/
theorem State.setTable_good (hl : l < 2 ^ 48) (good : (pieces 128 (s.hbm.read a (128 * n))).all s.paramOk = true)
    (firsts : firstsOk ((pieces 128 (s.hbm.read a (128 * n))).map Param.of) = true)
    (inHbm : l + shardLedgerSize n (pieces 128 (s.hbm.read a (128 * n))) ≤ hbmEnd) (c : CmdRef) :
    let t := s.withTable n a l (pieces 128 (s.hbm.read a (128 * n)))
    s.setTable false n a l c = t.ok t.ledDigest := by
  have fresh (blocks : Nat) : (s.attachTable n a l).initLedger blocks = (s.attachTable n a l).withHbm (s.hbm.freshLedger l n blocks) := by
    rw [State.initLedger_sound (sound.attachTable n a l), State.shardLedger, s.ledgerBase_attachTable n a l (by decide) hl]
    rfl
  intro t
  unfold State.setTable
  rw [State.readingTable_sound sound]
  dsimp only
  rw [good, firsts, decide_eq_false (by rw [shardLedgerSize] at inHbm; omega), fresh]
  rfl

/-- READ stores the records of the rules. -/
theorem State.readRules_stores {id : Nat} (whole : ∀ i, (s.ruleBytes i).length = 64) (low : a < hbmEnd) (inHbm : a + 64 * n ≤ hbmEnd)
    (c : CmdRef) :
    let bs := (List.range n).flatMap fun i => s.ruleBytes (id + i)
    bs.length = 64 * n ∧ s.readRules id n a c = (s.stored a bs (some c)).ok (crc64 bs) := by
  intro bs
  have size : bs.length = 64 * n := by simp [bs, List.length_flatMap, whole, Nat.mul_comm]
  exact ⟨size, State.writing_sound sound (by rw [size]; exact inHbm) low c _⟩

end Table

/-! ## The rows -/

section Rows
variable {h : Hdr} {s : State} (bound : s.bindingOk h .notBound = true) (idle : s.idle = true)
include bound idle

theorem execSetRuleRule_ends {id : BitVec 8} {rec : BitVec 512} {t : State} {d : Done}
    (body : s.setRule id.toNat (leBytes 64 rec.toNat) = (t, some d)) (kept : t.oxl = s.oxl) (after : t.Calm) :
    exec (.setRuleRule h id rec) s = .next (t.finish (s.refOf h 0x51) d) := by
  refine congrArg done (State.run_settle_calm bound ((State.guard_single ?_).trans body) (by rw [kept]) after)
  rw [idle, Bool.not_true]

/-- TABLE with good operands on an idle module is its body. -/
theorem execSetRuleTable_ends {n : BitVec 32} {a l : BitVec 48} (some_ : 1 ≤ n.toNat) (few : n.toNat ≤ 65535) (aligned : a.toNat % 4096 = 0)
    (ledgerAligned : l.toNat % 4096 = 0) (inHbm : a.toNat + 128 * n.toNat ≤ hbmEnd) {t : State} {d : Done}
    (body : s.setTable false n.toNat a.toNat l.toNat (s.refOf h 0x51) = (t, some d)) (kept : t.oxl = s.oxl) (after : t.Calm) :
    exec (.setRuleTable h false n a l) s = .next (t.finish (s.refOf h 0x51) d) := by
  have encoded : ¬ (n.toNat = 0 ∨ 65535 < n.toNat ∨ a.toNat % 4096 ≠ 0 ∨ l.toNat % 4096 ≠ 0 ∨ hbmEnd < a.toNat + 128 * n.toNat) := by omega
  exact congrArg done (State.run_settle_calm bound ((State.guard_idle (decide_eq_false encoded) idle).trans body) (by rw [kept]) after)

/-- READ with good operands on an idle module stores the rules' records. -/
theorem execSetRuleRead_stores (sound : s.Sound) {id : BitVec 8} {n : BitVec 32} {a : BitVec 48} (some_ : 1 ≤ n.toNat)
    (there : id.toNat + n.toNat ≤ 256) (aligned : a.toNat % 64 = 0) (inHbm : a.toNat + 64 * n.toNat ≤ hbmEnd)
    (whole : ∀ i, (s.ruleBytes i).length = 64) :
    let bs := (List.range n.toNat).flatMap fun i => s.ruleBytes (id.toNat + i)
    exec (.setRuleRead h id n a) s = .next (((s.stored a.toNat bs (some (s.refOf h 0x51))).finish (s.refOf h 0x51)
      ⟨ST_OK, 0, crc64 bs % 2 ^ 64⟩).settle) := by
  have low : a.toNat < hbmEnd := by omega
  have places : ¬ (n.toNat = 0 ∨ 256 < id.toNat + n.toNat ∨ a.toNat % 64 ≠ 0) := by omega
  have encoded : (decide (n.toNat = 0 ∨ 256 < id.toNat + n.toNat ∨ a.toNat % 64 ≠ 0) || !writable a.toNat (64 * n.toNat)) = false := by
    rw [decide_eq_false places, writable_hbm inHbm low]
    rfl
  exact congrArg (fun u : State => done u.settle) (State.run_ends bound
    ((State.guard_idle encoded idle).trans (State.readRules_stores sound whole low inHbm _).2) (by rw [State.stored_oxl]))

end Rows

/-- Settles O28: RULE sets one record, TABLE leaves its registers and a fresh ledger, and READ copies the records. -/
theorem setRuleDefines : Obligations.SetRuleDefines := by
  unfold Obligations.SetRuleDefines
  refine fun h s calm sound bound idle => ⟨fun id rec none_ => ⟨fun good => ?_, fun bad => ?_⟩,
    fun n a l some_ few aligned ledgerAligned inHbm => ⟨fun bad => ?_, fun good firsts ledgerIn => ?_⟩,
    fun id n a some_ there aligned inHbm whole => ?_⟩
  · exact ⟨_, execSetRuleRule_ends bound idle (State.setRule_good good none_ _) rfl (calm.rule _ _), s.ruleBytes_withRule_same _ _,
      fun j other => State.ruleBytes_withRule_other other s _, s.withRule_frame _ _⟩
  · exact execSetRuleRule_ends bound idle (State.setRule_bad bad s _) rfl calm
  · exact execSetRuleTable_ends bound idle some_ few aligned ledgerAligned inHbm (State.setTable_bad sound bad _) rfl calm
  · have body := State.setTable_good sound l.isLt good firsts ledgerIn (s.refOf h 0x51)
    obtain ⟨committed, target, phase, sealed_⟩ := State.withTable_ledger (s := s) (n := n.toNat) (a := a.toNat)
      (imgs := pieces 128 (s.hbm.read a.toNat (128 * n.toNat))) l.isLt
    refine ⟨_, execSetRuleTable_ends bound idle some_ few aligned ledgerAligned inHbm body State.withTable_oxl calm.withTable,
      State.withTable_frame, fun q hq => ⟨?_, ?_⟩, committed, target, phase, sealed_, fun x out => State.withTable_outside out⟩
    · exact (State.get_withTable _).trans (s.tableBase_attachTable _ _ _ hq a.isLt)
    · exact (State.get_withTable _).trans (s.ledgerBase_attachTable _ _ _ hq l.isLt)
  · have row := execSetRuleRead_stores bound idle sound some_ there aligned inHbm whole
    refine ⟨row, fun unwatched => ⟨_, State.stores_write s a.toNat _, row.trans (congrArg done (State.settle_stored calm ?_ _ _ _))⟩⟩
    rw [(State.readRules_stores sound (id := id.toNat) whole (by omega) inHbm (s.refOf h 0x51)).1]
    exact unwatched

end Sys2Proof.Machine

/-!
PROOF. UPDATE PREPARE waits for Q, and APPLY commits (statement UpdateCommits).
-/
namespace Sys2Proof.Machine

/-! ## What events leave of the update units and of Orrex Link -/

/-- No event changes the update units. -/
theorem State.raise_uu {e : Ev} (he : e.cls < 5) (s : State) : (s.raise e).uu = s.uu := by
  have emitted : (s.emit e).uu = s.uu := by rw [(State.frame_emit s he).rest]
  unfold State.raise
  generalize s.emit e = t at emitted
  dsimp only
  split
  · exact emitted
  · split <;> exact emitted

theorem State.openCommit_failUpdate (s : State) (st : Nat) (c : CmdRef) : (s.failUpdate st c).1.uu.openCommit = none := by
  rw [State.failUpdate, State.updateFault, State.raise_uu (Nat.lt_succ_self 4)]

/-- UPDATE_SKIPPED leaves what a command waits for of companion memory as it is. -/
theorem State.missing_skipNote (s : State) (c : CmdRef) : (s.skipNote c).oxl.missing = s.oxl.missing := by
  have raised {e : Ev} (he : e.cls < 3) (t : State) : (t.raise e).oxl.missing = t.oxl.missing := by rw [(State.frame_raise he t).rest]
  unfold State.skipNote
  split
  · rfl
  · dsimp only
    rw [raised, State.bump, State.put_oxl]
    exact Nat.zero_lt_succ 2

/-! ## The tables that the units read (R272) -/

section Read
variable {s : State} (sound : s.Sound)
include sound

theorem State.unitRead_sound (a n structure_ : Nat) (c : CmdRef) : s.unitRead a n structure_ c = (s, .ok ()) := by
  unfold State.unitRead
  rw [State.readTable_sound sound]

/-- The update unit reads its tables in a sound HBM. -/
theorem State.readState_sound (blocks : Bool) (c : CmdRef) : s.readState blocks c = (s, .ok ()) := by
  unfold State.readState
  rw [State.unitRead_sound sound]
  exact State.unitRead_sound sound ..

end Read

/-! ## PREPARE (R253, R256, R273, R274) -/

/-- `s` with a PREPARE of Period `n` begun. -/
def State.beginPrepare (s : State) (n : Nat) : State := { s with uu := { s.uu with prepared := some n } }

/-- `s` with a PREPARE that waits for Q. -/
def State.holdPrepare (s : State) (w : PrepareWait) : State := ({ s with uu := { s.uu with waitPrepare := some w } } : State).waitingNorm true

theorem State.holdPrepare_frame (s : State) (w : PrepareWait) :
    s.holdPrepare w = { s with regs := (s.holdPrepare w).regs, uu := { s.uu with waitPrepare := some w } } := rfl

/-- Every quarter shows WAITING_NORM while a PREPARE waits for Q. -/
theorem State.waitingNorm_holdPrepare (s : State) (w : PrepareWait) {q : Nat} (hq : q < 4) :
    (s.holdPrepare w).get (F.UU_STATUS_WAITING_NORM q) = 1 := by
  refine State.get_foldl_same (step := fun u r => u.put (F.UU_STATUS_WAITING_NORM r) (flag true)) (List.mem_range.2 hq)
    (fun u => State.get_put_same ..) (fun r _ other u => State.get_put_other ?_ _ _) _
  simp only [Field.key, Reg.UU_STATUS]
  omega

/-- The checks of a PREPARE on its packet pass (R273). -/
structure PrepareEncoded (p : PrepareParams) : Prop where
  aligned  : p.scratch.toNat % 4096 = 0
  scratch  : writable p.scratch.toNat p.scratchLen.toNat = true
  some_    : 1 ≤ p.clusterCount.toNat
  clusters : p.clusterFirst.toNat + p.clusterCount.toNat ≤ 256

theorem PrepareEncoded.checks {p : PrepareParams} (h : PrepareEncoded p) :
    (decide (p.scratch.toNat % 4096 = 0) && writable p.scratch.toNat p.scratchLen.toNat) = true ∧
      decide (1 ≤ p.clusterCount.toNat ∧ p.clusterFirst.toNat + p.clusterCount.toNat ≤ 256) = true :=
  ⟨by rw [decide_eq_true h.aligned, h.scratch]; rfl, decide_eq_true ⟨h.some_, h.clusters⟩⟩

section Prepare
variable {s : State} {p : PrepareParams} (h : Hdr) (c : CmdRef)

/-- A second PREPARE in one Period is refused (R274). -/
theorem State.prepareBody_again (again : s.uu.prepared = some s.currentPeriod) : s.prepareBody h p c = s.fail ST_BAD_PARAM :=
  if_pos (by rw [again, beq_self_eq_true, Bool.or_true])

section First
variable (encoded : PrepareEncoded p) (first : s.uu.prepared ≠ some s.currentPeriod) (sound : s.Sound)
  (passes : (s.beginPrepare s.currentPeriod).prepareOk p = true)
include encoded first sound passes

/-- The first PREPARE of a Period, where its tensors pass, goes on once Q is known. -/
theorem State.prepareBody_first : s.prepareBody h p c = ((s.beginPrepare s.currentPeriod).qOf s.currentPeriod).elim
    ((s.beginPrepare s.currentPeriod).holdPrepare ⟨c, h, p⟩, none) ((s.beginPrepare s.currentPeriod).prepare h p c) := by
  obtain ⟨scratch, clusters⟩ := encoded.checks
  have begun : (s.beginPrepare s.currentPeriod).Sound := ⟨sound.allStacks, sound.poison, sound.inject⟩
  have reads {u : State} (sound : u.Sound) : (if u.tableAttached then u.readState false c else (u, .ok ())) = (u, .ok ()) := by
    rw [State.readState_sound sound, ite_self]
  have fresh : (s.uu.prepared == some s.currentPeriod) = false := beq_false_of_ne first
  unfold State.prepareBody
  dsimp only
  rw [scratch, clusters, fresh]
  refine (if_neg Bool.false_ne_true).trans ((congrArg (Act.body · _) (reads begun)).trans ((if_neg ?_).trans ?_))
  · rw [passes]
    exact Bool.false_ne_true
  · cases (s.beginPrepare s.currentPeriod).qOf s.currentPeriod <;> rfl

end First

/-- With a Q that is not finite nothing is prepared (R253). -/
theorem State.prepare_notFinite {q : Nat} (notFinite : (v64 q).isFinite = false) : s.prepare h p c q = (s.skipNote c, some ⟨ST_OK, 2, 0⟩) :=
  if_pos (by rw [notFinite]; rfl)

/-- With no tensor to process a PREPARE that has its clusters prepares none (R256). -/
theorem State.prepare_nothing {q : Nat} (finite : (v64 q).isFinite = true) (none_ : s.prepItems = [])
    (enters : s.enterClusters p.clusterFirst.toNat p.clusterCount.toNat c = (s, none)) : s.prepare h p c q = (s, some ⟨ST_OK, 0, 0⟩) := by
  unfold State.prepare
  dsimp only
  rw [finite, enters, none_]
  rfl

end Prepare

/-! ## APPLY (R268, R272 to R274) -/

/-- `s` with an APPLY of Period `n` begun. -/
def State.beginApply (s : State) (n : Nat) : State := { s with uu := { s.uu with applied := some n } }

/-- `s` with an APPLY that waits for the grant or for Q. -/
def State.holdApply (s : State) (w : ApplyWait) : State := { s with uu := { s.uu with waitApply := some w } }

/-- A scale that is negative or not finite, or a second APPLY in one Period, is refused (R273, R274). -/
theorem State.applyBody_refused {s : State} {lr : Nat} (bad : nonNegative (v32 lr) = false ∨ s.uu.applied = some s.currentPeriod) (c : CmdRef) :
    s.applyBody lr c = s.fail ST_BAD_PARAM := by
  refine if_pos ?_
  rcases bad with scale | again
  · rw [scale]
    rfl
  · rw [again, beq_self_eq_true, Bool.or_true]

/-- How an APPLY goes on whose checks are behind it: as its unit's stop, the grant and Q have it, in that order (R268, R272). -/
def State.applyLive (u : State) (w : ApplyWait) (n : Nat) : Body :=
  match u.uu.failed with
  | some st => u.fail st
  | none => match u.uu.openCommit, u.qOf n with
    | some m, some q => if m = n then u.applyNow w n q else u.fail ST_NOT_READY
    | _, _ => (u.holdApply w, none)

section FirstApply
variable {s : State} {lr : Nat} (scale : nonNegative (v32 lr) = true) (first : s.uu.applied ≠ some s.currentPeriod) (c : CmdRef)
include scale first

/-- An APPLY of a ledger that was not CLOSED at the tick is not ready (R274). -/
theorem State.applyBody_notReady (lost : s.ledgerLive = false) :
    s.applyBody lr c = (s.beginApply s.currentPeriod).fail ST_NOT_READY := by
  have fresh : (s.uu.applied == some s.currentPeriod) = false := beq_false_of_ne first
  unfold State.applyBody
  dsimp only
  rw [scale, fresh]
  exact (if_neg Bool.false_ne_true).trans (if_pos (congrArg not lost))

variable (live : s.ledgerLive = true)
include live

/-- With a ledger that takes part, an APPLY goes on as the unit, the grant and Q have it. -/
theorem State.applyBody_live : s.applyBody lr c = (s.beginApply s.currentPeriod).applyLive ⟨c, lr⟩ s.currentPeriod := by
  have fresh : (s.uu.applied == some s.currentPeriod) = false := beq_false_of_ne first
  unfold State.applyBody
  dsimp only
  rw [scale, fresh]
  exact (if_neg Bool.false_ne_true).trans (if_neg fun lost => Bool.false_ne_true ((congrArg not live).symm.trans lost))

end FirstApply

section ApplyLive
variable {u : State} {w : ApplyWait} {n : Nat}

/-- A commit whose unit has stopped ends with the stop's status (R272). -/
theorem State.applyLive_stopped {st : Nat} (stopped : u.uu.failed = some st) : u.applyLive w n = u.fail st := by
  rw [State.applyLive, stopped]

variable (runs : u.uu.failed = none)
include runs

/-- Before the grant an APPLY waits (R268). -/
theorem State.applyLive_waits (noGrant : u.uu.openCommit = none) : u.applyLive w n = (u.holdApply w, none) := by
  rw [State.applyLive, runs, noGrant]

/-- With the grant and Q an APPLY does its work (R268). -/
theorem State.applyLive_goes {q : Nat} (granted : u.uu.openCommit = some n) (known : u.qOf n = some q) :
    u.applyLive w n = u.applyNow w n q := by
  rw [State.applyLive, runs, granted, known]
  exact if_pos rfl

end ApplyLive

/-! ## The commit of an APPLY (R268, R272) -/

/-- A chain of steps that succeeds began with a step that did. -/
theorem Act.ok_of_bind {α β : Type} {m : Act α} {k : State → α → Act β} {t : State} {b : β} (h : m.bind k = (t, .ok b)) :
    ∃ (u : State) (a : α), m = (u, .ok a) ∧ k u a = (t, .ok b) := by
  obtain ⟨u, r⟩ := m
  cases r with
  | ok a => exact ⟨u, a, rfl, h⟩
  | fail st => exact nomatch (show ((u, .fail st) : Act β) = (t, .ok b) from h)

/-- The commit of Period `n` is behind: none is open, and the registers say what has been committed. -/
structure State.Committed (t : State) (n : Nat) : Prop where
  closed    : t.uu.openCommit = none
  committed : t.get F.PC_COMMITTED_COMMITTED = n % 2 ^ 48
  cursor    : t.get F.PC_CURSOR_CURSOR = t.uu.cursor % 2 ^ 64

/-- `s` with the commit of Period `n` closed. -/
def State.commitClosed (s : State) (n : Nat) : State :=
  { (s.put F.PC_COMMITTED_COMMITTED n).put F.PC_CURSOR_CURSOR s.uu.cursor with uu := { s.uu with openCommit := none } }

theorem State.committed_commitClosed (s : State) (n : Nat) : (s.commitClosed n).Committed n :=
  ⟨rfl, (State.get_put_other (by decide) _ _).trans (State.get_put_same ..), State.get_put_same ..⟩

theorem State.committed_of_closeCommit {s t : State} {n : Nat} {c : Option CmdRef} (h : s.closeCommit n c = (t, .ok ())) : t.Committed n := by
  obtain ⟨u, -, -, close⟩ := Act.ok_of_bind h
  obtain rfl : u.commitClosed n = t := congrArg Prod.fst close
  exact u.committed_commitClosed n

/-- The last of an APPLY's steps is the close of its commit. -/
theorem State.committed_of_applySteps {s t : State} {w : ApplyWait} {n q : Nat} {skip : Bool} (h : s.applySteps w n q = (t, .ok skip)) :
    t.Committed n := by
  obtain ⟨_, _, -, h⟩ := Act.ok_of_bind h
  obtain ⟨_, _, -, h⟩ := Act.ok_of_bind h
  obtain ⟨_, _, -, h⟩ := Act.ok_of_bind h
  obtain ⟨_, _, -, h⟩ := Act.ok_of_bind h
  obtain ⟨_, _, -, h⟩ := Act.ok_of_bind h
  obtain ⟨u, _, close, done_⟩ := Act.ok_of_bind h
  obtain rfl : u = t := congrArg Prod.fst done_
  exact State.committed_of_closeCommit close

/-- An APPLY that has the grant and Q ends, with its Period committed or its unit stopped. -/
theorem State.applyNow_ends (s : State) (w : ApplyWait) (n q : Nat) : ∃ (t : State) (d : Done), s.applyNow w n q = (t, some d) ∧
    t.uu.openCommit = none ∧ (d = Done.fail d.status ∨ (d.status = ST_OK ∧ t.Committed n ∧ d.result = t.ledDigest)) := by
  unfold State.applyNow
  generalize steps : s.applySteps w n q = r
  obtain ⟨t, skip | st⟩ := r
  · have after := State.committed_of_applySteps steps
    exact ⟨_, _, rfl, after.closed, .inr ⟨rfl, after, rfl⟩⟩
  · exact ⟨_, _, rfl, State.openCommit_failUpdate t st w.cmd, .inl rfl⟩

/-! ## The rows -/

/-- A command whose body has not ended stays in flight. -/
theorem State.run_waits {s t : State} {h : Hdr} {op : Nat} {b : Binding} {body : CmdRef → State → Body} (bound : s.bindingOk h b = true)
    (waits : body (s.refOf h op) s = (t, none)) (kept : t.oxl.missing = s.oxl.missing) : s.run h op b body = t := by
  unfold State.run
  rw [if_pos bound, waits]
  exact State.ran_here kept _

section Rows
variable {h : Hdr} {s t : State} {d : Done}

section Prepare
variable {p : PrepareParams} (bound : s.bindingOk h (.kinds [kindPrecondition]) = true)
include bound

theorem execUpdatePrepare_ends (body : s.prepareBody h p (s.refOf h 0x50) = (t, some d))
    (kept : t.oxl.missing = s.oxl.missing) :
    exec (.updatePrepare h p) s = .next (t.finish (s.refOf h 0x50) d).settle :=
  congrArg (fun u : State => done u.settle) (State.run_ends (body := fun c s => s.prepareBody h p c) bound body kept)

theorem execUpdatePrepare_waits (body : s.prepareBody h p (s.refOf h 0x50) = (t, none))
    (kept : t.oxl.missing = s.oxl.missing) : exec (.updatePrepare h p) s = .next t.settle :=
  congrArg (fun u : State => done u.settle) (State.run_waits (body := fun c s => s.prepareBody h p c) bound body kept)

end Prepare

section Apply
variable {lr : BitVec 32} (bound : s.bindingOk h (.kinds [kindUpdate]) = true)
include bound

theorem execUpdateApply_ends (body : s.applyBody lr.toNat (s.refOf h 0x50) = (t, some d))
    (kept : t.oxl.missing = s.oxl.missing) :
    exec (.updateApply h lr) s = .next (t.finish (s.refOf h 0x50) d).settle :=
  congrArg (fun u : State => done u.settle) (State.run_ends (body := fun c s => s.applyBody lr.toNat c) bound body kept)

theorem execUpdateApply_waits (body : s.applyBody lr.toNat (s.refOf h 0x50) = (t, none))
    (kept : t.oxl.missing = s.oxl.missing) : exec (.updateApply h lr) s = .next t.settle :=
  congrArg (fun u : State => done u.settle) (State.run_waits (body := fun c s => s.applyBody lr.toNat c) bound body kept)

end Apply
end Rows

/-- Settles O26: PREPARE's checks lead to the question of Q, and APPLY's to its commit, whose last step is the close. -/
theorem updateCommits : Obligations.UpdateCommits := by
  unfold Obligations.UpdateCommits
  refine ⟨fun h p s bound aligned scratch some_ clusters => ⟨fun again => ?_, fun first sound passes => ?_⟩,
    fun h lr s bound => ⟨fun bad => ?_, fun scale first => ⟨fun lost => ?_, fun st live stopped => ?_, fun live runs noGrant => ?_,
      fun q live runs granted known here => ?_⟩⟩⟩
  · exact execUpdatePrepare_ends bound (State.prepareBody_again h _ again) rfl
  · have body := State.prepareBody_first h (s.refOf h 0x50) ⟨aligned, scratch, some_, clusters⟩ first sound passes
    refine ⟨fun unknown => ?_, fun q known notFinite => ?_, fun q known finite none_ enters => ?_⟩
    · have waits := body.trans (congrArg (Option.elim · _ _) unknown)
      exact ⟨_, execUpdatePrepare_waits bound waits rfl, fun q hq => State.waitingNorm_holdPrepare _ _ hq, State.holdPrepare_frame _ _⟩
    · have goes := body.trans (congrArg (Option.elim · _ _) known)
      exact execUpdatePrepare_ends bound (goes.trans (State.prepare_notFinite h _ notFinite)) (State.missing_skipNote ..)
    · have goes := body.trans (congrArg (Option.elim · _ _) known)
      exact execUpdatePrepare_ends bound (goes.trans (State.prepare_nothing h _ finite none_ enters)) rfl
  · exact execUpdateApply_ends bound (State.applyBody_refused bad _) rfl
  · exact execUpdateApply_ends bound (State.applyBody_notReady scale first _ lost) rfl
  · exact execUpdateApply_ends bound ((State.applyBody_live scale first _ live).trans (State.applyLive_stopped stopped)) rfl
  · exact execUpdateApply_waits bound ((State.applyBody_live scale first _ live).trans (State.applyLive_waits runs noGrant)) rfl
  · obtain ⟨t, d, ends, closed, how⟩ := (s.beginApply s.currentPeriod).applyNow_ends ⟨s.refOf h 0x50, lr.toNat⟩ s.currentPeriod q
    have body := (State.applyBody_live scale first (s.refOf h 0x50) live).trans
      ((State.applyLive_goes (u := s.beginApply _) runs granted known).trans ends)
    have kept : t.oxl.missing = s.oxl.missing := (congrArg (fun b : Body => b.1.oxl.missing) ends).symm.trans here
    refine ⟨t, d, execUpdateApply_ends bound body kept, closed, how.imp_right fun ⟨ok, after, result⟩ => ?_⟩
    exact ⟨ok, after.committed, after.cursor, result⟩

end Sys2Proof.Machine

/-!
PROOF. Packets and headers read back (statement PacketsReadBack): fields of a number by their places, the header of a packet, the parameter
areas of the commands, and the headers of flits.
-/
namespace Sys2Proof.Machine

/-! ## A field of bytes put together -/

theorem ofLE_leBytes_of_lt {n v : Nat} (fits : v < 2 ^ (8 * n)) : ofLE (leBytes n v) = v := by
  rw [ofLE_leBytes, show (256 : Nat) = 2 ^ 8 from rfl, ← Nat.pow_mul, Nat.mod_eq_of_lt fits]

/-- A little-endian field among other bytes reads back. -/
theorem leAt_of_parts {bs l r : List Byte} {off n v : Nat} (whole : bs = l ++ (leBytes n v ++ r)) (place : l.length = off)
    (fits : v < 2 ^ (8 * n)) : leAt bs off n = v := by
  rw [whole, leAt, List.drop_left' place, List.take_left' (length_leBytes ..), ofLE_leBytes, show (256 : Nat) = 2 ^ 8 from rfl, ← Nat.pow_mul,
    Nat.mod_eq_of_lt fits]

/-! ## Fields of a number -/

/-- The number that holds the given fields: of each its lowest bit, its width and its value. -/
def packedFields : List (Nat × Nat × Nat) → Nat
  | [] => 0
  | (place, _, x) :: fs => x * 2 ^ place + packedFields fs

/-- The fields lie between two bits, one above the other, and each takes its value. -/
def FieldsIn (hi : Nat) : Nat → List (Nat × Nat × Nat) → Prop
  | _, [] => True
  | lo, (place, len, x) :: fs => (lo ≤ place ∧ place + len ≤ hi ∧ x < 2 ^ len) ∧ FieldsIn hi (place + len) fs

theorem field_lt {place len x : Nat} (fits : x < 2 ^ len) : x * 2 ^ place < 2 ^ (place + len) := by
  rw [Nat.add_comm, Nat.pow_add]
  exact Nat.mul_lt_mul_of_pos_right fits (Nat.two_pow_pos _)

section Fields
variable {hi : Nat} {fs : List (Nat × Nat × Nat)}

theorem FieldsIn.dvd : ∀ {lo : Nat}, FieldsIn hi lo fs → 2 ^ lo ∣ packedFields fs := by
  induction fs with
  | nil => exact fun _ => Nat.dvd_zero _
  | cons g fs ih =>
    intro lo ⟨⟨above, _, _⟩, rest⟩
    exact Nat.dvd_add (Dvd.dvd.mul_left (Nat.pow_dvd_pow 2 above) _) ((Nat.pow_dvd_pow 2 (by omega)).trans (ih rest))

theorem FieldsIn.place_le : ∀ {lo : Nat}, FieldsIn hi lo fs → ∀ g ∈ fs, lo ≤ g.1 := by
  induction fs with
  | nil => exact fun _ g hg => nomatch hg
  | cons g fs ih =>
    intro lo ⟨⟨above, _, _⟩, rest⟩ g' member
    rcases List.mem_cons.1 member with rfl | member
    · exact above
    · exact above.trans ((Nat.le_add_right ..).trans (ih rest g' member))

theorem FieldsIn.lt : ∀ {lo : Nat}, FieldsIn hi lo fs → packedFields fs < 2 ^ hi := by
  induction fs with
  | nil => exact fun _ => Nat.two_pow_pos _
  | cons g fs ih =>
    obtain ⟨place, len, x⟩ := g
    intro lo ⟨⟨_, top, fits⟩, rest⟩
    have below := ih rest
    obtain ⟨k, high⟩ := rest.dvd
    obtain ⟨r, rfl⟩ := Nat.exists_eq_add_of_le top
    rw [high, Nat.pow_add _ _ r] at below
    calc packedFields ((place, len, x) :: fs) = x * 2 ^ place + 2 ^ (place + len) * k := by rw [packedFields, high]
      _ < 2 ^ (place + len) * (k + 1) := by rw [Nat.mul_add_one, Nat.add_comm]; exact Nat.add_lt_add_left (field_lt fits) _
      _ ≤ 2 ^ (place + len + r) := by rw [Nat.pow_add _ _ r]; exact Nat.mul_le_mul_left _ (Nat.lt_of_mul_lt_mul_left below)

/-- Every field reads back. -/
theorem FieldsIn.field : ∀ {lo : Nat}, FieldsIn hi lo fs → ∀ {place len x : Nat}, (place, len, x) ∈ fs →
    packedFields fs / 2 ^ place % 2 ^ len = x := by
  induction fs with
  | nil => exact fun _ _ _ _ hg => nomatch hg
  | cons g fs ih =>
    obtain ⟨place, len, x⟩ := g
    intro lo ⟨⟨_, _, fits⟩, rest⟩ place' len' x' member
    obtain ⟨k, high⟩ := rest.dvd
    rcases List.mem_cons.1 member with same | member
    · obtain ⟨rfl, rfl, rfl⟩ : place' = place ∧ len' = len ∧ x' = x := by simpa using same
      have whole : packedFields ((place', len', x') :: fs) = 2 ^ place' * (x' + 2 ^ len' * k) := by
        rw [packedFields, high, Nat.pow_add, Nat.mul_add, Nat.mul_assoc, Nat.mul_comm x']
      rw [whole, Nat.mul_div_cancel_left _ (Nat.two_pow_pos _), Nat.add_mul_mod_self_left, Nat.mod_eq_of_lt fits]
    · obtain ⟨r, rfl⟩ := Nat.exists_eq_add_of_le (rest.place_le _ member)
      rw [← ih rest member, Nat.pow_add _ _ r, ← Nat.div_div_eq_div_mul, ← Nat.div_div_eq_div_mul, packedFields, high,
        Nat.add_mul_div_left _ _ (Nat.two_pow_pos _), Nat.div_eq_of_lt (field_lt fits), Nat.mul_div_cancel_left _ (Nat.two_pow_pos _), Nat.zero_add]

variable {lo off bit_ w : Nat} (fields : FieldsIn hi lo fs)
include fields

theorem FieldsIn.bit {b : Bool} (there : (bit_, 1, flag b) ∈ fs) : bit (packedFields fs) bit_ = b := by
  rw [Sys2Proof.bit, show packedFields fs / 2 ^ bit_ % 2 = _ from fields.field there]
  cases b <;> rfl

theorem FieldsIn.pbits {x : BitVec w} (there : (8 * off + bit_, w, x.toNat) ∈ fs) : (pbits (packedFields fs) off bit_ : BitVec w) = x := by
  rw [Machine.pbits, pfield, fields.field there, BitVec.ofNat_toNat, BitVec.setWidth_eq]

theorem FieldsIn.pflag {b : Bool} (there : (8 * off + bit_, 1, flag b) ∈ fs) : pflag (packedFields fs) off bit_ = b := by
  rw [Machine.pflag, pfield, fields.field there]
  cases b <;> rfl

theorem FieldsIn.slotOf {k : Fin 3} (there : (8, 2, k.val) ∈ fs) : slotOf (packedFields fs) = some k := by
  simp only [Machine.slotOf, show pfield (packedFields fs) 0 8 2 = k.val from fields.field there, k.isLt, dite_true, Fin.eta]

end Fields

theorem flag_lt (b : Bool) : flag b < 2 ^ 1 := by cases b <;> decide

/-! ## The header of a packet (R415) -/

theorem length_encodeHead (h : Hdr) (op : Nat) : (encodeHead h op).length = 16 := by simp [encodeHead]

/-- The header of a packet of 64 bytes, as it is read: the command's fields, LENGTH 8, and no reserved bit. -/
def packetHeadOf (h : Hdr) (op : Nat) : PacketHead :=
  { opcode := op, order := h.order, close := h.close, interrupt := h.interrupt, length := 8, tag := h.tag.toNat, clause := h.clause.val
    bound := h.bound, nbValid := h.nbValid, notBefore := h.notBefore.toNat, reserved := false }

/-- The fields of the first 8 bytes of a packet, the reserved bits among them. -/
def headFields (h : Hdr) (op : Nat) : List (Nat × Nat × Nat) :=
  [(0, 8, op), (8, 1, flag h.order), (9, 1, flag h.close), (10, 1, flag h.interrupt), (11, 5, 0), (16, 16, 8), (32, 32, h.tag.toNat)]

/-- The fields of the next 8 bytes. -/
def bindingFields (h : Hdr) : List (Nat × Nat × Nat) :=
  [(0, 4, h.clause.val), (4, 1, flag h.bound), (5, 1, flag h.nbValid), (6, 10, 0), (16, 48, h.notBefore.toNat)]

theorem fieldsIn_headFields (h : Hdr) {op : Nat} (small : op < 2 ^ 8) : FieldsIn (8 * 8) 0 (headFields h op) :=
  ⟨⟨by decide, by decide, small⟩, ⟨by decide, by decide, flag_lt _⟩, ⟨by decide, by decide, flag_lt _⟩, ⟨by decide, by decide, flag_lt _⟩,
    ⟨by decide, by decide, by decide⟩, ⟨by decide, by decide, by decide⟩, ⟨by decide, by decide, h.tag.isLt⟩, trivial⟩

theorem fieldsIn_bindingFields (h : Hdr) : FieldsIn (8 * 8) 0 (bindingFields h) :=
  ⟨⟨by decide, by decide, h.clause.isLt⟩, ⟨by decide, by decide, flag_lt _⟩, ⟨by decide, by decide, flag_lt _⟩,
    ⟨by decide, by decide, by decide⟩, ⟨by decide, by decide, h.notBefore.isLt⟩, trivial⟩

theorem encodeHead_eq (h : Hdr) (op : Nat) : encodeHead h op = leBytes 8 (packedFields (headFields h op)) ++ leBytes 8 (packedFields (bindingFields h)) := by
  simp [encodeHead, headFields, bindingFields, packedFields, Nat.add_assoc]

theorem leAt_encodeHead (h : Hdr) {op : Nat} (small : op < 2 ^ 8) : leAt (encodeHead h op) 0 8 = packedFields (headFields h op) ∧
    leAt (encodeHead h op) 8 8 = packedFields (bindingFields h) := by
  rw [encodeHead_eq]
  exact ⟨leAt_of_parts (List.nil_append _).symm List.length_nil (fieldsIn_headFields h small).lt,
    leAt_of_parts (congrArg _ (List.append_nil _).symm) (length_leBytes ..) (fieldsIn_bindingFields h).lt⟩

theorem PacketHead.parse_encodeHead (h : Hdr) {op : Nat} (small : op < 2 ^ 8) : PacketHead.parse (encodeHead h op) = packetHeadOf h op := by
  have head := fieldsIn_headFields h small
  have binding := fieldsIn_bindingFields h
  obtain ⟨word, next⟩ := leAt_encodeHead h small
  have reserved : bits (packedFields (headFields h op)) 11 5 = 0 ∧ bits (packedFields (bindingFields h)) 6 10 = 0 :=
    ⟨head.field (by simp [headFields]), binding.field (by simp [bindingFields])⟩
  rw [PacketHead.parse, word, next, packetHeadOf, PacketHead.mk.injEq]
  refine ⟨head.field ?_, head.bit ?_, head.bit ?_, head.bit ?_, head.field ?_, head.field ?_, binding.field ?_, binding.bit ?_, binding.bit ?_,
    binding.field ?_, decide_eq_false fun set => set.elim (· reserved.1) (· reserved.2)⟩
  all_goals simp [headFields, bindingFields]

theorem PacketHead.hdr_packetHeadOf (h : Hdr) (op : Nat) : (packetHeadOf h op).hdr h.ring h.seq.toNat = h := by
  cases h
  simp [PacketHead.hdr, packetHeadOf]

/-! ## Parameter areas (R14, R416) -/

/-- Each of the fields leaves the bits outside a mask 0. -/
def FieldsAllowed (m : Nat) : List (Nat × Nat × Nat) → Prop
  | [] => True
  | (place, _, x) :: fs => x * 2 ^ place &&& m = x * 2 ^ place ∧ FieldsAllowed m fs

/-- A value that fits its field leaves the bits outside the field 0. -/
theorem field_and_mask {place len x m : Nat} (fits : x < 2 ^ len) (field : (2 ^ len - 1) <<< place &&& m = (2 ^ len - 1) <<< place) :
    x * 2 ^ place &&& m = x * 2 ^ place := by
  have within : x * 2 ^ place &&& ((2 ^ len - 1) <<< place) = x * 2 ^ place := by
    rw [← Nat.shiftLeft_eq, ← Nat.shiftLeft_and_distrib, Nat.and_two_pow_sub_one_eq_mod, Nat.mod_eq_of_lt fits]
  rw [← within, Nat.and_assoc, field]

/-- Fields that each leave the reserved bits 0 do so together. -/
theorem FieldsIn.within {hi m : Nat} {fs : List (Nat × Nat × Nat)} : ∀ {lo : Nat}, FieldsIn hi lo fs → FieldsAllowed m fs →
    packedFields fs &&& m = packedFields fs := by
  induction fs with
  | nil => exact fun _ _ => Nat.zero_and _
  | cons g fs ih =>
    obtain ⟨place, len, x⟩ := g
    intro lo ⟨⟨_, _, fits⟩, rest⟩ ⟨first, others⟩
    obtain ⟨k, high⟩ := rest.dvd
    have split : packedFields ((place, len, x) :: fs) = packedFields fs ||| x * 2 ^ place := by
      rw [packedFields, high, Nat.add_comm, Nat.two_pow_add_eq_or_of_lt (field_lt fits)]
    rw [split, Nat.and_or_distrib_right, first, ih rest others]

/-! ## Packets (R416) -/

/-- What makes a command's packet read back: its opcode's area takes the parameters, and spells the command. -/
structure SpellsPacket (i : Instr) (h : Hdr) (op v : Nat) : Prop where
  opcode : op < 2 ^ 8
  params : ofLE (leBytes 48 v) = v
  area : ∃ a : Area, areaOf op v = some a ∧ a.ok 48 v = true
  instr : packetInstr h op v = some i

section Spells
variable {i : Instr} {h : Hdr} {op v : Nat}

theorem SpellsPacket.packetCommand (spells : SpellsPacket i h op v) :
    packetCommand (packetHeadOf h op) h (leBytes 48 v) = (some i, ST_BAD_PARAM) := by
  obtain ⟨a, area, ok⟩ := spells.area
  unfold Machine.packetCommand
  simp [packetHeadOf, spells.params, area, ok, spells.instr]

/-- A command whose packet is spelled by its parameters reads back from the packet's 64 bytes. -/
theorem SpellsPacket.readsBack (spells : SpellsPacket i h op v) {bs : List Byte} (packet : bs = encodeHead h op ++ leBytes 48 v) :
    let p := PacketHead.parse (bs.take 16)
    bs.length = 64 ∧ p.length = 8 ∧ p.opcode = op ∧ p.reserved = false ∧ p.hdr h.ring h.seq.toNat = h ∧
      (Machine.packetCommand p h (bs.drop 16)).1 = some i := by
  have head : PacketHead.parse (bs.take 16) = packetHeadOf h op := by
    rw [packet, List.take_left' (length_encodeHead ..), PacketHead.parse_encodeHead h spells.opcode]
  have tail : bs.drop 16 = leBytes 48 v := by rw [packet, List.drop_left' (length_encodeHead ..)]
  have length : bs.length = 64 := by rw [packet, List.length_append, length_encodeHead, length_leBytes]
  rw [head, tail]
  exact ⟨length, rfl, rfl, rfl, PacketHead.hdr_packetHeadOf h op, congrArg Prod.fst spells.packetCommand⟩

/-- Parameters given by their fields spell the command that the reader takes from them. -/
theorem SpellsPacket.of_fields {a : Area} {fs : List (Nat × Nat × Nat)} (packed : v = packedFields fs) (fields : FieldsIn (8 * 48) 0 fs)
    (area : areaOf op v = some a) (opcode : op < 2 ^ 8) (short : a.bytes ≤ 48) (allowed : FieldsAllowed a.mask fs)
    (instr : packetInstr h op (packedFields fs) = some i) : SpellsPacket i h op v := by
  subst packed
  have ok : a.ok 48 (packedFields fs) = true := by
    rw [Area.ok, decide_eq_true short, decide_eq_true (fields.within allowed), Bool.and_self]
  exact ⟨opcode, ofLE_leBytes_of_lt fields.lt, ⟨a, area, ok⟩, instr⟩

end Spells

section Reader
variable {h : Hdr} {v : Nat}

theorem packetInstr_memory {op : Nat} (low : op < 0x20) : packetInstr h op v = memoryInstr h op v := if_pos low

theorem memoryInstr_loadShard_memory (sub : pfield v 0 0 8 = 0) :
    memoryInstr h 0x11 v = some (.loadShard h ⟨.memory (pbits v 8 0), pbits v 0x10 0, pbits v 0x18 0, pbits v 0x20 0⟩) := by
  unfold memoryInstr
  rw [sub]
  rfl

theorem memoryInstr_loadShard_stream (sub : pfield v 0 0 8 = 1) :
    memoryInstr h 0x11 v = some (.loadShard h ⟨.stream (pbits v 4 0), pbits v 0x10 0, pbits v 0x18 0, pbits v 0x20 0⟩) := by
  unfold memoryInstr
  rw [sub]
  rfl

theorem memoryInstr_verifyShard_region (sub : pfield v 0 0 8 = 2) :
    memoryInstr h 0x13 v = some (.verifyShard h (.region (pbits v 8 0) (pbits v 0x10 0) (pbits v 0x18 0))) := by
  unfold memoryInstr
  rw [sub]
  rfl

theorem memoryInstr_gatherSetup (sub : pfield v 0 0 8 = 1) {k : Fin 3} (slot : slotOf v = some k) :
    memoryInstr h 0x14 v = some (.gatherSetup h (pbits v 4 16) (pbits v 8 0) (pbits v 0x10 0) (pbits v 0x18 0)) := by
  unfold memoryInstr
  rw [sub, slot]
  rfl

theorem memoryInstr_gatherFetch (sub : pfield v 0 0 8 = 2) {k : Fin 3} (slot : slotOf v = some k) :
    memoryInstr h 0x14 v = some (.gatherFetch h k (pbits v 4 0)) := by
  unfold memoryInstr
  rw [sub, slot]
  rfl

theorem memoryInstr_gatherRelease (sub : pfield v 0 0 8 = 3) {k : Fin 3} (slot : slotOf v = some k) :
    memoryInstr h 0x14 v = some (.gatherRelease h k) := by
  unfold memoryInstr
  rw [sub, slot]
  rfl

theorem memoryInstr_fill {width : FillWidth} (code : pfield v 0x10 0 2 = widthCode width) :
    memoryInstr h 0x15 v = some (.fill h (pbits v 0 0) (pbits v 8 0) width (pbits v 0x18 0)) := by
  have read : (match pfield v 0x10 0 2 with | 0 => FillWidth.one | 1 => .two | 2 => .four | _ => .eight) = width := by
    rw [code]
    cases width <;> rfl
  exact congrArg (fun w => some (Instr.fill h (pbits v 0 0) (pbits v 8 0) w (pbits v 0x18 0))) read

end Reader

section Commands
variable (h : Hdr)

theorem spellsPacket_nop : SpellsPacket (.nop h) h 0x01 0 :=
  .of_fields (fs := []) rfl trivial rfl (by decide) (by decide) trivial rfl

theorem spellsPacket_query (dest : BitVec 48) : SpellsPacket (.query h dest) h 0x02 dest.toNat := by
  have fields : FieldsIn (8 * 48) 0 [(0, 48, dest.toNat)] := ⟨⟨by decide, by decide, dest.isLt⟩, trivial⟩
  refine .of_fields (by simp [packedFields]) fields rfl (by decide) (by decide) ⟨field_and_mask dest.isLt (by decide), trivial⟩ ?_
  exact congrArg (fun a => some (Instr.query h a)) (fields.pbits (.head _))

theorem spellsPacket_eventAck (ack : BitVec 48) : SpellsPacket (.eventAck h ack) h 0x05 ack.toNat := by
  have fields : FieldsIn (8 * 48) 0 [(0, 48, ack.toNat)] := ⟨⟨by decide, by decide, ack.isLt⟩, trivial⟩
  refine .of_fields (by simp [packedFields]) fields rfl (by decide) (by decide) ⟨field_and_mask ack.isLt (by decide), trivial⟩ ?_
  exact congrArg (fun a => some (Instr.eventAck h a)) (fields.pbits (.head _))

theorem spellsPacket_dmaCopy (p : CopyParams) : SpellsPacket (.dmaCopy h p) h 0x10 (p.src.toNat + encField 8 0 p.dst.toNat +
    encField 0x10 0 p.length.toNat + encField 0x18 0 (flag p.digest) + encField 0x20 0 p.digestAddr.toNat) := by
  obtain ⟨src, dst, length, digest, digestAddr⟩ := p
  have fields : FieldsIn (8 * 48) 0 [(0, 48, src.toNat), (8 * 8, 48, dst.toNat), (8 * 0x10, 64, length.toNat), (8 * 0x18, 1, flag digest),
      (8 * 0x20, 48, digestAddr.toNat)] :=
    ⟨⟨by decide, by decide, src.isLt⟩, ⟨by decide, by decide, dst.isLt⟩, ⟨by decide, by decide, length.isLt⟩,
      ⟨by decide, by decide, flag_lt digest⟩, ⟨by decide, by decide, digestAddr.isLt⟩, trivial⟩
  refine .of_fields (by simp [packedFields, encField, Nat.add_assoc]) fields rfl (by decide) (by decide)
    ⟨field_and_mask src.isLt (by decide), field_and_mask dst.isLt (by decide), field_and_mask length.isLt (by decide),
      field_and_mask (flag_lt digest) (by decide), field_and_mask digestAddr.isLt (by decide), trivial⟩ ?_
  show some (Instr.dmaCopy h ⟨_, _, _, _, _⟩) = _
  rw [fields.pbits (x := src) (by simp), fields.pbits (x := dst) (by simp), fields.pbits (x := length) (by simp),
    fields.pflag (b := digest) (by simp), fields.pbits (x := digestAddr) (by simp)]

theorem spellsPacket_loadShard_memory (src dst : BitVec 48) (length : BitVec 64) (manifest : BitVec 48) :
    SpellsPacket (.loadShard h ⟨.memory src, dst, length, manifest⟩) h 0x11 (encField 8 0 src.toNat + encField 0x10 0 dst.toNat +
      encField 0x18 0 length.toNat + encField 0x20 0 manifest.toNat) := by
  have fields : FieldsIn (8 * 48) 0 [(0, 8, 0), (8 * 8, 48, src.toNat), (8 * 0x10, 48, dst.toNat), (8 * 0x18, 64, length.toNat),
      (8 * 0x20, 48, manifest.toNat)] :=
    ⟨⟨by decide, by decide, by decide⟩, ⟨by decide, by decide, src.isLt⟩, ⟨by decide, by decide, dst.isLt⟩,
      ⟨by decide, by decide, length.isLt⟩, ⟨by decide, by decide, manifest.isLt⟩, trivial⟩
  refine .of_fields (by simp [packedFields, encField, Nat.add_assoc]) fields rfl (by decide) (by decide)
    ⟨by decide, field_and_mask src.isLt (by decide), field_and_mask dst.isLt (by decide), field_and_mask length.isLt (by decide),
      field_and_mask manifest.isLt (by decide), trivial⟩ ?_
  rw [packetInstr_memory (by decide), memoryInstr_loadShard_memory (fields.field (by simp)), fields.pbits (x := src) (by simp), fields.pbits (x := dst) (by simp), fields.pbits (x := length) (by simp),
    fields.pbits (x := manifest) (by simp)]

theorem spellsPacket_loadShard_stream (id : BitVec 32) (dst : BitVec 48) (length : BitVec 64) (manifest : BitVec 48) :
    SpellsPacket (.loadShard h ⟨.stream id, dst, length, manifest⟩) h 0x11 (1 + encField 4 0 id.toNat + encField 0x10 0 dst.toNat +
      encField 0x18 0 length.toNat + encField 0x20 0 manifest.toNat) := by
  have fields : FieldsIn (8 * 48) 0 [(0, 8, 1), (8 * 4, 32, id.toNat), (8 * 0x10, 48, dst.toNat), (8 * 0x18, 64, length.toNat),
      (8 * 0x20, 48, manifest.toNat)] :=
    ⟨⟨by decide, by decide, by decide⟩, ⟨by decide, by decide, id.isLt⟩, ⟨by decide, by decide, dst.isLt⟩,
      ⟨by decide, by decide, length.isLt⟩, ⟨by decide, by decide, manifest.isLt⟩, trivial⟩
  refine .of_fields (by simp [packedFields, encField, Nat.add_assoc]) fields rfl (by decide) (by decide)
    ⟨by decide, field_and_mask id.isLt (by decide), field_and_mask dst.isLt (by decide), field_and_mask length.isLt (by decide),
      field_and_mask manifest.isLt (by decide), trivial⟩ ?_
  rw [packetInstr_memory (by decide), memoryInstr_loadShard_stream (fields.field (by simp)), fields.pbits (x := id) (by simp), fields.pbits (x := dst) (by simp), fields.pbits (x := length) (by simp),
    fields.pbits (x := manifest) (by simp)]

theorem spellsPacket_swapTense (at_ : BitVec 48) (cancel : Bool) :
    SpellsPacket (.swapTense h at_ cancel) h 0x12 (at_.toNat + encField 8 0 (flag cancel)) := by
  have fields : FieldsIn (8 * 48) 0 [(0, 48, at_.toNat), (8 * 8, 1, flag cancel)] :=
    ⟨⟨by decide, by decide, at_.isLt⟩, ⟨by decide, by decide, flag_lt cancel⟩, trivial⟩
  refine .of_fields (by simp [packedFields, encField]) fields rfl (by decide) (by decide)
    ⟨field_and_mask at_.isLt (by decide), field_and_mask (flag_lt cancel) (by decide), trivial⟩ ?_
  show some (Instr.swapTense h _ _) = _
  rw [fields.pbits (x := at_) (by simp), fields.pflag (b := cancel) (by simp)]

theorem spellsPacket_verifyShard_present : SpellsPacket (.verifyShard h .present) h 0x13 0 :=
  .of_fields (fs := []) rfl trivial rfl (by decide) (by decide) trivial rfl

theorem spellsPacket_verifyShard_future : SpellsPacket (.verifyShard h .future) h 0x13 1 :=
  .of_fields (fs := [(0, 8, 1)]) rfl ⟨⟨by decide, by decide, by decide⟩, trivial⟩ rfl (by decide) (by decide) ⟨by decide, trivial⟩ rfl

theorem spellsPacket_verifyShard_region (a : BitVec 48) (n : BitVec 64) (m : BitVec 48) :
    SpellsPacket (.verifyShard h (.region a n m)) h 0x13 (2 + encField 8 0 a.toNat + encField 0x10 0 n.toNat + encField 0x18 0 m.toNat) := by
  have fields : FieldsIn (8 * 48) 0 [(0, 8, 2), (8 * 8, 48, a.toNat), (8 * 0x10, 64, n.toNat), (8 * 0x18, 48, m.toNat)] :=
    ⟨⟨by decide, by decide, by decide⟩, ⟨by decide, by decide, a.isLt⟩, ⟨by decide, by decide, n.isLt⟩, ⟨by decide, by decide, m.isLt⟩, trivial⟩
  refine .of_fields (by simp [packedFields, encField, Nat.add_assoc]) fields rfl (by decide) (by decide)
    ⟨by decide, field_and_mask a.isLt (by decide), field_and_mask n.isLt (by decide), field_and_mask m.isLt (by decide), trivial⟩ ?_
  rw [packetInstr_memory (by decide), memoryInstr_verifyShard_region (fields.field (by simp)), fields.pbits (x := a) (by simp), fields.pbits (x := n) (by simp), fields.pbits (x := m) (by simp)]

theorem spellsPacket_gatherSetup (count : BitVec 16) (base : BitVec 48) (slotBytes : BitVec 64) (table : BitVec 48) :
    SpellsPacket (.gatherSetup h count base slotBytes table) h 0x14 (1 + encField 4 16 count.toNat + encField 8 0 base.toNat +
      encField 0x10 0 slotBytes.toNat + encField 0x18 0 table.toNat) := by
  have fields : FieldsIn (8 * 48) 0 [(0, 8, 1), (8, 2, (0 : Fin 3).val), (8 * 4 + 16, 16, count.toNat), (8 * 8, 48, base.toNat),
      (8 * 0x10, 64, slotBytes.toNat), (8 * 0x18, 48, table.toNat)] :=
    ⟨⟨by decide, by decide, by decide⟩, ⟨by decide, by decide, by decide⟩, ⟨by decide, by decide, count.isLt⟩, ⟨by decide, by decide, base.isLt⟩,
      ⟨by decide, by decide, slotBytes.isLt⟩, ⟨by decide, by decide, table.isLt⟩, trivial⟩
  refine .of_fields (by simp [packedFields, encField, Nat.add_assoc]) fields rfl (by decide) (by decide)
    ⟨by decide, by decide, field_and_mask count.isLt (by decide), field_and_mask base.isLt (by decide), field_and_mask slotBytes.isLt (by decide),
      field_and_mask table.isLt (by decide), trivial⟩ ?_
  rw [packetInstr_memory (by decide), memoryInstr_gatherSetup (fields.field (by simp)) (fields.slotOf (k := 0) (by simp)), fields.pbits (x := count) (by simp), fields.pbits (x := base) (by simp),
    fields.pbits (x := slotBytes) (by simp), fields.pbits (x := table) (by simp)]

theorem spellsPacket_gatherFetch (slot : Fin 3) (layer : BitVec 16) :
    SpellsPacket (.gatherFetch h slot layer) h 0x14 (2 + encField 0 8 slot.val + encField 4 0 layer.toNat) := by
  have two : slot.val < 2 ^ 2 := by omega
  have fields : FieldsIn (8 * 48) 0 [(0, 8, 2), (8, 2, slot.val), (8 * 4, 16, layer.toNat)] :=
    ⟨⟨by decide, by decide, by decide⟩, ⟨by decide, by decide, two⟩, ⟨by decide, by decide, layer.isLt⟩, trivial⟩
  refine .of_fields (by simp [packedFields, encField, Nat.add_assoc]) fields rfl (by decide) (by decide)
    ⟨by decide, field_and_mask two (by decide), field_and_mask layer.isLt (by decide), trivial⟩ ?_
  rw [packetInstr_memory (by decide), memoryInstr_gatherFetch (fields.field (by simp)) (fields.slotOf (k := slot) (by simp)), fields.pbits (x := layer) (by simp)]

theorem spellsPacket_gatherRelease (slot : Fin 3) : SpellsPacket (.gatherRelease h slot) h 0x14 (3 + encField 0 8 slot.val) := by
  have two : slot.val < 2 ^ 2 := by omega
  have fields : FieldsIn (8 * 48) 0 [(0, 8, 3), (8, 2, slot.val)] :=
    ⟨⟨by decide, by decide, by decide⟩, ⟨by decide, by decide, two⟩, trivial⟩
  refine .of_fields (by simp [packedFields, encField]) fields rfl (by decide) (by decide)
    ⟨by decide, field_and_mask two (by decide), trivial⟩ ?_
  rw [packetInstr_memory (by decide), memoryInstr_gatherRelease (fields.field (by simp)) (fields.slotOf (k := slot) (by simp))]

theorem spellsPacket_fill (dst : BitVec 48) (length : BitVec 64) (width : FillWidth) (pattern : BitVec 64) :
    SpellsPacket (.fill h dst length width pattern) h 0x15 (dst.toNat + encField 8 0 length.toNat + encField 0x10 0 (widthCode width) +
      encField 0x18 0 pattern.toNat) := by
  have two : widthCode width < 2 ^ 2 := by cases width <;> decide
  have fields : FieldsIn (8 * 48) 0 [(0, 48, dst.toNat), (8 * 8, 64, length.toNat), (8 * 0x10, 2, widthCode width), (8 * 0x18, 64, pattern.toNat)] :=
    ⟨⟨by decide, by decide, dst.isLt⟩, ⟨by decide, by decide, length.isLt⟩, ⟨by decide, by decide, two⟩, ⟨by decide, by decide, pattern.isLt⟩, trivial⟩
  refine .of_fields (by simp [packedFields, encField, Nat.add_assoc]) fields rfl (by decide) (by decide)
    ⟨field_and_mask dst.isLt (by decide), field_and_mask length.isLt (by decide), field_and_mask two (by decide),
      field_and_mask pattern.isLt (by decide), trivial⟩ ?_
  rw [packetInstr_memory (by decide), memoryInstr_fill (width := width) (fields.field (by simp)), fields.pbits (x := dst) (by simp), fields.pbits (x := length) (by simp),
    fields.pbits (x := pattern) (by simp)]

end Commands

/-- Every command that has a packet here is spelled by its parameters. -/
theorem spellsPacket_of_packetParts {i : Instr} {h : Hdr} {op v : Nat} (parts : packetParts i = some (h, op, v)) : SpellsPacket i h op v := by
  unfold packetParts at parts
  split at parts
  case h_5 p =>
    obtain ⟨src | id, dst, length, manifest⟩ := p
    · cases parts
      exact spellsPacket_loadShard_memory ..
    · cases parts
      exact spellsPacket_loadShard_stream ..
  case h_7 target =>
    cases target with
    | present => cases parts; exact spellsPacket_verifyShard_present _
    | future => cases parts; exact spellsPacket_verifyShard_future _
    | region => cases parts; exact spellsPacket_verifyShard_region ..
  case h_1 => cases parts; exact spellsPacket_nop _
  case h_2 => cases parts; exact spellsPacket_query ..
  case h_3 => cases parts; exact spellsPacket_eventAck ..
  case h_4 => cases parts; exact spellsPacket_dmaCopy ..
  case h_6 => cases parts; exact spellsPacket_swapTense ..
  case h_8 => cases parts; exact spellsPacket_gatherSetup ..
  case h_9 => cases parts; exact spellsPacket_gatherFetch ..
  case h_10 => cases parts; exact spellsPacket_gatherRelease ..
  case h_11 => cases parts; exact spellsPacket_fill ..
  case h_12 => cases parts

/-! ## Headers of flits (R312, R313, R444, R445) -/

/-- The fields of a Zorren flit's header. -/
def FlitHeader.fields (h : FlitHeader) : List (Nat × Nat × Nat) :=
  [(0, 5, h.type), (5, 2, h.vc), (7, 1, flag h.dl), (8, 1, flag h.last), (9, 1, flag h.pool), (10, 4, h.cr), (14, 15, h.seq), (29, 15, h.ack),
    (44, 4, h.credits), (48, 24, h.dest), (72, 24, h.src)]

section Flit
variable {h : FlitHeader} (type : h.type < 2 ^ 5) (vc : h.vc < 4) (cr : h.cr < 16) (seq : h.seq < 2 ^ 15) (ack : h.ack < 2 ^ 15)
  (credits : h.credits < 16) (dest : h.dest < 2 ^ 24) (src : h.src < 2 ^ 24)
include type vc cr seq ack credits dest src

theorem FlitHeader.fieldsIn : FieldsIn (8 * 12) 0 h.fields :=
  ⟨⟨by decide, by decide, type⟩, ⟨by decide, by decide, vc⟩, ⟨by decide, by decide, flag_lt _⟩, ⟨by decide, by decide, flag_lt _⟩,
    ⟨by decide, by decide, flag_lt _⟩, ⟨by decide, by decide, cr⟩, ⟨by decide, by decide, seq⟩, ⟨by decide, by decide, ack⟩,
    ⟨by decide, by decide, credits⟩, ⟨by decide, by decide, dest⟩, ⟨by decide, by decide, src⟩, trivial⟩

theorem FlitHeader.word_eq : h.word = packedFields h.fields := by
  rw [FlitHeader.word, Nat.mod_eq_of_lt type, Nat.mod_eq_of_lt vc, Nat.mod_eq_of_lt cr, Nat.mod_eq_of_lt seq, Nat.mod_eq_of_lt ack,
    Nat.mod_eq_of_lt credits, Nat.mod_eq_of_lt dest, Nat.mod_eq_of_lt src]
  simp [FlitHeader.fields, packedFields, Nat.add_assoc]

theorem FlitHeader.ofWord_word : FlitHeader.ofWord h.word = h := by
  have fields := FlitHeader.fieldsIn type vc cr seq ack credits dest src
  rw [FlitHeader.word_eq type vc cr seq ack credits dest src, FlitHeader.ofWord]
  cases h
  rw [FlitHeader.mk.injEq]
  refine ⟨fields.field ?_, fields.field ?_, fields.bit ?_, fields.bit ?_, fields.bit ?_, fields.field ?_, fields.field ?_, fields.field ?_,
    fields.field ?_, fields.field ?_, fields.field ?_⟩
  all_goals simp [FlitHeader.fields]

end Flit

theorem crc32Byte_lt {c : Nat} (low : c < 2 ^ 32) (b : Byte) : crc32Byte c b < 2 ^ 32 := by
  have shift (c : Nat) (low : c < 2 ^ 32) : (if c % 2 = 1 then (c / 2) ^^^ 0xEDB88320 else c / 2) < 2 ^ 32 := by
    split
    · exact Nat.xor_lt_two_pow (by omega) (by decide)
    · omega
  exact List.foldlRecOn (motive := (· < 2 ^ 32)) (List.range 8) _ (Nat.xor_lt_two_pow low (b.isLt.trans (by decide))) fun c low _ _ => shift c low

theorem crc32_lt (bs : List Byte) : crc32 bs < 2 ^ 32 :=
  Nat.xor_lt_two_pow (List.foldlRecOn (motive := (· < 2 ^ 32)) bs _ (by decide) fun _ low b _ => crc32Byte_lt low b) (by decide)

/-- The image of a flit is its header, a CRC that agrees with its contents, and its payload. -/
theorem flitImage_parts (h : FlitHeader) {payload : List Byte} (full : payload.length = 240) : (flitImage h payload).length = 256 ∧
    imageOk (flitImage h payload) = true ∧ (flitImage h payload).take 12 = leBytes 12 h.word ∧ (flitImage h payload).drop 16 = payload := by
  have image : flitImage h payload = leBytes 12 h.word ++ (leBytes 4 (crc32 (leBytes 12 h.word ++ payload)) ++ payload) := List.append_assoc ..
  have head : (flitImage h payload).take 12 = leBytes 12 h.word := by rw [image, List.take_left' (length_leBytes ..)]
  have body : (flitImage h payload).drop 16 = payload := List.drop_left' (by simp)
  have crc : leAt (flitImage h payload) 12 4 = crc32 (leBytes 12 h.word ++ payload) := leAt_of_parts image (length_leBytes ..) (crc32_lt _)
  refine ⟨by simp [image, full], decide_eq_true ?_, head, body⟩
  rw [head, body, crc]

/-- The fields of an Orrex Link flit's header. -/
def OxlFlitHdr.fields (h : OxlFlitHdr) : List (Nat × Nat × Nat) := [(0, 14, h.start), (14, 2, h.type), (16, 2, h.crClass), (18, 10, h.crSlots)]

theorem OxlFlitHdr.ofWord_word {h : OxlFlitHdr} (start : h.start < 2 ^ 14) (type : h.type < 3) (cls : h.crClass < 4) (slots : h.crSlots < 2 ^ 10) :
    OxlFlitHdr.ofWord h.word = some h := by
  have two : h.type < 4 := by omega
  have fields : FieldsIn (8 * 12) 0 h.fields :=
    ⟨⟨by decide, by decide, start⟩, ⟨by decide, by decide, two⟩, ⟨by decide, by decide, cls⟩, ⟨by decide, by decide, slots⟩, trivial⟩
  have word : h.word = packedFields h.fields := by
    rw [OxlFlitHdr.word, Nat.mod_eq_of_lt start, Nat.mod_eq_of_lt two, Nat.mod_eq_of_lt cls, Nat.mod_eq_of_lt slots]
    simp [OxlFlitHdr.fields, packedFields, Nat.add_assoc]
  have read : bits h.word 0 14 = h.start ∧ bits h.word 14 2 = h.type ∧ bits h.word 16 2 = h.crClass ∧ bits h.word 18 10 = h.crSlots := by
    rw [word]
    refine ⟨fields.field ?_, fields.field ?_, fields.field ?_, fields.field ?_⟩
    all_goals simp [OxlFlitHdr.fields]
  obtain ⟨r1, r2, r3, r4⟩ := read
  rw [OxlFlitHdr.ofWord, r1, r2, r3, r4, if_neg (by omega)]

/-- The fields of the first 4 bytes of a header slot. -/
def OxlHead.fields (h : OxlHead) : List (Nat × Nat × Nat) := [(0, 8, h.opc), (8, 12, h.tag), (20, 4, h.status), (24, 7, h.slots)]

/-- The fields of its last 8 bytes. -/
def OxlHead.addressFields (h : OxlHead) : List (Nat × Nat × Nat) := [(0, 48, h.address), (48, 2, h.window)]

theorem OxlHead.ofBytes_bytes {h : OxlHead} (opc : h.opc < 2 ^ 8) (tag : h.tag < 2 ^ 12) (status : h.status < 2 ^ 4) (slots : h.slots < 2 ^ 7)
    (aux : h.aux < 2 ^ 32) (address : h.address < 2 ^ 48) (window : h.window < 4) : OxlHead.ofBytes h.bytes = h := by
  have fields : FieldsIn (8 * 4) 0 h.fields :=
    ⟨⟨by decide, by decide, opc⟩, ⟨by decide, by decide, tag⟩, ⟨by decide, by decide, status⟩, ⟨by decide, by decide, slots⟩, trivial⟩
  have places : FieldsIn (8 * 8) 0 h.addressFields := ⟨⟨by decide, by decide, address⟩, ⟨by decide, by decide, window⟩, trivial⟩
  have bytes : h.bytes = leBytes 4 (packedFields h.fields) ++ leBytes 4 h.aux ++ leBytes 8 (packedFields h.addressFields) := by
    rw [OxlHead.bytes, Nat.mod_eq_of_lt opc, Nat.mod_eq_of_lt tag, Nat.mod_eq_of_lt status, Nat.mod_eq_of_lt slots, Nat.mod_eq_of_lt address,
      Nat.mod_eq_of_lt window]
    simp [OxlHead.fields, OxlHead.addressFields, packedFields, Nat.add_assoc]
  have word : leAt h.bytes 0 4 = packedFields h.fields :=
    leAt_of_parts (by rw [bytes, List.append_assoc, List.nil_append]) List.length_nil fields.lt
  have middle : leAt h.bytes 4 4 = h.aux := leAt_of_parts (by rw [bytes, List.append_assoc]) (length_leBytes ..) aux
  have last : leAt h.bytes 8 8 = packedFields h.addressFields :=
    leAt_of_parts (by rw [bytes, List.append_nil]) (by simp) places.lt
  rw [OxlHead.ofBytes, word, middle, last]
  cases h
  rw [OxlHead.mk.injEq]
  refine ⟨fields.field ?_, fields.field ?_, fields.field ?_, fields.field ?_, rfl, places.field ?_, places.field ?_⟩
  all_goals simp [OxlHead.fields, OxlHead.addressFields]

/-- Settles O60: a packet and each header is a number of fields one above the other, and every such field reads back. -/
theorem packetsReadBack : Obligations.PacketsReadBack := by
  unfold Obligations.PacketsReadBack
  refine ⟨fun i h op v bs parts packet => ?_, fun h => ?_, fun h type vc cr seq ack credits dest src => ⟨?_, fun payload full => ?_⟩,
    fun h start type cls slots => ?_, fun h opc tag status slots aux address window => ⟨?_, ?_⟩⟩
  · have bytes : bs = encodeHead h op ++ leBytes 48 v := by
      rw [encodePacket, parts] at packet
      exact (Option.some.inj packet).symm
    exact (spellsPacket_of_packetParts parts).readsBack bytes
  · exact ⟨rfl, fun _ => ⟨rfl, rfl⟩, fun _ => rfl, fun _ => rfl, fun _ _ => rfl, fun _ => rfl, fun _ _ _ _ => rfl, fun _ _ => ⟨rfl, rfl⟩,
      fun _ _ _ _ => rfl⟩
  · exact FlitHeader.ofWord_word type vc cr seq ack credits dest src
  · exact flitImage_parts h full
  · exact OxlFlitHdr.ofWord_word start type cls slots
  · simp [OxlHead.bytes]
  · exact OxlHead.ofBytes_bytes opc tag status slots aux address window

end Sys2Proof.Machine

/-!
PROOF. FILL and DMA_COPY store their bytes (statement FillAndCopyWrite).
-/
namespace Sys2Proof.Machine

/-! ## Steps on HBM of a sound state -/

theorem lt_hbmEnd_of_range {a n : Nat} (fits : a + n ≤ hbmEnd) (some_ : 0 < n) : a < hbmEnd := by omega

/-- A step that writes HBM of a sound state has stored its bytes. -/
theorem State.writeAct_sound {s : State} (sound : s.Sound) {a : Nat} {bs : List Byte} (fits : a + bs.length ≤ hbmEnd) (low : a < hbmEnd) (c : CmdRef) :
    s.writeAct a bs c = (s.stored a bs (some c), .ok ()) := by
  unfold State.writeAct
  rw [State.writeAt_sound sound fits low]
  rfl

theorem State.physical_hbm {a : Nat} (low : a < hbmEnd) (s : State) : s.physical a = a := by
  unfold State.physical spaceOf
  rw [if_pos low]

/-! ## The bytes of a pattern (R290) -/

theorem fillBytes_pos (width : FillWidth) : 0 < fillBytes width := by cases width <;> decide

theorem leBytes_eq_ofFn (n v : Nat) : leBytes n v = List.ofFn fun i : Fin n => BitVec.ofNat 8 (v / 256 ^ i.val) := by
  induction n generalizing v with
  | zero => rfl
  | succ n ih =>
    rw [leBytes, ih, List.ofFn_succ]
    simp only [Fin.val_zero, Nat.pow_zero, Nat.div_one, Fin.val_succ, Nat.div_div_eq_div_mul, Nat.pow_succ']

/-- A pattern over whole elements is as long as it has to be, and its bytes are those of the element again and again. -/
theorem length_fillPattern {w n : Nat} (pattern : Nat) (whole : n % w = 0) : (fillPattern w pattern n).length = n := by
  simp only [fillPattern, List.length_flatten, List.map_replicate, List.sum_replicate_nat, length_leBytes,
    Nat.div_mul_cancel (Nat.dvd_of_mod_eq_zero whole)]

theorem getD_fillPattern {w n i : Nat} (pattern : Nat) (inside : i < (fillPattern w pattern n).length) :
    (fillPattern w pattern n).getD i 0 = BitVec.ofNat 8 (pattern / 256 ^ (i % w)) := by
  have same : fillPattern w pattern n = List.ofFn (Fin.repeat (n / w) fun i : Fin w => BitVec.ofNat 8 (pattern / 256 ^ i.val)) := by
    rw [fillPattern, leBytes_eq_ofFn, List.ofFn_fin_repeat]
  rw [List.getD_eq_getElem _ _ inside, List.getElem_of_eq same, List.getElem_ofFn]
  rfl

/-! ## The bodies -/

section Bodies
variable {s : State} (sound : s.Sound) {h : Hdr}
include sound

theorem State.fillBody_stores {dst n : Nat} {width : FillWidth} (pattern : Nat) (aligned : dst % fillBytes width = 0) (whole : n % fillBytes width = 0)
    (some_ : 0 < n) (fits : dst + n ≤ hbmEnd) (unfenced : s.fenceHit h [(dst, n)] = false) (c : CmdRef) :
    s.fillBody h dst n width pattern c =
      (s.stored dst (fillPattern (fillBytes width) pattern n) (some c)).ok (crc64 (fillPattern (fillBytes width) pattern n)) := by
  have low := lt_hbmEnd_of_range fits some_
  have checks : ∀ b ∈ [(decide (dst % fillBytes width ≠ 0 ∨ n = 0 ∨ n % fillBytes width ≠ 0), ST_BAD_PARAM), (s.fenceHit h [(dst, n)], ST_BAD_PARAM)],
      b.1 = false := by
    simp [aligned, whole, unfenced, Nat.pos_iff_ne_zero.1 some_]
  unfold State.fillBody
  rw [State.guard_pass checks, State.spanFault_hbm fits low]
  dsimp only
  rw [State.writeAct_sound sound (by rwa [length_fillPattern _ whole]) low]

end Bodies

theorem copyEncoded_plain {p : CopyParams} (plain : p.digest = false) (some_ : 1 ≤ p.length.toNat) (short : p.length.toNat ≤ 2 ^ 40) :
    copyEncoded p = true := by
  rw [copyEncoded, plain, decide_eq_true ⟨some_, short⟩]
  rfl

section Copy
variable {s : State} {h : Hdr} {p : CopyParams} (plain : p.digest = false) (some_ : 1 ≤ p.length.toNat) (short : p.length.toNat ≤ 2 ^ 40)
  (srcFits : p.src.toNat + p.length.toNat ≤ hbmEnd) (dstFits : p.dst.toNat + p.length.toNat ≤ hbmEnd)
  (unfenced : s.fenceHit h [(p.dst.toNat, p.length.toNat)] = false)
include plain some_ srcFits dstFits unfenced

/-- A copy within HBM fails for an overlap alone (R292). -/
theorem State.copyFault_hbm : s.copyFault h p =
    if overlaps p.src.toNat p.length.toNat p.dst.toNat p.length.toNat then some ST_BAD_PARAM else none := by
  have srcLow := lt_hbmEnd_of_range srcFits some_
  have dstLow := lt_hbmEnd_of_range dstFits some_
  simp [State.copyFault, plain, unfenced, State.spanFault_hbm srcFits srcLow, State.spanFault_hbm dstFits dstLow, firstFault,
    State.physical_hbm srcLow]

include short

theorem State.dmaCopy_overlaps (overlap : overlaps p.src.toNat p.length.toNat p.dst.toNat p.length.toNat = true) (c : CmdRef) :
    s.dmaCopy h p c = s.fail ST_BAD_PARAM := by
  have encoded := copyEncoded_plain plain some_ short
  simp only [State.dmaCopy, encoded, State.copyFault_hbm plain some_ srcFits dstFits unfenced, overlap, if_true, Bool.not_true, Bool.false_eq_true,
    if_false]

theorem State.dmaCopy_stores (sound : s.Sound) (apart : overlaps p.src.toNat p.length.toNat p.dst.toNat p.length.toNat = false) (c : CmdRef) :
    s.dmaCopy h p c = (s.stored p.dst.toNat (s.hbm.read p.src.toNat p.length.toNat) (some c)).ok (crc64 (s.hbm.read p.src.toNat p.length.toNat)) := by
  have encoded := copyEncoded_plain plain some_ short
  have read := State.readAct_sound sound srcFits (lt_hbmEnd_of_range srcFits some_) c
  have written := State.writeAct_sound sound (bs := s.hbm.read p.src.toNat p.length.toNat) (by rwa [Mem.length_read])
    (lt_hbmEnd_of_range dstFits some_) c
  simp only [State.dmaCopy, encoded, State.copyFault_hbm plain some_ srcFits dstFits unfenced, apart, Bool.not_true, Bool.false_eq_true,
    if_false, read, written, plain]

end Copy

/-! ## The rows -/

/-- A command whose body stores bytes and ends; where nothing watches them, they are all that it changes. -/
theorem State.run_stored {s : State} {h : Hdr} {op a r : Nat} {b : Binding} {bs : List Byte} {body : CmdRef → State → Body}
    (bound : s.bindingOk h b = true) (stores : body (s.refOf h op) s = (s.stored a bs (some (s.refOf h op))).ok r) :
    (s.run h op b body).settle = ((s.stored a bs (some (s.refOf h op))).finish (s.refOf h op) (Done.ok r)).settle ∧
      (s.Calm → s.Unwatched a bs.length → ∃ t : State, s.Stores t a bs ∧ (s.run h op b body).settle = t.finish (s.refOf h op) (Done.ok r)) := by
  have ends := congrArg State.settle (State.run_ends bound stores (congrArg OxlState.missing (State.stored_oxl ..)))
  exact ⟨ends, fun calm unwatched => ⟨_, s.stores_write a bs, ends.trans (State.settle_stored calm unwatched ..)⟩⟩

/-- Settles O12: each body stores its bytes and ends with their CRC-64, and an overlap is the one fault that is left. -/
theorem fillAndCopyWrite : Obligations.FillAndCopyWrite := by
  unfold Obligations.FillAndCopyWrite
  refine fun h s sound bound => ⟨fun dst length width pattern aligned whole some_ fits unfenced => ?_,
    fun p plain some_ short srcFits dstFits unfenced => ⟨fun apart => ?_, fun overlap => ?_⟩⟩
  · have size := length_fillPattern (w := fillBytes width) pattern.toNat whole
    obtain ⟨ends, calmly⟩ := State.run_stored (op := 0x15) bound (body := fun c s => s.fillBody h dst.toNat length.toNat width pattern.toNat c)
      (State.fillBody_stores sound pattern.toNat aligned whole some_ fits unfenced _)
    refine ⟨_, size, fun i inside => getD_fillPattern _ inside, congrArg done ends, fun calm unwatched => ?_⟩
    obtain ⟨t, stores, ends⟩ := calmly calm (by rwa [size])
    exact ⟨t, stores, congrArg done ends⟩
  · obtain ⟨ends, calmly⟩ := State.run_stored (op := 0x10) bound (body := fun c s => s.dmaCopy h p c)
      (State.dmaCopy_stores plain some_ short srcFits dstFits unfenced sound apart _)
    refine ⟨congrArg done ends, fun calm unwatched => ?_⟩
    obtain ⟨t, stores, ends⟩ := calmly calm (by rwa [Mem.length_read])
    exact ⟨t, stores, congrArg done ends⟩
  · exact congrArg (fun u : State => done u.settle) (State.run_ends (body := fun c s => s.dmaCopy h p c) bound
      (State.dmaCopy_overlaps plain some_ short srcFits dstFits unfenced overlap _) rfl)

end Sys2Proof.Machine

/-!
PROOF. SWAP_TENSE arms the exchange of the banks, cancels it or refuses it (statement SwapTenseArms).
-/
namespace Sys2Proof.Machine

/-- A field of the stacks' or of the data mover's registers (R283, R308). -/
def memoryField (f : Field) : Prop := 0x700000 * 64 ≤ f.key ∧ f.key < 0x900000 * 64

/-- No such field is one that calm speaks of. -/
theorem memoryField.not_calm {f : Field} (h : memoryField f) : ¬ calmField f := by
  obtain ⟨low, high⟩ := h
  refine not_calmField (fun e => ?_) (fun e => ?_) (fun e => ?_) fun k hk e => ?_
  all_goals rw [e] at low high
  · exact absurd low (by decide)
  · exact absurd high (by decide)
  · exact absurd low (by decide)
  · simp only [Field.key, Reg.CP_RING_STATUS] at low
    omega

/-- SWAP_TENSE's body with an arm that takes the tick of Period `n`. -/
def State.armSwap (s : State) (n : Nat) : State := (s.put F.TB_STATE_ARMED 1).put F.TB_AT_AT_PERIOD n

theorem State.swapTense_arms {s : State} {n : Nat} (verified : s.bankState (s.bankOf .future) = 2) (open_ : s.tickPassed n = false) :
    s.swapTense n false = (s.armSwap n).ok 0 := by
  have checks : ∀ b ∈ [(decide (s.bankState (s.bankOf .future) ≠ 2), ST_NOT_READY), (s.tickPassed n, ST_BAD_PARAM)], b.1 = false := by
    simp [verified, open_]
  unfold State.swapTense
  rw [if_neg Bool.false_ne_true, State.guard_pass checks]
  rfl

theorem State.swapTense_unverified {s : State} {n : Nat} (lacking : s.bankState (s.bankOf .future) ≠ 2) :
    s.swapTense n false = s.fail ST_NOT_READY := by
  unfold State.swapTense
  rw [if_neg Bool.false_ne_true, State.guard_fails (decide_eq_true lacking)]

theorem State.Calm.putArmed {s : State} (calm : s.Calm) (v : Nat) : (s.put F.TB_STATE_ARMED v).Calm :=
  calm.put (memoryField.not_calm ⟨by decide, by decide⟩) v

theorem State.Calm.armSwap {s : State} (calm : s.Calm) (n : Nat) : (s.armSwap n).Calm :=
  (calm.putArmed 1).put (memoryField.not_calm ⟨by decide, by decide⟩) n

theorem State.armSwap_regs (s : State) {n : Nat} (fits : n < 2 ^ 48) : (s.armSwap n).get F.TB_STATE_ARMED = 1 ∧
    (s.armSwap n).get F.TB_AT_AT_PERIOD = n ∧ s.sameRegs (s.armSwap n) [F.TB_STATE_ARMED, F.TB_AT_AT_PERIOD] := by
  have same : s.sameRegs s [F.TB_STATE_ARMED, F.TB_AT_AT_PERIOD] := fun _ _ => rfl
  refine ⟨?_, ?_, State.sameRegs_put (State.sameRegs_put same (by simp) 1) (by simp) n⟩
  · exact (State.get_put_other (by decide) ..).trans (State.get_put_same ..)
  · rw [State.armSwap, State.get_put_same, Nat.mod_eq_of_lt fits]

/-- SWAP_TENSE whose body ends in a calm state. -/
theorem execSwapTense_calm {h : Hdr} {s t : State} {n : BitVec 48} {cancel : Bool} {d : Done} (bound : s.bindingOk h .notBound = true)
    (body : s.swapTense n.toNat cancel = (t, some d)) (kept : t.oxl.missing = s.oxl.missing) (after : t.Calm) :
    exec (.swapTense h n cancel) s = .next (t.finish (s.refOf h 0x12) d) :=
  congrArg done (State.run_settle_calm (body := fun _ s => s.swapTense n.toNat cancel) bound body kept after)

/-- Settles O13: the body writes ARMED, with AT_PERIOD when it arms, and a calm state has no more to do. -/
theorem swapTenseArms : Obligations.SwapTenseArms := by
  unfold Obligations.SwapTenseArms
  intro h n s calm bound
  refine ⟨fun verified open_ => ?_, fun lacking => ?_, ?_⟩
  · obtain ⟨armed, at_, others⟩ := s.armSwap_regs n.isLt
    exact ⟨_, execSwapTense_calm bound (State.swapTense_arms verified open_) rfl (calm.armSwap _), rfl, armed, at_, others⟩
  · exact execSwapTense_calm bound (State.swapTense_unverified lacking) rfl calm
  · exact ⟨_, execSwapTense_calm bound rfl rfl (calm.putArmed 0), rfl, State.get_put_same .., State.sameRegs_put (fun _ _ => rfl) (by simp) 0⟩

end Sys2Proof.Machine

/-!
PROOF. LOAD_SHARD, VERIFY_SHARD and the re-verification of a bank, for shards of one chunk (statement ShardsLoadAndVerify).
-/
namespace Sys2Proof.Machine

/-! ## Registers of the data mover -/

/-- From `s` to `t` fields of the kind `P` have changed, and nothing else. -/
def State.PutsWithin (P : Field → Prop) (s t : State) : Prop := t = { s with regs := t.regs } ∧ ∀ f : Field, ¬ P f → t.get f = s.get f

section PutsWithin
variable {P : Field → Prop} {s t u : State}

theorem State.PutsWithin.refl (s : State) : s.PutsWithin P s := ⟨rfl, fun _ _ => rfl⟩

theorem State.PutsWithin.trans (h : s.PutsWithin P t) (h' : t.PutsWithin P u) : s.PutsWithin P u := by
  obtain ⟨e, regs⟩ := h
  obtain ⟨e', regs'⟩ := h'
  refine ⟨?_, fun f hf => (regs' f hf).trans (regs f hf)⟩
  rw [e] at e'
  exact e'

theorem State.PutsWithin.put {f : Field} (within : ∀ g : Field, g.key = f.key → P g) (s : State) (v : Nat) : s.PutsWithin P (s.put f v) :=
  ⟨rfl, fun g hg => State.get_put_other (fun e => hg (within g e)) s v⟩

theorem State.PutsWithin.foldl {α : Type} {f : State → α → State} {l : List α} (step : ∀ (s : State), ∀ a ∈ l, s.PutsWithin P (f s a)) (s : State) :
    s.PutsWithin P (l.foldl f s) := by
  induction l generalizing s with
  | nil => exact .refl s
  | cons a l ih => exact (step s a (List.mem_cons_self ..)).trans (ih (fun s b hb => step s b (List.mem_cons_of_mem _ hb)) _)

end PutsWithin

/-- From `s` to `t` registers of the stacks and of the data mover have changed, and nothing else. -/
def State.MemoryRegs (s t : State) : Prop := s.PutsWithin memoryField t

section MemoryRegs
variable {s t u : State}

theorem State.MemoryRegs.trans (h : s.MemoryRegs t) (h' : t.MemoryRegs u) : s.MemoryRegs u := State.PutsWithin.trans h h'

theorem State.MemoryRegs.put {f : Field} (hf : memoryField f) (s : State) (v : Nat) : s.MemoryRegs (s.put f v) :=
  State.PutsWithin.put (fun g e => by unfold memoryField at hf ⊢; rwa [e]) s v

theorem State.MemoryRegs.same (h : s.MemoryRegs t) : t.cp = s.cp ∧ t.hbm = s.hbm ∧ t.oxl = s.oxl := by
  obtain ⟨e, -⟩ := h
  rw [e]
  exact ⟨rfl, rfl, rfl⟩

theorem State.MemoryRegs.calm (h : s.MemoryRegs t) (calm : s.Calm) : t.Calm := by
  obtain ⟨e, regs⟩ := h
  have same := fun f (hf : calmField f) => regs f fun m => m.not_calm hf
  rw [e] at same ⊢
  exact calm.congr rfl rfl ⟨rfl, rfl⟩ rfl ⟨rfl, rfl⟩ calm.flights ⟨rfl, rfl, rfl⟩ same

theorem State.MemoryRegs.sound (h : s.MemoryRegs t) (sound : s.Sound) : t.Sound := by
  obtain ⟨e, regs⟩ := h
  have held := (regs F.RS_HELD_HBM fun m => absurd m.1 (by decide)).trans sound.allStacks
  rw [e] at held ⊢
  exact ⟨held, sound.poison, sound.inject⟩

theorem State.MemoryRegs.unwatched (h : s.MemoryRegs t) {a n : Nat} (unwatched : s.Unwatched a n) : t.Unwatched a n := by
  obtain ⟨e, regs⟩ := h
  have same : t.pcState = s.pcState := regs F.PC_STATUS_STATE fun m => absurd m.1 (by decide)
  obtain ⟨not2, not3, closed, tables, jobs⟩ := unwatched
  rw [← same] at not2 not3
  rw [e] at not2 not3 ⊢
  exact ⟨not2, not3, closed, tables, jobs⟩

end MemoryRegs

/-! ## The banks (R297, R299) -/

theorem State.bankOf_future_le (s : State) : s.bankOf .future ≤ 1 := Nat.sub_le ..

theorem memoryField_bank {k : Nat} (one : k ≤ 1) : memoryField (F.TB_BASE_BASE k) ∧ memoryField (F.TB_LEN_LENGTH k) ∧
    memoryField (F.TB_MANIFEST_MANIFEST k) := by
  simp only [memoryField, Field.key, Reg.TB_BASE, Reg.TB_LEN, Reg.TB_MANIFEST]
  omega

theorem State.memoryRegs_putBankState (s : State) (k v : Nat) : s.MemoryRegs (s.putBankState k v) := by
  unfold State.putBankState
  split
  · exact .put ⟨by decide, by decide⟩ s v
  · exact .put ⟨by decide, by decide⟩ s v

theorem State.bankState_putBankState (s : State) (k : Nat) {v : Nat} (fits : v < 4) : (s.putBankState k v).bankState k = v := by
  unfold State.putBankState State.bankState
  split
  · exact (State.get_put_same ..).trans (Nat.mod_eq_of_lt fits)
  · exact (State.get_put_same ..).trans (Nat.mod_eq_of_lt fits)

/-- The banks' other registers read as before. -/
theorem State.get_putBankState (s : State) (k v j : Nat) : (s.putBankState k v).get (F.TB_BASE_BASE j) = s.get (F.TB_BASE_BASE j) ∧
    (s.putBankState k v).get (F.TB_LEN_LENGTH j) = s.get (F.TB_LEN_LENGTH j) ∧
    (s.putBankState k v).get (F.TB_MANIFEST_MANIFEST j) = s.get (F.TB_MANIFEST_MANIFEST j) := by
  have apart : ∀ f ∈ [F.TB_BASE_BASE j, F.TB_LEN_LENGTH j, F.TB_MANIFEST_MANIFEST j], f.key ≠ F.TB_STATE_STATE0.key ∧ f.key ≠ F.TB_STATE_STATE1.key := by
    intro f hf
    simp only [List.mem_cons, List.not_mem_nil, or_false] at hf
    simp only [Field.key, Reg.TB_STATE]
    rcases hf with rfl | rfl | rfl
    all_goals simp only [Reg.TB_BASE, Reg.TB_LEN, Reg.TB_MANIFEST]; omega
  have same : ∀ f ∈ [F.TB_BASE_BASE j, F.TB_LEN_LENGTH j, F.TB_MANIFEST_MANIFEST j], (s.putBankState k v).get f = s.get f := by
    intro f hf
    unfold State.putBankState
    split
    · exact State.get_put_other (apart f hf).1 s v
    · exact State.get_put_other (apart f hf).2 s v
  exact ⟨same _ (by simp), same _ (by simp), same _ (by simp)⟩

theorem State.memoryRegs_beginLoad (s : State) {k : Nat} (one : k ≤ 1) (dst n m : Nat) : s.MemoryRegs (s.beginLoad k dst n m) := by
  obtain ⟨base, len, manifest⟩ := memoryField_bank one
  exact (((State.MemoryRegs.put base s dst).trans (.put len _ n)).trans (.put manifest _ m)).trans (State.memoryRegs_putBankState _ k 1)

/-- The registers of the bank that a load has begun. -/
theorem State.get_beginLoad (s : State) (k dst n m : Nat) : (s.beginLoad k dst n m).get (F.TB_BASE_BASE k) = dst % 2 ^ 48 ∧
    (s.beginLoad k dst n m).get (F.TB_LEN_LENGTH k) = n % 2 ^ 64 ∧ (s.beginLoad k dst n m).get (F.TB_MANIFEST_MANIFEST k) = m % 2 ^ 48 := by
  have apart : (F.TB_BASE_BASE k).key ≠ (F.TB_LEN_LENGTH k).key ∧ (F.TB_BASE_BASE k).key ≠ (F.TB_MANIFEST_MANIFEST k).key ∧
      (F.TB_LEN_LENGTH k).key ≠ (F.TB_MANIFEST_MANIFEST k).key := by
    simp only [Field.key, Reg.TB_BASE, Reg.TB_LEN, Reg.TB_MANIFEST]
    omega
  obtain ⟨bl, bm, lm⟩ := apart
  obtain ⟨base, len, manifest⟩ := State.get_putBankState (((s.put (F.TB_BASE_BASE k) dst).put (F.TB_LEN_LENGTH k) n).put (F.TB_MANIFEST_MANIFEST k) m) k 1 k
  refine ⟨base.trans ?_, len.trans ?_, manifest.trans (State.get_put_same ..)⟩
  · rw [State.get_put_other bm, State.get_put_other bl, State.get_put_same]
  · rw [State.get_put_other lm, State.get_put_same]

/-! ## A write noted, and a register written -/

theorem State.put_stored (s : State) (a : Nat) (bs : List Byte) (c : Option CmdRef) (f : Field) (v : Nat) :
    (s.stored a bs c).put f v = (s.put f v).stored a bs c := by
  unfold State.stored State.noteWrite
  by_cases none_ : bs.length = 0
  · simp only [if_pos none_]
    rfl
  · simp only [if_neg none_]
    rfl

theorem State.putBankState_stored (s : State) (a : Nat) (bs : List Byte) (c : Option CmdRef) (k v : Nat) :
    (s.stored a bs c).putBankState k v = (s.putBankState k v).stored a bs c := by
  unfold State.putBankState
  split
  · exact State.put_stored ..
  · exact State.put_stored ..

theorem State.stored_get (s : State) (a : Nat) (bs : List Byte) (c : Option CmdRef) (f : Field) : (s.stored a bs c).get f = s.get f := by
  rw [State.stored, State.noteWrite_eq]
  rfl

theorem State.stored_eq (s : State) (a : Nat) (bs : List Byte) (c : Option CmdRef) :
    s.stored a bs c = { s with hbm := s.hbm.write a bs, wrote := (s.stored a bs c).wrote } := by
  rw [State.stored, State.noteWrite_eq]

/-! ## A shard of one chunk (R300, R301) -/

section Chunk
variable {n : Nat} (some_ : 1 ≤ n) (short : n ≤ mebi)
include some_ short

theorem cdiv_mebi_one : cdiv n mebi = 1 := by
  unfold cdiv mebi at *
  omega

theorem manifestSize_one : manifestSize n = 176 := by rw [manifestSize, cdiv_mebi_one some_ short]

theorem chunkTable_one (leaf : List Byte) : chunkTable n [leaf] = [(0, (0, n), leaf)] := by
  simp [chunkTable, blocksOf, cdiv_mebi_one some_ short, short]

end Chunk

/-! ## LOAD_SHARD (R302, R303) -/

/-- `s` with a load from a stream running. -/
def State.withLoad (s : State) (r : LoadRun) : State := { s with dm := { s.dm with load := some r } }

theorem Act.body_ok {α : Type} (s : State) (a : α) (k : State → α → Body) : Act.body (s, .ok a) k = k s a := rfl

section Load
variable {s : State} {p : LoadParams}

theorem State.loadFault_none_inHbm (good : s.loadFault p = none) : p.dst.toNat + p.length.toNat ≤ hbmEnd := by
  unfold State.loadFault at good
  dsimp only at good
  split at good
  · cases good
  · split at good
    · cases good
    · next inside =>
      simp only [Bool.or_eq_true, not_or, Bool.not_eq_true, Bool.not_eq_false'] at inside
      exact of_decide_eq_true inside.1

theorem State.loadShard_armed (encoded : loadEncoded p = true) (armed : s.get F.TB_STATE_ARMED = 1) (c : CmdRef) :
    s.loadShard p c = s.fail ST_NOT_READY := by
  have fault : s.loadFault p = some ST_NOT_READY := by simp [State.loadFault, State.on, armed]
  simp only [State.loadShard, encoded, Bool.not_true, Bool.false_eq_true, if_false, fault]

variable (sound : s.Sound)
include sound

/-- The manifest of a shard of one chunk is read and checked. -/
theorem State.readManifest_one {a n : Nat} {leaf : List Byte} (some_ : 1 ≤ n) (short : n ≤ mebi) (inHbm : a + 176 ≤ hbmEnd)
    (length : leAt (s.hbm.read a 128) 8 8 = n) (count : leAt (s.hbm.read a 128) 4 4 = 1)
    (leaves : manifestLeaves (s.hbm.read a 176) n = some [leaf]) (c : CmdRef) : s.readManifest a n c = (s, .ok [leaf]) := by
  have low : a < hbmEnd := by omega
  unfold State.readManifest
  rw [State.readAct_sound sound (by omega) low, manifestSize_one some_ short, cdiv_mebi_one some_ short]
  simp only [Act.bind, length, count, ne_eq, not_true, if_false, State.spanFault_hbm inHbm low, State.readAct_sound sound inHbm low, leaves]

/-- What a chunk that matches its leaf leaves: the bank VERIFIED, and its bytes in place. -/
theorem State.loadChunks_one {src dst bank n : Nat} {leaf : List Byte} (some_ : 1 ≤ n) (short : n ≤ mebi) (srcFits : src + n ≤ hbmEnd)
    (dstFits : dst + n ≤ hbmEnd) (matches_ : shardLeaf (s.hbm.read src n) = leaf) (c : CmdRef) :
    s.loadChunks src dst bank c (chunkTable n [leaf]) = ((s.putBankState bank 2).stored dst (s.hbm.read src n) (some c), none) := by
  have read := State.readAct_sound sound srcFits (by omega) c
  have written := State.writeAct_sound sound (a := dst) (bs := s.hbm.read src n) (by rwa [Mem.length_read]) (by omega) c
  rw [chunkTable_one some_ short]
  simp only [State.loadChunks, Nat.add_zero, read, written, matches_, if_true, State.putBankState_stored]

section Good
variable {leaf : List Byte} (encoded : loadEncoded p = true) (good : s.loadFault p = none) (some_ : 1 ≤ p.length.toNat) (short : p.length.toNat ≤ mebi)
  (manifestIn : p.manifest.toNat + 176 ≤ hbmEnd) (length : leAt (s.hbm.read p.manifest.toNat 128) 8 8 = p.length.toNat)
  (count : leAt (s.hbm.read p.manifest.toNat 128) 4 4 = 1)
  (leaves : manifestLeaves (s.hbm.read p.manifest.toNat 176) p.length.toNat = some [leaf])
include encoded good some_ short manifestIn length count leaves

theorem State.loadShard_stream {id : BitVec 32} (stream : p.source = .stream id) (c : CmdRef) :
    let b := s.beginLoad (s.bankOf .future) p.dst.toNat p.length.toNat p.manifest.toNat
    s.loadShard p c = (b.withLoad ⟨c, s.bankOf .future, id.toNat, p.dst.toNat, p.length.toNat, p.manifest.toNat, []⟩, none) := by
  simp only [State.loadShard, encoded, Bool.not_true, Bool.false_eq_true, if_false, good,
    State.readManifest_one sound some_ short manifestIn length count leaves, Act.body, stream, State.physical_hbm (show p.manifest.toNat < hbmEnd by omega)]
  rfl

omit sound encoded good some_ short manifestIn length count leaves in
/-- A load from memory whose manifest has been read moves its chunks. -/
theorem State.loadShard_chunks {lv : List (List Byte)} {src : BitVec 48} {c : CmdRef} {u : State} (encoded : loadEncoded p = true) (good : s.loadFault p = none)
    (read : s.readManifest p.manifest.toNat p.length.toNat c = (s, .ok lv)) (memory : p.source = .memory src)
    (moved : (s.beginLoad (s.bankOf .future) p.dst.toNat p.length.toNat p.manifest.toNat).loadChunks (s.physical src.toNat) p.dst.toNat
      (s.bankOf .future) c (chunkTable p.length.toNat lv) = (u, none)) : s.loadShard p c = u.ok (shardResult p.length.toNat lv) := by
  obtain ⟨table, isTable⟩ : ∃ table, chunkTable p.length.toNat lv = table := ⟨_, rfl⟩
  obtain ⟨result, isResult⟩ : ∃ result, shardResult p.length.toNat = result := ⟨_, rfl⟩
  obtain ⟨physical, isPhysical⟩ : ∃ physical, s.physical = physical := ⟨_, rfl⟩
  unfold State.loadShard
  dsimp only
  rw [isTable, isPhysical] at moved
  rw [encoded, good, read, if_neg (by decide), isResult]
  dsimp only
  rw [Act.body_ok, memory, isTable, isPhysical]
  dsimp only
  rw [moved]

theorem State.loadShard_memory {src : BitVec 48} (memory : p.source = .memory src) (srcFits : src.toNat + p.length.toNat ≤ hbmEnd)
    (matches_ : shardLeaf (s.hbm.read src.toNat p.length.toNat) = leaf) (c : CmdRef) :
    s.loadShard p c = ((((s.beginLoad (s.bankOf .future) p.dst.toNat p.length.toNat p.manifest.toNat).putBankState (s.bankOf .future) 2).stored
      p.dst.toNat (s.hbm.read src.toNat p.length.toNat) (some c)).ok (shardResult p.length.toNat [leaf])) := by
  have began := s.memoryRegs_beginLoad s.bankOf_future_le p.dst.toNat p.length.toNat p.manifest.toNat
  have same : (s.beginLoad (s.bankOf .future) p.dst.toNat p.length.toNat p.manifest.toNat).hbm = s.hbm := by rw [began.1]
  have chunks := State.loadChunks_one (leaf := leaf) (began.sound sound) (bank := s.bankOf .future) some_ short srcFits (State.loadFault_none_inHbm good)
    (by rw [same]; exact matches_) c
  rw [same] at chunks
  exact State.loadShard_chunks encoded good (State.readManifest_one sound some_ short manifestIn length count leaves c) memory
    (by rw [State.physical_hbm (lt_hbmEnd_of_range srcFits some_)]; exact chunks)

end Good
end Load

/-! ## Verification (R305, R306) -/

theorem Act.bind_ok {α β : Type} (s : State) (a : α) (k : State → α → Act β) : Act.bind (s, .ok a) k = k s a := rfl

theorem State.verifyChunks_single {s : State} {a n : Nat} {bs : List Byte} {c : CmdRef} (read : s.readAct a n c = (s, .ok bs)) (leaf : List Byte) :
    s.verifyChunks a c [(0, (0, n), leaf)] = (s, .ok (if shardLeaf bs = leaf then none else some 0)) := by
  rw [State.verifyChunks, Nat.add_zero, read, Act.bind_ok]
  split
  · rfl
  · rfl

theorem State.verifyRange_chunks {s : State} {a n m : Nat} {l : List Byte} {c : CmdRef} (span : s.spanFault m (manifestSize n) false = none)
    (read : s.readAct (m + 0x80) (48 * cdiv n mebi) c = (s, .ok l)) : s.verifyRange a n m c =
    s.verifyChunks a c (chunkTable n ((List.range (cdiv n mebi)).map (fun i => (l.drop (48 * i)).take 48))) := by
  -- The definition is named first: comparing its body with it would have the kernel evaluate the check of the manifest's range.
  obtain ⟨range, isRange⟩ : ∃ f, f = State.verifyRange := ⟨_, rfl⟩
  rw [← isRange]
  delta State.verifyRange at isRange
  rw [isRange]
  beta_reduce
  rw [span, read, Act.bind_ok]

section Verify
variable {s : State} (sound : s.Sound) {a n m : Nat} (some_ : 1 ≤ n) (short : n ≤ mebi) (inHbm : a + n ≤ hbmEnd) (manifestIn : m + 176 ≤ hbmEnd)
include sound some_ short inHbm manifestIn

/-- A range of one chunk is compared with the leaf behind its manifest's header. -/
theorem State.verifyRange_one (c : CmdRef) : s.verifyRange a n m c =
    (s, .ok (if shardLeaf (s.hbm.read a n) = s.hbm.read (m + 128) 48 then none else some 0)) := by
  have one := cdiv_mebi_one some_ short
  have span : s.spanFault m (manifestSize n) false = none := by
    rw [manifestSize_one some_ short, State.spanFault_hbm manifestIn (by omega)]
  have leaf : s.readAct (m + 0x80) (48 * cdiv n mebi) c = (s, .ok (s.hbm.read (m + 128) 48)) := by
    rw [one, Nat.mul_one]
    exact State.readAct_sound sound (by omega) (by omega) c
  have leaves (l : List Byte) (length : l.length = 48) : (List.range 1).map (fun i => (l.drop (48 * i)).take 48) = [l] := by
    simp [List.take_of_length_le length.le]
  rw [State.verifyRange_chunks span leaf, one, leaves _ (Mem.length_read ..), chunkTable_one some_ short]
  exact State.verifyChunks_single (State.readAct_sound sound inHbm (lt_hbmEnd_of_range inHbm some_) c) _

end Verify

section Region
variable {s : State} (sound : s.Sound) {a m : BitVec 48} {n : BitVec 64} (some_ : 1 ≤ n.toNat) (short : n.toNat ≤ mebi)
  (inHbm : a.toNat + n.toNat ≤ hbmEnd) (manifestIn : m.toNat + 176 ≤ hbmEnd)
include sound some_ short inHbm manifestIn

theorem State.verifyShard_region (c : CmdRef) : s.verifyShard (.region a n m) c =
    if shardLeaf (s.hbm.read a.toNat n.toNat) = s.hbm.read (m.toNat + 128) 48 then s.ok 0 else (s.chunkFailed 0 2).fail ST_DIGEST := by
  have nonzero : ¬ n = 0 := fun zero => by simp [zero] at some_
  have spans : firstFault [s.spanFault a.toNat n.toNat false, s.spanFault m.toNat (manifestSize n.toNat) false] = none := by
    rw [manifestSize_one some_ short, State.spanFault_hbm inHbm (lt_hbmEnd_of_range inHbm some_), State.spanFault_hbm manifestIn (by omega)]
    rfl
  unfold State.verifyShard
  dsimp only
  rw [if_neg nonzero, spans, State.verifyRange_one sound some_ short inHbm manifestIn]
  dsimp only
  rw [Act.body_ok]
  by_cases matches_ : shardLeaf (s.hbm.read a.toNat n.toNat) = s.hbm.read (m.toNat + 128) 48
  · rw [if_pos matches_, if_pos matches_]
  · rw [if_neg matches_, if_neg matches_]

end Region

theorem State.verifyShard_notReady {s : State} (lacking : s.bankState (s.bankOf .present) ≠ 2) (c : CmdRef) :
    s.verifyShard .present c = s.fail ST_NOT_READY := if_pos lacking

/-- A re-verification of a VERIFIED bank of one chunk that matches. -/
theorem State.reverify_passes {s : State} (sound : s.Sound) {b : Nat} (enabled : s.get F.DM_REVERIFY_ENABLE = 1)
    (engines : 0 < s.get F.DM_REVERIFY_ENGINES) (verified : s.bankState b = 2) (some_ : 1 ≤ s.get (F.TB_LEN_LENGTH b))
    (short : s.get (F.TB_LEN_LENGTH b) ≤ mebi) (inHbm : s.get (F.TB_BASE_BASE b) + s.get (F.TB_LEN_LENGTH b) ≤ hbmEnd)
    (manifestIn : s.get (F.TB_MANIFEST_MANIFEST b) + 176 ≤ hbmEnd)
    (matches_ : shardLeaf (s.hbm.read (s.get (F.TB_BASE_BASE b)) (s.get (F.TB_LEN_LENGTH b))) = s.hbm.read (s.get (F.TB_MANIFEST_MANIFEST b) + 128) 48) :
    s.reverify b = s.bump F.DM_COUNTS_PASSES 1 := by
  have runs : (s.on F.DM_REVERIFY_ENABLE && decide (0 < s.get F.DM_REVERIFY_ENGINES) && decide (s.bankState b = 2)) = true := by
    simp [State.on, enabled, engines, verified]
  unfold State.reverify
  rw [if_pos runs, State.verifyRange_one sound some_ short inHbm manifestIn, if_pos matches_]

/-! ## The rows -/

/-- What a load from a stream holds is of no concern to the end of a step. -/
theorem State.Calm.withLoad {s : State} (h : s.Calm) (r : LoadRun) : (s.withLoad r).Calm :=
  ⟨⟨h.noted, h.due, h.period, h.coll, h.commit, h.shadow⟩, h.flights, h.depth, h.waiting⟩

section Load
variable {h : Hdr} {s : State} {p : LoadParams} (bound : s.bindingOk h .notBound = true)
include bound

theorem execLoadShard_ends {t : State} {d : Done} (body : s.loadShard p (s.refOf h 0x11) = (t, some d)) (kept : t.oxl.missing = s.oxl.missing) :
    exec (.loadShard h p) s = .next (t.finish (s.refOf h 0x11) d).settle :=
  congrArg (fun u : State => done u.settle) (State.run_ends (body := fun c s => s.loadShard p c) bound body kept)

theorem execVerifyShard_calm {target : VerifyTarget} {t : State} {d : Done} (body : s.verifyShard target (s.refOf h 0x13) = (t, some d))
    (kept : t.oxl.missing = s.oxl.missing) (after : t.Calm) : exec (.verifyShard h target) s = .next (t.finish (s.refOf h 0x13) d) :=
  congrArg done (State.run_settle_calm (body := fun c s => s.verifyShard target c) bound body kept after)

theorem execLoadShard_waits {t : State} (body : s.loadShard p (s.refOf h 0x11) = (t, none)) (kept : t.oxl.missing = s.oxl.missing) (after : t.Calm) :
    exec (.loadShard h p) s = .next t := by
  have waits := State.run_waits (body := fun c s => s.loadShard p c) bound body kept
  exact congrArg done ((congrArg State.settle waits).trans (State.settle_calm after))

end Load

theorem State.memoryRegs_chunkFailed (s : State) (chunk target : Nat) : s.MemoryRegs (s.chunkFailed chunk target) :=
  ((State.MemoryRegs.put ⟨by decide, by decide⟩ s chunk).trans (.put ⟨by decide, by decide⟩ _ target)).trans (.put ⟨by decide, by decide⟩ _ _)

/-- LOAD_SHARD's outcome from memory: the registers of the bank, and its bytes. -/
def State.Loaded (s t : State) (bank dst n manifest : Nat) (bs : List Byte) : Prop :=
  t.bankState bank = 2 ∧ t.get (F.TB_BASE_BASE bank) = dst ∧ t.get (F.TB_LEN_LENGTH bank) = n % 2 ^ (F.TB_LEN_LENGTH bank).len ∧
    t.get (F.TB_MANIFEST_MANIFEST bank) = manifest ∧ t.hbm.read dst n = bs ∧ (∀ x, x < dst ∨ dst + n ≤ x → t.hbm.get x = s.hbm.get x) ∧
    t = { s with regs := t.regs, hbm := t.hbm, wrote := t.wrote }

theorem State.loaded_stored (s : State) {dst manifest : Nat} {bs : List Byte} (dstFits : dst < 2 ^ 48) (manifestFits : manifest < 2 ^ 48) (c : CmdRef) :
    s.Loaded (((s.beginLoad (s.bankOf .future) dst bs.length manifest).putBankState (s.bankOf .future) 2).stored dst bs (some c)) (s.bankOf .future)
      dst bs.length manifest bs := by
  have began := s.memoryRegs_beginLoad s.bankOf_future_le dst bs.length manifest
  obtain ⟨base, len, man⟩ := State.get_beginLoad s (s.bankOf .future) dst bs.length manifest
  obtain ⟨base', len', man'⟩ := State.get_putBankState (s.beginLoad (s.bankOf .future) dst bs.length manifest) (s.bankOf .future) 2 (s.bankOf .future)
  have ready := (began.trans (State.memoryRegs_putBankState _ (s.bankOf .future) 2)).1
  have verified := State.bankState_putBankState (s.beginLoad (s.bankOf .future) dst bs.length manifest) (s.bankOf .future) (v := 2) (by decide)
  generalize (s.beginLoad (s.bankOf .future) dst bs.length manifest).putBankState (s.bankOf .future) 2 = u at *
  have hbm : u.hbm = s.hbm := by rw [ready]
  have stored := u.stored_eq dst bs (some c)
  have reg (f : Field) : (u.stored dst bs (some c)).get f = u.get f := State.stored_get ..
  refine ⟨?_, ?_, ?_, ?_, ?_, ?_, ?_⟩
  · unfold State.bankState at verified ⊢
    simpa only [reg] using verified
  · rw [reg, base', base, Nat.mod_eq_of_lt dstFits]
  · rw [reg, len', len]
  · rw [reg, man', man, Nat.mod_eq_of_lt manifestFits]
  · rw [stored]
    exact Mem.read_write ..
  · intro x out
    rw [stored, ← hbm]
    exact Mem.get_write_outside bs out _
  · rw [stored, ready]

/-- A load from memory that has moved its bytes completes; where no one watches them, with the bytes and its bank's registers alone. -/
theorem loadShard_settled {h : Hdr} {s : State} {p : LoadParams} {bs : List Byte} {result : Nat} (calm : s.Calm)
    (bound : s.bindingOk h .notBound = true)
    (body : s.loadShard p (s.refOf h 0x11) = (((s.beginLoad (s.bankOf .future) p.dst.toNat p.length.toNat p.manifest.toNat).putBankState
      (s.bankOf .future) 2).stored p.dst.toNat bs (some (s.refOf h 0x11))).ok result) (length : bs.length = p.length.toNat) :
    ∃ t : State, exec (.loadShard h p) s = .next ((t.finish (s.refOf h 0x11) ⟨ST_OK, 0, result % 2 ^ 64⟩).settle) ∧
      s.Loaded t (s.bankOf .future) p.dst.toNat p.length.toNat p.manifest.toNat bs ∧
      (s.Unwatched p.dst.toNat p.length.toNat → exec (.loadShard h p) s =
        .next (({ t with wrote := [] } : State).finish (s.refOf h 0x11) ⟨ST_OK, 0, result % 2 ^ 64⟩)) := by
  rw [← length] at body ⊢
  have loaded := s.loaded_stored (bs := bs) p.dst.isLt p.manifest.isLt (s.refOf h 0x11)
  have ready := (s.memoryRegs_beginLoad s.bankOf_future_le p.dst.toNat bs.length p.manifest.toNat).trans
    (State.memoryRegs_putBankState _ (s.bankOf .future) 2)
  generalize (s.beginLoad (s.bankOf .future) p.dst.toNat bs.length p.manifest.toNat).putBankState (s.bankOf .future) 2 = u at *
  have ends := execLoadShard_ends bound body (congrArg OxlState.missing ((State.stored_oxl ..).trans ready.same.2.2))
  refine ⟨_, ends, loaded, fun unwatched => ends.trans (congrArg done ?_)⟩
  have calm' := ready.calm calm
  have quiet : ({ u.stored p.dst.toNat bs (some (s.refOf h 0x11)) with wrote := [] } : State) = { u with hbm := u.hbm.write p.dst.toNat bs } := by
    have none_ : u.wrote = [] := calm'.noted.1
    rw [u.stored_eq, ← none_]
  rw [State.settle_stored calm' (ready.unwatched unwatched), quiet]

/-- A load from a stream whose manifest is good: the bank is LOADING, and the command stays in flight. -/
theorem loadShard_streams {h : Hdr} {s : State} {p : LoadParams} {leaf : List Byte} {id : BitVec 32} (sound : s.Sound) (calm : s.Calm)
    (bound : s.bindingOk h .notBound = true) (encoded : loadEncoded p = true) (good : s.loadFault p = none) (some_ : 1 ≤ p.length.toNat)
    (short : p.length.toNat ≤ mebi) (manifestIn : p.manifest.toNat + 176 ≤ hbmEnd)
    (length : leAt (s.hbm.read p.manifest.toNat 128) 8 8 = p.length.toNat) (count : leAt (s.hbm.read p.manifest.toNat 128) 4 4 = 1)
    (leaves : manifestLeaves (s.hbm.read p.manifest.toNat 176) p.length.toNat = some [leaf]) (stream : p.source = .stream id) :
    ∃ t : State, exec (.loadShard h p) s = .next t ∧ t.bankState (s.bankOf .future) = 1 ∧
      t.get (F.TB_BASE_BASE (s.bankOf .future)) = p.dst.toNat ∧ t.cp = s.cp ∧ t.hbm = s.hbm ∧
      t.dm.load = some ⟨s.refOf h 0x11, s.bankOf .future, id.toNat, p.dst.toNat, p.length.toNat, p.manifest.toNat, []⟩ := by
  have body := State.loadShard_stream sound encoded good some_ short manifestIn length count leaves stream (s.refOf h 0x11)
  have began := s.memoryRegs_beginLoad s.bankOf_future_le p.dst.toNat p.length.toNat p.manifest.toNat
  obtain ⟨base, -, -⟩ := State.get_beginLoad s (s.bankOf .future) p.dst.toNat p.length.toNat p.manifest.toNat
  have loading : (s.beginLoad (s.bankOf .future) p.dst.toNat p.length.toNat p.manifest.toNat).bankState (s.bankOf .future) = 1 :=
    State.bankState_putBankState _ _ (by decide)
  dsimp only at body
  generalize s.beginLoad (s.bankOf .future) p.dst.toNat p.length.toNat p.manifest.toNat = u at *
  obtain ⟨cp, hbm, oxl⟩ := began.same
  refine ⟨_, execLoadShard_waits bound body (congrArg OxlState.missing oxl) ((began.calm calm).withLoad _), loading,
    base.trans (Nat.mod_eq_of_lt p.dst.isLt), cp, hbm, rfl⟩

/-- Settles O14: a shard of one chunk is one read and one comparison, before which a load has written its bank's registers. -/
theorem shardsLoadAndVerify : Obligations.ShardsLoadAndVerify := by
  unfold Obligations.ShardsLoadAndVerify
  refine ⟨fun h p s calm sound bound encoded => ⟨fun armed => ?_, fun leaf good short manifestIn length count leaves => ?_⟩,
    fun h a n m s calm sound bound some_ short inHbm manifestIn => ⟨fun match_ => ?_, fun differs => ?_⟩, fun h s calm bound lacking => ?_,
    fun s b calm sound enabled engines verified some_ short inHbm manifestIn match_ => ?_⟩
  · rw [execLoadShard_ends bound (State.loadShard_armed encoded armed _) rfl, State.settle_calm (calm.finish _ _)]
  · have some_ : 1 ≤ p.length.toNat := by
      simp only [loadEncoded, Bool.and_eq_true, decide_eq_true_eq] at encoded
      exact encoded.1.2.1
    refine ⟨fun id stream => ?_, fun src memory srcFits match_ => ?_⟩
    · exact loadShard_streams sound calm bound encoded good some_ short manifestIn length count leaves stream
    · have body := State.loadShard_memory sound encoded good some_ short manifestIn length count leaves memory srcFits match_ (s.refOf h 0x11)
      obtain ⟨t, ends, ⟨verified, base, len, manifest, bytes, others, rest⟩, unwatched⟩ := loadShard_settled calm bound body (Mem.length_read ..)
      exact ⟨t, ends, verified, base, len, manifest, bytes, others, rest, unwatched⟩
  · exact execVerifyShard_calm bound ((State.verifyShard_region sound some_ short inHbm manifestIn _).trans (if_pos match_)) rfl calm
  · exact execVerifyShard_calm bound ((State.verifyShard_region sound some_ short inHbm manifestIn _).trans (if_neg differs)) rfl
      ((s.memoryRegs_chunkFailed 0 2).calm calm)
  · exact execVerifyShard_calm bound (State.verifyShard_notReady lacking _) rfl calm
  · have passed : (s.bump F.DM_COUNTS_PASSES 1).Calm := calm.put (memoryField.not_calm ⟨by decide, by decide⟩) _
    exact congrArg done ((congrArg State.settle (State.reverify_passes sound enabled engines verified some_ short inHbm manifestIn match_)).trans
      (State.settle_calm passed))

end Sys2Proof.Machine

/-!
PROOF. The patrol scrub, the stacks' temperatures and the address map (statement MemoryUpkeep).
-/
namespace Sys2Proof.Machine

/-! ## The patrol scrub (R284, R285) -/

section Scrub
variable {s : State} {k : Nat}

/-- A scrub of a stack that answers reads its lines. -/
theorem execPatrolScrub_runs {k : Fin 16} (sound : s.Sound) (enabled : s.get (F.HM_SCRUB_HOURS k) ≠ 0) (f : ScrubFinding) :
    exec (.patrolScrub k [f]) s = .next (s.scrubLine k f).settle := by
  have ready : ¬ (s.get (F.HM_SCRUB_HOURS k) = 0 ∨ s.stackHeld k = true) := by
    rintro (off | held)
    · exact enabled off
    · rw [State.stackHeld, sound.allStacks, bit_eq_testBit, Nat.zero_testBit] at held
      cases held
  have armed : s.scrubArmed k = s := by
    unfold State.scrubArmed
    rw [sound.inject, sound.poison]
    rfl
  have lines : [f].foldl (fun s f => s.scrubLine k.val f) (s.scrubArmed k.val) = s.scrubLine k f := congrArg (State.scrubLine · k f) armed
  exact congrArg done ((if_neg ready).trans (congrArg State.settle lines))

/-- A finding in a line of the scrubbed stack. -/
theorem State.scrubLine_there {line : BitVec 48} (whole : line.toNat % 64 = 0) (there : s.stackOf line.toNat = k) (bad : Bool) :
    s.scrubLine k ⟨line, bad⟩ = if bad then s.scrubPoisoned k line.toNat false else s.scrubCorrected k line.toNat false := by
  have start : line.toNat / 64 * 64 = line.toNat := by omega
  unfold State.scrubLine
  dsimp only
  rw [start, if_neg (not_not_intro there)]

theorem State.frame_scrubCorrected (s : State) (low : k < 16) (line : Nat) (i : Bool) : s.EventFrame (s.scrubCorrected k line i) :=
  (State.EventFrame.bump (.inr (.inr ⟨k, low, .inl rfl⟩)) 1).trans (State.frame_raise (by decide : 1 < 3) _)

/-- What the scrub does with an uncorrectable line, before its events. -/
theorem State.scrubPoisoned_fresh (clean : s.poison = []) (line : Nat) (i : Bool) : s.scrubPoisoned k line i =
    (((((({ s with poison := [line] } : State).bump (F.HM_ECC_UNCORRECTABLE k) 1).bump (F.HM_ECC_POISONED k) 1).put
      (F.HM_ERR_ADDR_ADDR k) line).raise ⟨0x0602, 2, 6, k, line, i, none⟩).raise ⟨0x0603, 2, 6, k, line, i, none⟩) := by
  have one : flag true = 1 := rfl
  unfold State.scrubPoisoned
  simp only [clean, List.contains_nil, Bool.not_false, if_true, one]

theorem State.frame_scrubPoisoned (clean : s.poison = []) (low : k < 16) (line : Nat) (i : Bool) : s.EventFrame (s.scrubPoisoned k line i) := by
  have ecc {f : Field} (named : f.key = (F.HM_ECC_UNCORRECTABLE k).key ∨ f.key = (F.HM_ECC_POISONED k).key ∨ f.key = (F.HM_ERR_ADDR_ADDR k).key) :
      eventField f := .inr (.inr ⟨k, low, .inr named⟩)
  have poisoned : s.EventFrame { s with poison := [line] } := ⟨fun _ _ => rfl, rfl⟩
  rw [State.scrubPoisoned_fresh clean]
  exact ((((poisoned.trans (.bump (ecc (.inl rfl)) 1)).trans (.bump (ecc (.inr (.inl rfl))) 1)).trans (.put (ecc (.inr (.inr rfl))) line)).trans
    (State.frame_raise (by decide : 2 < 3) _)).trans (State.frame_raise (by decide : 2 < 3) _)

end Scrub

/-! ## The temperature of a stack (R283) -/

section Temperature
variable {s : State} {k : Fin 16}

theorem memoryField_stack : memoryField (F.HM_STATUS_TEMP k) ∧ memoryField (F.HM_STATUS_HOT k) := by
  have low := k.isLt
  simp only [memoryField, Field.key, Reg.HM_STATUS]
  omega

/-- A reading that crosses no threshold of its sensor is in TEMP, and the sensor has nothing to say. -/
theorem State.sensor_same {id t : Nat} (same : (thresholds id).level t = (alGet s.mgmt.levels id).getD 0) : s.sensor id t = s := if_pos same

theorem State.stackTemperature_same {k t : Nat} (same : (thresholds (9 + k)).level t = (alGet s.mgmt.levels (9 + k)).getD 0) :
    s.stackTemperature k t = if 85 < t then
        if s.on (F.HM_STATUS_HOT k) then s.put (F.HM_STATUS_TEMP k) t
        else ((s.put (F.HM_STATUS_TEMP k) t).put (F.HM_STATUS_HOT k) 1).raise ⟨0x0604, 0, 6, k, 0, false, none⟩
      else (s.put (F.HM_STATUS_TEMP k) t).put (F.HM_STATUS_HOT k) 0 := by
  have read : (s.put (F.HM_STATUS_TEMP k) t).sensor (9 + k) t = s.put (F.HM_STATUS_TEMP k) t := State.sensor_same same
  have apart : (F.HM_STATUS_HOT k).key ≠ (F.HM_STATUS_TEMP k).key := by
    simp only [Field.key]
    omega
  have hot : (s.put (F.HM_STATUS_TEMP k) t).on (F.HM_STATUS_HOT k) = s.on (F.HM_STATUS_HOT k) := by
    rw [State.on, State.get_put_other apart]
  unfold State.stackTemperature
  dsimp only
  rw [read, hot]

theorem execHbmTemperatureRead_cool (calm : s.Calm) {t : BitVec 8} (same : (thresholds (9 + k)).level t.toNat = (alGet s.mgmt.levels (9 + k)).getD 0)
    (cool : t.toNat ≤ 85) : exec (.hbmTemperatureRead k t) s = .next ((s.put (F.HM_STATUS_TEMP k) t.toNat).put (F.HM_STATUS_HOT k) 0) := by
  obtain ⟨temp, hot⟩ := memoryField_stack (k := k)
  have read := (State.stackTemperature_same same).trans (if_neg (by omega))
  exact congrArg done ((congrArg State.settle read).trans (State.settle_calm ((calm.put temp.not_calm _).put hot.not_calm _)))

theorem execHbmTemperatureRead_hot (calm : s.Calm) {t : BitVec 8} (same : (thresholds (9 + k)).level t.toNat = (alGet s.mgmt.levels (9 + k)).getD 0)
    (warm : 85 < t.toNat) (fresh : s.get (F.HM_STATUS_HOT k) ≠ 1) : exec (.hbmTemperatureRead k t) s =
      .next (((s.put (F.HM_STATUS_TEMP k) t.toNat).put (F.HM_STATUS_HOT k) 1).raise ⟨0x0604, 0, 6, k, 0, false, none⟩) := by
  obtain ⟨temp, hot⟩ := memoryField_stack (k := k)
  have off : ¬ s.on (F.HM_STATUS_HOT k) = true := by simpa [State.on] using fresh
  have read := ((State.stackTemperature_same same).trans (if_pos warm)).trans (if_neg off)
  have raised := (State.frame_raise (e := ⟨0x0604, 0, 6, k, 0, false, none⟩) (by decide : 0 < 3) _).calm ((calm.put temp.not_calm t.toNat).put hot.not_calm 1)
  exact congrArg done ((congrArg State.settle read).trans (State.settle_calm raised))

end Temperature

/-! ## The address map (R282) -/

/-- Regions whose contents become undefined: no other byte changes, and nothing else does. -/
theorem State.forgetRegions (rs : List Nat) : ∀ s : State, ∃ (m : Mem) (d : Nat),
    rs.foldl (fun s r => s.forgetHbm (r * 2 ^ 36) ((r + 1) * 2 ^ 36)) s = { s with hbm := m, draws := d } ∧
      ∀ x, x / 2 ^ 36 ∉ rs → m.get x = s.hbm.get x := by
  induction rs with
  | nil => exact fun s => ⟨s.hbm, s.draws, rfl, fun _ _ => rfl⟩
  | cons r rs ih =>
    intro s
    obtain ⟨m, d, forgot, others⟩ := ih (s.forgetHbm (r * 2 ^ 36) ((r + 1) * 2 ^ 36))
    have first : s.forgetHbm (r * 2 ^ 36) ((r + 1) * 2 ^ 36) =
        { s with hbm := s.hbm.forget (r * 2 ^ 36) ((r + 1) * 2 ^ 36) s.draws, draws := s.draws + 1 } := if_neg (by omega)
    rw [first] at forgot others
    refine ⟨m, d, by rw [List.foldl_cons, first, forgot], fun x out => ?_⟩
    rw [List.mem_cons, not_or] at out
    exact (others x out.2).trans (Mem.get_forget_outside (by omega) _)

theorem State.remapRegions_forgets (s : State) (map : Nat) : ∃ (m : Mem) (d : Nat),
    s.remapRegions map = { s.put F.DM_MAP_LOCAL map with hbm := m, draws := d } ∧
      ∀ x, bit (s.get F.DM_MAP_LOCAL) (x / 2 ^ 36) = bit map (x / 2 ^ 36) → m.get x = s.hbm.get x := by
  obtain ⟨m, d, forgot, others⟩ := State.forgetRegions
    ((List.range 6).filter (fun r => decide (bit (s.get F.DM_MAP_LOCAL) r ≠ bit map r))) (s.put F.DM_MAP_LOCAL map)
  exact ⟨m, d, forgot, fun x same => others x fun changed => of_decide_eq_true (List.mem_filter.mp changed).2 same⟩

section Map
variable {s : State} {map : Nat}

theorem State.writeMap_remaps (idle : s.idle = true) (none_ : s.commandRunning = false) (unlocked : s.get F.DM_MAP_LOCK ≠ 1) (lock : Bool) :
    s.writeMap map lock = if lock then (s.remapRegions map).put F.DM_MAP_LOCK 1 else s.remapRegions map := by
  have open_ : (s.idle && !s.commandRunning && !s.on F.DM_MAP_LOCK) = true := by simp [idle, none_, State.on, unlocked]
  unfold State.writeMap
  rw [if_pos open_]

theorem State.writeMap_locked (locked : s.get F.DM_MAP_LOCK = 1) (lock : Bool) :
    s.writeMap map lock = if lock then s.put F.DM_MAP_LOCK 1 else s := by
  have shut : ¬ (s.idle && !s.commandRunning && !s.on F.DM_MAP_LOCK) = true := by simp [State.on, locked]
  unfold State.writeMap
  rw [if_neg shut]

theorem execDmMapWrite_open (there : s.regOpen Reg.DM_MAP = true) (map : BitVec 6) (lock : Bool) :
    exec (.dmMapWrite map lock) s = .next (s.writeMap map.toNat lock) := congrArg done (if_pos there)

end Map

/-- Settles O16: a scrub of a sound stack changes what an event's record can change, a reading within its threshold two fields, and the map its
field and the regions whose bits differ. -/
theorem memoryUpkeep : Obligations.MemoryUpkeep := by
  unfold Obligations.MemoryUpkeep
  refine ⟨⟨fun s k line calm sound enabled whole there => ⟨?_, ?_⟩, fun s k t calm same =>
      ⟨execHbmTemperatureRead_cool calm same, execHbmTemperatureRead_hot calm same⟩⟩,
    fun s map lock there => ⟨fun idle none_ unlocked => ?_, fun locked => ?_⟩⟩
  · rw [execPatrolScrub_runs sound enabled, State.scrubLine_there whole there, if_neg Bool.false_ne_true,
      State.settle_calm ((s.frame_scrubCorrected k.isLt _ _).calm calm)]
    rfl
  · rw [execPatrolScrub_runs sound enabled, State.scrubLine_there whole there, if_pos rfl,
      State.settle_calm ((State.frame_scrubPoisoned sound.poison k.isLt _ _).calm calm), State.scrubPoisoned_fresh sound.poison]
  · rw [execDmMapWrite_open there, State.writeMap_remaps idle none_ unlocked]
    obtain ⟨m, d, remapped, others⟩ := s.remapRegions_forgets map.toNat
    have local_ (t : State) (regs : t.regs = (s.put F.DM_MAP_LOCAL map.toNat).regs) : t.get F.DM_MAP_LOCAL = map.toNat :=
      (congrArg (fun r => ({ s with regs := r } : State).get F.DM_MAP_LOCAL) regs).trans ((State.get_put_same ..).trans (Nat.mod_eq_of_lt map.isLt))
    have same : s.sameRegs { s.put F.DM_MAP_LOCAL map.toNat with hbm := m, draws := d } [F.DM_MAP_LOCAL, F.DM_MAP_LOCK] :=
      State.sameRegs_put (fun _ _ => rfl) (by simp) _
    rw [remapped]
    cases lock with
    | false => exact ⟨_, rfl, local_ _ rfl, fun no => absurd no (by decide), same, others, rfl⟩
    | true =>
      exact ⟨_, rfl, (State.get_put_other (by decide) _ _).trans (local_ _ rfl), fun _ => State.get_put_same .., State.sameRegs_put same (by simp) 1,
        others, rfl⟩
  · rw [execDmMapWrite_open there, State.writeMap_locked locked]
    cases lock with
    | false => exact ⟨_, rfl, rfl, rfl, locked⟩
    | true => exact ⟨_, rfl, rfl, State.get_put_other (by decide) _ _, State.get_put_same ..⟩

end Sys2Proof.Machine

/-!
PROOF. Fuse load, the stacks' initialisation and the self-checks after power-on (statement ModuleStarts).
-/
namespace Sys2Proof.Machine

/-- What a step establishes for its index, and no step undoes, holds of every index of the list. -/
theorem State.foldl_establishes {f : State → Nat → State} {P : State → Nat → Prop} {l : List Nat}
    (keeps : ∀ (s : State), ∀ j ∈ l, ∀ k ∈ l, P s j → P (f s k) j) (sets : ∀ (s : State), ∀ k ∈ l, P (f s k) k) (s : State) :
    ∀ j ∈ l, P (l.foldl f s) j := by
  have kept (m : List Nat) (sub : m ⊆ l) : ∀ s : State, ∀ j ∈ l, P s j → P (m.foldl f s) j := by
    induction m with
    | nil => exact fun s j _ h => h
    | cons k m ih => exact fun s j hj h => ih (fun x hx => sub (List.mem_cons_of_mem _ hx)) _ j hj (keeps s j hj k (sub (List.mem_cons_self ..)) h)
  have established (m : List Nat) (sub : m ⊆ l) : ∀ s : State, ∀ j ∈ m, P (m.foldl f s) j := by
    induction m with
    | nil => exact fun s j hj => absurd hj (List.not_mem_nil)
    | cons k m ih =>
      intro s j hj
      have rest : m ⊆ l := fun x hx => sub (List.mem_cons_of_mem _ hx)
      have first := sub (List.mem_cons_self ..)
      rcases List.mem_cons.mp hj with rfl | later
      · exact kept m rest _ j first (sets s j first)
      · exact ih rest _ j later
  exact established l (fun _ h => h) s

/-! ## The fuse-loaded registers (R478, R501) -/

/-- A field of a quarter's map and of the two words that the fuses' counters load. -/
def fuseField (f : Field) : Prop :=
  (0x100000 * 64 ≤ f.key ∧ f.key < 0x500000 * 64) ∨ f.key ∈ [F.SC_STATUS_SVN.key, F.SC_STATUS_REVOKED.key, F.CAP_SECURITY_REVOKED.key]

theorem fuseField_quarter {f : Field} (low : 0x100000 * 64 ≤ f.key) (high : f.key < 0x500000 * 64) : ∀ g : Field, g.key = f.key → fuseField g :=
  fun _ e => .inl ⟨e ▸ low, e ▸ high⟩

theorem fuseField_word {f : Field} (word : f.key ∈ [F.SC_STATUS_SVN.key, F.SC_STATUS_REVOKED.key, F.CAP_SECURITY_REVOKED.key]) :
    ∀ g : Field, g.key = f.key → fuseField g :=
  fun _ e => .inr (e ▸ word)

theorem State.loadMap_within (s : State) {q : Nat} (quarter : q < 4) (retired : List Nat) : s.PutsWithin fuseField (s.loadMap q retired) := by
  have map (l : Nat) (hl : l < 64) : ∀ g : Field, g.key = (lmapPhys q l).key → fuseField g := by
    refine fuseField_quarter ?_ ?_
    all_goals simp only [Field.key, Reg.QC_LMAP]; omega
  have shared (l : Nat) (hl : l < 64) : ∀ g : Field, g.key = (lmapShared q l).key → fuseField g := by
    refine fuseField_quarter ?_ ?_
    all_goals simp only [Field.key, Reg.QC_LMAP]; omega
  have fixed : ∀ f ∈ [F.QC_RETIRED_RETIRED q, F.QC_RETIRED_HI_RETIRED q, F.QC_STATUS_WORKING q, F.QC_STATUS_SPARES q, F.QC_STATUS_SHARED q],
      ∀ g : Field, g.key = f.key → fuseField g := by
    intro f hf
    simp only [List.mem_cons, List.not_mem_nil, or_false] at hf
    rcases hf with rfl | rfl | rfl | rfl | rfl
    all_goals
      refine fuseField_quarter ?_ ?_
      all_goals simp only [Field.key, Reg.QC_RETIRED, Reg.QC_RETIRED_HI, Reg.QC_STATUS]; omega
  unfold State.loadMap
  extract_lets good n both mapped bad lo hi retired
  refine State.PutsWithin.trans (t := mapped) (State.PutsWithin.foldl (fun s l hl => (State.PutsWithin.put (map l (List.mem_range.mp hl)) ..).trans
    (.put (shared l (List.mem_range.mp hl)) ..)) s) ?_
  exact ((((State.PutsWithin.put (fixed _ (by simp)) ..).trans (.put (fixed _ (by simp)) ..)).trans (.put (fixed _ (by simp)) ..)).trans
    (.put (fixed _ (by simp)) ..)).trans (.put (fixed _ (by simp)) ..)

theorem State.fuseStatus_within (s : State) : s.PutsWithin fuseField s.fuseStatus := by
  unfold State.fuseStatus
  split
  · exact ((State.PutsWithin.put (fuseField_word (by simp)) ..).trans (.put (fuseField_word (by simp)) ..)).trans (.put (fuseField_word (by simp)) ..)
  · exact .refl s

/-- What the first fuse load after power-on leaves. -/
theorem State.firstLoad_loads (s : State) (f : FuseImage) : (s.firstLoad f).sec.fuses = some f ∧
    (s.firstLoad f).get F.ZF_UNIT_ID_UNIT_ID = f.unitId.toNat ∧ (s.firstLoad f).get F.RS_MRST_LEVEL = 1 ∧
    (s.firstLoad f).get F.PW_STATUS_STATE = s.get F.PW_STATUS_STATE := by
  unfold State.firstLoad
  extract_lets pwr blown begun sec fused units retired mapped status last pwr'
  have begin_ (g : Field) : begun.get g = s.get g := by
    unfold begun
    split
    · rfl
    · rfl
  have within : units.PutsWithin fuseField status :=
    (State.PutsWithin.foldl (fun s q hq => s.loadMap_within (List.mem_range.mp hq) retired) units).trans (State.fuseStatus_within mapped)
  have kept {g : Field} (other : ¬ fuseField g) (apart : g.key ≠ F.RS_MRST_LEVEL.key) : last.get g = units.get g :=
    (State.get_put_other apart status 1).trans (within.2 g other)
  have unit : units.get F.ZF_UNIT_ID_UNIT_ID = f.unitId.toNat :=
    (State.get_put_other (by decide) _ _).trans ((State.get_put_same ..).trans (Nat.mod_eq_of_lt f.unitId.isLt))
  have state : units.get F.PW_STATUS_STATE = s.get F.PW_STATUS_STATE :=
    (State.get_put_other (by decide) _ _).trans ((State.get_put_other (by decide) _ _).trans (begin_ _))
  have fuses : status.sec.fuses = some f := by
    rw [within.1]
    rfl
  clear_value status units
  exact ⟨fuses, (kept (by unfold fuseField; decide) (by decide)).trans unit, State.get_put_same status F.RS_MRST_LEVEL 1,
    (kept (by unfold fuseField; decide) (by decide)).trans state⟩

/-! ## The rest of a fuse load (R476, R477) -/

/-- A load whose CRC holds, once its registers are written: the fuses are valid, and the module goes on to secure boot. -/
def State.loadEnds (s : State) : State :=
  (({ s with pwr := { s.pwr with trimTries := 0, fuseLoaded := true } } : State).put F.PW_STATUS_TRIM_VALID 1).setModule 3

section Load
variable {s : State} {f : FuseImage} (may : s.mayLoad = true)

theorem State.setModule_get (s : State) (v : Nat) {g : Field} (other : g.key ≠ F.PW_STATUS_STATE.key) : (s.setModule v).get g = s.get g := by
  unfold State.setModule
  split
  · rfl
  · exact State.get_put_other other s v

theorem State.setModule_other (s : State) (v : Nat) : (s.setModule v).pwr = s.pwr ∧ (s.setModule v).sec = s.sec := by
  unfold State.setModule
  split
  · exact ⟨rfl, rfl⟩
  · exact ⟨rfl, rfl⟩

theorem State.loadEnds_get (s : State) {g : Field} (state : g.key ≠ F.PW_STATUS_STATE.key) (valid : g.key ≠ F.PW_STATUS_TRIM_VALID.key) :
    s.loadEnds.get g = s.get g := (State.setModule_get _ _ state).trans (State.get_put_other valid _ _)

theorem State.loadEnds_ends (s : State) : s.loadEnds.get F.PW_STATUS_TRIM_VALID = 1 ∧ s.loadEnds.pwr.fuseLoaded = true ∧
    s.loadEnds.pwr.trimTries = 0 ∧ (s.get F.PW_STATUS_STATE < 10 → s.loadEnds.get F.PW_STATUS_STATE = 3) ∧ s.loadEnds.sec = s.sec := by
  have other := State.setModule_other (({ s with pwr := { s.pwr with trimTries := 0, fuseLoaded := true } } : State).put F.PW_STATUS_TRIM_VALID 1) 3
  refine ⟨(State.setModule_get _ _ (by decide)).trans (State.get_put_same ..), congrArg PwrState.fuseLoaded other.1,
    congrArg PwrState.trimTries other.1, fun low => ?_, other.2⟩
  have same : (({ s with pwr := { s.pwr with trimTries := 0, fuseLoaded := true } } : State).put F.PW_STATUS_TRIM_VALID 1).get F.PW_STATUS_STATE =
      s.get F.PW_STATUS_STATE := State.get_put_other (by decide) _ _
  unfold State.loadEnds State.setModule
  rw [if_neg (by rw [same]; omega)]
  exact State.get_put_same ..

include may

theorem execFuseLoadDone_good (good : f.crcOk = true) :
    exec (.fuseLoadDone f) s = .next (if s.sec.fuses.isNone then s.firstLoad f else s).loadEnds := by
  show done _ = _
  rw [may, good]
  rfl

theorem execFuseLoadDone_bad (bad : f.crcOk = false) : exec (.fuseLoadDone f) s = .next s.badLoad := by
  show done _ = _
  rw [may, bad]
  rfl

end Load

/-! ## A port that goes DOWN (R323): what stays -/

/-- A field that a port's going DOWN may change beside its STATE: those of its status that stand above STATE, the fabric's, and an event's. -/
def portMoved (f : Field) : Prop := eventField f ∨ (0x600000 * 64 ≤ f.key ∧ f.key % 64 ≠ 0) ∨ 0x680000 * 64 ≤ f.key

section PortDown
variable {g : Field} (kept : ¬ portMoved g)

theorem portMoved_status (p : Nat) : ∀ f ∈ [F.ZP_STATUS_RETRYING p, F.ZP_STATUS_LAT_OK p, F.ZP_STATUS_PARENT p, F.ZP_STATUS_CHILD p], portMoved f := by
  intro f hf
  simp only [List.mem_cons, List.not_mem_nil, or_false] at hf
  refine .inr (.inl ?_)
  rcases hf with rfl | rfl | rfl | rfl
  all_goals simp only [Field.key, Reg.ZP_STATUS]; omega

theorem portMoved_fabric : ∀ f ∈ [F.ZF_TREE_PARENT, F.ZF_TREE_HOPS, F.ZF_TREE_CHILDREN, F.ZF_ERRS_LOST, F.SH_WATCHDOG_MIN_HOPS], portMoved f := by
  have above : ∀ f ∈ [F.ZF_TREE_PARENT, F.ZF_TREE_HOPS, F.ZF_TREE_CHILDREN, F.ZF_ERRS_LOST, F.SH_WATCHDOG_MIN_HOPS], 0x680000 * 64 ≤ f.key := by
    decide
  exact fun f hf => .inr (.inr (above f hf))

theorem portMoved_break (axis k : Nat) : portMoved (F.ZF_BREAK_BREAKS axis k) := by
  refine .inr (.inr ?_)
  simp only [Field.key, Reg.ZF_BREAK]
  omega

include kept

theorem State.get_put_moved {f : Field} (moved : portMoved f) (s : State) (v : Nat) : (s.put f v).get g = s.get g :=
  State.get_put_other (fun e => kept (by unfold portMoved eventField at moved ⊢; rw [e]; exact moved)) s v

theorem State.get_raise_kept {e : Ev} (low : e.cls < 3) (s : State) : (s.raise e).get g = s.get g :=
  (State.frame_raise low s).regs g fun event => kept (.inl event)

omit kept in
theorem State.get_foldl_kept {α : Type} {f : State → α → State} (step : ∀ (s : State) (a : α), (f s a).get g = s.get g) (l : List α) (s : State) :
    (l.foldl f s).get g = s.get g := by
  induction l generalizing s with
  | nil => rfl
  | cons a l ih => exact (ih _).trans (step s a)

theorem State.get_setChild_kept (s : State) (p : Nat) (b : Bool) : (s.setChild p b).get g = s.get g := by
  have child (s : State) (v : Nat) := State.get_put_moved kept (portMoved_status p (F.ZP_STATUS_CHILD p) (by simp)) s v
  unfold State.setChild
  dsimp only
  split
  · exact child ..
  · exact (State.get_put_moved kept (portMoved_fabric F.ZF_TREE_CHILDREN (by simp)) ..).trans (child ..)

theorem State.get_setParent_kept (s : State) (p : Option Nat) : (s.setParent p).get g = s.get g :=
  (State.get_put_moved kept (portMoved_fabric F.ZF_TREE_PARENT (by simp)) ..).trans
    (State.get_foldl_kept (fun s q => State.get_put_moved kept (portMoved_status q (F.ZP_STATUS_PARENT q) (by simp)) s _) _ s)

theorem State.get_reparent_kept (s : State) (old : Nat) : (s.reparent old).get g = s.get g := by
  have hops (s : State) (v : Nat) := State.get_put_moved kept (portMoved_fabric F.ZF_TREE_HOPS (by simp)) s v
  unfold State.reparent
  dsimp only
  rw [State.get_raise_kept kept (Nat.zero_lt_succ 2), (State.sendFrame_announce _).get]
  split
  · rw [hops, State.get_setParent_kept kept]
  · rw [hops, State.get_setParent_kept kept]

theorem State.get_dropQueue_kept (s : State) (p : Nat) : (s.dropQueue p).get g = s.get g := by
  have freed (l : List TxMsg) (s : State) : (l.foldl (fun (s : State) t => match t.origin with
      | some o => (s.owe o.port 8 (o.shared - t.next)).owe o.port o.sub (t.total - t.next - (o.shared - t.next))
      | none => s) s).get g = s.get g :=
    State.get_foldl_kept (fun s t => by split <;> rfl) l s
  unfold State.dropQueue
  dsimp only
  split
  · exact freed _ _
  · exact (State.get_put_moved kept (portMoved_fabric F.ZF_ERRS_LOST (by simp)) ..).trans (freed _ _)

theorem State.get_remeasure_kept (s : State) : s.remeasure.get g = s.get g := by
  have hops (v : Nat) := State.get_put_moved kept (portMoved_fabric F.SH_WATCHDOG_MIN_HOPS (by simp)) s v
  have fabric (u : State) (x : FabState) : ({ u with fab := x } : State).get g = u.get g := rfl
  unfold State.remeasure
  dsimp only
  split
  · split
    · exact hops _
    · rw [fabric, State.get_raise_kept kept (Nat.zero_lt_succ 2), hops]
  · exact hops _

theorem State.get_markLink_kept (s : State) (p : Nat) (b : Bool) : (s.markLink p b).get g = s.get g := by
  have broken (axis k : Nat) : (s.setBroken axis k b).get g = s.get g := by
    unfold State.setBroken
    dsimp only
    split
    · rfl
    · exact State.get_put_moved kept (portMoved_break ..) ..
  unfold State.markLink
  split
  · rfl
  · split
    · dsimp only
      rw [State.get_remeasure_kept kept]
      split
      · rw [(State.sendFrame_sendOn ..).get, broken]
      · exact broken ..
    · rfl

/-- A port that goes DOWN: its STATE is 0, and of the fields that stay every other is as before. -/
theorem State.get_portDown_kept (s : State) (p : Nat) (c : Option CmdRef) :
    (s.portDown p c).get g = (s.put (F.ZP_STATUS_STATE p) 0).get g := by
  have status (f : Field) (hf : f ∈ [F.ZP_STATUS_RETRYING p, F.ZP_STATUS_LAT_OK p, F.ZP_STATUS_PARENT p, F.ZP_STATUS_CHILD p]) (s : State) (v : Nat) :=
    State.get_put_moved kept (portMoved_status p f hf) s v
  have strand (s : State) (l : List OutMsg) : (s.strand l).get g = s.get g := rfl
  have port (s : State) (v : PortState) : (s.setPort p v).get g = s.get g := rfl
  unfold State.portDown
  dsimp only
  split
  · rw [State.get_reparent_kept kept, status _ (by simp), State.get_markLink_kept kept, State.get_raise_kept kept (Nat.lt_succ_self 2),
      State.get_setChild_kept kept, port, strand, State.get_dropQueue_kept kept, status _ (by simp), status _ (by simp)]
  · rw [State.get_markLink_kept kept, State.get_raise_kept kept (Nat.lt_succ_self 2),
      State.get_setChild_kept kept, port, strand, State.get_dropQueue_kept kept, status _ (by simp), status _ (by simp)]

end PortDown

/-- The fields that every port's going DOWN keeps, but for the STATE of the ports. -/
theorem portMoved_not_state {p : Nat} (port : p < 8) : ¬ portMoved (F.ZP_STATUS_STATE p) := by
  have event : ∀ p < 8, (F.ZP_STATUS_STATE p).key ∉ eventFields ∧ ∀ c < 5, (F.ZP_STATUS_STATE p).key ≠ (F.ER_CLASS_COUNT c).key := by decide
  rintro ((listed | ⟨c, low, count⟩ | ⟨k, low, ecc⟩) | ⟨-, above⟩ | fabric)
  · exact (event p port).1 listed
  · exact (event p port).2 c low count
  · simp only [Field.key, Reg.ZP_STATUS, Reg.HM_ECC, Reg.HM_ERR_ADDR] at ecc
    omega
  · simp only [Field.key, Reg.ZP_STATUS] at above
    omega
  · simp only [Field.key, Reg.ZP_STATUS] at fabric
    omega

theorem portMoved_not_power : ∀ f ∈ [F.PW_STATUS_STATE, F.PW_STATUS_FUSE_FAIL], ¬ portMoved f := by
  have event : ∀ f ∈ [F.PW_STATUS_STATE, F.PW_STATUS_FUSE_FAIL], f.key ∉ eventFields ∧ (∀ c < 5, f.key ≠ (F.ER_CLASS_COUNT c).key) ∧
      f.key < 0x600000 * 64 := by decide
  intro f hf
  obtain ⟨notListed, notCount, below⟩ := event f hf
  rintro ((listed | ⟨c, low, count⟩ | ⟨k, low, ecc⟩) | ⟨port, -⟩ | fabric)
  · exact notListed listed
  · exact notCount c low count
  · simp only [Field.key, Reg.HM_ECC, Reg.HM_ERR_ADDR] at ecc below
    omega
  · omega
  · omega

theorem State.allPortsDown_power {f : Field} (power : f ∈ [F.PW_STATUS_STATE, F.PW_STATUS_FUSE_FAIL]) (s : State) :
    s.allPortsDown.get f = s.get f := by
  have kept := portMoved_not_power f power
  refine State.get_foldl_kept (fun s p => ?_) _ s
  split
  · rfl
  · refine (State.get_portDown_kept kept s p none).trans (State.get_put_other (fun e => ?_) s 0)
    have below : ∀ f ∈ [F.PW_STATUS_STATE, F.PW_STATUS_FUSE_FAIL], f.key < 0x600000 * 64 := by decide
    have low := below f power
    rw [e] at low
    simp only [Field.key, Reg.ZP_STATUS] at low
    omega

/-- With all ports DOWN the STATE of each is 0. -/
theorem State.allPortsDown_down (s : State) : ∀ p < 8, s.allPortsDown.get (F.ZP_STATUS_STATE p) = 0 := by
  have step (s : State) (p : Nat) (port : p < 8) (q : Nat) : (s.portDown q none).get (F.ZP_STATUS_STATE p) =
      (s.put (F.ZP_STATUS_STATE q) 0).get (F.ZP_STATUS_STATE p) := State.get_portDown_kept (portMoved_not_state port) s q none
  have all := State.foldl_establishes (f := fun s p => if s.get (F.ZP_STATUS_STATE p) = 0 then s else s.portDown p none)
    (P := fun s p => s.get (F.ZP_STATUS_STATE p) = 0) (l := List.range 8) ?_ ?_ s
  · exact fun p port => all p (List.mem_range.mpr port)
  · intro s p hp q hq down
    split
    · exact down
    · rw [step s p (List.mem_range.mp hp)]
      by_cases same : (F.ZP_STATUS_STATE p).key = (F.ZP_STATUS_STATE q).key
      · have equal : p = q := by
          simp only [Field.key, Reg.ZP_STATUS] at same
          omega
        rw [equal]
        exact State.get_put_same ..
      · rw [State.get_put_other same]
        exact down
  · intro s q hq
    split
    · next down => exact down
    · rw [step s q (List.mem_range.mp hq)]
      exact State.get_put_same ..

/-! ## The stacks' initialisation and the self-checks (R287, R480) -/

/-- What the initialisation makes of a stack. -/
def State.initStack (failed : BitVec 16) (s : State) (k : Nat) : State :=
  if failed.getLsbD k then (s.put (F.HM_STATUS_STATE k) 1).raise (Ev.plain 0x0605 4 6 k) else s.put (F.HM_STATUS_STATE k) 3

/-- The state before the stacks' status is written: HBM reads 0, and those that did not fail are trained. -/
def State.zeroed (s : State) (failed : BitVec 16) : State :=
  { s with hbm := Mem.empty, poison := [], pwr := { s.pwr with trained := (List.range 16).filter (fun k => !failed.getLsbD k) } }

theorem eventField_not_stack {k : Nat} (stack : k < 16) : ¬ eventField (F.HM_STATUS_STATE k) := by
  have event : ∀ k < 16, (F.HM_STATUS_STATE k).key ∉ eventFields ∧ ∀ c < 5, (F.HM_STATUS_STATE k).key ≠ (F.ER_CLASS_COUNT c).key := by decide
  rintro (listed | ⟨c, low, count⟩ | ⟨j, low, ecc⟩)
  · exact (event k stack).1 listed
  · exact (event k stack).2 c low count
  · simp only [Field.key, Reg.HM_STATUS, Reg.HM_ECC, Reg.HM_ERR_ADDR] at ecc
    omega

theorem State.raise_fatal {e : Ev} (fatal : e.cls = 4) (s : State) : (∀ f : Field, ¬ eventField f → (s.raise e).get f = s.get f) ∧
    (s.raise e).pwr = s.pwr := by
  have frame := State.frame_emit s (e := e) (by omega)
  have period (u : State) (x : PdState) (f : Field) : ({ u with pd := x } : State).get f = u.get f := rfl
  unfold State.raise
  dsimp only
  rw [if_neg (by omega), if_pos fatal]
  exact ⟨fun f other => (period _ _ f).trans (frame.regs f other), by rw [frame.rest]⟩

section Stacks
variable (failed : BitVec 16) (s : State)

theorem State.initStack_pwr (k : Nat) : (s.initStack failed k).pwr = s.pwr := by
  unfold State.initStack
  split
  · have fatal := State.raise_fatal (e := Ev.plain 0x0605 4 6 k) rfl (s.put (F.HM_STATUS_STATE k) 1)
    rw [fatal.2]
    rfl
  · rfl

theorem State.initStack_get (k : Nat) {j : Nat} (stack : j < 16) : (s.initStack failed k).get (F.HM_STATUS_STATE j) =
    (s.put (F.HM_STATUS_STATE k) (if failed.getLsbD k then 1 else 3)).get (F.HM_STATUS_STATE j) := by
  unfold State.initStack
  split
  · rw [(State.raise_fatal rfl _).1 _ (eventField_not_stack stack)]
  · rfl

/-- After the initialisation each stack's STATE says whether it is trained. -/
theorem State.initStacks_get : ∀ k < 16, ((List.range 16).foldl (State.initStack failed) s).get (F.HM_STATUS_STATE k) =
    if failed.getLsbD k then 1 else 3 := by
  have set_ (s : State) (k : Nat) : (s.put (F.HM_STATUS_STATE k) (if failed.getLsbD k then 1 else 3)).get (F.HM_STATUS_STATE k) =
      if failed.getLsbD k then 1 else 3 := by
    rw [State.get_put_same]
    split
    · rfl
    · rfl
  have all := State.foldl_establishes (f := State.initStack failed) (P := fun s k => s.get (F.HM_STATUS_STATE k) = if failed.getLsbD k then 1 else 3)
    (l := List.range 16) ?_ ?_ s
  · exact fun k stack => all k (List.mem_range.mpr stack)
  · intro s j hj k hk trained
    rw [State.initStack_get failed s k (List.mem_range.mp hj)]
    by_cases same : (F.HM_STATUS_STATE j).key = (F.HM_STATUS_STATE k).key
    · have equal : j = k := by
        simp only [Field.key, Reg.HM_STATUS] at same
        omega
      rw [equal]
      exact set_ s k
    · rw [State.get_put_other same]
      exact trained
  · intro s k hk
    rw [State.initStack_get failed s k (List.mem_range.mp hk)]
    exact set_ s k

theorem State.initStacks_pwr (l : List Nat) : (l.foldl (State.initStack failed) s).pwr = s.pwr := by
  induction l generalizing s with
  | nil => rfl
  | cons k l ih => exact (ih _).trans (State.initStack_pwr failed s k)

/-- Where no stack fails, the status of the stacks is all that is written. -/
theorem State.initStacks_memory (l : List Nat) : (l.foldl (State.initStack 0) s).hbm = s.hbm ∧ (l.foldl (State.initStack 0) s).poison = s.poison := by
  induction l generalizing s with
  | nil => exact ⟨rfl, rfl⟩
  | cons k l ih =>
    have good : s.initStack 0 k = s.put (F.HM_STATUS_STATE k) 3 := if_neg (by simp)
    obtain ⟨hbm, poison⟩ := ih (s.initStack 0 k)
    rw [good] at hbm poison
    rw [List.foldl_cons, good]
    exact ⟨hbm, poison⟩

theorem execHbmInitDone_runs (started : s.get F.PW_STATUS_STATE = 4) (untrained : ∀ k < 16, s.get (F.HM_STATUS_STATE k) ≤ 1) :
    exec (.hbmInitDone failed) s = .next ((List.range 16).foldl (State.initStack failed) (s.zeroed failed)).settle := by
  have runs : (decide (s.get F.PW_STATUS_STATE = 4) && allBelow 16 (fun k => decide (s.get (F.HM_STATUS_STATE k) ≤ 1))) = true := by
    simpa [started, allBelow] using untrained
  exact congrArg done (if_pos runs)

theorem execPowerOnSelfChecksDone_ready (started : s.get F.PW_STATUS_STATE = 4) (trained : ∀ k < 16, 2 ≤ s.get (F.HM_STATUS_STATE k)) :
    exec .powerOnSelfChecksDone s = .next (s.put F.PW_STATUS_STATE 5) := by
  have ready : (decide (s.get F.PW_STATUS_STATE = 4) && allBelow 16 (fun k => decide (2 ≤ s.get (F.HM_STATUS_STATE k)))) = true := by
    simpa [started, allBelow] using trained
  exact congrArg done (if_pos ready)

theorem execPowerOnSelfChecksDone_waits (lacking : ∃ k < 16, s.get (F.HM_STATUS_STATE k) < 2) : exec .powerOnSelfChecksDone s = .next s := by
  have waits : ¬ (decide (s.get F.PW_STATUS_STATE = 4) && allBelow 16 (fun k => decide (2 ≤ s.get (F.HM_STATUS_STATE k)))) = true := by
    simpa [allBelow] using fun _ => lacking
  exact congrArg done (if_neg waits)

end Stacks

/-- Settles O56: a load writes registers that none of the later ones overlays, and each stack's status is written once. -/
theorem moduleStarts : Obligations.ModuleStarts := by
  unfold Obligations.ModuleStarts
  refine fun s => ⟨fun f may => ⟨fun good => ?_, fun bad early => ?_, fun bad third => ?_⟩, fun failed started untrained => ?_,
    fun started => ⟨execPowerOnSelfChecksDone_ready s started, execPowerOnSelfChecksDone_waits s⟩⟩
  · refine ⟨_, execFuseLoadDone_good may good, ?_⟩
    by_cases first : s.sec.fuses = none
    · obtain ⟨fuses, unit, level, state⟩ := s.firstLoad_loads f
      obtain ⟨valid, loaded, tries, ready, sec⟩ := (s.firstLoad f).loadEnds_ends
      rw [if_pos (by rw [first]; rfl)]
      rw [state] at ready
      exact ⟨valid, loaded, tries, ready, fun _ => ⟨(congrArg SecState.fuses sec).trans fuses,
        (State.loadEnds_get _ (by decide) (by decide)).trans unit, (State.loadEnds_get _ (by decide) (by decide)).trans level⟩⟩
    · obtain ⟨valid, loaded, tries, ready, -⟩ := s.loadEnds_ends
      rw [if_neg (by simpa using first)]
      exact ⟨valid, loaded, tries, ready, fun none_ => absurd none_ first⟩
  · have again : ¬ 3 ≤ s.pwr.trimTries + 1 := by omega
    exact (execFuseLoadDone_bad may bad).trans (congrArg done (if_neg again))
  · have last : 3 ≤ s.pwr.trimTries + 1 := by omega
    refine ⟨_, (execFuseLoadDone_bad may bad).trans (congrArg done (if_pos last)), ?_, ?_, State.allPortsDown_down _⟩
    · exact (State.allPortsDown_power (by simp) _).trans ((State.get_put_other (by decide) _ _).trans (State.get_put_same ..))
    · exact (State.allPortsDown_power (by simp) _).trans (State.get_put_same ..)
  · refine ⟨_, execHbmInitDone_runs failed s started untrained, State.initStacks_get failed _,
      congrArg PwrState.trained (State.initStacks_pwr failed _ _), fun none_ => ?_⟩
    subst none_
    obtain ⟨hbm, poison⟩ := State.initStacks_memory (s.zeroed 0) (List.range 16)
    exact ⟨poison, fun a _ => (congrArg (Mem.get · a) hbm).trans rfl⟩

end Sys2Proof.Machine

/-!
PROOF. A FETCH that sends READY uses a port, and the flight of its command notes it: no state with the flight as it was settles to what the row
leaves (statement GatherWindow).
-/
namespace Sys2Proof.Machine

/-- Which commands use the fabric: the flights, with the ports that they have used; the collective runs, by their commands, and what each
has sent; the re-shard's command; and those of the shadow's transfers. -/
def State.usage (s : State) : List Flight × List (CmdRef × List CollPiece) × Option CmdRef × List CmdRef :=
  (s.cp.flights, s.coll.runs.map (fun r => (r.cmd, r.sent)), s.coll.reshard.map (·.cmd), s.sh.runs.map (·.cmd))

@[simp] theorem State.usage_mk (regs latches hbm comp poison inject cp pd mgmt pwr oxl dm fab coll num gram marks rr cj uu sh sec out draws
    wrote pending) :
    State.usage ⟨regs, latches, hbm, comp, poison, inject, cp, pd, mgmt, pwr, oxl, dm, fab, coll, num, gram, marks, rr, cj, uu, sh, sec, out,
      draws, wrote, pending⟩ = (cp.flights, coll.runs.map (fun r => (r.cmd, r.sent)), coll.reshard.map (·.cmd), sh.runs.map (·.cmd)) := rfl

@[simp] theorem State.usage_fold (s : State) : (s.cp.flights, s.coll.runs.map (fun r => (r.cmd, r.sent)), s.coll.reshard.map (·.cmd),
    s.sh.runs.map (·.cmd)) = s.usage := rfl

@[simp] theorem State.usage_ite (c : Prop) [Decidable c] (s t : State) : (if c then s else t).usage = if c then s.usage else t.usage :=
  apply_ite ..

@[simp] theorem fst_usage_ite {α : Type} (c : Prop) [Decidable c] (x y : State × α) :
    (if c then x else y).1.usage = if c then x.1.usage else y.1.usage := apply_ite (fun p : State × α => p.1.usage) ..

@[simp] theorem State.usage_foldl {α : Type} {f : State → α → State} (l : List α) (hf : ∀ (s : State) (a : α), (f s a).usage = s.usage) (s : State) :
    (l.foldl f s).usage = s.usage := by
  induction l generalizing s with
  | nil => rfl
  | cons a l ih => exact (ih _).trans (hf s a)

theorem usage_foldl_fst {α β : Type} {f : State × β → α → State × β} (l : List α) (hf : ∀ (p : State × β) (a : α), (f p a).1.usage = p.1.usage)
    (p : State × β) : (l.foldl f p).1.usage = p.1.usage := by
  induction l generalizing p with
  | nil => rfl
  | cons a l ih => exact (ih _).trans (hf p a)

theorem State.usage_of_fst {α : Type} {p : State × α} {t : State} {a : α} (h : p = (t, a)) : t.usage = p.1.usage := by rw [h]

theorem State.EventFrame.usage {s t : State} (h : s.EventFrame t) : t.usage = s.usage := by
  rw [h.rest]
  rfl

theorem State.SendFrame.usage {s t : State} (h : s.SendFrame t) : t.usage = s.usage := by
  rw [h]
  rfl

/-! ## Registers, events and the companion's requests -/

@[simp] theorem State.usage_put (s : State) (f : Field) (v : Nat) : (s.put f v).usage = s.usage := by simp [State.put]

@[simp] theorem State.usage_bump (s : State) (f : Field) (n : Nat) : (s.bump f n).usage = s.usage := by simp [State.bump]

@[simp] theorem State.usage_oxlAsk (s : State) (r : OxlReq) : (s.oxlAsk r).usage = s.usage := (State.frame_oxlAsk ..).usage

@[simp] theorem State.usage_fetch (s : State) (owner : OxlOwner) (a n : Nat) : (s.fetch owner a n).usage = s.usage := by simp [State.fetch]

@[simp] theorem State.usage_disown (s : State) (owner : OxlOwner) : (s.disown owner).usage = s.usage := by simp [State.disown]

@[simp] theorem State.usage_loseEvent (s : State) (e : Ev) : (s.loseEvent e).usage = s.usage := (State.frame_loseEvent ..).usage

@[simp] theorem State.usage_noteEntry (s : State) (en : RecEntry) : (s.noteEntry en).usage = s.usage := (State.frame_noteEntry ..).usage

@[simp] theorem State.usage_queuePldm (s : State) (e : PldmEvent) (alert : Bool) : (s.queuePldm e alert).usage = s.usage :=
  (State.frame_queuePldm ..).usage

@[simp] theorem State.usage_countEvent (s : State) (e : Ev) : (s.countEvent e).usage = s.usage := by simp [State.countEvent]

@[simp] theorem State.usage_tryRecord (s : State) (tag : RecordTag) (w : EvWait) (withheld : Nat) :
    (s.tryRecord tag w withheld).1.usage = s.usage :=
  (s.frame_tryRecord tag w withheld).1.usage

@[simp] theorem State.usage_countWithheld (s : State) (e : Ev) : (s.countWithheld e).usage = s.usage := by simp [State.countWithheld]

@[simp] theorem State.usage_writeEvent (s : State) (w : EvWait) : (s.writeEvent w).1.usage = s.usage := by simp [State.writeEvent]

@[simp] theorem State.usage_writeOverflow (s : State) (w : EvWait) : (s.writeOverflow w).1.usage = s.usage := by
  unfold State.writeOverflow
  split <;> simp [State.usage_of_fst ‹_›]

@[simp] theorem State.usage_recordNow (s : State) (w : EvWait) : (s.recordNow w).1.usage = s.usage := by simp [State.recordNow]

@[simp] theorem State.usage_recordEvent (s : State) (e : Ev) : (s.recordEvent e).1.usage = s.usage := by simp [State.recordEvent]

@[simp] theorem State.usage_emitWithin (n : Nat) (s : State) (e : Ev) : (s.emitWithin n e).usage = s.usage := by
  induction n generalizing s e with
  | zero => simp [State.emitWithin]
  | succ n ih => simp [State.emitWithin, ih]

@[simp] theorem State.usage_emit (s : State) (e : Ev) : (s.emit e).usage = s.usage := by simp [State.emit]

@[simp] theorem State.usage_raise (s : State) (e : Ev) : (s.raise e).usage = s.usage := by simp [State.raise]

@[simp] theorem State.usage_writeWaiting (s : State) (fuel : Nat) : (s.writeWaiting fuel).usage = s.usage := by
  induction fuel generalizing s with
  | zero => rfl
  | succ fuel ih =>
    unfold State.writeWaiting
    split
    · rfl
    · split
      · rfl
      · simp [ih]

@[simp] theorem State.usage_undoWrite (s : State) (r : OxlReq) (refused : Bool) : (s.undoWrite r refused).usage = s.usage := by simp [State.undoWrite]

@[simp] theorem State.usage_failOwner (s : State) (r : OxlReq) (status : Nat) : (s.failOwner r status).usage = s.usage := by
  unfold State.failOwner
  split <;> simp

@[simp] theorem State.usage_takeReq (s : State) (r : OxlReq) : (s.takeReq r).usage = s.usage := by simp [State.takeReq]

@[simp] theorem State.usage_dropReq (s : State) (r : OxlReq) (refused : Bool) (status : Nat) : (s.dropReq r refused status).usage = s.usage := by
  unfold State.dropReq
  split <;> simp

@[simp] theorem State.usage_oxlAbandon (s : State) : s.oxlAbandon.usage = s.usage := by simp [State.oxlAbandon]

/-! ## Memory -/

@[simp] theorem State.usage_checkLines (s : State) (c : Option CmdRef) (ls : List Nat) : (s.checkLines c ls).1.usage = s.usage := by
  induction ls generalizing s with
  | nil => rfl
  | cons l ls ih =>
    have line : (s.checkLine l c).1.usage = s.usage := (State.frame_checkLine s l c).usage
    rw [State.checkLines]
    split
    · rename_i t ev he
      rw [he] at line
      rw [State.usage_emit, line]
    · rename_i t ev he
      rw [he] at line
      rw [ih, State.usage_emit, line]

@[simp] theorem State.usage_readHbm (s : State) (a n : Nat) (c : Option CmdRef) : (s.readHbm a n c).1.usage = s.usage := by
  unfold State.readHbm
  split
  · rfl
  · split <;> exact (State.usage_of_fst ‹_›).trans (State.usage_checkLines ..)

@[simp] theorem State.usage_readCompanion (s : State) (x n : Nat) (c : Option CmdRef) : (s.readCompanion x n c).1.usage = s.usage := by
  unfold State.readCompanion
  (repeat' split) <;> simp

@[simp] theorem State.usage_readAt (s : State) (a n : Nat) (c : Option CmdRef) : (s.readAt a n c).1.usage = s.usage := by
  unfold State.readAt
  split <;> simp

@[simp] theorem State.usage_writeHbm (s : State) (a : Nat) (bs : List Byte) (c : Option CmdRef) : (s.writeHbm a bs c).1.usage = s.usage := by
  have checked (ls : List Nat) := s.usage_checkLines c ls
  unfold State.writeHbm
  dsimp only
  split
  · rfl
  · split
    · exact checked _
    · exact checked _

theorem State.usage_writeCompanion (s : State) (o : Option OxlOwner) (a : Nat) (bs : List Byte) : (s.writeCompanion o a bs).usage = s.usage := by
  have parts (l : List (Nat × Nat)) (s : State) : (l.foldl (fun (s : State) p =>
      s.writePart o (a + companionBase, bs.length) none none p.1 ((bs.drop (p.1 - a)).take p.2)) s).usage = s.usage :=
    State.usage_foldl l (fun s p => (State.frame_writePart s o _ none none p.1 _).usage) s
  unfold State.writeCompanion
  dsimp only
  rw [parts]
  split <;> rfl

@[simp] theorem State.usage_writeAt (s : State) (a : Nat) (bs : List Byte) (c : Option CmdRef) : (s.writeAt a bs c).1.usage = s.usage := by
  have noted : (s.noteWrite a bs.length c).usage = s.usage := by rw [State.noteWrite_eq, State.usage_mk, State.usage_fold]
  unfold State.writeAt
  dsimp only
  split
  · rw [State.usage_writeHbm, noted]
  · split
    · exact noted
    · split
      · exact noted
      · exact (State.usage_writeCompanion ..).trans noted
  · exact noted

@[simp] theorem State.usage_forgetHbm (s : State) (lo hi : Nat) : (s.forgetHbm lo hi).usage = s.usage := by
  unfold State.forgetHbm
  split <;> rfl

@[simp] theorem State.usage_forgetAt (s : State) (a n : Nat) : (s.forgetAt a n).usage = s.usage := by
  unfold State.forgetAt
  split
  · exact State.usage_forgetHbm ..
  · split <;> rfl
  · rfl

@[simp] theorem State.usage_forgetAll (s : State) (ts : List (Nat × Nat)) : (s.forgetAll ts).usage = s.usage := by simp [State.forgetAll]

/-! ## Clusters and critical structures -/

@[simp] theorem State.usage_markCluster (s : State) (cluster : Nat) (persist : Bool) (status : Option Nat) :
    (s.markCluster cluster persist status).usage = s.usage := by simp [State.markCluster]

@[simp] theorem State.usage_countSram (s : State) (st : Store) (uncorrectable : Bool) : (s.countSram st uncorrectable).usage = s.usage := by
  unfold State.countSram
  split <;> simp

@[simp] theorem State.usage_useStore (s : State) (st : Store) (inst : Nat) (c : Option CmdRef) : (s.useStore st inst c).1.usage = s.usage := by
  unfold State.useStore
  split <;> simp

theorem State.usage_takeResidue {s t : State} {cluster : Nat} (h : s.takeResidue cluster = some t) : t.usage = s.usage := by
  obtain ⟨i, -, rfl⟩ := Option.map_eq_some_iff.mp h
  rfl

@[simp] theorem State.usage_residue (s : State) (cluster : Nat) : ((s.takeResidue cluster).getD s).usage = s.usage := by
  cases taken : s.takeResidue cluster with
  | none => rfl
  | some t => exact State.usage_takeResidue taken

@[simp] theorem State.usage_completeChunk (s : State) (cluster : Nat) (k : ChunkCheck) (c : Option CmdRef) :
    (s.completeChunk cluster k c).1.usage = s.usage := by
  unfold State.completeChunk
  split
  · rfl
  · dsimp only
    split <;> simp

@[simp] theorem State.usage_completeChunks (s : State) (cluster : Nat) (c : Option CmdRef) (ks : List ChunkCheck) :
    (s.completeChunks cluster c ks).1.usage = s.usage := by
  induction ks generalizing s with
  | nil => rfl
  | cons k ks ih =>
    unfold State.completeChunks
    split <;> simp [ih, State.usage_of_fst ‹_›]

@[simp] theorem State.usage_criticalError (s : State) (structure_ inst : Nat) (injected : Bool) (c : Option CmdRef) :
    (s.criticalError structure_ inst injected c).usage = s.usage := by simp [State.criticalError]

@[simp] theorem State.usage_useCritical (s : State) (structure_ inst : Nat) (c : Option CmdRef) : (s.useCritical structure_ inst c).1.usage = s.usage := by
  unfold State.useCritical
  split <;> simp

@[simp] theorem State.usage_readTable (s : State) (a n structure_ : Nat) (c : CmdRef) : (s.readTable a n structure_ c).1.usage = s.usage := by
  unfold State.readTable
  split <;> rename_i used
  · simp [State.usage_of_fst used]
  · split
    · next read => simp [State.usage_of_fst read, State.usage_of_fst used]
    · simp [State.usage_of_fst used]

/-! ## Own writes and numeric sites -/

@[simp] theorem State.usage_own (s : State) (a : Nat) (bs : List Byte) : (s.own a bs).usage = s.usage := s.usage_writeHbm a bs none

@[simp] theorem State.usage_ownWord (s : State) (a n v : Nat) : (s.ownWord a n v).usage = s.usage := by simp [State.ownWord]

@[simp] theorem State.usage_count (s : State) (eval : Bool) (t : Nat) (c : Counts) : (s.count eval t c).usage = s.usage := by simp [State.count]

@[simp] theorem State.usage_convertSite (s : State) (eval : Bool) (t : Nat) (f : Fmt) (code : Nat) (vs : List (Nat × Val)) :
    (s.convertSite eval t f code vs).1.usage = s.usage := by simp [State.convertSite]

@[simp] theorem State.usage_writeEvaluation (s : State) (n : Nat) : (s.writeEvaluation n).usage = s.usage := by
  unfold State.writeEvaluation
  (repeat' split) <;> simp

/-! ## Actions that may fail -/

@[simp] theorem Act.usage_bind {α β : Type} {m : Act α} {k : State → α → Act β} (hk : ∀ s a, (k s a).1.usage = s.usage) :
    (m.bind k).1.usage = m.1.usage := by
  unfold Act.bind
  split
  · exact hk _ _
  · rfl

@[simp] theorem usage_actAll {α β : Type} {f : State → α → Act β} (hf : ∀ s a, (f s a).1.usage = s.usage) (s : State) (l : List α) :
    (actAll f s l).1.usage = s.usage := by
  induction l generalizing s with
  | nil => rfl
  | cons a l ih =>
    unfold actAll
    rw [Act.usage_bind, hf]
    intro s b
    rw [Act.usage_bind, ih]
    intro s bs
    rfl

@[simp] theorem State.usage_maybe {α β : Type} (s : State) (o : Option α) (z : β) {f : State → α → Act β}
    (hf : ∀ s a, (f s a).1.usage = s.usage) : (s.maybe o z f).1.usage = s.usage := by
  unfold State.maybe
  split
  · exact hf _ _
  · rfl

@[simp] theorem State.usage_readAct (s : State) (a n : Nat) (c : CmdRef) : (s.readAct a n c).1.usage = s.usage := by
  unfold State.readAct
  split <;> simp [State.usage_of_fst ‹_›]

@[simp] theorem State.usage_writeAct (s : State) (a : Nat) (bs : List Byte) (c : CmdRef) : (s.writeAct a bs c).1.usage = s.usage := by
  unfold State.writeAct
  split <;> simp [State.usage_of_fst ‹_›]

@[simp] theorem State.usage_writeRuns (s : State) (rs : List (Nat × List Byte)) (c : CmdRef) :
    (s.writeRuns rs c).1.usage = s.usage := by simp [State.writeRuns]

@[simp] theorem State.usage_clearPending (s : State) (g : GramSite) : (s.clearPending g).usage = s.usage := by simp [State.clearPending]

@[simp] theorem State.usage_discardGram (s : State) : s.discardGram.usage = s.usage := by simp [State.discardGram]

@[simp] theorem State.usage_checkTiles (s : State) (ctx : RunCtx) (tiles : List Nat) (checks : Nat → List ChunkCheck) :
    (s.checkTiles ctx tiles checks).1.usage = s.usage :=
  usage_foldl_fst _ (fun p i => by simp) _

@[simp] theorem State.usage_forgetProgram (s : State) (p : RunParams) (st : Nat) : (s.forgetProgram p st).usage = s.usage := by
  unfold State.forgetProgram State.forgetOutputs
  (repeat' split) <;> simp

@[simp] theorem State.usage_enterClusters (s : State) (first count : Nat) (c : CmdRef) : (s.enterClusters first count c).1.usage = s.usage := by
  unfold State.enterClusters
  dsimp only
  split
  · rfl
  · split <;> rename_i used
    · simp [State.usage_of_fst used]
    · refine (usage_foldl_fst _ (fun p k => ?_) _).trans (by simp [State.usage_of_fst used])
      split <;> simp [State.usage_of_fst ‹_›]

/-! ## Clauses -/

@[simp] theorem State.usage_setClause (s : State) (c : Nat) (v : ClauseRun) : (s.setClause c v).usage = s.usage := by simp [State.setClause]

@[simp] theorem State.usage_setActive (s : State) (c : Nat) (b : Bool) : (s.setActive c b).usage = s.usage := by simp [State.setActive]

@[simp] theorem State.usage_sampleSlack (s : State) (c : Nat) : (s.sampleSlack c).usage = s.usage := by simp [State.sampleSlack]

@[simp] theorem State.usage_lateSlack (s : State) (c : Nat) : (s.lateSlack c).usage = s.usage := by simp [State.lateSlack]

@[simp] theorem State.usage_clauseEnd (s : State) (c : Nat) (completed : Bool) : (s.clauseEnd c completed).usage = s.usage := by simp [State.clauseEnd]

@[simp] theorem State.usage_completeClause (s : State) (c : Nat) : (s.completeClause c).usage = s.usage := by simp [State.completeClause]

/-! ## Roots, and commands in flight -/

@[simp] theorem State.usage_putRoot (s : State) (e : Nat) (b : List Byte) : (s.putRoot e b).usage = s.usage := by simp [State.putRoot]

@[simp] theorem State.usage_forgetCommand (s : State) (cmd : Option Instr) (st : Nat) : (s.forgetCommand cmd st).usage = s.usage := by
  unfold State.forgetCommand
  split <;> simp

@[simp] theorem State.usage_spoilFlight (s : State) (f : Flight) (st : Nat) : (s.spoilFlight f st).usage = s.usage := by
  unfold State.spoilFlight
  split <;> simp

@[simp] theorem State.usage_readBlock (s : State) (f : Fmt) (a w rows cols : Nat) (c : CmdRef) :
    (s.readBlock f a w rows cols c).1.usage = s.usage := by simp [State.readBlock]

@[simp] theorem State.usage_readWords (s : State) (a n : Nat) (c : CmdRef) : (s.readWords a n c).1.usage = s.usage := by simp [State.readWords]

@[simp] theorem State.usage_clearRoots (s : State) (n : Nat) : (s.clearRoots n).usage = s.usage := by simp [State.clearRoots]

@[simp] theorem State.usage_discardRoots (s : State) (n : Nat) : (s.discardRoots n).usage = s.usage := by simp [State.discardRoots]

@[simp] theorem State.usage_faultRing (s : State) (k code : Nat) : (s.faultRing k code).usage = s.usage := by simp [State.faultRing]

@[simp] theorem State.usage_fetchImage (s : State) (f : Flight) : (s.fetchImage f).usage = s.usage := by
  unfold State.fetchImage
  (repeat' split) <;> simp

@[simp] theorem State.usage_fetchImages (s : State) : s.fetchImages.usage = s.usage := by simp [State.fetchImages]

@[simp] theorem State.usage_countDeferred (s : State) : s.countDeferred.usage = s.usage := by simp [State.countDeferred]

@[simp] theorem State.usage_putWaiting (s : State) : s.putWaiting.usage = s.usage := by simp [State.putWaiting]

/-! ## The fabric's ports -/

@[simp] theorem State.usage_setModule (s : State) (v : Nat) : (s.setModule v).usage = s.usage := by simp [State.setModule]

@[simp] theorem State.usage_setPort (s : State) (p : Nat) (v : PortState) : (s.setPort p v).usage = s.usage :=
  (State.sendFrame_setPort ..).usage

@[simp] theorem State.usage_owe (s : State) (p target n : Nat) : (s.owe p target n).usage = s.usage := (State.sendFrame_owe ..).usage

@[simp] theorem State.usage_flush (s : State) (p : Nat) : (s.flush p).usage = s.usage := (State.sendFrame_flush ..).usage

@[simp] theorem State.usage_enqueue (s : State) (p : Nat) (t : TxMsg) : (s.enqueue p t).usage = s.usage :=
  (State.sendFrame_enqueue ..).usage

@[simp] theorem State.usage_returnCredits (s : State) (p : Nat) : (s.returnCredits p).usage = s.usage := by simp [State.returnCredits]

@[simp] theorem State.usage_pumpPort (s : State) (p : Nat) : (s.pumpPort p).usage = s.usage := by simp [State.pumpPort]

@[simp] theorem State.usage_sendOn (s : State) (p n : Nat) (sub : Option Nat) (m : OutMsg) : (s.sendOn p n sub m).usage = s.usage :=
  (State.sendFrame_sendOn ..).usage

@[simp] theorem State.usage_sendEach (s : State) (ports : List Nat) (m : Nat → OutMsg) : (s.sendEach ports m).usage = s.usage :=
  (State.sendFrame_sendEach ..).usage

@[simp] theorem State.usage_consume (s : State) (o : Origin) (n : Nat) : (s.consume o n).usage = s.usage := by simp [State.consume]

@[simp] theorem State.usage_setBroken (s : State) (axis k : Nat) (b : Bool) : (s.setBroken axis k b).usage = s.usage := by simp [State.setBroken]

@[simp] theorem State.usage_remeasure (s : State) : s.remeasure.usage = s.usage := by
  unfold State.remeasure
  dsimp only
  split
  · split <;> simp
  · simp

@[simp] theorem State.usage_announce (s : State) : s.announce.usage = s.usage := (State.sendFrame_announce ..).usage

@[simp] theorem State.usage_setParent (s : State) (p : Option Nat) : (s.setParent p).usage = s.usage := by simp [State.setParent]

@[simp] theorem State.usage_setChild (s : State) (p : Nat) (b : Bool) : (s.setChild p b).usage = s.usage := by simp [State.setChild]

@[simp] theorem State.usage_reparent (s : State) (old : Nat) : (s.reparent old).usage = s.usage := by
  unfold State.reparent
  extract_lets u v
  have hops : v.usage = s.usage := by
    unfold v
    split <;> exact (State.usage_put ..).trans (State.usage_setParent ..)
  rw [State.usage_raise, State.usage_announce, hops]

@[simp] theorem State.usage_markLink (s : State) (p : Nat) (b : Bool) : (s.markLink p b).usage = s.usage := by
  unfold State.markLink
  split <;> simp

@[simp] theorem State.usage_strand (s : State) (lost : List OutMsg) : (s.strand lost).usage = s.usage := by
  have kept (r : CollRun) : (fun r : CollRun => (r.cmd, r.sent)) (if lost.any (r.isTail s.logical) then
      { r with lastFlit := r.lastFlit.map (fun x => (none, x.2)) } else r) = (r.cmd, r.sent) := by
    split <;> rfl
  simp only [State.strand, State.usage_mk, List.map_map, Function.comp_def, kept, State.usage_fold]

@[simp] theorem State.usage_dropQueue (s : State) (p : Nat) : (s.dropQueue p).usage = s.usage := by
  unfold State.dropQueue
  dsimp only
  rw [State.usage_ite, State.usage_bump, ite_self]
  refine (State.usage_foldl _ (fun s t => ?_) _).trans (by simp)
  split <;> simp

@[simp] theorem State.usage_portDown (s : State) (p : Nat) (c : Option CmdRef) : (s.portDown p c).usage = s.usage := by simp [State.portDown]

@[simp] theorem State.usage_allPortsDown (s : State) : s.allPortsDown.usage = s.usage := by simp [State.allPortsDown]

@[simp] theorem State.usage_forwardTo (s : State) (p n vc : Nat) (dl : Bool) (m : OutMsg) (origin : Option Origin) :
    (s.forwardTo p n vc dl m origin).usage = s.usage := by
  unfold State.forwardTo
  (repeat' split) <;> simp

@[simp] theorem State.usage_takeDown (s : State) (p : Nat) (c : Option CmdRef) : (s.takeDown p c).usage = s.usage := by simp [State.takeDown]

/-! ## Prepares and commits -/

@[simp] theorem State.usage_sealHeader (s : State) : s.sealHeader.usage = s.usage := by simp [State.sealHeader]

@[simp] theorem State.usage_ledPut (s : State) (target phase : Nat) : (s.ledPut target phase).usage = s.usage := by simp [State.ledPut]

@[simp] theorem State.usage_groupWrite (s : State) (a : Nat) (bs : List Byte) (c : Option CmdRef) : (s.groupWrite a bs c).1.usage = s.usage := by
  unfold State.groupWrite
  split <;> simp [State.usage_of_fst ‹_›]

@[simp] theorem State.usage_headerGroup (s : State) (fields : List (Nat × List Byte)) (c : Option CmdRef) :
    (s.headerGroup fields c).1.usage = s.usage := by simp [State.headerGroup]

@[simp] theorem State.usage_vectorGroup (s : State) (t n : Nat) (c : CmdRef) : (s.vectorGroup t n c).1.usage = s.usage := by simp [State.vectorGroup]

@[simp] theorem State.usage_unitRead (s : State) (a n structure_ : Nat) (c : CmdRef) : (s.unitRead a n structure_ c).1.usage = s.usage := by
  unfold State.unitRead
  split <;> simp [State.usage_of_fst ‹_›]

@[simp] theorem State.usage_readState (s : State) (blocks : Bool) (c : CmdRef) : (s.readState blocks c).1.usage = s.usage := by simp [State.readState]

@[simp] theorem State.usage_skipNote (s : State) (c : CmdRef) : (s.skipNote c).usage = s.usage := by simp [State.skipNote]

@[simp] theorem State.usage_product (s : State) (ctx : RunCtx) (a b : Mat) (m k n : Nat) : (s.product ctx a b m k n).1.usage = s.usage := by
  unfold State.product
  dsimp only
  split <;> simp [State.usage_of_fst ‹_›]

@[simp] theorem State.usage_rootOf (s : State) (entry block w m : Nat) (c : CmdRef) :
    (s.rootOf entry block w m c).1.usage = s.usage := by simp [State.rootOf]

@[simp] theorem State.usage_subDirection (s : State) (ctx : RunCtx) (code : Nat) (g u : Mat) (l r : Option Mat) (m n : Nat) :
    (s.subDirection ctx code g u l r m n).1.usage = s.usage := by simp [State.subDirection]

@[simp] theorem State.usage_directions (s : State) (ctx : RunCtx) (i : PrepItem) (g u : Mat) (wl wr : Nat) :
    (s.directions ctx i g u wl wr).1.usage = s.usage := by
  unfold State.directions
  refine (Act.usage_bind fun s bands => rfl).trans (usage_actAll (fun s bi => (Act.usage_bind fun s l => ?_).trans (State.usage_rootOf ..)) ..)
  exact (Act.usage_bind fun s parts => rfl).trans
    (usage_actAll (fun s bj => (Act.usage_bind fun s r => State.usage_subDirection ..).trans (State.usage_rootOf ..)) ..)

@[simp] theorem State.usage_prepareItem (s : State) (ctx : RunCtx) (q : Val) (i : PrepItem) : (s.prepareItem ctx q i).1.usage = s.usage := by
  unfold State.prepareItem
  dsimp only
  rw [Act.usage_bind, State.usage_readWords]
  intro s gs
  rw [Act.usage_bind, State.usage_maybe _ _ _ (fun s _ => by simp)]
  intro s old
  rw [Act.usage_bind (fun s d => by simp)]
  split
  · rfl
  · split <;> simp

@[simp] theorem State.usage_forgetPrepared (s : State) : s.forgetPrepared.usage = s.usage := by simp [State.forgetPrepared]

@[simp] theorem State.usage_waitingNorm (s : State) (b : Bool) : (s.waitingNorm b).usage = s.usage := by simp [State.waitingNorm]

@[simp] theorem State.usage_rootNote (s : State) (n : Nat) (c : CmdRef) : (s.rootNote n c).usage = s.usage := by simp [State.rootNote]

@[simp] theorem State.usage_prepare (s : State) (h : Hdr) (p : PrepareParams) (c : CmdRef) (qBits : Nat) :
    (s.prepare h p c qBits).1.usage = s.usage := by
  unfold State.prepare
  dsimp only
  split
  · simp
  · split <;> rename_i entered
    · simp [State.usage_of_fst entered]
    · split <;> rename_i prepared <;> simp [State.usage_of_fst prepared, State.usage_of_fst entered]

@[simp] theorem State.usage_updatedRows (s : State) (e : Param) (c : CmdRef) : (s.updatedRows e c).1.usage = s.usage := by
  unfold State.updatedRows
  refine (Act.usage_bind fun s mask => (Act.usage_bind fun s list => rfl).trans ?_).trans ?_
  · exact s.usage_maybe _ _ fun s _ => (Act.usage_bind fun s nb => (Act.usage_bind fun s bs => by simp).trans (by simp)).trans (by simp)
  · exact s.usage_maybe _ _ fun s _ => (Act.usage_bind fun s bs => rfl).trans (by simp)

@[simp] theorem State.usage_readSpan (s : State) (f : Fmt) (base first n : Nat) (c : CmdRef) :
    (s.readSpan f base first n c).1.usage = s.usage := by simp [State.readSpan]

@[simp] theorem State.usage_momentWrites (s : State) (x : UpdCtx) (b : Nat) (c : CmdRef) :
    (s.momentWrites x b c).1.usage = s.usage := by simp [State.momentWrites]

@[simp] theorem State.usage_weightWrites (s : State) (x : UpdCtx) (b : Nat) (c : CmdRef) : (s.weightWrites x b c).1.usage = s.usage := by
  unfold State.weightWrites
  extract_lets f sp es
  split
  · rfl
  · refine (Act.usage_bind fun s g => (Act.usage_bind fun s m => (Act.usage_bind fun s w => (Act.usage_bind fun s xs => rfl).trans ?_).trans ?_).trans
      ?_).trans ?_
    · exact State.usage_readAct ..
    · exact State.usage_readSpan ..
    · exact s.usage_maybe _ _ fun s _ => State.usage_readSpan ..
    · exact State.usage_readSpan ..

@[simp] theorem State.usage_writeTag (s : State) (x : UpdCtx) (b off : Nat) (c : CmdRef) : (s.writeTag x b off c).1.usage = s.usage := by
  unfold State.writeTag
  dsimp only
  split
  · simp [State.usage_of_fst ‹_›]
  · simp

@[simp] theorem usage_blockGroup (x : UpdCtx) (b off : Nat) (ws : Act (List (Nat × List Byte))) (c : CmdRef) :
    (blockGroup x b off ws c).1.usage = ws.1.usage := by
  simp [blockGroup]

@[simp] theorem State.usage_forgetData (s : State) (x : UpdCtx) (b off : Nat) : (s.forgetData x b off).usage = s.usage := by simp [State.forgetData]

@[simp] theorem State.usage_forgetGroup (s : State) (x : UpdCtx) (b off : Nat) : (s.forgetGroup x b off).usage = s.usage := by simp [State.forgetGroup]

@[simp] theorem State.usage_sealGroup (s : State) (x : UpdCtx) (b off : Nat) (c : CmdRef) : (s.sealGroup x b off c).1.usage = s.usage := by
  unfold State.sealGroup
  split <;> simp [State.usage_of_fst ‹_›]

@[simp] theorem State.usage_applyBlock (s : State) (w : BlockWork) (c : CmdRef) : (s.applyBlock w c).1.usage = s.usage := by
  unfold State.applyBlock
  dsimp only
  rw [Act.usage_bind (fun s _ => by split <;> simp [State.usage_of_fst ‹_›])]
  split <;> simp

@[simp] theorem State.usage_applyUnit (s : State) (c : CmdRef) (ws : List BlockWork) : (s.applyUnit c ws).1.usage = s.usage := by
  induction ws generalizing s with
  | nil => rfl
  | cons w ws ih =>
    unfold State.applyUnit
    split <;> simp [ih, State.usage_of_fst ‹_›]

@[simp] theorem State.usage_applyUnits (s : State) (ws : List BlockWork) (c : CmdRef) : (s.applyUnits ws c).1.usage = s.usage := by
  refine usage_foldl_fst _ (fun acc q => ?_) _
  dsimp only
  have unit : (if (ws.filter (fun w => decide (w.index % 4 = q))).isEmpty then ((acc.1, .ok ()) : Act Unit)
      else match acc.1.useStore .staging q (some c) with
        | (s, true) => (match (ws.filter (fun w => decide (w.index % 4 = q))).head? with
            | some w => s.forgetGroup w.x w.b (if w.full then 0 else 8) | none => s, .fail ST_ECC)
        | (s, false) => s.applyUnit c (ws.filter (fun w => decide (w.index % 4 = q)))).1.usage = acc.1.usage := by
    split
    · rfl
    · split <;> rename_i used
      · split <;> simp [State.usage_of_fst used]
      · simp [State.usage_of_fst used]
  split <;> exact unit

@[simp] theorem State.usage_updCtxs (s : State) (n : Nat) (q lr : Val) (c : CmdRef) : (s.updCtxs n q lr c).1.usage = s.usage := by simp [State.updCtxs]

@[simp] theorem State.usage_vectorGroups (s : State) (xs : List UpdCtx) (due : State → Nat → Bool) (c : CmdRef) :
    (s.vectorGroups xs due c).1.usage = s.usage := by simp [State.vectorGroups]

@[simp] theorem State.usage_updateFault (s : State) (c : Option CmdRef) : (s.updateFault c).usage = s.usage := by simp [State.updateFault]

@[simp] theorem State.usage_failUpdate (s : State) (st : Nat) (c : CmdRef) : (s.failUpdate st c).1.usage = s.usage := by simp [State.failUpdate]

@[simp] theorem State.usage_forgetSpoilt (s : State) (xs : List UpdCtx) : (s.forgetSpoilt xs).usage = s.usage := by simp [State.forgetSpoilt]

@[simp] theorem State.usage_closeCommit (s : State) (n : Nat) (c : Option CmdRef) : (s.closeCommit n c).1.usage = s.usage := by
  unfold State.closeCommit
  rw [Act.usage_bind (fun s _ => by simp)]
  split <;> simp

@[simp] theorem State.usage_applySteps (s : State) (w : ApplyWait) (n q : Nat) : (s.applySteps w n q).1.usage = s.usage := by
  unfold State.applySteps
  refine (Act.usage_bind fun s _ => (Act.usage_bind fun s xs => (Act.usage_bind fun s _ => (Act.usage_bind fun s _ => ?_).trans ?_).trans ?_).trans
    ?_).trans ?_
  · exact (Act.usage_bind fun s _ => (Act.usage_bind fun s _ => rfl).trans (by simp)).trans (by simp)
  · exact State.usage_vectorGroups ..
  · exact State.usage_headerGroup ..
  · exact State.usage_updCtxs ..
  · exact State.usage_readState ..

@[simp] theorem State.usage_applyNow (s : State) (w : ApplyWait) (n q : Nat) : (s.applyNow w n q).1.usage = s.usage := by
  unfold State.applyNow
  split <;> simp [State.usage_of_fst ‹_›]

@[simp] theorem State.usage_dropUpdate (s : State) : s.dropUpdate.usage = s.usage := by simp [State.dropUpdate, State.waitingNorm]

/-! ## The shadow's view, and the records -/

@[simp] theorem State.usage_putDesc (s : State) (period seed cursor state : Nat) :
    (s.putDesc period seed cursor state).usage = s.usage := by simp [State.putDesc]

@[simp] theorem State.usage_putDescState (s : State) (state : Nat) : (s.putDescState state).usage = s.usage := by simp [State.putDescState]

@[simp] theorem State.usage_shadowView (s : State) (slot : Nat) : (s.shadowView slot).usage = s.usage := by simp [State.shadowView]

@[simp] theorem State.usage_withDraws (v : State) (d : MomentDraws) : (v.withDraws d).usage = v.usage := by simp [State.withDraws]

@[simp] theorem State.usage_leaveView (v s : State) : (v.leaveView s).usage = v.usage := by
  have same (l : List Field) (v : State) : (l.foldl (fun (v : State) f => v.put f (s.get f)) v).usage = v.usage :=
    State.usage_foldl l (fun v f => State.usage_put v f _) v
  unfold State.leaveView
  dsimp only
  rw [State.usage_mk, State.usage_fold, same, State.usage_foldl _ (fun v q => same _ v)]

@[simp] theorem State.usage_readRecord (s : State) (r : GlossRec) (c : CmdRef) : (s.readRecord r c).1.usage = s.usage := by simp [State.readRecord]

@[simp] theorem State.usage_putGloss (s : State) (base g crc period : Nat) : (s.putGloss base g crc period).usage = s.usage := by simp [State.putGloss]

@[simp] theorem State.usage_computeGloss (s : State) (base n : Nat) (gs : List Nat) (c : CmdRef) :
    (s.computeGloss base n gs c).1.usage = s.usage := by simp [State.computeGloss]

@[simp] theorem State.usage_putOldest (s : State) : s.putOldest.usage = s.usage := by simp [State.putOldest]

@[simp] theorem State.usage_scanRing (s : State) : s.scanRing.usage = s.usage := by
  unfold State.scanRing
  dsimp only
  rw [State.usage_ite, State.usage_putOldest]
  split
  · rfl
  · split <;> simp

@[simp] theorem State.usage_ringRecord (s : State) (n : Nat) (bs : List Byte) : (s.ringRecord n bs).usage = s.usage := by
  unfold State.ringRecord
  extract_lets w off a
  split
  · rfl
  · split <;> rename_i body
    · simp [State.usage_of_fst body]
    · split <;> rename_i head <;> simp [State.usage_of_fst head, State.usage_of_fst body]

@[simp] theorem State.usage_noteMismatches (s : State) (k : Nat) : (s.noteMismatches k).usage = s.usage := by simp [State.noteMismatches]

@[simp] theorem State.usage_closeRecord (s : State) (n : Nat) : (s.closeRecord n).usage = s.usage := by
  rw [← s.usage_scanRing]
  unfold State.closeRecord
  generalize s.scanRing = s
  dsimp only
  split
  · rfl
  · split
    · split <;> simp
    · split <;> simp

/-! ## Collectives -/

@[simp] theorem State.usage_tapNoise (s : State) (ys zs : List Val) : (s.tapNoise ys zs).usage = s.usage := by simp [State.tapNoise]

@[simp] theorem State.usage_collStatus (s : State) : s.collStatus.usage = s.usage := by simp [State.collStatus]

@[simp] theorem State.usage_formShard (s : State) (r : CollRun) (g : Group) : (s.formShard r g).1.usage = s.usage := by
  unfold State.formShard
  split <;> simp

/-! ## Grants and re-shards -/

@[simp] theorem State.usage_grantDown (s : State) (g : GrantPayload) : (s.grantDown g).usage = s.usage := by simp [State.grantDown]

@[simp] theorem State.usage_noteReport (s : State) (r : ReduceIn) : (s.noteReport r).usage = s.usage := by simp [State.noteReport]

@[simp] theorem State.usage_putRound (s : State) (ledger : Nat) (p : ReshardPlan) (state dir round : Nat) :
    (s.putRound ledger p state dir round).usage = s.usage := by simp [State.putRound]

@[simp] theorem State.usage_putRoundState (s : State) (ledger k st : Nat) : (s.putRoundState ledger k st).usage = s.usage := by simp [State.putRoundState]

@[simp] theorem State.usage_roundData (s : State) (r : ReshardRun) (peer : Nat) : (s.roundData r peer).1.usage = s.usage := by simp [State.roundData]

@[simp] theorem State.usage_copyRound (s : State) (r : ReshardRun) : (s.copyRound r).usage = s.usage := by simp [State.copyRound]

/-! ## The shadow -/

/-- A message of no command uses no flight's ports. -/
@[simp] theorem State.usage_injectMsg_none (s : State) (dest n vc : Nat) (m : Nat → OutMsg) : (s.injectMsg dest n vc none m).1.usage = s.usage := by
  unfold State.injectMsg
  split <;> simp [State.usePort]

@[simp] theorem State.usage_sendShadow_none (s : State) (peer : Nat) (m : ShMsg) : (s.sendShadow peer m none).1.usage = s.usage := by
  simp [State.sendShadow]

@[simp] theorem State.usage_sendBind (s : State) (peer role : Nat) (answer : Bool) : (s.sendBind peer role answer).usage = s.usage := by
  simp [State.sendBind]

@[simp] theorem State.usage_report (s : State) : s.report.usage = s.usage := by simp [State.report]

@[simp] theorem State.usage_turnShadow (s : State) (state : Nat) : (s.turnShadow state).usage = s.usage := by simp [State.turnShadow]

@[simp] theorem State.usage_scaleMsgs (s : State) (tag : Nat) (c : CmdRef) : (s.scaleMsgs tag c).1.usage = s.usage := by simp [State.scaleMsgs]

@[simp] theorem State.usage_switchRoot (s : State) (e : Nat) (f : List Byte → List Byte) : (s.switchRoot e f).usage = s.usage := by simp [State.switchRoot]

@[simp] theorem State.usage_glossEvent (s : State) (g : Nat) (c : Option CmdRef) : (s.glossEvent g c).usage = s.usage := by simp [State.glossEvent]

@[simp] theorem State.usage_glossDiffer (s : State) (gs : List Nat) (c : Option CmdRef) : (s.glossDiffer gs c).usage = s.usage := by
  unfold State.glossDiffer
  split <;> simp

@[simp] theorem State.usage_compareGloss (s : State) (c : Option CmdRef) : (s.compareGloss c).usage = s.usage := by
  unfold State.compareGloss
  split <;> simp

@[simp] theorem State.usage_dropLanded (s : State) (n : Nat) : (s.dropLanded n).usage = s.usage := by simp [State.dropLanded]

@[simp] theorem State.usage_dropForwarded (s : State) (n : Nat) : (s.dropForwarded n).usage = s.usage := by simp [State.dropForwarded]

@[simp] theorem State.usage_closeShadowLedger (s : State) (n : Nat) : (s.closeShadowLedger n).usage = s.usage := by
  simp [State.closeShadowLedger, State.onShadow]

@[simp] theorem State.usage_endReplay (s : State) (n : Nat) (c : CmdRef) : (s.endReplay n c).1.usage = s.usage := by
  unfold State.endReplay
  extract_lets s₁ slot led s₂ s₃ base v
  have view : v.usage = s.usage := by simp [v, s₃, s₂, s₁]
  clear_value v
  split <;> rename_i computed
  · rw [State.usage_leaveView, State.usage_of_fst computed, State.usage_computeGloss, view]
  · dsimp only
    rw [State.usage_compareGloss, State.usage_leaveView, State.usage_of_fst computed, State.usage_computeGloss, view]

@[simp] theorem State.usage_replayBlocks (v : State) (n q lr : Nat) (c : CmdRef) : (v.replayBlocks n q lr c).1.usage = v.usage :=
  (Act.usage_bind fun _ _ => (Act.usage_bind fun _ _ => (Act.usage_bind fun _ _ => State.usage_applyUnits ..).trans
    (State.usage_vectorGroups ..)).trans (State.usage_headerGroup ..)).trans (State.usage_updCtxs ..)

@[simp] theorem State.usage_beginReplay (s : State) (n q : Nat) (hd : List Byte) : (s.beginReplay n q hd).usage = s.usage := by simp [State.beginReplay]

@[simp] theorem State.usage_replaySteps (s : State) (w : ReplayWait) (n q : Nat) (hd : List Byte) : (s.replaySteps w n q hd).1.usage = s.usage := by
  unfold State.replaySteps
  extract_lets c slot lr mine s₁ sh₁ s₂ draws sh₂ s₃ v pp
  have view : v.usage = s.usage := by simp [v, s₃, sh₂, s₂, sh₁, s₁]
  clear_value v
  split <;> rename_i header
  · simp [State.usage_of_fst header, view]
  · have headed := State.usage_of_fst header
    rw [Act.usage_bind (fun v _ => State.usage_headerGroup ..), State.usage_readState, view] at headed
    split
    next u prep prepared =>
      have kept := State.usage_of_fst prepared
      rw [fst_usage_ite, fst_usage_ite, State.usage_prepare, ite_self, ite_self, headed] at kept
      split
      · exact (State.usage_leaveView ..).trans kept
      · split
        · exact (State.usage_leaveView ..).trans kept
        · split <;> rename_i blocks <;> simp [State.usage_of_fst blocks, kept]

@[simp] theorem State.usage_replayNow (s : State) (w : ReplayWait) (n q : Nat) : (s.replayNow w n q).1.usage = s.usage := by simp [State.replayNow]

@[simp] theorem State.usage_pumpFreeze (s : State) : s.pumpFreeze.usage = s.usage := by simp [State.pumpFreeze]

/-! ## Halts and resets -/

@[simp] theorem State.usage_passToken (s : State) (p : HaltPayload) : (s.passToken p).usage = s.usage := by simp [State.passToken]

@[simp] theorem State.usage_sendToken (s : State) (code : Nat) : (s.sendToken code).usage = s.usage := by simp [State.sendToken]

@[simp] theorem State.usage_abandonClause (s : State) (c : Nat) : (s.abandonClause c).usage = s.usage := by simp [State.abandonClause]

@[simp] theorem State.usage_markFatal (s : State) : s.markFatal.usage = s.usage := by simp [State.markFatal]

@[simp] theorem State.usage_putBit (s : State) (f : Field) (i : Nat) (b : Bool) : (s.putBit f i b).usage = s.usage := by simp [State.putBit]

@[simp] theorem State.usage_holdDomain (s : State) (debug : Bool) (d : Domain) : (s.holdDomain debug d).usage = s.usage := by
  unfold State.holdDomain
  split <;> simp

@[simp] theorem State.usage_resetRegs (s : State) (hit : RegRow → Nat → Bool) : (s.resetRegs hit).usage = s.usage := by simp [State.resetRegs]

@[simp] theorem State.usage_oxlReset (s : State) : s.oxlReset.usage = s.usage := by simp [State.oxlReset]

@[simp] theorem State.usage_hubHalt (s : State) : s.hubHalt.usage = s.usage := by simp [State.hubHalt]

@[simp] theorem State.usage_hubReset (s : State) : s.hubReset.usage = s.usage := by simp [State.hubReset]

@[simp] theorem State.usage_fuseStatus (s : State) : s.fuseStatus.usage = s.usage := by
  unfold State.fuseStatus
  split <;> simp

@[simp] theorem State.usage_driveMrst (s : State) : s.driveMrst.usage = s.usage := by simp [State.driveMrst]

@[simp] theorem State.usage_escalate (s : State) (key : Nat) : (s.escalate key).usage = s.usage := by simp [State.escalate]

/-! ## Writes that spoil -/

@[simp] theorem State.usage_noteEvaluation (s : State) (w : WriteNote) : (s.noteEvaluation w).usage = s.usage := by
  unfold State.noteEvaluation
  split <;> simp

@[simp] theorem State.usage_spoilMasks (s : State) (w : WriteNote) : (s.spoilMasks w).usage = s.usage := by simp [State.spoilMasks]

@[simp] theorem State.usage_spoilSites (s : State) (w : WriteNote) : (s.spoilSites w).usage = s.usage := by simp [State.spoilSites]

@[simp] theorem State.usage_spoilRoots (s : State) (w : WriteNote) : (s.spoilRoots w).usage = s.usage := by simp [State.spoilRoots]

@[simp] theorem State.usage_spoilTables (s : State) (w : WriteNote) : (s.spoilTables w).usage = s.usage := by simp [State.spoilTables]

@[simp] theorem State.usage_spoilCommit (s : State) (w : WriteNote) : (s.spoilCommit w).usage = s.usage := by simp [State.spoilCommit]

@[simp] theorem State.usage_spoilBy (s : State) (w : WriteNote) : (s.spoilBy w).usage = s.usage := by simp [State.spoilBy]

@[simp] theorem State.usage_spoil (s : State) : s.spoil.usage = s.usage := by
  unfold State.spoil
  split <;> simp

/-! ## The passes of a settling -/

@[simp] theorem State.usage_noteNoise (s : State) (n : Nat) : (s.noteNoise n).usage = s.usage := by
  unfold State.noteNoise
  split <;> simp

@[simp] theorem State.usage_endClause (s : State) (c : Nat) : (s.endClause c).usage = s.usage := by simp [State.endClause]

@[simp] theorem State.usage_pumpClauses (s : State) : s.pumpClauses.usage = s.usage := by simp [State.pumpClauses]

end Sys2Proof.Machine

namespace Sys2Proof.Machine

/-! ## What the flights of a command tell of it -/

section Traces
variable (c : CmdRef) (s : State)

/-- No flight of the command is left. -/
def State.Gone : Prop := ∀ f ∈ s.usage.1, sameCmd f.ref c = false

/-- The flights of the command have used no port. -/
def State.Portless : Prop := ∀ f ∈ s.usage.1, sameCmd f.ref c = true → f.ports = []

/-- Every collective run of the command has sent data. -/
def State.SentAll : Prop := ∀ r ∈ s.usage.2.1, sameCmd r.1 c = true → r.2 ≠ []

/-- The re-shard is the command's. -/
def State.Reshards : Prop := ∃ d ∈ s.usage.2.2.1, sameCmd d c = true

/-- A transfer of the shadow is the command's. -/
def State.Transfers : Prop := ∃ d ∈ s.usage.2.2.2, sameCmd d c = true

/-- A port in a flight of the command is accounted for: by what its runs have sent, by the re-shard, or by a transfer. -/
def State.Traced : Prop := s.Portless c ∨ s.SentAll c ∨ s.Reshards c ∨ s.Transfers c

end Traces

/-- From `s` to `t` what tells of the command `c` stays, or its flights have gone; and where `quiet`, no flight of it has used a port more. -/
structure State.Lets (c : CmdRef) (quiet : Prop) (s t : State) : Prop where
  gone : s.Gone c → t.Gone c
  portless : quiet → s.Portless c → t.Portless c
  sentAll : s.SentAll c → t.SentAll c ∨ t.Gone c
  reshards : s.Reshards c → t.Reshards c ∨ t.Gone c
  transfers : s.Transfers c → t.Transfers c ∨ t.Gone c

section Lets
variable {c : CmdRef} {quiet : Prop} {s t u : State}

theorem State.Gone.portless (h : s.Gone c) : s.Portless c := fun f hf same => absurd same (by simp [h f hf])

theorem State.Lets.of_usage (h : t.usage = s.usage) : State.Lets c quiet s t := by
  constructor
  · exact fun gone => by rwa [State.Gone, h]
  · exact fun _ portless => by rwa [State.Portless, h]
  · exact fun sent => .inl (by rwa [State.SentAll, h])
  · exact fun open_ => .inl (by rwa [State.Reshards, h])
  · exact fun moves => .inl (by rwa [State.Transfers, h])

theorem State.Lets.refl (s : State) : State.Lets c quiet s s := .of_usage rfl

theorem State.Lets.trans (h : State.Lets c quiet s t) (k : State.Lets c quiet t u) : State.Lets c quiet s u where
  gone := k.gone ∘ h.gone
  portless q := k.portless q ∘ h.portless q
  sentAll r := (h.sentAll r).elim k.sentAll (.inr ∘ k.gone)
  reshards r := (h.reshards r).elim k.reshards (.inr ∘ k.gone)
  transfers r := (h.transfers r).elim k.transfers (.inr ∘ k.gone)

theorem State.Lets.mono {p : Prop} (h : State.Lets c p s t) (k : quiet → p) : State.Lets c quiet s t :=
  ⟨h.gone, fun q => h.portless (k q), h.sentAll, h.reshards, h.transfers⟩

theorem State.Lets.foldl {α : Type} {f : State → α → State} (l : List α) (step : ∀ (s : State), ∀ a ∈ l, State.Lets c quiet s (f s a)) (s : State) :
    State.Lets c quiet s (l.foldl f s) := by
  induction l generalizing s with
  | nil => exact .refl s
  | cons a l ih => exact (step s a (List.mem_cons_self ..)).trans (ih (fun s b hb => step s b (List.mem_cons_of_mem _ hb)) _)

theorem State.Lets.traced (h : State.Lets c True s t) (traced : s.Traced c) : t.Traced c := by
  rcases traced with portless | sent | reshards | transfers
  · exact .inl (h.portless trivial portless)
  · exact (h.sentAll sent).elim (fun r => .inr (.inl r)) (fun g => .inl g.portless)
  · exact (h.reshards reshards).elim (fun r => .inr (.inr (.inl r))) (fun g => .inl g.portless)
  · exact (h.transfers transfers).elim (fun r => .inr (.inr (.inr r))) (fun g => .inl g.portless)

theorem State.Gone.traced (gone : s.Gone c) : s.Traced c := .inl gone.portless

theorem State.Traced.foldl {α : Type} {f : State → α → State} (l : List α) (step : ∀ (s : State), ∀ a ∈ l, s.Traced c → (f s a).Traced c)
    (traced : s.Traced c) : (l.foldl f s).Traced c := by
  induction l generalizing s with
  | nil => exact traced
  | cons a l ih => exact ih (fun s b hb => step s b (List.mem_cons_of_mem _ hb)) (step s a (List.mem_cons_self ..) traced)

/-- Flights dropped, and nothing else changed that tells of a command. -/
theorem State.Lets.of_flights (fewer : ∀ f ∈ t.usage.1, ∃ g ∈ s.usage.1, g.ref = f.ref ∧ g.ports = f.ports) (rest : t.usage.2 = s.usage.2) :
    State.Lets c quiet s t := by
  constructor
  · intro gone f hf
    obtain ⟨g, hg, ref, -⟩ := fewer f hf
    exact ref ▸ gone g hg
  · intro _ portless f hf same
    obtain ⟨g, hg, ref, ports⟩ := fewer f hf
    exact ports ▸ portless g hg (ref ▸ same)
  · exact fun sent => .inl (by rwa [State.SentAll, rest])
  · exact fun open_ => .inl (by rwa [State.Reshards, rest])
  · exact fun moves => .inl (by rwa [State.Transfers, rest])

/-- Where the flights of the command have gone, nothing of it is asked. -/
theorem State.Lets.of_gone (gone : t.Gone c) : State.Lets c quiet s t :=
  ⟨fun _ => gone, fun _ _ => gone.portless, fun _ => .inr gone, fun _ => .inr gone, fun _ => .inr gone⟩

theorem State.Lets.then (h : State.Lets c quiet s t) (k : u.usage = t.usage) : State.Lets c quiet s u := h.trans (.of_usage k)

end Lets

/-! ## Commands that end -/

section Ends
variable {c : CmdRef} {quiet : Prop}

theorem State.lets_finishAs (s : State) (noted : Bool) (d : CmdRef) (x : Done) : State.Lets c quiet s (s.finishAs noted d x) :=
  .of_flights (fun f hf => ⟨f, List.mem_of_mem_filter hf, rfl, rfl⟩) rfl

theorem State.gone_finishAs {d : CmdRef} (same : sameCmd d c = true) (s : State) (noted : Bool) (x : Done) : (s.finishAs noted d x).Gone c := by
  intro f hf
  have kept := (List.mem_filter.mp hf).2
  simp only [sameCmd, Bool.and_eq_true, decide_eq_true_eq, Bool.not_eq_true', Bool.and_eq_false_iff, decide_eq_false_iff_not] at same kept ⊢
  obtain ⟨ring, seq⟩ := same
  rw [ring, seq] at kept
  exact kept

theorem State.lets_endJob (s : State) (j : SolveJob) (d : Done) (published : Bool) : State.Lets c quiet s (s.endJob j d published) := by
  unfold State.endJob
  refine State.Lets.trans (.of_usage ?_) (State.lets_finishAs ..)
  simp [State.noteSolve, State.solverStatus, State.submit]

theorem State.lets_stopJob (s : State) (j : SolveJob) (st : Nat) : State.Lets c quiet s (s.stopJob j st) := by
  unfold State.stopJob
  refine State.Lets.trans (.of_usage ?_) (State.lets_endJob ..)
  simp [State.partCycles, State.discardSlot, State.openSlot, State.snapRoot]

theorem State.lets_stopJobs (s : State) (st : Nat) : State.Lets c quiet s (s.stopJobs st) := .foldl _ (fun s j _ => s.lets_stopJob j st) s

theorem State.lets_endFlight (s : State) (f : Flight) (st : Nat) : State.Lets c quiet s (s.endFlight f st) := by
  unfold State.endFlight
  refine State.Lets.trans (.of_usage ?_) (State.lets_finishAs ..)
  split <;> simp [State.noteSolve]

theorem State.lets_dropRuns (s : State) (keep : CollRun → Bool) :
    State.Lets c quiet s { s with coll := { s.coll with runs := s.coll.runs.filter keep } } :=
  ⟨id, fun _ => id, fun sent => .inl fun x hx => sent x (List.map_subset _ (List.filter_subset_self _) hx), .inl, .inl⟩

theorem State.lets_closeColl (s : State) (r : CollRun) (d : Done) : State.Lets c quiet s (s.closeColl r d) := by
  unfold State.closeColl
  exact ((s.lets_dropRuns (fun x => !sameCmd x.cmd r.cmd)).then (by simp)).trans (State.lets_finishAs ..)

theorem State.gone_closeColl {r : CollRun} (same : sameCmd r.cmd c = true) (s : State) (d : Done) : (s.closeColl r d).Gone c :=
  State.gone_finishAs same _ _ _

theorem State.lets_endColl (s : State) (r : CollRun) (d : Done) : State.Lets c quiet s (s.endColl r d) :=
  State.Lets.trans (.of_usage (by split <;> simp)) (State.lets_closeColl ..)

theorem State.gone_endColl {r : CollRun} (same : sameCmd r.cmd c = true) (s : State) (d : Done) : (s.endColl r d).Gone c :=
  State.gone_closeColl same _ _

theorem State.lets_endShRun (s : State) (r : ShadowRun) (d : Done) : State.Lets c quiet s (s.endShRun r d) := by
  have ended := State.lets_finishAs (c := c) (quiet := quiet) { s with sh := { s.sh with runs := s.sh.runs.filter (fun x => decide (x.cmd ≠ r.cmd)) } }
    (decide (r.cmd.opcode = 0x41)) r.cmd d
  refine ⟨ended.gone, ended.portless, ended.sentAll, ended.reshards, ?_⟩
  rintro ⟨e, moves, same⟩
  obtain ⟨x, run, rfl⟩ := List.mem_map.mp moves
  by_cases mine : x.cmd = r.cmd
  · exact .inr (State.gone_finishAs (mine ▸ same) _ _ _)
  · exact .inl ⟨x.cmd, List.mem_map_of_mem (List.mem_filter.mpr ⟨run, decide_eq_true mine⟩), same⟩

theorem State.lets_stopColl (s : State) (st : Nat) (pick : CmdRef → Bool) : State.Lets c quiet s (s.stopColl st pick) :=
  .foldl _ (fun s r _ => s.lets_endColl r _) s

/-- A fold whose steps end every flight of the command ends them all. -/
theorem State.gone_foldl {α : Type} {f : State → α → State} {l : List α} {s : State} (step : ∀ (s : State), ∀ a ∈ l, State.Lets c True s (f s a))
    (some_ : ¬ s.Gone c → ∃ a ∈ l, ∀ s : State, (f s a).Gone c) : (l.foldl f s).Gone c := by
  by_cases gone : s.Gone c
  · exact (State.Lets.foldl l step s).gone gone
  · obtain ⟨a, ha, ends⟩ := some_ gone
    obtain ⟨l₁, l₂, rfl⟩ := List.append_of_mem ha
    rw [List.foldl_append, List.foldl_cons]
    exact (State.Lets.foldl l₂ (fun s b hb => step s b (by simp [hb])) _).gone (ends _)

theorem State.not_gone {s : State} : ¬ s.Gone c ↔ ∃ f ∈ s.cp.flights, sameCmd f.ref c = true := by
  simp only [State.Gone, not_forall, Bool.not_eq_false, exists_prop]
  rfl

end Ends

/-! ## Halts -/

section Halts
variable {c : CmdRef} {quiet : Prop} {n : Nat} {carry : Nat → Bool}

theorem State.haltEnds_of_flights {s t : State} (h : t.usage.1 = s.usage.1) (d : CmdRef) : t.haltEnds n carry d = s.haltEnds n carry d := by
  unfold State.haltEnds
  rw [show t.cp.flights = s.cp.flights from h]

theorem sameCmd_trans {a b d : CmdRef} (h : sameCmd a b = true) (k : sameCmd b d = true) : sameCmd a d = true := by
  simp only [sameCmd, Bool.and_eq_true, decide_eq_true_eq] at *
  exact ⟨h.1.trans k.1, h.2.trans k.2⟩

theorem sameCmd_symm {a b : CmdRef} (h : sameCmd a b = true) : sameCmd b a = true := by
  simp only [sameCmd, Bool.and_eq_true, decide_eq_true_eq] at *
  exact ⟨h.1.symm, h.2.symm⟩

theorem State.haltEnds_congr {s : State} {d e : CmdRef} (same : sameCmd d e = true) (h : s.haltEnds n carry d = true) : s.haltEnds n carry e = true := by
  obtain ⟨f, hf, ends⟩ := List.any_eq_true.mp h
  obtain ⟨ref, rest⟩ := Bool.and_eq_true_iff.mp ends
  exact List.any_eq_true.mpr ⟨f, hf, Bool.and_eq_true_iff.mpr ⟨sameCmd_trans ref same, rest⟩⟩

theorem State.haltEnds_finishAs {s : State} {noted : Bool} {d : CmdRef} {x : Done} (h : s.haltEnds n carry c = true) :
    (s.finishAs noted d x).haltEnds n carry c = true ∨ (s.finishAs noted d x).Gone c := by
  by_cases same : sameCmd d c = true
  · exact .inr (State.gone_finishAs same _ _ _)
  · obtain ⟨f, hf, ends⟩ := List.any_eq_true.mp h
    refine .inl (List.any_eq_true.mpr ⟨f, List.mem_filter.mpr ⟨hf, ?_⟩, ends⟩)
    obtain ⟨ref, -⟩ := Bool.and_eq_true_iff.mp ends
    exact Bool.not_eq_true' _ ▸ (Bool.eq_false_iff.mpr fun here => same (sameCmd_trans (sameCmd_symm here) ref))

theorem State.haltEnds_endColl {s : State} {r : CollRun} {d : Done} (h : s.haltEnds n carry c = true) :
    (s.endColl r d).haltEnds n carry c = true ∨ (s.endColl r d).Gone c := by
  unfold State.endColl State.closeColl
  refine State.haltEnds_finishAs ?_
  rw [State.haltEnds_of_flights (s := s)]
  · exact h
  · have kept : (if d.status = ST_OK then s else s.forgetAll (r.targets (s.runGroup r))).usage = s.usage := by split <;> simp
    generalize (if d.status = ST_OK then s else s.forgetAll (r.targets (s.runGroup r))) = u at kept
    have flights : u.cp.flights = s.usage.1 := congrArg Prod.fst kept
    simp [flights]

theorem State.haltEnds_stopColl {s : State} {st : Nat} {pick : CmdRef → Bool} (h : s.haltEnds n carry c = true) :
    (s.stopColl st pick).haltEnds n carry c = true ∨ (s.stopColl st pick).Gone c := by
  unfold State.stopColl
  generalize s.coll.runs.filter _ = l
  induction l generalizing s with
  | nil => exact .inl h
  | cons r l ih =>
    rcases State.haltEnds_endColl (r := r) (d := Done.fail st) h with still | gone
    · exact ih still
    · exact .inr ((State.Lets.foldl (quiet := True) l (fun s r _ => s.lets_endColl r _) _).gone gone)

theorem State.lets_haltFlights (s : State) (n : Nat) (carry : Nat → Bool) : State.Lets c quiet s (s.haltFlights n carry) :=
  State.Lets.trans (.of_usage (by simp)) (State.Lets.foldl _ (fun s f _ => s.lets_endFlight f _) _)

theorem State.gone_haltFlights {s : State} (h : s.haltEnds n carry c = true) : (s.haltFlights n carry).Gone c := by
  refine State.gone_foldl (fun s f _ => s.lets_endFlight f _) (fun left => ?_)
  obtain ⟨f, hf, same⟩ := State.not_gone.mp left
  exact ⟨f, List.mem_filter.mpr ⟨hf, State.haltEnds_congr (sameCmd_symm same) h⟩, fun s => State.gone_finishAs same _ _ _⟩

theorem State.haltEngines_transfers {s : State} (h : s.Transfers c) :
    (s.haltEngines n carry).Transfers c ∨ (s.haltEngines n carry).haltEnds n carry c = true ∨ (s.haltEngines n carry).Gone c := by
  have stopped : State.Lets c True s (s.stopColl ST_ABORTED (s.haltEnds n carry)) := State.lets_stopColl ..
  by_cases ends : s.haltEnds n carry c = true
  · exact .inr (State.haltEnds_stopColl ends)
  · rcases stopped.transfers h with ⟨e, moves, same⟩ | gone
    · obtain ⟨x, run, rfl⟩ := List.mem_map.mp moves
      have kept : s.haltEnds n carry x.cmd = false := Bool.eq_false_iff.mpr fun other => ends (State.haltEnds_congr same other)
      exact .inl ⟨x.cmd, List.mem_map_of_mem (List.mem_filter.mpr ⟨run, by rw [kept]; rfl⟩), same⟩
    · exact .inr (.inr gone)

/-- A transfer that a halt drops belongs to a command that the halt ends. -/
theorem State.lets_haltEngines_haltFlights {s t : State} (h : t.usage = (s.haltEngines n carry).usage) :
    State.Lets c quiet s (t.haltFlights n carry) := by
  have stopped : State.Lets c quiet s (s.stopColl ST_ABORTED (s.haltEnds n carry)) := State.lets_stopColl ..
  have cut : State.Lets c quiet (s.haltEngines n carry) (t.haltFlights n carry) := (State.Lets.of_usage h).trans (State.lets_haltFlights ..)
  refine ⟨cut.gone ∘ stopped.gone, fun q => cut.portless q ∘ stopped.portless q, fun sent => (stopped.sentAll sent).elim cut.sentAll (.inr ∘ cut.gone),
    fun open_ => (stopped.reshards open_).elim cut.reshards (.inr ∘ cut.gone), fun moves => ?_⟩
  rcases State.haltEngines_transfers moves with still | ends | gone
  · exact cut.transfers still
  · rw [← State.haltEnds_of_flights (congrArg Prod.fst h)] at ends
    exact .inr (State.gone_haltFlights ends)
  · exact .inr (cut.gone gone)

theorem State.lets_finishes (s : State) (l : List CmdRef) (d : Done) : State.Lets c quiet s (l.foldl (fun s e => s.finish e d) s) :=
  .foldl _ (fun _ _ _ => State.lets_finishAs ..) s

theorem State.lets_enterHalted (s : State) : State.Lets c quiet s s.enterHalted := by
  unfold State.enterHalted
  exact State.Lets.trans (.of_usage (by simp)) (State.lets_finishes ..)

theorem State.lets_haltBefore (s : State) : State.Lets c quiet s s.haltBefore := by
  unfold State.haltBefore
  extract_lets n running s₁ s₂ s₃ s₄ s₅
  have jobs : State.Lets c quiet s s₁ := by
    unfold s₁
    split
    · exact State.lets_stopJobs ..
    · exact .refl s
  have halted : State.Lets c quiet s₁ s₂ := State.lets_haltEngines_haltFlights (State.usage_dropUpdate _)
  refine ((jobs.trans halted).then ?_).trans (State.lets_enterHalted _)
  have dropped : s₄.usage = s₂.usage := by simp [s₄, s₃]
  exact dropped

theorem State.lets_haltAfter (s : State) : State.Lets c quiet s s.haltAfter := by
  unfold State.haltAfter
  extract_lets n s₁ s₂ open_
  have halted : State.Lets c quiet s₁ s₂ := State.lets_haltEngines_haltFlights rfl
  exact ((State.lets_stopJobs ..).trans halted).then (by simp)

theorem State.lets_takeHalt (s : State) : State.Lets c quiet s s.takeHalt := by
  unfold State.takeHalt
  extract_lets pd u
  have held : State.Lets c quiet s u := .of_usage rfl
  split
  · exact .refl s
  · split
    · exact held.trans (State.lets_haltAfter u)
    · exact held.trans (State.lets_haltBefore u)

theorem State.lets_haltReceived (s : State) : State.Lets c quiet s s.haltReceived := by
  unfold State.haltReceived
  split
  · exact .refl s
  · exact State.lets_takeHalt s

theorem State.lets_finishHalting (s : State) : State.Lets c quiet s s.finishHalting := by
  unfold State.finishHalting
  dsimp only
  split
  · exact State.lets_enterHalted s
  · exact .refl s

theorem State.lets_periodFatal (s : State) (code : Nat) : State.Lets c quiet s (s.periodFatal code) :=
  State.Lets.trans (.of_usage (by simp)) (State.lets_haltReceived _)

theorem State.lets_moduleFatal (s : State) (code : Nat) : State.Lets c quiet s (s.moduleFatal code) := by
  unfold State.moduleFatal
  extract_lets u v
  have marked : State.Lets c quiet s u := .of_usage (by simp [u])
  clear_value u
  have halted : State.Lets c quiet s v := by
    unfold v
    split
    · exact (marked.then (by simp)).trans (State.lets_haltReceived _)
    · exact marked
  clear_value v
  exact halted.then (by simp)

end Halts

/-! ## Resets -/

section Resets
variable {c : CmdRef} {quiet : Prop}

theorem State.gone_of_flights {s : State} (h : s.cp.flights = []) : s.Gone c := by
  intro f hf
  rw [show s.usage.1 = [] from h] at hf
  cases hf

theorem State.gone_isolateCommands (s : State) : s.isolateCommands.Gone c := by
  unfold State.isolateCommands
  extract_lets s₁ s₂ s₃ s₄ dm coll sh pwr pd s₅ s₆
  have finished : s₆.Gone c := by
    refine State.gone_foldl (fun s f _ => (State.Lets.of_usage (by simp)).trans (State.lets_finishAs ..)) (fun left => ?_)
    obtain ⟨f, hf, same⟩ := State.not_gone.mp left
    exact ⟨f, hf, fun s => State.gone_finishAs same _ _ _⟩
  exact finished

theorem State.lets_loseDomain (s : State) (d : Domain) : State.Lets c quiet s (s.loseDomain d) := by
  cases d with
  | frame => exact .refl s
  | hub => exact .of_usage (State.usage_hubReset s)
  | quarter _ => exact .refl s
  | commandProcessor => exact .of_gone s.gone_isolateCommands
  | conjugator => exact State.lets_stopJobs ..
  | port p => exact .of_usage (by simp [State.loseDomain])
  | hbm k => exact .of_usage (by simp [State.loseDomain])
  | cluster _ => exact .refl s

theorem State.lets_resetDomain (s : State) (debug : Bool) (d : Domain) : State.Lets c quiet s (s.resetDomain debug d) :=
  State.Lets.trans (.of_usage (by simp)) (.foldl _ (fun s d _ => s.lets_loseDomain d) _)

theorem State.gone_resetM (s : State) : s.resetM.Gone c := by
  unfold State.resetM
  extract_lets bank s₁ s₂ pwr coll cj uu sh sec s₃ s₄ s₅
  have fresh : State.Lets c True s₃ s₅.fuseStatus.driveMrst := .of_usage (by simp [s₅, s₄])
  exact fresh.gone (State.gone_of_flights rfl)

theorem State.lets_criticalReset (s : State) (structure_ inst : Nat) : State.Lets c quiet s (s.criticalReset structure_ inst) := by
  unfold State.criticalReset
  extract_lets key u d
  have counted : State.Lets c quiet s u := .of_usage (by simp [u])
  clear_value u
  refine counted.trans ?_
  split
  · exact State.lets_resetDomain ..
  · split
    · exact State.lets_resetDomain ..
    · exact .of_gone (State.Lets.gone (quiet := True) (.of_usage (by simp [State.resetOwnM])) u.gone_resetM)

theorem State.lets_act (s : State) : State.Lets c quiet s s.act := by
  unfold State.act
  extract_lets u v pd pwr
  have faults : State.Lets c quiet s u := by
    unfold u
    split
    · exact State.lets_moduleFatal ..
    · exact State.lets_periodFatal ..
    · exact .refl s
  have resets : State.Lets c quiet u v := .foldl _ (fun s d _ => s.lets_criticalReset d.1 d.2) u
  exact (faults.trans resets).then rfl

end Resets

/-! ## The command processor's queues -/

section Queues
variable {c : CmdRef} {quiet : Prop}

theorem State.mayDefer_mem {s : State} {k : Nat} {f : Flight} (h : s.mayDefer k = some f) : f ∈ s.cp.flights := by
  unfold State.mayDefer at h
  split at h
  next next_ =>
    obtain ⟨-, found⟩ := Option.ite_none_right_eq_some.mp h
    cases found
    exact (List.mem_filter.mp (List.mem_of_find?_eq_some next_)).1
  · cases h

theorem State.lets_enterDeferred {s : State} {f : Flight} (hf : f ∈ s.cp.flights) : State.Lets c quiet s (s.enterDeferred f) := by
  unfold State.enterDeferred
  split
  · exact State.lets_finishAs ..
  · extract_lets us rest cp cp' u cp''
    have moved : State.Lets c quiet s { s with cp := cp' } := by
      refine .of_flights (fun g hg => ?_) rfl
      rcases List.mem_append.mp hg with old | new
      · exact ⟨g, List.mem_of_mem_filter old, rfl, rfl⟩
      · obtain rfl := List.mem_singleton.mp new
        exact ⟨f, hf, rfl, rfl⟩
    refine moved.then ?_
    have counted : u.usage = ({ s with cp := cp' } : State).usage := State.usage_countDeferred _
    rw [State.usage_ite, State.usage_raise]
    exact (ite_self _).trans counted

theorem State.lets_deferRing (s : State) (k fuel : Nat) : State.Lets c quiet s (s.deferRing k fuel) := by
  induction fuel generalizing s with
  | zero => exact .refl s
  | succ fuel ih =>
    unfold State.deferRing
    split
    · exact (State.lets_enterDeferred (State.mayDefer_mem ‹_›)).trans (ih _)
    · exact .refl s

theorem State.lets_pumpDeferred (s : State) : State.Lets c quiet s s.pumpDeferred :=
  (State.Lets.foldl _ (fun s k _ => s.lets_deferRing k _) s).then (State.usage_countDeferred _)

theorem State.lets_pumpQueues (s : State) : State.Lets c quiet s s.pumpQueues := by
  unfold State.pumpQueues
  split
  · exact ((State.Lets.of_usage s.usage_fetchImages).trans (State.lets_pumpDeferred _)).then (State.usage_putWaiting _)
  · exact .refl s

end Queues

/-! ## Requests that failed -/

section Failures
variable {c : CmdRef} {quiet : Prop}

theorem State.lets_failCommand (s : State) (ring seq st : Nat) : State.Lets c quiet s (s.failCommand ring seq st) := by
  unfold State.failCommand
  extract_lets here
  split
  · exact State.lets_endColl ..
  · exact State.lets_endFlight ..
  · split
    · exact .of_usage (State.usage_forgetCommand ..)
    · exact .refl s

theorem State.lets_meetFailure (s : State) (f : OxlOwner × Nat) : State.Lets c quiet s (s.meetFailure f) := by
  unfold State.meetFailure
  split
  · exact .of_usage (by simp)
  · exact State.lets_failCommand ..

theorem State.lets_meetFailures (s : State) : State.Lets c quiet s s.meetFailures :=
  State.Lets.trans (t := { s with oxl := { s.oxl with failed := [], missing := none } }) (.of_usage rfl)
    (.foldl s.oxl.failed (fun s f _ => s.lets_meetFailure f) _)

end Failures

/-! ## The commit, and the replay of a Period -/

section Commit
variable {c : CmdRef} {quiet : Prop}

theorem State.lets_commitFault (s : State) (st : Nat) : State.Lets c quiet s (s.commitFault st) := by
  unfold State.commitFault
  extract_lets waiting uu u v
  have failed : State.Lets c quiet s v := .of_usage (State.usage_updateFault ..)
  clear_value v waiting
  split
  · exact failed.trans (State.lets_finishAs ..)
  · exact failed

theorem State.lets_pumpCommit (s : State) : State.Lets c quiet s s.pumpCommit := by
  unfold State.pumpCommit
  split
  · exact .refl s
  · split
    · extract_lets uu u
      have applied : u.usage = s.usage := rfl
      clear_value u
      split <;> rename_i now
      · exact State.Lets.trans (.of_usage (by simp [State.usage_of_fst now, applied])) (State.lets_finishAs ..)
      · exact .of_usage (by simp [State.usage_of_fst now, applied])
    · exact .refl s
    · split
      · split <;> rename_i closed
        · exact .of_usage (by simp [State.usage_of_fst closed])
        · exact State.Lets.trans (.of_usage (by simp [State.usage_of_fst closed])) (State.lets_commitFault ..)
      · exact .refl s

theorem State.lets_resumePrepare (s : State) : State.Lets c quiet s s.resumePrepare := by
  unfold State.resumePrepare
  split
  · extract_lets uu u
    have waits : u.usage = s.usage := by simp [u]
    clear_value u
    split <;> rename_i prepared
    · exact State.Lets.trans (.of_usage (by simp [State.usage_of_fst prepared, waits])) (State.lets_finishAs ..)
    · exact .of_usage (by simp [State.usage_of_fst prepared, waits])
  · exact .refl s

theorem State.lets_noiseGranted (s : State) (g : GrantPayload) : State.Lets c quiet s (s.noiseGranted g) := by
  unfold State.noiseGranted
  extract_lets t coll u v begun
  have totalled : v.usage = s.usage := by
    unfold v
    rw [State.usage_ite, State.usage_raise, ite_self]
    rfl
  exact State.Lets.trans (.of_usage (by simp [totalled])) (State.lets_resumePrepare _)

theorem State.lets_pumpReplay (s : State) : State.Lets c quiet s s.pumpReplay := by
  unfold State.pumpReplay
  split
  · split <;> rename_i replayed
    · exact State.Lets.trans (.of_usage (by simp [State.usage_of_fst replayed])) (State.lets_finishAs ..)
    · exact .of_usage (by simp [State.usage_of_fst replayed])
  · exact .refl s

end Commit

/-! ## Ports used (R406) -/

section Ports
variable {c : CmdRef}

/-- A message of another command uses no port in the flights of this one. -/
theorem State.lets_usePort (s : State) (d : CmdRef) (p : Nat) : State.Lets c (sameCmd d c = false) s (s.usePort (some d) p) := by
  have uses (f : Flight) (hf : f ∈ (s.usePort (some d) p).usage.1) :
      ∃ g ∈ s.usage.1, f.ref = g.ref ∧ (f.ports = g.ports ∨ sameCmd g.ref d = true) := by
    obtain ⟨g, hg, rfl⟩ := List.mem_map.mp hf
    refine ⟨g, hg, ?_⟩
    split
    next used => exact ⟨rfl, .inr (Bool.and_eq_true_iff.mp used).1⟩
    · exact ⟨rfl, .inl rfl⟩
  refine ⟨fun gone f hf => ?_, fun other portless f hf same => ?_, .inl, .inl, .inl⟩
  · obtain ⟨g, hg, ref, -⟩ := uses f hf
    exact ref ▸ gone g hg
  · obtain ⟨g, hg, ref, ports | used⟩ := uses f hf
    · exact ports ▸ portless g hg (ref ▸ same)
    · have mine : sameCmd d c = true := sameCmd_trans (sameCmd_symm used) (ref ▸ same)
      rw [other] at mine
      cases mine

/-- From `s` to `t` messages of the command `d` have gone, and no run has changed. -/
structure State.Posts (c d : CmdRef) (s t : State) : Prop where
  lets : State.Lets c (sameCmd d c = false) s t
  runs : t.usage.2 = s.usage.2

theorem State.Posts.of_usage {s t : State} {d : CmdRef} (h : t.usage = s.usage) : State.Posts c d s t := ⟨.of_usage h, by rw [h]⟩

theorem State.Posts.trans {s t u : State} {d : CmdRef} (h : State.Posts c d s t) (k : State.Posts c d t u) : State.Posts c d s u :=
  ⟨h.lets.trans k.lets, k.runs.trans h.runs⟩

theorem State.posts_injectMsg (s : State) (dest n vc : Nat) (d : CmdRef) (m : Nat → OutMsg) :
    State.Posts c d s (s.injectMsg dest n vc (some d) m).1 := by
  unfold State.injectMsg
  split
  · exact .of_usage (by simp)
  · exact .of_usage rfl
  next p _ _ => exact State.Posts.trans ⟨s.lets_usePort d p, rfl⟩ (.of_usage (by simp))

theorem State.posts_of_foldl {α β : Type} {d : CmdRef} {f : State × β → α → State × β} {l : List α} {p q : State × β} (folded : l.foldl f p = q)
    (step : ∀ (p : State × β) (a : α), State.Posts c d p.1 (f p a).1) : State.Posts c d p.1 q.1 := by
  induction l generalizing p with
  | nil => exact .of_usage (by rw [← folded]; rfl)
  | cons a l ih => exact (step p a).trans (ih folded)

end Ports

/-! ## The re-shard: while it is open it accounts for what its command sends -/

section Reshards
variable {c : CmdRef} {quiet : Prop}

theorem State.lets_setReshard {s : State} {r : ReshardRun} (own : s.usage.2.2.1 = some r.cmd) : State.Lets c quiet s (s.setReshard (some r)) := by
  have set : State.Lets c quiet s { s with coll := { s.coll with reshard := some r } } :=
    ⟨id, fun _ => id, .inl, fun open_ => .inl (by rwa [State.Reshards, own] at open_), .inl⟩
  exact set.then (State.usage_collStatus _)

theorem State.lets_endReshard {s : State} {r : ReshardRun} (own : s.usage.2.2.1 = some r.cmd) (d : Done) :
    State.Lets c quiet s (s.endReshard r d) := by
  have closed : (s.setReshard none).usage = (s.cp.flights, s.coll.runs.map (fun r => (r.cmd, r.sent)), none, s.sh.runs.map (·.cmd)) :=
    State.usage_collStatus _
  have ended := State.lets_finishAs (c := c) (quiet := quiet) (s.setReshard none) (decide (r.cmd.opcode = 0x41)) r.cmd d
  refine ⟨fun gone => ended.gone ?_, fun q portless => ended.portless q ?_, fun sent => ended.sentAll ?_, ?_, fun moves => ended.transfers ?_⟩
  · rwa [State.Gone, closed]
  · rwa [State.Portless, closed]
  · rwa [State.SentAll, closed]
  · rintro ⟨e, open_, same⟩
    rw [own] at open_
    cases open_
    exact .inr (State.gone_finishAs same _ _ _)
  · rwa [State.Transfers, closed]

theorem State.lets_doneReshard {s : State} {r : ReshardRun} (own : s.usage.2.2.1 = some r.cmd) : State.Lets c quiet s (s.doneReshard r) :=
  State.lets_endReshard own _

theorem State.lets_claimRound {s : State} {r : ReshardRun} (own : s.usage.2.2.1 = some r.cmd) : State.Lets c quiet s (s.claimRound r) := by
  unfold State.claimRound
  extract_lets mine peers coll u
  have held : State.Lets c quiet s u := .of_usage rfl
  exact held.trans (State.lets_setReshard own)

theorem State.lets_beginRound {s : State} {r : ReshardRun} (own : s.usage.2.2.1 = some r.cmd) :
    State.Lets c (sameCmd r.cmd c = false) s (s.beginRound r) := by
  unfold State.beginRound
  extract_lets u me peers
  have opened : u.usage = s.usage := by simp [u]
  clear_value u
  split
  next t ok sent =>
    have posts : State.Posts c r.cmd u t := by
      refine State.posts_of_foldl sent fun p q => ?_
      split
      · exact State.posts_injectMsg ..
      · exact .of_usage rfl
    have own' : t.usage.2.2.1 = some r.cmd := by rw [posts.runs, opened, own]
    refine ((State.Lets.of_usage opened).trans posts.lets).trans ?_
    split
    · exact State.lets_claimRound own'
    · exact State.lets_endReshard own' _

theorem State.lets_sendRound {s : State} {r : ReshardRun} (own : s.usage.2.2.1 = some r.cmd) (peer : Nat) :
    State.Lets c (sameCmd r.cmd c = false) s (s.sendRound r peer) := by
  unfold State.sendRound
  split <;> rename_i u _ read
  · have read := (State.usage_of_fst read).trans (State.usage_roundData ..)
    exact (State.Lets.of_usage read).trans (State.lets_endReshard (by rw [read, own]) _)
  · have read := (State.usage_of_fst read).trans (State.usage_roundData ..)
    extract_lets me rt r' msgs
    split
    next t ok sent =>
      have posts : State.Posts c r.cmd u t := by
        refine State.posts_of_foldl sent fun p q => ?_
        split
        · exact State.posts_injectMsg ..
        · exact .of_usage rfl
      have own' : t.usage.2.2.1 = some r.cmd := by rw [posts.runs, read, own]
      refine ((State.Lets.of_usage read).trans posts.lets).trans ?_
      split
      · exact State.lets_setReshard (r := r') own'
      · exact State.lets_endReshard own' _

theorem State.lets_landRound {s : State} {r : ReshardRun} (own : s.usage.2.2.1 = some r.cmd) : State.Lets c quiet s (s.landRound r) := by
  unfold State.landRound
  extract_lets me
  split <;> rename_i u _ read
  · have read := (State.usage_of_fst read).trans (State.usage_roundData ..)
    exact (State.Lets.of_usage read).trans (State.lets_endReshard (by rw [read, own]) _)
  · have read := (State.usage_of_fst read).trans (State.usage_roundData ..)
    split
    · exact .of_usage read
    · extract_lets u₁ crc u₂
      have landed : u₂.usage = s.usage := by
        unfold u₂ u₁
        rw [State.usage_putRoundState, State.usage_ownWord, State.usage_foldl _ (fun s w => State.usage_own ..), read]
      clear_value u₂
      have set := State.lets_setReshard (c := c) (quiet := quiet) (s := u₂) (r := { r with landed := true, got := [] }) (by rw [landed, own])
      exact ((State.Lets.of_usage landed).trans set).then (State.usage_noteReport ..)

theorem State.lets_afterRound {s : State} {r : ReshardRun} (own : s.usage.2.2.1 = some r.cmd) (p : ReshardPlan) :
    State.Lets c (sameCmd r.cmd c = false) s (s.afterRound r p) := by
  have put (state dir round : Nat) : (s.putRound r.p.ledger.toNat p state dir round).usage = s.usage := State.usage_putRound ..
  unfold State.afterRound
  extract_lets l fresh u₁ coll u₂
  split
  · split
    · have thawed : ({ u₁ with coll := { coll with frozen := false } } : State).usage = s.usage := put 2 1 0
      exact (State.Lets.of_usage thawed).trans (State.lets_doneReshard (by rw [thawed, own]))
    · exact (State.Lets.of_usage (put ..)).trans (State.lets_beginRound (r := fresh (r.round - 1)) (by rw [put, own]))
  · have entered : u₂.usage = s.usage := put ..
    clear_value u₂
    split
    · exact (State.Lets.of_usage entered).trans (State.lets_doneReshard (by rw [entered, own]))
    · exact (State.Lets.of_usage entered).trans (State.lets_beginRound (r := fresh (r.round + 1)) (by rw [entered, own]))

/-- What a re-shard does for its own command leaves it open, or ends the command. -/
theorem State.Traced.of_reshard {s t : State} {r : ReshardRun} (own : s.coll.reshard = some r)
    (lets : s.usage.2.2.1 = some r.cmd → State.Lets c (sameCmd r.cmd c = false) s t) (traced : s.Traced c) : t.Traced c := by
  have own' : s.usage.2.2.1 = some r.cmd := congrArg (Option.map ReshardRun.cmd) own
  by_cases mine : sameCmd r.cmd c = true
  · rcases (lets own').reshards ⟨r.cmd, own', mine⟩ with open_ | gone
    · exact .inr (.inr (.inl open_))
    · exact gone.traced
  · exact ((lets own').mono fun _ => Bool.eq_false_iff.mpr mine).traced traced

theorem State.traced_grantRound {s : State} (k : Nat) (traced : s.Traced c) : (s.grantRound k).Traced c := by
  unfold State.grantRound
  split
  · exact traced
  next r own =>
    split
    · exact traced
    next p planned =>
      split
      · extract_lets l u
        refine traced.of_reshard own fun own' => ?_
        have copied : (u.putRoundState l k (if r.reverse then 0 else 4)).usage = s.usage := by simp [u]
        exact (State.Lets.of_usage copied).trans (State.lets_afterRound (by rw [copied, own']) p)
      · exact traced

theorem State.traced_pumpReshard {s : State} (traced : s.Traced c) : s.pumpReshard.Traced c := by
  unfold State.pumpReshard
  split
  · exact traced
  · extract_lets me peers u
    have sent : u.Traced c := by
      refine State.Traced.foldl _ (fun s q _ traced => ?_) traced
      split
      next r own => exact traced.of_reshard own fun own' => State.lets_sendRound own' q
      · exact traced
    clear_value u
    split
    next r own =>
      split
      · exact sent
      · exact sent.of_reshard own State.lets_landRound
    · exact sent

theorem State.usage_reduceStep (s : State) (kind period round : Nat) : (s.reduceStep kind period round).1.usage = s.usage := by
  unfold State.reduceStep
  extract_lets rs tree ready key mine pd u
  split
  · rfl
  · split
    · rfl
    · have noted : u.usage = s.usage := rfl
      clear_value u
      split
      · simp [noted]
      · split <;> simp [noted]

theorem State.traced_granted {s : State} (g : GrantPayload) (traced : s.Traced c) : (s.granted g).Traced c := by
  unfold State.granted
  extract_lets own here
  split
  · refine (State.Lets.of_usage ?_).traced traced
    split
    · exact State.usage_put s F.PC_STATUS_GRANT 1
    · rfl
  · refine (State.Lets.of_usage ?_).traced traced
    split <;> rfl
  · split
    · exact (State.lets_noiseGranted ..).traced traced
    · exact traced
  · split
    · exact traced
    · exact State.traced_grantRound _ traced
  · exact traced

theorem State.traced_reduce {s : State} (kind period round : Nat) (traced : s.Traced c) : (s.reduce kind period round).Traced c := by
  unfold State.reduce
  have stepped : (s.reduceStep kind period round).1.Traced c := (State.Lets.of_usage (State.usage_reduceStep ..)).traced traced
  split <;> rename_i step <;> rw [step] at stepped
  · exact State.traced_granted _ stepped
  · exact stepped

theorem State.traced_pumpRounds {s : State} (traced : s.Traced c) : s.pumpRounds.Traced c := by
  have pumped := State.traced_pumpReshard traced
  unfold State.pumpRounds
  dsimp only
  split
  · split
    · exact State.traced_reduce _ _ _ pumped
    · exact pumped
  · exact pumped

end Reshards

/-! ## The shadow's transfers: while one is open it accounts for what its command sends -/

section Shadow
variable {c : CmdRef} {quiet : Prop}

theorem State.posts_sendMsgs (s : State) (r : ShadowRun) (ms : List ShMsg) : State.Posts c r.cmd s (s.sendMsgs r ms).1 := by
  refine State.posts_of_foldl (p := (s, r, true)) rfl fun p m => ?_
  split
  · exact State.posts_injectMsg ..
  · exact .of_usage rfl

theorem State.usage_setShRun (s : State) (r : ShadowRun) : (s.setShRun r).usage = s.usage := by
  have runs : (s.sh.runs.map (fun x => if x.cmd = r.cmd then r else x)).map (·.cmd) = s.sh.runs.map (·.cmd) := by
    rw [List.map_map]
    refine List.map_congr_left fun x _ => ?_
    by_cases mine : x.cmd = r.cmd <;> simp [mine]
  exact congrArg (fun l => (s.cp.flights, s.coll.runs.map (fun r => (r.cmd, r.sent)), s.coll.reshard.map (·.cmd), l)) runs

theorem State.lets_extendRun (s : State) (r : ShadowRun) (ms : List ShMsg) : State.Lets c (sameCmd r.cmd c = false) s (s.extendRun r ms) := by
  have posts := (s.posts_sendMsgs (c := c) r ms).lets
  unfold State.extendRun
  split <;> rename_i sent <;> rw [sent] at posts
  · exact posts.then (State.usage_setShRun ..)
  · exact posts.trans (State.lets_endShRun ..)

theorem State.lets_closeNow (s : State) (r : ShadowRun) (n : Nat) : State.Lets c (sameCmd r.cmd c = false) s (s.closeNow r n) := by
  unfold State.closeNow
  extract_lets base
  split <;> rename_i records
  · exact State.Lets.trans (.of_usage ((State.usage_of_fst records).trans (State.usage_computeGloss ..))) (State.lets_endShRun ..)
  · have recorded := (State.usage_of_fst records).trans (State.usage_computeGloss ..)
    refine State.Lets.trans (.of_usage recorded) ?_
    split
    · exact State.lets_endShRun ..
    · split <;> rename_i scales
      · exact State.Lets.trans (.of_usage (by simp [State.usage_of_fst scales])) (State.lets_endShRun ..)
      · have scaled := (State.usage_of_fst scales).trans (State.usage_scaleMsgs ..)
        exact State.Lets.trans (.of_usage scaled) (State.lets_extendRun _ { r with task := .close n true, peer := _ } _)

theorem State.traced_pumpClose {s : State} (traced : s.Traced c) : s.pumpClose.Traced c := by
  have closes (quiet : Prop) (other : quiet → ∀ r ∈ s.sh.runs, sameCmd r.cmd c = false) : State.Lets c quiet s s.pumpClose := by
    refine .foldl _ (fun s r run => ?_) s
    split
    · split
      · exact (State.lets_closeNow ..).mono fun q => other q r run
      · exact .refl s
    · exact .refl s
  by_cases mine : ∃ r ∈ s.sh.runs, sameCmd r.cmd c = true
  · obtain ⟨r, run, same⟩ := mine
    rcases (closes False False.elim).transfers ⟨r.cmd, List.mem_map_of_mem run, same⟩ with moves | gone
    · exact .inr (.inr (.inr moves))
    · exact gone.traced
  · exact (closes True fun _ r run => Bool.eq_false_iff.mpr fun same => mine ⟨r, run, same⟩).traced traced

end Shadow

/-! ## The collective runs: what they have sent accounts for what their commands send -/

section Runs
variable {c : CmdRef} {quiet : Prop}

theorem State.lets_setRun {s : State} {r : CollRun} (keeps : sameCmd r.cmd c = true → s.SentAll c → r.sent ≠ []) :
    State.Lets c quiet s (s.setRun r) := by
  refine ⟨id, fun _ => id, fun sent => .inl ?_, .inl, .inl⟩
  intro x hx same
  obtain ⟨y, hy, rfl⟩ := List.mem_map.mp hx
  obtain ⟨z, hz, rfl⟩ := List.mem_map.mp hy
  by_cases new : sameCmd z.cmd r.cmd = true
  · rw [if_pos new] at same ⊢
    exact keeps same sent
  · rw [if_neg new] at same ⊢
    exact sent _ (List.mem_map_of_mem hz) same

theorem State.sentAll_setRun {s : State} {r : CollRun} (mine : sameCmd r.cmd c = true) (sent : r.sent ≠ []) : (s.setRun r).SentAll c := by
  intro x hx same
  obtain ⟨y, hy, rfl⟩ := List.mem_map.mp hx
  obtain ⟨z, hz, rfl⟩ := List.mem_map.mp hy
  by_cases new : sameCmd z.cmd r.cmd = true
  · rwa [if_pos new]
  · rw [if_neg new] at same
    exact absurd (sameCmd_trans same (sameCmd_symm mine)) new

theorem State.SentAll.of_mem {s : State} {r : CollRun} (h : s.SentAll c) (run : r ∈ s.coll.runs) (mine : sameCmd r.cmd c = true) : r.sent ≠ [] :=
  h (r.cmd, r.sent) (List.mem_map_of_mem run) mine

/-- Data that a run sends to its own module. -/
theorem State.lets_landP2p (s : State) (stream src off : Nat) (bs : List Byte) : State.Lets c quiet s (s.landP2p none stream src off bs) := by
  unfold State.landP2p
  extract_lets posted
  split
  next r found =>
    have run : r ∈ s.coll.runs := List.mem_of_mem_filter (List.mem_of_find?_eq_some found)
    exact State.lets_setRun fun mine sent => State.SentAll.of_mem (r := r) sent run mine
  · exact .of_usage (by simp)

/-- What a run of `r`'s command may do on its way from `r` to `q`: only where data have gone has a port been used. -/
structure State.Sends (c : CmdRef) (s : State) (r : CollRun) (t : State) (q : CollRun) : Prop where
  cmd : q.cmd = r.cmd
  sent : r.sent ≠ [] → q.sent ≠ []
  lets : State.Lets c (sameCmd r.cmd c = false ∨ q.sent = []) s t

theorem State.Sends.of_usage {s t : State} {r q : CollRun} (h : t.usage = s.usage) (cmd : q.cmd = r.cmd) (sent : q.sent = r.sent) :
    State.Sends c s r t q := ⟨cmd, by rw [sent]; exact id, .of_usage h⟩

theorem State.Sends.trans {s t u : State} {r q p : CollRun} (h : State.Sends c s r t q) (k : State.Sends c t q u p) : State.Sends c s r u p where
  cmd := k.cmd.trans h.cmd
  sent := k.sent ∘ h.sent
  lets := (h.lets.mono (Or.imp_right fun none_ => Decidable.by_contra fun some_ => k.sent some_ none_)).trans (h.cmd ▸ k.lets)

theorem State.sends_sendPiece (s : State) (r : CollRun) (o : OutStream) (off : Nat) (bs : List Byte) :
    State.Sends c s r (s.sendPiece r o off bs).1 (s.sendPiece r o off bs).2.1 := by
  have some_ (x : CollPiece) : r.sent ++ [x] ≠ [] := List.append_ne_nil_of_right_ne_nil _ (List.cons_ne_nil _ _)
  unfold State.sendPiece
  extract_lets rt r' n
  have posts (m : Nat → OutMsg) : State.Lets c (sameCmd r.cmd c = false ∨ r'.sent = []) s (s.injectMsg o.dest n 1 (some r.cmd) m).1 :=
    (s.posts_injectMsg o.dest n 1 r.cmd m).lets.mono fun none_ => none_.resolve_right (some_ _)
  split
  · split
    · exact ⟨rfl, fun _ => some_ _, (State.lets_setRun fun _ _ => some_ _).trans (State.lets_landP2p ..)⟩
    · exact ⟨rfl, fun _ => some_ _, posts _⟩
  · exact ⟨rfl, fun _ => some_ _, posts _⟩

theorem State.sends_sendRipe (s : State) (r : CollRun) (g : Group) : State.Sends c s r (s.sendRipe r g).1 (s.sendRipe r g).2.1 := by
  unfold State.sendRipe
  extract_lets work
  refine List.foldlRecOn (motive := fun p : State × CollRun × Bool => State.Sends c s r p.1 p.2.1) work _ (.of_usage rfl rfl rfl)
    fun p sends w _ => ?_
  split
  · exact sends.trans (State.sends_sendPiece ..)
  · exact sends

theorem State.sends_formShard (s : State) (r : CollRun) (g : Group) : State.Sends c s r (s.formShard r g).1 (s.formShard r g).2 := by
  refine .of_usage (State.usage_formShard ..) ?_ ?_
  all_goals unfold State.formShard; split <;> rfl

/-- A run that goes on leaves its command accounted for. -/
theorem State.Traced.setRun {s t : State} {r q : CollRun} (run : r ∈ s.coll.runs) (sends : State.Sends c s r t q) (traced : s.Traced c) :
    (t.setRun q).Traced c := by
  by_cases mine : sameCmd r.cmd c = true
  · by_cases none_ : q.sent = []
    · have lets : State.Lets c True s t := sends.lets.mono fun _ => .inr none_
      rcases traced with portless | sent | open_ | moves
      · exact .inl (lets.portless trivial portless)
      · exact absurd none_ (sends.sent (sent.of_mem run mine))
      · exact (lets.reshards open_).elim (fun open_ => .inr (.inr (.inl open_))) (fun gone => State.Gone.traced gone)
      · exact (lets.transfers moves).elim (fun moves => .inr (.inr (.inr moves))) (fun gone => State.Gone.traced gone)
    · exact .inr (.inl (State.sentAll_setRun (sends.cmd ▸ mine) none_))
  · have other : sameCmd q.cmd c = false := sends.cmd ▸ Bool.eq_false_iff.mpr mine
    have lets : State.Lets c True s t := sends.lets.mono fun _ => .inl (sends.cmd ▸ other)
    exact (lets.trans (State.lets_setRun fun same => absurd same (by simp [other]))).traced traced

/-- A run that ends, whatever it has sent. -/
theorem State.Traced.endColl {s t : State} {r q : CollRun} (sends : State.Sends c s r t q) (d : Done) (traced : s.Traced c) :
    (t.endColl q d).Traced c := by
  by_cases mine : sameCmd r.cmd c = true
  · exact (State.gone_endColl (sends.cmd ▸ mine) t d).traced
  · exact ((sends.lets.mono fun _ => .inl (Bool.eq_false_iff.mpr mine)).trans (State.lets_endColl ..)).traced traced

theorem State.traced_pumpRun {s : State} {r : CollRun} (run : r ∈ s.coll.runs) (traced : s.Traced c) : (s.pumpRun r).Traced c := by
  have first := s.sends_sendRipe (c := c) r (s.runGroup r)
  unfold State.pumpRun
  extract_lets g
  split <;> rename_i sent <;> rw [sent] at first
  · exact traced.endColl first _
  next t₁ r₁ =>
    split
    next t₂ r₂ formed =>
    have second := t₁.sends_formShard (c := c) r₁ g
    rw [formed] at second
    have third := t₂.sends_sendRipe (c := c) r₂ g
    split <;> rename_i again <;> rw [again] at third
    · exact traced.endColl ((first.trans second).trans third) _
    · extract_lets u
      have going : u.Traced c := traced.setRun run ((first.trans second).trans third)
      clear_value u
      split
      · exact going
      next ws _ =>
        have wrote := u.usage_writeRuns ws r₂.cmd
        split <;> rename_i written
        · exact (State.Lets.trans (.of_usage (by simp [State.usage_of_fst written])) (State.lets_endColl ..)).traced going
        · exact (State.Lets.trans (.of_usage (by simp [State.usage_of_fst written])) (State.lets_endColl ..)).traced going

theorem State.traced_pumpColl {s : State} (traced : s.Traced c) : s.pumpColl.Traced c := by
  unfold State.pumpColl
  split
  · exact traced
  · extract_lets pass
    have passes {s : State} (traced : s.Traced c) : (pass s).Traced c := by
      refine State.Traced.foldl _ (fun s r _ traced => ?_) traced
      split
      next x found => exact State.traced_pumpRun (List.mem_of_find?_eq_some found) traced
      · exact traced
    exact (State.Lets.of_usage (State.usage_collStatus _)).traced (passes (passes traced))

end Runs

/-! ## The end of a step -/

theorem State.traced_pump {c : CmdRef} {s : State} (traced : s.Traced c) : s.pump.Traced c := by
  have clauses {s : State} (traced : s.Traced c) : s.pumpClauses.Traced c := (State.Lets.of_usage s.usage_pumpClauses).traced traced
  unfold State.pump
  extract_lets u v w
  split
  · exact clauses traced
  · have rounds : v.Traced c := State.traced_pumpRounds (State.traced_pumpColl (clauses traced))
    clear_value v
    have replayed : w.Traced c :=
      (State.lets_pumpReplay _).traced (State.traced_pumpClose (clauses ((State.lets_pumpCommit v).traced rounds)))
    clear_value w
    exact (State.Lets.trans (.of_usage w.usage_pumpFreeze) (State.lets_finishHalting _)).traced replayed

/-- No settling uses a port for a command and leaves no trace of it. -/
theorem State.traced_settle {c : CmdRef} {s : State} (traced : s.Traced c) : s.settle.Traced c := by
  have acts {s : State} (traced : s.Traced c) : s.act.Traced c := s.lets_act.traced traced
  have met : s.meetFailures.spoil.Traced c := (s.lets_meetFailures.then (State.usage_spoil _)).traced traced
  have pumped := acts (State.traced_pump (acts (State.traced_pump (acts met))))
  exact acts ((State.lets_pumpQueues _).traced pumped)

end Sys2Proof.Machine

/-! ## A FETCH that a ring carries -/

namespace Sys2Proof.Tests
open Sys2Proof.Machine

/-- The FETCH's header: of a command bound to a Clause. -/
def fetchHdr : Hdr := boundTo 2

/-- What the FETCH's completion will name. -/
def fetchRef : CmdRef := gathering.refOf fetchHdr 0x14

/-- A module about to gather, the FETCH dispatched from its ring: no port used yet. -/
def flying : State :=
  { gathering with cp := { gathering.cp with flights := [⟨fetchRef, false, false, true, 1, none, none, .dispatched, none, 0, false, []⟩] } }

/-- What the FETCH of layer 0 to slot 2 leaves. -/
def fetched : State := after (exec (.gatherFetch fetchHdr 2 0) flying)

theorem execGatherFetch_next (h : Hdr) (k : Fin 3) (layer : BitVec 16) (s : State) :
    exec (.gatherFetch h k layer) s = .next (s.run h 0x14 (.kinds [kindForward, kindBackward, kindEvaluate])
      (fun c s => s.gatherFetch h k.val layer.toNat c)).settle := rfl

theorem fetched_usage : fetched.usage =
    ([⟨fetchRef, false, false, true, 1, none, none, .dispatched, none, 0, false, [0]⟩], [(fetchRef, [])], none, []) := by
  decide +kernel

theorem after_next (s : State) : after (.next s) = s := rfl

theorem exec_flying : exec (.gatherFetch fetchHdr 2 0) flying = .next fetched := by
  rw [fetched, execGatherFetch_next, after_next]

/-- The READY that went to the peer used port 0, and nothing but the FETCH's flight tells of it. -/
theorem fetched_not_traced : ¬ fetched.Traced fetchRef := by
  unfold State.Traced State.Portless State.SentAll State.Reshards State.Transfers
  rw [fetched_usage]
  decide +kernel

end Sys2Proof.Tests

namespace Sys2Proof.Machine
open Sys2Proof.Tests

theorem flying_portless {t : State} (h : t.cp.flights = flying.cp.flights) : t.Traced fetchRef := by
  refine .inl fun f hf _ => ?_
  obtain rfl := List.mem_singleton.mp ((show t.usage.1 = flying.cp.flights from h) ▸ hf)
  rfl

/-- Refutes O15: the READY that a FETCH sends uses a port, which the flight of its command notes (R406); so no state whose flights are those
from before the FETCH settles to what the FETCH leaves. -/
theorem not_gatherWindow : ¬ Obligations.GatherWindow := by
  unfold Obligations.GatherWindow
  rintro ⟨-, fetches⟩
  obtain ⟨-, good⟩ := fetches fetchHdr 2 0 ⟨1, 0x100000, 4096, 4096⟩ flying ⟨by decide +kernel, rfl, rfl⟩ (by decide +kernel) (by decide +kernel)
    (by decide +kernel) (by decide +kernel)
  obtain ⟨t, row, -, -, flights, -⟩ := good (by decide) (by decide +kernel) (by decide) (by decide +kernel) (by decide +kernel) (by decide +kernel)
    (by decide +kernel) (by decide +kernel) (by decide +kernel) (by decide +kernel) (by decide +kernel)
  rw [exec_flying] at row
  exact fetched_not_traced (Host.Outcome.next.inj row ▸ State.traced_settle (flying_portless flights))

end Sys2Proof.Machine

/-!
PROOF. A module whose list of ports is shorter than eight reads the missing ones as right after reset; an IDLE flit with an impossible ACK does
not list them (statement LinkRetries).
-/
namespace Sys2Proof.Machine

/-! ## A module without a list of ports -/

/-- A module whose list of ports is empty, with port 0 UP. -/
def unlisted : State := { State.reset with fab := { FabState.reset with ports := [] } }.put (F.ZP_STATUS_STATE 0) 3

/-- An IDLE flit out of sequence, whose ACK is beyond every flit sent. -/
def strayIdle : FlitHdr := { seq := 1, ack := 1, cr := 8, credits := 0, corrected := [] }

theorem execIdleFlit_runs {p : Fin 8} {s : State} (runs : s.portRuns p = true) (f : FlitHdr) :
    exec (.idleFlit p f) s = .next (s.idleFlit p f).settle := congrArg done (if_pos runs)

theorem unlisted_runs : unlisted.portRuns (0 : Fin 8) = true := by decide +kernel

theorem unlisted_after : (unlisted.idleFlit (0 : Fin 8) strayIdle).settle.fab.ports = [] := by decide +kernel

theorem unlisted_filled : ((unlisted.setPort (0 : Fin 8) (unlisted.port (0 : Fin 8))).pumpPort (0 : Fin 8)).settle.fab.ports =
    List.replicate 8 PortState.reset := by
  decide +kernel

/-- Refutes O34: where the list of ports is shorter than eight, which no `State.setPort` leaves it, an IDLE flit out of sequence that
acknowledges nothing leaves the list as it is, and the statement's state lists all eight. -/
theorem not_linkRetries : ¬ Obligations.LinkRetries := by
  unfold Obligations.LinkRetries
  rintro ⟨flits, -⟩
  obtain ⟨-, -, idle⟩ := flits 0 unlisted unlisted_runs rfl
  obtain ⟨discarded, -⟩ := idle strayIdle rfl rfl
  have row := discarded (by decide)
  rw [execIdleFlit_runs unlisted_runs] at row
  have beyond : (unlisted.port (0 : Fin 8)).unacked < seqDist (unlisted.port (0 : Fin 8)).txAcked strayIdle.ack.toNat := by decide
  have same := congrArg (fun s : State => s.fab.ports) (Host.Outcome.next.inj row)
  rw [if_pos beyond, unlisted_after, unlisted_filled] at same
  exact List.cons_ne_nil _ _ same.symm

end Sys2Proof.Machine

/-!
PROOF. A RECV whose data are there writes them and ends; a message of the link is kept, and the router sends it on, discards it or delivers it
(statement MessagesArrive).
-/
namespace Sys2Proof.Machine

/-! ## A RECV whose data are there (R351) -/

/-- One piece written by itself is stored. -/
theorem State.writeRuns_single {s : State} (sound : s.Sound) {a : Nat} {bs : List Byte} (fits : a + bs.length ≤ hbmEnd) (low : a < hbmEnd)
    (c : CmdRef) : s.writeRuns [(a, bs)] c = (s.stored a bs (some c), .ok ()) := by
  have one : joinRuns [(a, bs)] = [(a, bs)] := rfl
  unfold State.writeRuns
  rw [one]
  simp only [actAll, State.writeAct_sound sound fits low, Act.bind]

theorem State.setRun_only {s : State} {r : CollRun} (only : s.coll.runs = [r]) : s.setRun r = s := by
  have kept : s.coll.runs.map (fun x => if sameCmd x.cmd r.cmd then r else x) = s.coll.runs := by
    rw [only]
    simp
  unfold State.setRun
  rw [kept]

theorem CollRun.outs_recv {r : CollRun} (recv : r.subop = 7) (g : Group) : r.outs g = [] := by
  unfold CollRun.outs
  rw [recv]
  rfl

/-- A RECV sends nothing. -/
theorem State.sendRipe_recv {r : CollRun} (recv : r.subop = 7) (s : State) (g : Group) : s.sendRipe r g = (s, r, true) := by
  unfold State.sendRipe
  rw [CollRun.outs_recv recv]
  rfl

/-- A RECV forms no shard of a reduction. -/
theorem State.formShard_recv {r : CollRun} (recv : r.subop = 7) (s : State) (g : Group) : s.formShard r g = (s, r) := by
  have other : r.formed ∨ ¬ (r.subop = 1 ∨ r.subop = 3) := .inr (by omega)
  unfold State.formShard
  rw [if_pos other]

/-- What a RECV writes once all of it has arrived. -/
theorem CollRun.deliveries_recv {r : CollRun} (recv : r.subop = 7) {b : List Byte}
    (here : r.arrived r.p.peer.toNat 0 false 0 r.p.count.toNat = some b) (g : Group) : r.deliveries g = some [(r.p.dst.toNat, b)] := by
  unfold CollRun.deliveries CollRun.landings
  simp [recv, here]

/-- A RECV whose data have all arrived stores them and ends with their CRC-64. -/
theorem State.pumpRun_recv {s : State} (sound : s.Sound) {r : CollRun} (only : s.coll.runs = [r]) (recv : r.subop = 7) (silent : r.lastFlit = none)
    {b : List Byte} (here : r.arrived r.p.peer.toNat 0 false 0 r.p.count.toNat = some b) (fits : r.p.dst.toNat + b.length ≤ hbmEnd)
    (low : r.p.dst.toNat < hbmEnd) : s.pumpRun r = (s.stored r.p.dst.toNat b (some r.cmd)).closeColl r (Done.ok (crc64 b)) := by
  have sent (g : Group) : (r.allSent g && s.sendAcked r) = true := by
    unfold CollRun.allSent State.sendAcked
    rw [CollRun.outs_recv recv, silent]
    rfl
  unfold State.pumpRun
  simp only [State.sendRipe_recv recv, State.formShard_recv recv, State.setRun_only only, sent, if_true, CollRun.deliveries_recv recv here,
    State.writeRuns_single sound fits low, State.endColl, List.flatMap_cons, List.flatMap_nil, List.append_nil]

/-- The last run closed leaves none, and its command has ended. -/
theorem State.closeColl_only {s : State} {r : CollRun} (only : s.coll.runs = [r]) (d : Done) :
    (s.closeColl r d).coll.runs = [] ∧ (s.closeColl r d).hbm = s.hbm ∧ s.Ends (s.closeColl r d) r.cmd d := by
  have none_ : s.coll.runs.filter (fun x => !sameCmd x.cmd r.cmd) = [] := by
    rw [only]
    simp [sameCmd]
  unfold State.closeColl State.collStatus State.noteEntry
  rw [none_]
  dsimp only
  split
  · exact ⟨rfl, rfl, _, _, _, rfl⟩
  · exact ⟨rfl, rfl, _, _, _, rfl⟩

/-! ## What the router does with a message (R326, R329) -/

section Routed
variable {s : State} (unarmed : s.inject = []) (p n sub : Nat)
include unarmed

theorem State.accepted_unarmed : s.accepted p n = s.setPort p { s.port p with rxNext := ((s.port p).rxNext + n) % 2 ^ 15, nakOut := false } := by
  unfold State.accepted
  rw [State.touchCritical_unarmed unarmed]

theorem State.inject_arrive : (s.arrive p n sub).1.inject = [] := by
  unfold State.arrive
  rw [State.accepted_unarmed unarmed]
  exact unarmed

/-- With no error armed, flits that arrive are kept. -/
theorem State.arrived_unarmed : s.arrived p n sub = ((s.arrive p n sub).1, (s.arrive p n sub).2, true) := by
  unfold State.arrived
  dsimp only
  rw [State.useStore_unarmed (State.inject_arrive unarmed p n sub)]

/-- Arriving flits change no route. -/
theorem State.route_arrive (dest : Nat) (arrival : Option (Nat × Nat)) : (s.arrive p n sub).1.route dest arrival = s.route dest arrival := by
  unfold State.arrive
  rw [State.accepted_unarmed unarmed]
  rfl

/-- A message for the far end of the link is delivered. -/
theorem State.routed_farEnd {dest : Nat} (far : dest = farEnd) (m : Nat → OutMsg) : s.routed p dest n sub m = (s.taken p n sub, true) := by
  unfold State.routed
  rw [State.arrived_unarmed unarmed]
  dsimp only
  rw [State.touchCritical_unarmed (State.inject_arrive unarmed p n sub), if_pos far]
  rfl

variable {dest : Nat} (beyond : dest ≠ farEnd) (alive : s.get F.PW_STATUS_STATE ≠ 11) (m : Nat → OutMsg)
include beyond alive

/-- Any other message of a module that has not failed goes where its route says. -/
theorem State.routed_eq : s.routed p dest n sub m =
    match s.route dest (some (p, sub)) with
    | .unroutable => ((((s.arrive p n sub).1.bump F.ZF_ERRS_UNROUTABLE 1).raise (Ev.plain 0x0706 2 7 p)).consume (s.arrive p n sub).2 n, false)
    | .deliver => (s.taken p n sub, true)
    | .out o dl => ((s.arrive p n sub).1.forwardTo o n (sub / 2) dl (m o) (some (s.arrive p n sub).2), false) := by
  have kept : (s.arrive p n sub).1.get F.PW_STATUS_STATE = s.get F.PW_STATUS_STATE := by
    unfold State.arrive
    rw [State.accepted_unarmed unarmed]
    rfl
  unfold State.routed
  rw [State.arrived_unarmed unarmed]
  dsimp only
  rw [State.touchCritical_unarmed (State.inject_arrive unarmed p n sub), if_neg beyond, kept, if_neg alive, State.route_arrive unarmed] <;> rfl

end Routed

/-! ## The rows of routed messages -/

section Rows
variable {c : Instr} {q : Fin 8} {r : Route} {sub len : Nat} {m : Nat → OutMsg} {s : State} (row : RoutedRow c q r sub len m)
include row

/-- A port that is not running takes no message. -/
theorem RoutedRow.exec_stopped (stopped : s.portRuns q = false) : exec c s = .next s := by
  have off : ¬ s.portRuns q = true := by simp [stopped]
  cases row with
  | collective => exact congrArg done (if_neg off)
  | p2p => exact congrArg done (if_neg off)
  | shadow => exact congrArg done (if_neg off)
  | bulk => exact congrArg done (if_neg off)

/-- A message that is not delivered leaves what the router leaves. -/
theorem RoutedRow.exec_passed (runs : s.portRuns q = true) {t : State} (passed : s.routed q r.dest.toNat (flitsOf len) sub m = (t, false)) :
    exec c s = .next t.settle := by
  cases row with
  | collective =>
    refine congrArg done ((if_pos runs).trans ?_)
    rw [passed]
  | p2p =>
    refine congrArg done ((if_pos runs).trans ?_)
    rw [passed]
  | shadow =>
    refine congrArg done ((if_pos runs).trans ?_)
    rw [passed]
  | bulk =>
    refine congrArg done ((if_pos runs).trans ?_)
    rw [passed]

end Rows

theorem execBulkMessage_delivered {q : Fin 8} {s t : State} (runs : s.portRuns q = true) {r : Route} {d : List (BitVec 8)}
    (delivered : s.routed q r.dest.toNat (flitsOf d.length) (subOf 3 r) (fun p => .bulk p r d) = (t, true)) :
    exec (.bulkMessage q r d) s = .next t.settle := by
  refine congrArg done ((if_pos runs).trans ?_)
  rw [delivered]

/-- A P2P message for the far end, of no posted receive, is counted (R316). -/
theorem execP2pMessage_unposted {q : Fin 8} {s : State} (runs : s.portRuns q = true) (unarmed : s.inject = []) (none_ : s.coll.runs = [])
    {r : Route} (far : r.dest.toNat = farEnd) {m : P2pHdr} (posted : m.streamId.toNat < 2 ^ 31) (data : List (BitVec 8)) :
    exec (.p2pMessage q r m data) s =
      .next ((s.taken q (flitsOf data.length) (subOf (if r.sub.toNat / 2 = 3 then 3 else 1) r)).bump F.ZF_ERRS_NOSTREAM 1).settle := by
  refine congrArg done ((if_pos runs).trans ?_)
  rw [State.routed_farEnd unarmed _ _ _ far]
  dsimp only
  have runless : (s.taken q (flitsOf data.length) (subOf (if r.sub.toNat / 2 = 3 then 3 else 1) r)).coll.runs = [] := by
    rw [State.sendFrame_taken unarmed]
    exact none_
  generalize s.taken q (flitsOf data.length) (subOf (if r.sub.toNat / 2 = 3 then 3 else 1) r) = t at runless ⊢
  unfold State.p2pMessage State.landP2p
  dsimp only
  rw [if_pos posted, runless]
  rfl

/-- What a flit's sending changes is of no concern to the end of a step. -/
theorem State.SendFrame.calm {s t : State} (h : s.SendFrame t) (calm : s.Calm) : t.Calm := by
  rw [h]
  exact calm.congr rfl rfl ⟨rfl, rfl⟩ rfl ⟨rfl, rfl⟩ calm.flights ⟨rfl, rfl, rfl⟩ fun _ _ => rfl

theorem noStream_not_calm : ¬ calmField F.ZF_ERRS_NOSTREAM := not_calmField (by decide) (by decide) (by decide) (by decide)

/-- Settles O30: a RECV's run by its steps, and each message by what the router does with it. -/
theorem messagesArrive : Obligations.MessagesArrive := by
  unfold Obligations.MessagesArrive
  refine ⟨⟨fun s r b sound only _ recv silent here some_ fits _ => ?_, fun q r m data s calm unarmed runs far posted => ?_⟩,
    fun c q r sub len m s row => ⟨row.exec_stopped, fun runs unarmed beyond alive => ?_⟩⟩
  · have low : r.p.dst.toNat < hbmEnd := lt_hbmEnd_of_range fits (List.length_pos_iff.2 some_)
    have same := s.stored_eq r.p.dst.toNat b (some r.cmd)
    obtain ⟨none_, hbm, attach, noted, cmd, ended⟩ := State.closeColl_only (s := s.stored r.p.dst.toNat b (some r.cmd)) (r := r)
      (by rw [same]; exact only) (Done.ok (crc64 b))
    have before : (s.stored r.p.dst.toNat b (some r.cmd)).cp = s.cp := by rw [same]
    rw [before] at ended
    exact ⟨_, s.stores_write r.p.dst.toNat b, _, State.pumpRun_recv sound only recv silent here fits low, none_, hbm, attach, noted, cmd, ended⟩
  · have still := ((s.sendFrame_taken unarmed q (flitsOf data.length) (subOf (if r.sub.toNat / 2 = 3 then 3 else 1) r)).calm calm).put
      noStream_not_calm
    exact (execP2pMessage_unposted runs unarmed calm.coll.1 far posted data).trans (congrArg done (State.settle_calm (still _)))
  · have goes := State.routed_eq unarmed q (flitsOf len) sub beyond alive m
    refine ⟨fun o dl out => ⟨fun up => ?_, fun down => ?_⟩, fun unroutable => ?_, fun ⟨d, bulk⟩ deliver => ?_⟩
    · rw [out] at goes
      rw [row.exec_passed runs goes]
      unfold State.forwardTo
      dsimp only
      rw [if_neg (by rw [up]; decide)]
    · rw [out] at goes
      rw [row.exec_passed runs goes]
      unfold State.forwardTo
      dsimp only
      rw [if_pos down]
    · rw [unroutable] at goes
      exact row.exec_passed runs goes
    · rw [deliver] at goes
      subst bulk
      cases row
      exact execBulkMessage_delivered runs goes

end Sys2Proof.Machine

/-!
PROOF. SET_POSITION and SET_ROUTES write their registers, and the announcements and checks that follow move none of them (statement
PlaceAndRoutes).
-/
namespace Sys2Proof.Machine

/-! ## What ports that change their state can move (R323, R328, R332, R335, R405) -/

/-- A field that a change of a port's state may change: an event's, the ports' status, the tree's, the fabric's counters, the break maps and
the watchdog's minimum. -/
def cablingField (f : Field) : Prop :=
  eventField f ∨ (∃ p < 8, f.key / 64 = Reg.ZP_STATUS p) ∨ f.key / 64 ∈ [Reg.ZF_TREE, Reg.ZF_ERRS, Reg.SH_WATCHDOG] ∨
    ∃ a < 3, ∃ k < 4, f.key / 64 = Reg.ZF_BREAK a k

/-- From `s` to `t` no other field has changed, nor what of companion memory a command must read first. -/
structure State.CablingFrame (s t : State) : Prop where
  regs : ∀ f : Field, ¬ cablingField f → t.get f = s.get f
  missing : t.oxl.missing = s.oxl.missing

theorem cablingField_congr {f g : Field} (same : g.key = f.key) (h : cablingField f) : cablingField g := by
  unfold cablingField eventField at h ⊢
  rw [same]
  exact h

theorem cablingField_status {p : Nat} (port : p < 8) : ∀ f ∈ [F.ZP_STATUS_STATE p, F.ZP_STATUS_RETRYING p, F.ZP_STATUS_PARENT p,
    F.ZP_STATUS_CHILD p, F.ZP_STATUS_LAT_OK p], cablingField f := by
  have reg : ∀ p < 8, ∀ f ∈ [F.ZP_STATUS_STATE p, F.ZP_STATUS_RETRYING p, F.ZP_STATUS_PARENT p, F.ZP_STATUS_CHILD p, F.ZP_STATUS_LAT_OK p],
    f.key / 64 = Reg.ZP_STATUS p := by decide
  exact fun f hf => .inr (.inl ⟨p, port, reg p port f hf⟩)

theorem cablingField_fabric : ∀ f ∈ [F.ZF_TREE_PARENT, F.ZF_TREE_HOPS, F.ZF_TREE_CHILDREN, F.ZF_ERRS_LOST, F.SH_WATCHDOG_MIN_HOPS],
    cablingField f := by
  have reg : ∀ f ∈ [F.ZF_TREE_PARENT, F.ZF_TREE_HOPS, F.ZF_TREE_CHILDREN, F.ZF_ERRS_LOST, F.SH_WATCHDOG_MIN_HOPS],
    f.key / 64 ∈ [Reg.ZF_TREE, Reg.ZF_ERRS, Reg.SH_WATCHDOG] := by decide
  exact fun f hf => .inr (.inr (.inl (reg f hf)))

theorem cablingField_break {a k : Nat} (axis : a < 3) (word : k < 4) : cablingField (F.ZF_BREAK_BREAKS a k) :=
  .inr (.inr (.inr ⟨a, axis, k, word, by simp [Field.key]⟩))

namespace State.CablingFrame

theorem refl (s : State) : s.CablingFrame s := ⟨fun _ _ => rfl, rfl⟩

theorem trans {s t u : State} (h : s.CablingFrame t) (h' : t.CablingFrame u) : s.CablingFrame u :=
  ⟨fun f hf => (h'.regs f hf).trans (h.regs f hf), h'.missing.trans h.missing⟩

theorem foldl {f : State → Nat → State} (l : List Nat) (step : ∀ (s : State), ∀ a ∈ l, s.CablingFrame (f s a)) (s : State) :
    s.CablingFrame (l.foldl f s) := by
  induction l generalizing s with
  | nil => exact refl s
  | cons a l ih => exact (step s a (List.mem_cons_self ..)).trans (ih (fun s b hb => step s b (List.mem_cons_of_mem _ hb)) _)

theorem put {f : Field} (moved : cablingField f) (s : State) (v : Nat) : s.CablingFrame (s.put f v) :=
  ⟨fun _ hg => State.get_put_other (fun e => hg (cablingField_congr e moved)) s v, rfl⟩

theorem raise {e : Ev} (low : e.cls < 3) (s : State) : s.CablingFrame (s.raise e) := by
  have frame := State.frame_raise low s
  exact ⟨fun f hf => frame.regs f fun event => hf (.inl event), by rw [frame.rest]⟩

theorem send {s t : State} (h : s.SendFrame t) : s.CablingFrame t := ⟨fun f _ => h.get f, by rw [h]⟩

theorem of_eq {s t : State} (regs : t.regs = s.regs) (oxl : t.oxl = s.oxl) : s.CablingFrame t :=
  ⟨fun f _ => by unfold State.get; rw [regs], by rw [oxl]⟩

end State.CablingFrame

/-! ## The steps on a port -/

/-- Of a changed route: the watchdog's minimum is all that changes beside an event. -/
theorem State.get_remeasure (s : State) {g : Field} (event : ¬ eventField g) (other : g.key ≠ F.SH_WATCHDOG_MIN_HOPS.key) :
    s.remeasure.get g = s.get g := by
  have hops (v : Nat) : (s.put F.SH_WATCHDOG_MIN_HOPS v).get g = s.get g := State.get_put_other other s v
  have fabric (u : State) (x : FabState) : ({ u with fab := x } : State).get g = u.get g := rfl
  unfold State.remeasure
  dsimp only
  split
  · split
    · exact hops _
    · rw [fabric, (State.frame_raise (by decide) _).regs g event, hops]
  · exact hops _

theorem State.remeasure_kept (s : State) : s.remeasure.fab.map = s.fab.map ∧ s.remeasure.oxl.missing = s.oxl.missing := by
  unfold State.remeasure
  dsimp only
  split
  · split
    · exact ⟨rfl, rfl⟩
    · have frame := State.frame_raise (e := Ev.plain 0x0908 0 9 0) (by decide) (s.put F.SH_WATCHDOG_MIN_HOPS (min s.minHops 4095))
      rw [frame.rest]
      exact ⟨rfl, rfl⟩
  · exact ⟨rfl, rfl⟩

theorem State.cabling_remeasure (s : State) : s.CablingFrame s.remeasure :=
  ⟨fun _ hf => s.get_remeasure (fun event => hf (.inl event)) (fun e => hf (cablingField_congr e (cablingField_fabric _ (by simp)))),
    s.remeasure_kept.2⟩

theorem State.cabling_setChild (s : State) {p : Nat} (port : p < 8) (b : Bool) : s.CablingFrame (s.setChild p b) := by
  have child (v : Nat) := State.CablingFrame.put (cablingField_status port (F.ZP_STATUS_CHILD p) (by simp)) s v
  unfold State.setChild
  dsimp only
  split
  · exact child _
  · exact (child _).trans (.put (cablingField_fabric _ (by simp)) ..)

theorem State.cabling_setParent (s : State) (p : Option Nat) : s.CablingFrame (s.setParent p) :=
  (State.CablingFrame.foldl _ (fun s _ hq => .put (cablingField_status (List.mem_range.1 hq) _ (by simp)) s _) s).trans
    (.put (cablingField_fabric F.ZF_TREE_PARENT (by simp)) ..)

theorem State.cabling_reparent (s : State) (old : Nat) : s.CablingFrame (s.reparent old) := by
  have hops (s : State) (v : Nat) := State.CablingFrame.put (cablingField_fabric F.ZF_TREE_HOPS (by simp)) s v
  unfold State.reparent
  extract_lets s1 s2
  have parent : s.CablingFrame s1 := State.cabling_setParent ..
  have tree : s1.CablingFrame s2 := by
    unfold s2
    split
    · exact hops ..
    · exact hops ..
  exact ((parent.trans tree).trans (.send (State.sendFrame_announce s2))).trans (.raise (Nat.zero_lt_succ 2) _)

theorem State.cabling_dropQueue (s : State) (p : Nat) : s.CablingFrame (s.dropQueue p) := by
  unfold State.dropQueue
  extract_lets gone s1 v s2 s3 n
  have queue : s.CablingFrame s2 := .of_eq rfl rfl
  have freed : s2.SendFrame s3 := by
    unfold s3
    refine State.SendFrame.foldl (fun s t => ?_) gone s2
    split
    · exact (State.sendFrame_owe ..).trans (State.sendFrame_owe ..)
    · exact .refl s
  have dropped := queue.trans (.send freed)
  split
  · exact dropped
  · exact dropped.trans (.put (cablingField_fabric F.ZF_ERRS_LOST (by simp)) ..)

theorem coord_lt (p a : Nat) : coord p a < 256 := bits_lt p (8 * a) 8

theorem dimOf_pos (d a : Nat) : 0 < dimOf d a ∧ dimOf d a ≤ 256 := by
  have small := coord_lt d a
  unfold dimOf
  split
  · omega
  · omega

theorem State.portLink_lt (s : State) (axis : Nat) (minus : Bool) : s.portLink axis minus < 256 := by
  have dim := dimOf_pos (s.get F.ZF_PDIM_DIM) axis
  unfold State.portLink
  cases minus with
  | true => exact (Nat.mod_lt _ dim.1).trans_le dim.2
  | false => exact coord_lt ..

/-- A direction is of one of three axes. -/
theorem State.portDir_axis {s : State} {p axis : Nat} {minus : Bool} (h : s.portDir p = some (axis, minus)) : axis < 3 := by
  obtain ⟨i, found, same⟩ := Option.map_eq_some_iff.1 h
  have below := List.mem_range.1 (List.mem_of_find?_eq_some found)
  have half := congrArg Prod.fst same
  dsimp only at half
  omega

theorem State.cabling_setBroken (s : State) {axis k : Nat} (low : axis < 3) (link : k < 256) (b : Bool) : s.CablingFrame (s.setBroken axis k b) := by
  unfold State.setBroken
  dsimp only
  split
  · exact .refl s
  · exact .put (cablingField_break low (by omega)) ..

theorem State.cabling_markLink (s : State) (p : Nat) (b : Bool) : s.CablingFrame (s.markLink p b) := by
  unfold State.markLink
  split
  · exact .refl s
  · rename_i axis minus dir
    split
    · extract_lets k s1 q s2
      have broken : s.CablingFrame s1 := s.cabling_setBroken (State.portDir_axis dir) (s.portLink_lt axis minus) b
      have told : s1.SendFrame s2 := by
        unfold s2
        split
        · exact State.sendFrame_sendOn ..
        · exact .refl s1
      exact (broken.trans (.send told)).trans (State.cabling_remeasure s2)
    · exact .refl s

theorem State.sendFrame_returnCredits (s : State) (q : Nat) : s.SendFrame (s.returnCredits q) := by
  unfold State.returnCredits
  dsimp only
  split
  · exact .refl s
  · exact (State.SendFrame.foldl (fun s _ => s.sendFrame_enqueue ..) _ s).trans (State.sendFrame_flush ..)

theorem State.sendFrame_pumpPort (s : State) (q : Nat) : s.SendFrame (s.pumpPort q) :=
  (s.sendFrame_flush q).trans (.foldl State.sendFrame_returnCredits _ _)

section Port
variable {p : Nat} (port : p < 8)
include port

/-- A port that is no parent any more, with the parent that takes over. -/
theorem State.cabling_orphaned (s : State) (wasParent : Bool) :
    s.CablingFrame (if wasParent then (s.put (F.ZP_STATUS_PARENT p) 0).reparent p else s) := by
  split
  · exact (State.CablingFrame.put (cablingField_status port _ (by simp)) s 0).trans (State.cabling_reparent ..)
  · exact .refl s

theorem State.cabling_portDown (s : State) (c : Option CmdRef) : s.CablingFrame (s.portDown p c) := by
  have status (f : Field) (hf : f ∈ [F.ZP_STATUS_STATE p, F.ZP_STATUS_RETRYING p, F.ZP_STATUS_LAT_OK p]) (s : State) :=
    State.CablingFrame.put (cablingField_status port f (by simp at hf ⊢; tauto)) s 0
  unfold State.portDown
  extract_lets wasParent s1 ended s2 v s3 s4 s5
  have down : s.CablingFrame s1 := ((status _ (by simp) s).trans (status _ (by simp) _)).trans (status _ (by simp) _)
  have stranded : s1.CablingFrame s2 := (s1.cabling_dropQueue p).trans (.of_eq rfl rfl)
  have reset : s2.CablingFrame s3 := (State.CablingFrame.send (State.sendFrame_setPort ..)).trans (State.cabling_setChild _ port false)
  have told : s3.CablingFrame s5 := (State.CablingFrame.raise (Nat.lt_succ_self 2) s3).trans (State.cabling_markLink ..)
  exact (((down.trans stranded).trans reset).trans told).trans (State.cabling_orphaned port s5 wasParent)

theorem State.cabling_takeDown (s : State) (c : Option CmdRef) : s.CablingFrame (s.takeDown p c) := by
  unfold State.takeDown
  split
  · exact .refl s
  · exact State.cabling_portDown port s c

theorem State.cabling_checkCabling (s : State) : s.CablingFrame (s.checkCabling p) := by
  have state (s : State) (v : Nat) := State.CablingFrame.put (cablingField_status port (F.ZP_STATUS_STATE p) (by simp)) s v
  unfold State.checkCabling
  split
  · exact .refl s
  · extract_lets st n want wasParent s1 s2 s3
    split
    · exact .refl s
    · split
      · split
        · exact ((state s 3).trans (State.cabling_markLink ..)).trans (.send (State.sendFrame_pumpPort ..))
        · exact .refl s
      · split
        · exact .refl s
        · have mismatch : s.CablingFrame s3 := (((state s 5).trans (State.cabling_dropQueue _ p)).trans (.raise (Nat.zero_lt_succ 2) _)).trans
            (State.cabling_markLink ..)
          exact mismatch.trans (State.cabling_orphaned port s3 wasParent)

end Port


/-! ## What the checks and announcements keep -/

/-- The fields that SET_POSITION and SET_ROUTES write. -/
def placeFields : List Field :=
  [F.ZF_PHYS_PHYS, F.ZF_PHYS_VALID, F.ZF_PDIM_DIM, F.ZF_LOGICAL_LOGICAL, F.ZF_LOGICAL_VALID, F.ZF_LOGICAL_SPARE, F.ZF_LDIM_DIM, F.PW_STATUS_STATE,
    F.ZF_REMAP_BASE_BASE, F.ZF_DIRMAP_DIRMAP] ++ (List.range 8).map F.ZP_CTRL_FORCE_DOWN

theorem placeFields_kept : ∀ f ∈ placeFields, ¬ cablingField f := by
  unfold cablingField eventField
  decide +kernel

theorem State.cabling_checkAll (s : State) : s.CablingFrame ((List.range 8).foldl (fun s q => s.checkCabling q) s).remeasure :=
  (State.CablingFrame.foldl _ (fun s _ hq => State.cabling_checkCabling (List.mem_range.1 hq) s) s).trans (State.cabling_remeasure _)

/-! ## SET_POSITION (R337) -/

/-- The state with the fabric's registers of SET_POSITION written. -/
def State.located (s : State) (p : PositionParams) : State :=
  let s := ((s.put F.ZF_PHYS_PHYS p.phys.toNat).put F.ZF_PHYS_VALID 1).put F.ZF_PDIM_DIM p.pdim.toNat
  let s := (s.put F.ZF_LOGICAL_LOGICAL (if p.spare then 0 else p.logical.toNat)).put F.ZF_LOGICAL_VALID (flag (!p.spare))
  (s.put F.ZF_LOGICAL_SPARE (flag p.spare)).put F.ZF_LDIM_DIM p.ldim.toNat

/-- And with the module's state. -/
def State.placed (s : State) (p : PositionParams) : State :=
  if (s.located p).get F.PW_STATUS_STATE = 11 then s.located p else (s.located p).put F.PW_STATUS_STATE (if p.spare then 8 else 6)

theorem State.located_get (s : State) (p : PositionParams) : (s.located p).get F.PW_STATUS_STATE = s.get F.PW_STATUS_STATE ∧
    (s.located p).get F.ZF_PHYS_PHYS = p.phys.toNat ∧ (s.located p).get F.ZF_PHYS_VALID = 1 ∧ (s.located p).get F.ZF_PDIM_DIM = p.pdim.toNat ∧
    (s.located p).get F.ZF_LOGICAL_LOGICAL = (if p.spare then 0 else p.logical.toNat) ∧
    (s.located p).get F.ZF_LOGICAL_VALID = flag (!p.spare) ∧ (s.located p).get F.ZF_LOGICAL_SPARE = flag p.spare ∧
    (s.located p).get F.ZF_LDIM_DIM = p.ldim.toNat := by
  have logical : (if p.spare then 0 else p.logical.toNat) < 2 ^ 24 := by
    split
    · decide
    · exact p.logical.isLt
  have bit_ (b : Bool) : flag b % 2 = flag b := Nat.mod_eq_of_lt (flag_lt b)
  unfold State.located
  simp (disch := decide) only [State.get_put_same, State.get_put_other, Nat.mod_eq_of_lt p.phys.isLt, Nat.mod_eq_of_lt p.pdim.isLt,
    Nat.mod_eq_of_lt p.ldim.isLt, Nat.mod_eq_of_lt logical, bit_, Nat.pow_one, Nat.one_mod, and_self]

theorem State.placed_state {s : State} (p : PositionParams) (alive : s.get F.PW_STATUS_STATE ≠ 11) :
    (s.placed p).get F.PW_STATUS_STATE = if p.spare then 8 else 6 := by
  unfold State.placed
  rw [(s.located_get p).1, if_neg alive, State.get_put_same]
  split
  · rfl
  · rfl

theorem State.placed_get (s : State) (p : PositionParams) {f : Field} (other : f.key ≠ F.PW_STATUS_STATE.key) :
    (s.placed p).get f = (s.located p).get f := by
  unfold State.placed
  split
  · rfl
  · exact State.get_put_other other ..

theorem State.placed_missing (s : State) (p : PositionParams) : (s.placed p).oxl.missing = s.oxl.missing := by
  have located : (s.located p).oxl.missing = s.oxl.missing := rfl
  unfold State.placed
  split
  · exact located
  · exact located

/-- What follows SET_POSITION's registers changes none of them. -/
theorem State.cabling_setPosition (s : State) (p : PositionParams) : (s.placed p).CablingFrame (s.setPosition p) :=
  (State.CablingFrame.send (State.sendFrame_announce _)).trans (State.cabling_checkAll _)

theorem State.setPosition_get (s : State) (p : PositionParams) {f : Field} (place : f ∈ placeFields) (other : f.key ≠ F.PW_STATUS_STATE.key) :
    (s.setPosition p).get f = (s.located p).get f :=
  ((s.cabling_setPosition p).regs f (placeFields_kept f place)).trans (s.placed_get p other)

/-! ## Tables in HBM (R324, R328, R338) -/

theorem State.aliasCheck_hbm {a n : Nat} (fits : a + n ≤ hbmEnd) (low : a < hbmEnd) (s : State) : s.aliasCheck a n = none := by
  unfold State.aliasCheck
  rw [rangeSpace_hbm fits low]

section Table
variable {s : State} (idle : s.idle = true) (sound : s.Sound) {a : Nat}
include idle sound

/-- SET_ROUTES MAP of a table in HBM judges its bytes, and adopts it where they are good. -/
theorem State.setRemap_hbm (aligned : a % 4096 = 0) (some_ : 0 < s.remapEntries) (fits : a + 4 * s.remapEntries ≤ hbmEnd) (d : Nat) (c : CmdRef) :
    s.setRemap a d c =
      if crc64 (s.hbm.read a (4 * s.remapEntries)) ≠ d then s.fail ST_DIGEST
      else if !s.remapOk (s.hbm.read a (4 * s.remapEntries)) then s.fail ST_BAD_PARAM
      else ((({ s with fab := { s.fab with map := [] } } : State).put F.ZF_REMAP_BASE_BASE a).remeasure).ok d := by
  have low : a < hbmEnd := by omega
  have here : ¬ companionBase ≤ a := Nat.not_le.2 (low.trans (by decide))
  unfold State.setRemap
  dsimp only
  rw [State.guard_idle (by simp [aligned]) idle, State.aliasCheck_hbm fits low]
  dsimp only
  rw [State.reading_sound sound fits low, if_neg here]

end Table

/-- One word of the break maps written. -/
def State.putBreak (bs : List Byte) (s : State) (i : Nat) : State := s.put (F.ZF_BREAK_BREAKS (i / 4) (i % 4)) (leAt bs (8 * i) 8)

/-- The break maps of a table of 96 bytes. -/
def State.putBreaks (s : State) (bs : List Byte) : State := (List.range 12).foldl (State.putBreak bs) s

/-- Each word of the break maps is the table's at its place. -/
theorem State.putBreaks_get (s : State) (bs : List Byte) {i j : Nat} (axis : i < 3) (word : j < 4) :
    (s.putBreaks bs).get (F.ZF_BREAK_BREAKS i j) = leAt bs (32 * i + 8 * j) 8 % 2 ^ 64 := by
  have all := State.foldl_establishes (f := State.putBreak bs) (l := List.range 12)
    (P := fun s k => s.get (F.ZF_BREAK_BREAKS (k / 4) (k % 4)) = leAt bs (8 * k) 8 % 2 ^ 64) ?_ (fun s k _ => State.get_put_same ..) s (4 * i + j)
    (List.mem_range.2 (by omega))
  · rw [show (4 * i + j) / 4 = i by omega, show (4 * i + j) % 4 = j by omega, show 8 * (4 * i + j) = 32 * i + 8 * j by omega] at all
    exact all
  · intro s k _ l _ there
    by_cases same : k = l
    · rw [same]
      exact State.get_put_same ..
    · refine (State.get_put_other (fun e => same ?_) s _).trans there
      simp only [Field.key, Reg.ZF_BREAK] at e
      omega

theorem State.putBreaks_missing (s : State) (bs : List Byte) : (s.putBreaks bs).oxl.missing = s.oxl.missing := rfl

theorem breaks_not_event : ∀ i < 3, ∀ j < 4, ¬ eventField (F.ZF_BREAK_BREAKS i j) ∧ (F.ZF_BREAK_BREAKS i j).key ≠ F.SH_WATCHDOG_MIN_HOPS.key := by
  unfold eventField
  decide +kernel

/-! ## The rows -/

section Rows
variable {h : Hdr} {s : State} (bound : s.bindingOk h .notBound = true)
include bound

/-- A row that settles, whose body ends without companion memory to read, ends so. -/
theorem State.run_settles {op : Nat} {body : CmdRef → State → Body} {t : State} {d : Done} (ends : body (s.refOf h op) s = (t, some d))
    (kept : t.oxl.missing = s.oxl.missing) : done (s.run h op .notBound body).settle = .next (t.finish (s.refOf h op) d).settle :=
  congrArg (fun u : State => done u.settle) (State.run_ends bound ends kept)

section Position
variable {p : PositionParams}

theorem execSetPosition_running (running : s.idle = false) :
    exec (.setPosition h p) s = .next (s.finish (s.refOf h 0x31) ⟨ST_NOT_READY, 0, 0⟩).settle :=
  State.run_settles bound (State.guard_fails (by rw [running]; rfl)) rfl

theorem execSetPosition_refused (idle : s.idle = true) (bad : s.positionOk p = false) :
    exec (.setPosition h p) s = .next (s.finish (s.refOf h 0x31) ⟨ST_BAD_PARAM, 0, 0⟩).settle := by
  refine State.run_settles bound ?_ rfl
  show s.guard _ _ = _
  unfold State.guard
  rw [idle, bad]
  rfl

theorem execSetPosition_sets (idle : s.idle = true) (good : s.positionOk p = true) :
    exec (.setPosition h p) s = .next ((s.setPosition p).finish (s.refOf h 0x31) ⟨ST_OK, 0, 0⟩).settle := by
  refine State.run_settles bound ?_ ((s.cabling_setPosition p).missing.trans (s.placed_missing p))
  show s.guard _ _ = _
  unfold State.guard
  rw [idle, good]
  rfl

end Position

/-! ## SET_ROUTES (R338) -/

section Idle
variable (idle : s.idle = true)
include idle

theorem execSetRoutesDirmap_refused {d : BitVec 24} (bad : (dirPorts d.toNat).all (fun q => decide (q < 8)) = false ∨ ¬ (dirPorts d.toNat).Nodup) :
    exec (.setRoutesDirmap h d) s = .next (s.finish (s.refOf h 0x32) ⟨ST_BAD_PARAM, 0, 0⟩).settle := by
  have fails : (!(dirPorts d.toNat).all (fun q => decide (q < 8)) || !decide (dirPorts d.toNat).Nodup) = true := by
    rcases bad with high | twice
    · rw [high]
      rfl
    · rw [decide_eq_false twice, Bool.not_false, Bool.or_true]
  refine State.run_settles bound ?_ rfl
  unfold State.setDirmap State.guard
  dsimp only
  rw [idle, fails]
  rfl

theorem execSetRoutesDirmap_sets {d : BitVec 24} (low : (dirPorts d.toNat).all (fun q => decide (q < 8)) = true) (distinct : (dirPorts d.toNat).Nodup) :
    ∃ t : State, exec (.setRoutesDirmap h d) s = .next (t.finish (s.refOf h 0x32) ⟨ST_OK, 0, 0⟩).settle ∧
      t.get F.ZF_DIRMAP_DIRMAP = d.toNat := by
  have checked := State.cabling_checkAll (s.put F.ZF_DIRMAP_DIRMAP d.toNat)
  refine ⟨_, State.run_settles bound ?_ checked.missing, ?_⟩
  · unfold State.setDirmap State.guard
    dsimp only
    rw [idle, low, decide_eq_true distinct]
    rfl
  · rw [checked.regs _ (placeFields_kept _ (by decide)), State.get_put_same]
    exact Nat.mod_eq_of_lt d.isLt

/-- A port held DOWN by SET_ROUTES: its STATE is 0. -/
theorem execSetRoutesPort_down (q : Fin 8) : ∃ t : State,
    exec (.setRoutesPort h q true) s = .next (t.finish (s.refOf h 0x32) ⟨ST_OK, 0, 0⟩).settle ∧
      t.get (F.ZP_CTRL_FORCE_DOWN q) = 1 ∧ t.get (F.ZP_STATUS_STATE q) = 0 := by
  have down := State.cabling_takeDown q.isLt (s.put (F.ZP_CTRL_FORCE_DOWN q) 1) (some (s.refOf h 0x32))
  refine ⟨_, State.run_settles bound ?_ down.missing, ?_, ?_⟩
  · show s.guard _ _ = _
    unfold State.guard
    rw [idle]
    rfl
  · have place : F.ZP_CTRL_FORCE_DOWN q ∈ placeFields := List.mem_append_right _ (List.mem_map_of_mem (List.mem_range.2 q.isLt))
    rw [down.regs _ (placeFields_kept _ place)]
    exact State.get_put_same ..
  · unfold State.takeDown
    split
    · next already => exact already
    · exact (State.get_portDown_kept (portMoved_not_state q.isLt) _ _ _).trans (State.get_put_same ..)

section Table
variable (sound : s.Sound) {a : BitVec 48}
include sound

section Map
variable (aligned : a.toNat % 4096 = 0) (some_ : 0 < s.remapEntries) (fits : a.toNat + 4 * s.remapEntries ≤ hbmEnd)
include aligned some_ fits

theorem execSetRoutesMap_digest {d : BitVec 64} (other : crc64 (s.hbm.read a.toNat (4 * s.remapEntries)) ≠ d.toNat) :
    exec (.setRoutesMap h a d) s = .next (s.finish (s.refOf h 0x32) ⟨ST_DIGEST, 0, 0⟩).settle :=
  State.run_settles bound ((State.setRemap_hbm idle sound aligned some_ fits _ _).trans (if_pos other)) rfl

variable {d : BitVec 64} (same : crc64 (s.hbm.read a.toNat (4 * s.remapEntries)) = d.toNat)
include same

theorem execSetRoutesMap_refused (bad : s.remapOk (s.hbm.read a.toNat (4 * s.remapEntries)) = false) :
    exec (.setRoutesMap h a d) s = .next (s.finish (s.refOf h 0x32) ⟨ST_BAD_PARAM, 0, 0⟩).settle :=
  State.run_settles bound ((State.setRemap_hbm idle sound aligned some_ fits _ _).trans
    ((if_neg (not_not.2 same)).trans (if_pos (by rw [bad]; rfl)))) rfl

theorem execSetRoutesMap_sets (good : s.remapOk (s.hbm.read a.toNat (4 * s.remapEntries)) = true) :
    ∃ t : State, exec (.setRoutesMap h a d) s = .next (t.finish (s.refOf h 0x32) ⟨ST_OK, 0, d.toNat⟩).settle ∧
      t.get F.ZF_REMAP_BASE_BASE = a.toNat ∧ t.fab.map = [] := by
  have whole : d.toNat % 2 ^ 64 = d.toNat := Nat.mod_eq_of_lt d.isLt
  have body := (State.setRemap_hbm idle sound aligned some_ fits d.toNat (s.refOf h 0x32)).trans
    ((if_neg (not_not.2 same)).trans (if_neg (by rw [good]; decide)))
  rw [State.ok, Done.ok, whole] at body
  have kept := State.remeasure_kept (({ s with fab := { s.fab with map := [] } } : State).put F.ZF_REMAP_BASE_BASE a.toNat)
  refine ⟨_, State.run_settles bound body kept.2, ?_, kept.1⟩
  rw [(State.cabling_remeasure _).regs _ (placeFields_kept _ (by decide)), State.get_put_same]
  exact Nat.mod_eq_of_lt a.isLt

end Map

/-- SET_ROUTES BREAKS takes the three maps as they stand in HBM. -/
theorem execSetRoutesBreaks_sets (aligned : a.toNat % 8 = 0) (fits : a.toNat + 96 ≤ hbmEnd) :
    ∃ t : State, exec (.setRoutesBreaks h a) s = .next (t.finish (s.refOf h 0x32) ⟨ST_OK, 0, 0⟩).settle ∧
      ∀ (i : Fin 3) (j : Fin 4), t.get (F.ZF_BREAK_BREAKS i j) = s.word (a.toNat + 32 * i + 8 * j) 8 := by
  have low : a.toNat < hbmEnd := by omega
  have body : s.setBreaks a.toNat (s.refOf h 0x32) = ((s.putBreaks (s.hbm.read a.toNat 96)).remeasure).ok 0 := by
    unfold State.setBreaks
    rw [State.guard_idle (by simp [aligned]) idle, State.aliasCheck_hbm fits low]
    exact State.reading_sound sound fits low ..
  refine ⟨_, State.run_settles bound body ((State.remeasure_kept _).2.trans (State.putBreaks_missing ..)), fun i j => ?_⟩
  obtain ⟨event, other⟩ := breaks_not_event i i.isLt j j.isLt
  have small : ofLE (s.hbm.read (a.toNat + (32 * i + 8 * j)) 8) < 2 ^ 64 := (ofLE_lt _).trans_eq (by rw [Mem.length_read]; rfl)
  rw [State.get_remeasure _ event other, State.putBreaks_get _ _ i.isLt j.isLt, leAt_read _ _ (by omega), Nat.mod_eq_of_lt small, ← Nat.add_assoc]

end Table
end Idle
end Rows

/-- Settles O37: each row's checks, the registers that it writes, and the checks and announcements that follow, which move none of them. -/
theorem placeAndRoutes : Obligations.PlaceAndRoutes := by
  unfold Obligations.PlaceAndRoutes
  refine ⟨fun h p s bound => ⟨execSetPosition_running bound, execSetPosition_refused bound, fun idle good _ => ?_⟩, fun h s sound bound idle =>
    ⟨fun a d aligned some_ fits => ⟨execSetRoutesMap_digest bound idle sound aligned some_ fits,
      execSetRoutesMap_refused bound idle sound aligned some_ fits, execSetRoutesMap_sets bound idle sound aligned some_ fits⟩,
    fun d => ⟨execSetRoutesDirmap_refused bound idle, execSetRoutesDirmap_sets bound idle⟩,
    fun a => execSetRoutesBreaks_sets bound idle sound, execSetRoutesPort_down bound idle⟩⟩
  obtain ⟨-, phys, valid, pdim, logical, logicalValid, spare, ldim⟩ := s.located_get p
  have written {f : Field} (place : f ∈ placeFields) (other : f.key ≠ F.PW_STATUS_STATE.key) := s.setPosition_get p place other
  refine ⟨_, execSetPosition_sets bound idle good, (written (by decide) (by decide)).trans phys, (written (by decide) (by decide)).trans valid,
    (written (by decide) (by decide)).trans pdim, (written (by decide) (by decide)).trans logical,
    (written (by decide) (by decide)).trans logicalValid, (written (by decide) (by decide)).trans spare,
    (written (by decide) (by decide)).trans ldim, fun alive => ?_⟩
  exact ((s.cabling_setPosition p).regs _ (placeFields_kept _ (by decide))).trans (State.placed_state p alive)

end Sys2Proof.Machine
